-- ==== Sys2Proof/Word.lean ====
section
/-!
DEFINITION. The word types of the SKV-2304 model (R8: registers are 32 bits wide) and the type of the sparse tables.
-/
namespace Sys2Proof

/-- One byte (R8). -/
abbrev Byte := BitVec 8

/-- One register (R8: registers are 32 bits wide). -/
abbrev Word := BitVec 32

/-- One 64-bit table word. -/
abbrev Word64 := BitVec 64

/-- A sparse table: pairs of an index and a value, indexes strictly rising, no entry equal to what an unlisted index
reads as. Memory is such a table of bytes (`List Host.Cell`). -/
abbrev FMap (α : Type) := List (Nat × α)

end Sys2Proof
end

