-- ==== Sys2Proof/Syntax.lean ====
section
/-!
DEFINITION. The commands of the SKV-2304: one constructor per row of the spec's table of operations and events, in its
order. The table gives the rows no operand bits; an operand here is what the row's rule says the outside world decides
(a parameter of a write, what a line or a sensor shows, what a measurement gives).
-/
namespace Sys2Proof

/-- What BOOT finds (R33, R105, R444): whether self-test passed, the engines and 4 KiB regions out, the least spare
columns left in depot and hub memories, whether the flash holds only an SKV-0960 settings area, with its
keys, its coefficients (temperature terms, ageing terms, order, hours in service, whether each model was valid) and its PM
threshold profiles (R414), and whether a card is in the craft slot. -/
structure BootRep where
  selfTestOk : Bool
  enginesOut : List Nat
  regionsOut : List (Nat × Nat)
  depotSpare : Nat
  hubSpare   : Nat
  legacyKeys : List (Nat × BitVec 768)
  legacyOsc  : List Int
  legacyPm   : List Byte
  legacy     : Bool
  sdCard     : Bool
  deriving DecidableEq, Repr

/-- What port B of a depot does in the cycle in which a write of port A reaches a word (R441): `kind` 0 nothing, 1 a read, 2 a write;
`second` the word is the second of the two that port A's access crosses; `off` and `len` the bytes that a write of port B
enables. -/
structure PortBRep where
  kind   : Nat
  second : Bool
  off    : Nat
  len    : Nat
  deriving DecidableEq, Repr

/-- How one engine's list ran in the tick that ends (R49): the items it completed and the cycle at which it stopped. -/
structure EngineRep where
  engine : Nat
  done   : Nat
  finish : Nat
  deriving DecidableEq, Repr

/-- What one lane measured and counted in the tick that ends (R141). -/
structure LaneRep where
  lane : Nat
  snr : Nat
  rsUncorr : Nat
  rsCorr : Nat
  rsCw : Nat
  qicUncorr : Nat
  qicCorr : Nat
  qicCw : Nat
  rxPower : Nat
  txPower : Nat
  deriving DecidableEq, Repr

/-- The bytes and B2 violations of one port in the tick that ends (R462, R224). -/
structure PortRep where
  port : Nat
  rxBytes : Nat
  txBytes : Nat
  b2 : Nat
  deriving DecidableEq, Repr

/-- The blocks one PM end counted in the tick that ends (R251): a point number, or 0x40000 and the section point; `bip` the single
BIP violations, which BEI and REI carry back (R229). -/
structure PmRep where
  point : Nat
  blocks : Nat
  neErr : Nat
  feErr : Nat
  bip : Nat
  deriving DecidableEq, Repr

/-- One input's measurement at a second boundary (R299, R302): the offset in 0.01 ppb, whether a full window was
measured since activity, and for a time input its time minus T1's in 0.25 ns. -/
structure RefRep where
  input : Nat
  offset : Int
  fullWindow : Bool
  timeOffset : Int
  deriving DecidableEq, Repr

/-- One DPLL's loop as measured at a boundary (R311, R318): phase error in 0.25 ns, rate of phase error in ppb, output
frequency in units of 10 to the minus 15. -/
structure LoopRep where
  dpll : Nat
  phaseErr : Int
  rate : Int
  ffo : Int
  deriving DecidableEq, Repr

/-- What the tick that ends showed outside the part's own state. Unlisted engines finished their lists as planned;
unlisted lanes, ports and points counted nothing. `feeds` the power at laser inputs in 0.01 mW (R141); `corrected` the island and word of each depot read
that was corrected (R442); `events` the counts of R458 that nothing else here gives, each with its scope. `t1Step` is the T1 time the tick
took, in 0.25 ns. -/
structure TickRep where
  engines : List EngineRep
  lanes : List LaneRep
  feeds : List (Nat × Nat)
  ports : List PortRep
  pm : List PmRep
  refs : List RefRep
  loops : List LoopRep
  corrected : List (Nat × Nat)
  events : List (Nat × Nat × Nat)
  t1Step : Nat
  deriving DecidableEq, Repr

/-- What a framer sees at a candidate position (R146, R147). `field` the six bytes at an OTUk or SDH position; `errors` the bit errors
of each 48-bit marker word (FlexO), of the common and the unique part (a lane), of the whole A1/A2 field (SDH); `good` the codewords of the
candidate frame that decode; `tag` the MFAS (OTUk), or the PCS lane a marker names; `block` the control block's type, O-code and
frame-start bit (FlexE instance); `sync` the two header bits (64b/66b); `comma` K28.5 at a hyperframe start; `crcOk` the CRC-16 of the overhead
frame; `parity` the received parity byte against that computed, exclusive-ored (BIP-8, B1). -/
structure PatternRep where
  field : BitVec 48
  errors : List Nat
  good : Nat
  tag : Nat
  block : Nat × Nat × Bool
  sync : Nat
  comma : Bool
  crcOk : Bool
  parity : Byte
  deriving DecidableEq, Repr

/-- One received frame or multiframe with its overhead, as the framer reads it (R151 to R169, R224, R225). `layer` is 2 SECTION, 3 TRIB, 4 PATH,
5 TCM (as POINT_KIND of R240); `ref` the port or TRIB_ID; `unit` the alignment unit that carries it. `slice` the frame is that of a FlexO
instance's OTUC slice, and `fas` its FAS is present (R152); `mf` the MFAS, the OMFI or OMF bit, or H4's place in its sequence; `crcOk` the CRC-16 of the
overhead; `ids` GID, PID and MAP (R151), or group number, PHY number and PHY map (R162), the maps with bit k for number k. Of the rest what the
layer has: `k2` K2 [2:0]; `bdi` BDI, RDI or RPF; `iae`; `bei` the BEI/BIAE code; `stat` STAT; `label` PT, C2 or V5 label; `msi` the slots the MSI gives the
child, bit k for slot k; `csf`; `ptr` H1/H2 or V1/V2; `cal` the slots the calendar in use gives the client; `fault` Local and Remote Fault; `hiBer`; `trace`; `aps`;
`s1`; `chans` channel bytes by item type (a FlexE block is its `AUX` byte, with bit 7 where a classified PTP message uses it, and its 8 bytes); `calInUse` the far end's calendar-in-use bit; `ftfl` the FTFL message. -/
structure FrameRep where
  port : Nat
  unit : Nat
  layer : Nat
  ref : Nat
  level : Nat
  slice : Bool
  fas : Bool
  mf : Nat
  crcOk : Bool
  ids : Option (Nat × Nat × Nat)
  k2 : Option Nat
  bdi : Option Bool
  iae : Option Bool
  bei : Option Nat
  stat : Option Nat
  label : Option Nat
  msi : Option Nat
  csf : Option Bool
  ptr : Option (BitVec 16)
  cal : Option Nat
  fault : Option (Bool × Bool)
  hiBer : Option Bool
  trace : Option (BitVec 512)
  aps : Option Word
  s1 : Option Nat
  chans : List (Nat × List Byte)
  calInUse : Option Bool
  ftfl : Option (List Byte)
  deriving DecidableEq, Repr

/-- A Hokua header as received (R365). -/
structure HokuaHdr where
  txTick : Nat
  epoch : Nat
  seq : Nat
  imgSeq : Nat
  devState : Nat
  holder : Bool
  pairId : Bool
  deriving DecidableEq, Repr

/-- The body of HELLO (R366). -/
structure HelloBody where
  digest : Word
  rev : Nat
  vers : List Word
  pairRec : BitVec 128
  unproven : Bool
  yielded : Bool
  ready : Bool
  fp : Word64
  deriving DecidableEq, Repr

/-- The body of STATUS (R366). -/
structure StatusBody where
  ready : Bool
  ownCond : Bool
  unproven : Bool
  warm : Bool
  intlk : Bool
  echo : Bool
  lastGen : Nat
  lastJournal : Nat
  deriving DecidableEq, Repr

/-- What a takeover takes from a mirrored region (R372), as the region's bytes spell it: a group's state, a PM record by
point number (section points from 0x40000), a trace entry, a context's counts. -/
inductive MirrorItem where
  | prot (group state standing wtr holdoff : Nat) (remote : Bool)
  | pm (key : Nat) (record : BitVec 1280)
  | trace (entry : Nat) (tx exp : BitVec 512) (format : Bool) (tim : BitVec 3)
  | ctx (trib : Nat) (pos neg unfinished range : Word)
  deriving DecidableEq, Repr

/-- The commands: one constructor per row of opcode_table.json, in its order; each docstring names the row. -/
inductive Instr where
  /-- POWER_ON (R472) -/
  | powerOn
  /-- RESET_ASSERTED (R472) -/
  | resetAsserted
  /-- SUPPLY_FAULT (R472): the supplies out of limits, coded as SUPPLY of R473 -/
  | supplyFault (supplies : BitVec 4)
  /-- RESET_RELEASED (R477): the strap levels of R474 -/
  | resetReleased (straps : BitVec 6)
  /-- BOOT_COMPLETES (R33) -/
  | bootCompletes (rep : BootRep)
  /-- TICK_BOUNDARY (R60) -/
  | tickBoundary (rep : TickRep)
  /-- HEARTBEAT_TIMEOUT (R106) -/
  | heartbeatTimeout (engine : Nat)
  /-- SCRATCHPAD_UNCORRECTABLE (R443): items completed before the halt -/
  | scratchpadUncorrectable (engine done : Nat)
  /-- ENGINE_DEATH (R107) -/
  | engineDeath (engine : Nat)
  /-- SIDING_REASSIGNMENT (R107) -/
  | sidingReassignment (engine : Nat)
  /-- ENGINE_WRITE_ARRIVAL (R111): target 0 `len` depot bytes from byte address `addr` (R439), 1 context slot, 2 junction port
  buffer window, 3 a 64-bit word of the engine's own scratchpad (R112); `portB` what port B does at a word of it in the cycle
  (R441); `partialRead` the read cycle of a partial write -/
  | engineWriteArrival (engine : Nat) (tag : BitVec 8) (target addr len : Nat) (portB : PortBRep) (partialRead : Bool)
  /-- ENGINE_ITEM_COMPLETE (R176): function state, adjustments and fill of the tributary's tick -/
  | engineItemComplete (trib : Nat) (funcState : BitVec 96) (pos neg fill : Nat)
  /-- RING_SLIP (R528): the frequency offset of the tributary against what its ring runs by, in 0.01 ppm -/
  | ringSlip (trib : Nat) (offset : Int)
  /-- OOR_CLEAR (R528) -/
  | oorClear (trib : Nat)
  /-- CAUSEWAY_FLIT_UNCORRECTABLE (R20): direction 0 framer to hub, 1 hub to framer; island and berth window -/
  | causewayFlitUncorrectable (causeway : Nat) (dir : Nat) (island window : Nat)
  /-- CAUSEWAY_RETRANSMISSION (R20) -/
  | causewayRetransmission (causeway : Nat)
  /-- CAUSEWAY_LANE_BAD (R21) -/
  | causewayLaneBad (causeway : Nat)
  /-- SPARE_LANE_SUBSTITUTION (R21) -/
  | spareLaneSubstitution (causeway : Nat)
  /-- CAUSEWAY_RESTORED (R21) -/
  | causewayRestored (causeway : Nat)
  /-- LOAD_IMAGE (R88): the TAG of MB_CMD; the parameters stand in MB_PARAM0 to MB_PARAM3 -/
  | loadImage (tag : Byte)
  /-- COMMIT_IMAGE (R88) -/
  | commitImage (tag : Byte)
  /-- AMEND_IMAGE (R92) -/
  | amendImage (tag : Byte)
  /-- READ_IMAGE (R94) -/
  | readImage (tag : Byte)
  /-- IMAGE_VALIDATED (R84) -/
  | imageValidated
  /-- COMMIT_DEADLINE (R56) -/
  | commitDeadline
  /-- SHADOW_SCRUB_ERROR (R56) -/
  | shadowScrubError
  /-- CONTEXT_COPY (R177) -/
  | contextCopy
  /-- COMMIT (R56) -/
  | commit
  /-- FIRST_IMAGE_DEFERRED_COMMIT (R59) -/
  | firstImageDeferredCommit
  /-- OLD_RESOURCE_RELEASE (R56) -/
  | oldResourceRelease
  /-- SHADOW_REBUILD_COMPLETE (R55) -/
  | shadowRebuildComplete
  /-- WAKE_FAULT (R33): the engines and regions the fault adds to the fault map -/
  | wakeFault (enginesOut : List Nat) (regionsOut : List (Nat × Nat))
  /-- EGRESS_WINDOW_SERVE (R200): the stored state of the entry in the active and the other bank (0 sound,
  1 corrected, 2 uncorrectable), of the buffered data (2 uncorrectable) and of the selector the entry names (0 sound, 1 its
  SELECT uncorrectable, 2 its ALT field) -/
  | egressWindowServe (island window : Nat) (eccActive eccOther eccData eccSel : Nat)
  /-- TIMETABLE_SHADOW_SCRUB (R217): indexes that still read in error after the rewrite -/
  | timetableShadowScrub (hard : List Nat)
  /-- PROT_SEL_RESTORE (R218): the group and the uncorrectable field, 0 SELECT, 1 ALT -/
  | protSelRestore (group field : Nat)
  /-- LASER_FEED_LOSS (R120): the laser input 2 × engine + (0 A, 1 B) -/
  | laserFeedLoss (input : Nat)
  /-- FEED_RESTORE_COUNT_END (R120) -/
  | feedRestoreCountEnd (input : Nat)
  /-- RECALIBRATION_COMPLETE (R120) -/
  | recalibrationComplete (input : Nat)
  /-- SIGNAL_DETECT (R138) -/
  | signalDetect (lane : Nat)
  /-- CDR_LOCK (R138): the skew in ns measured when the port's lanes are all locked -/
  | cdrLock (lane skewNs : Nat)
  /-- CDR_LOSS (R138) -/
  | cdrLoss (lane : Nat)
  /-- SIGNAL_ABSENT (R138) -/
  | signalAbsent (lane : Nat)
  /-- LANE_FRAME_LOCK (R132): the wrong fill bits of the last lane frames, latest first -/
  | laneFrameLock (lane : Nat) (fills : List Nat) (skewNs : Nat)
  /-- LANE_FRAME_LOCK_LOSS (R132): as before -/
  | laneFrameLockLoss (lane : Nat) (fills : List Nat)
  /-- QIC_WINDOW_END (R127): the counts of zero syndromes by hypothesis, 8 × bit offset + phase; an unlisted one counted 0 -/
  | qicWindowEnd (lane : Nat) (counts : List (Nat × Nat)) (skewNs : Nat)
  /-- QIC_HUNT_TIMEOUT (R127) -/
  | qicHuntTimeout (lane : Nat)
  /-- LANE_EQ_WRITE (R134) -/
  | laneEqWrite (lane : Nat) (value : Word64)
  /-- OG_WAKE_START (R139) -/
  | ogWakeStart (group : Nat)
  /-- OG_CALIBRATION_START (R139) -/
  | ogCalibrationStart (group : Nat)
  /-- OG_RECEIVERS_ENABLE (R527) -/
  | ogReceiversEnable (group : Nat)
  /-- OG_QIC_HUNT_PHASE (R139) -/
  | ogQicHuntPhase (group : Nat)
  /-- GROUP_WAKE_COMPLETE (R466): the group code of R79 -/
  | groupWakeComplete (group : Nat)
  /-- GROUP_STATE_CHANGE (R466) -/
  | groupStateChange (group : Nat)
  /-- FRAME_PATTERN_HIT (R145): a bit position (a FlexE instance's in blocks) and what stands there -/
  | framePatternHit (port unit pos : Nat) (seen : PatternRep)
  /-- CANDIDATE_EXPECTED_POSITION (R145, R147): a position and what stands there one frame period after the last -/
  | candidateExpectedPosition (port unit pos : Nat) (seen : PatternRep)
  /-- SETTLE_WINDOW_END (R145) -/
  | settleWindowEnd (port unit pos : Nat)
  /-- ARBITRATION_END (R147) -/
  | arbitrationEnd (port unit : Nat)
  /-- LOF_DECLARED (R148) -/
  | lofDeclared (port unit : Nat)
  /-- LOF_CLEARED (R148) -/
  | lofCleared (port unit : Nat)
  /-- FRAME_RECEIVED (R159) -/
  | frameReceived (rep : FrameRep)
  /-- LOSS_OF_MULTIFRAME (R156) -/
  | lossOfMultiframe (port unit : Nat)
  /-- PTP_MESSAGE_RECEIVED (R163): T1 time at the message timestamp point in 0.25 ns, stamped at a FlexE frame start; the frame
  from its destination address -/
  | ptpMessageReceived (port : Nat) (flexe : Bool) (stamp : Nat) (frame : List Byte)
  /-- ESMC_PDU_RECEIVED (R296): the QL code the frame carries, with the frame from its destination address -/
  | esmcPduReceived (port : Nat) (ql : Nat) (pdu : List Byte)
  /-- ESMC_TIMEOUT (R296) -/
  | esmcTimeout (input : Nat)
  /-- OH_ITEM_ENQUEUE (R436) -/
  | ohItemEnqueue (island : Nat)
  /-- OH_TX_PRODUCE (R171) -/
  | ohTxProduce (port : Nat) (prod : BitVec 16)
  /-- OH_TX_TAKE (R172): a suitable idle gap is present; the time of the message timestamp point -/
  | ohTxTake (port : Nat) (gap : Bool) (stamp : Nat)
  /-- OH_TX_PACKET_TIMEOUT (R172) -/
  | ohTxPacketTimeout (port : Nat)
  /-- PTP_TX_TIMESTAMP (R339) -/
  | ptpTxTimestamp (port : Nat)
  /-- TRACE_WRITE (R165): entry, first byte within the entry, bytes -/
  | traceWrite (entry offset : Nat) (bytes : List Byte)
  /-- FLEXE_CALENDAR_SWITCH (R187): the FlexE group -/
  | flexeCalendarSwitch (group : Nat)
  /-- FAILURE_DECLARED (R230): the defect's key -/
  | failureDeclared (kind ref level bit : Nat)
  /-- FAILURE_CLEARED (R230) -/
  | failureCleared (kind ref level bit : Nat)
  /-- CORR_WINDOW_END (R233): the burst key -/
  | corrWindowEnd (family port : Nat)
  /-- DEFECT_CTRL_WRITE (R231) -/
  | defectCtrlWrite (value : Word)
  /-- CORR_CTRL_WRITE (R526) -/
  | corrCtrlWrite (value : Word)
  /-- NOTICE_ENQUEUE (R243) -/
  | noticeEnqueue
  /-- PM_SECOND_BOUNDARY (R249) -/
  | pmSecondBoundary
  /-- PM_ORIGIN_ARM (R250): the value written to PM_ORIGIN_HI -/
  | pmOriginArm (hi : Word)
  /-- PM_ORIGIN_APPLY (R250) -/
  | pmOriginApply
  /-- PROTECTION_EVALUATION (R274) -/
  | protectionEvaluation
  /-- HOLDOFF_EXPIRY (R275): the group and the member, 0 working, 1 protection -/
  | holdoffExpiry (group member : Nat)
  /-- WTR_EXPIRY (R276) -/
  | wtrExpiry (group : Nat)
  /-- FOP_NR_TIMEOUT (R281) -/
  | fopNrTimeout (group : Nat)
  /-- SELECTOR_CHANGE (R211) -/
  | selectorChange (group : Nat)
  /-- PROT_CMD (R284) -/
  | protCmd (tag : Byte)
  /-- REF_SELECT (R304) -/
  | refSelect (tag : Byte)
  /-- TIME_ADJUST (R336) -/
  | timeAdjust (tag : Byte)
  /-- TICK_ALIGN (R345) -/
  | tickAlign (tag : Byte)
  /-- PPS_ALIGN (R346) -/
  | ppsAlign (tag : Byte)
  /-- PHASE_STEP (R347) -/
  | phaseStep (tag : Byte)
  /-- HO_RESET (R329) -/
  | hoReset (tag : Byte)
  /-- TOD_MESSAGE_RECEIVED (R293): the 16 bytes -/
  | todMessageReceived (input : Nat) (msg : List Byte)
  /-- TOD_TIMEOUT (R293) -/
  | todTimeout (input : Nat)
  /-- INPUT_NO_ACTIVITY (R298) -/
  | inputNoActivity (input : Nat)
  /-- INPUT_ACTIVITY (R298) -/
  | inputActivity (input : Nat)
  /-- TIMING_SECOND_BOUNDARY (R308) -/
  | timingSecondBoundary (refs : List RefRep)
  /-- REF_WTR_EXPIRY (R306) -/
  | refWtrExpiry (dpll : Nat)
  /-- DRIFT_EVALUATION (R300) -/
  | driftEvaluation (input : Nat)
  /-- MINUTE_RECORD (R322) -/
  | minuteRecord (dpll : Nat)
  /-- MODEL_REFIT (R328) -/
  | modelRefit
  /-- OSC_FAIL (R303) -/
  | oscFail
  /-- OSC_TEMP_READ (R303): none when the read failed; else signed 0.01 degree -/
  | oscTempRead (temp : Option Int)
  /-- T0_SYNTH_UNLOCK (R303) -/
  | t0SynthUnlock
  /-- T0_SYNTH_RELOCK (R303) -/
  | t0SynthRelock
  /-- DPLL_LOCK (R311) -/
  | dpllLock (dpll : Nat)
  /-- DPLL_LOCK_LOSS (R310) -/
  | dpllLockLoss (dpll : Nat)
  /-- SWITCH_SPAN_END (R314): the measured difference in ps -/
  | switchSpanEnd (dpll : Nat) (diff : Int)
  /-- HOLDOVER_LOST (R331) -/
  | holdoverLost (dpll : Nat)
  /-- T1_SW_CTRL_WRITE (R341) -/
  | t1SwCtrlWrite (value : Word)
  /-- T1_SW_FFO_WRITE (R341) -/
  | t1SwFfoWrite (value : Word)
  /-- T1_SW_OFFSET_WRITE (R341) -/
  | t1SwOffsetWrite (value : Word)
  /-- SW_SERVO_RUN (R342) -/
  | swServoRun
  /-- SW_WATCHDOG_EXPIRY (R343) -/
  | swWatchdogExpiry
  /-- TICK_MOVE_END (R345) -/
  | tickMoveEnd
  /-- OUTPUT_ALIGN_END (R346): the TARGET code of R347 -/
  | outputAlignEnd (target : Nat)
  /-- TODOUT_MESSAGE (R350) -/
  | todoutMessage
  /-- TS_PORT_WRITE (R338) -/
  | tsPortWrite (port : Nat) (value : Word64)
  /-- HELLO_SEND (R366) -/
  | helloSend
  /-- HELLO_RECEIVED (R355) -/
  | helloReceived (hdr : HokuaHdr) (body : HelloBody)
  /-- STATUS_SEND (R366) -/
  | statusSend
  /-- STATUS_RECEIVED (R363) -/
  | statusReceived (hdr : HokuaHdr) (body : StatusBody)
  /-- LEASE_RENEW_SEND (R358) -/
  | leaseRenewSend
  /-- LEASE_RENEW_RECEIVED (R358) -/
  | leaseRenewReceived (hdr : HokuaHdr)
  /-- LEASE_ACK_RECEIVED (R358): the MSG_SEQ acknowledged -/
  | leaseAckReceived (hdr : HokuaHdr) (renewSeq : Nat)
  /-- RELEASE_RECEIVED (R359): the release code -/
  | releaseReceived (hdr : HokuaHdr) (code : Nat)
  /-- TAKEN_RECEIVED (R357): the mode -/
  | takenReceived (hdr : HokuaHdr) (mode : Nat)
  /-- FAULT_MAP_RECEIVED (R367): per island the engines out and the regions out -/
  | faultMapReceived (hdr : HokuaHdr) (engines : List (Nat × BitVec 16)) (regions : List (Nat × Nat))
  /-- STRAIT_LINK_DOWN (R364): lanes left LOCKED -/
  | straitLinkDown (laneLost : Bool)
  /-- INTLK_IN_PRESENT (R361) -/
  | intlkInPresent
  /-- INTLK_IN_RELEASED (R361) -/
  | intlkInReleased
  /-- ECHO_IN_CHANGE (R361) -/
  | echoInChange (present : Bool)
  /-- STRAP_INTERLOCK_TIMEOUT (R355) -/
  | strapInterlockTimeout
  /-- HUB_HEALTH_LOST (R362) -/
  | hubHealthLost
  /-- HOLDER_LEASE_END (R360) -/
  | holderLeaseEnd
  /-- STANDBY_TAKEOVER (R359) -/
  | standbyTakeover
  /-- SELF_DIAGNOSED_RELEASE (R363) -/
  | selfDiagnosedRelease
  /-- HANDOVER_COMPLETE (R376) -/
  | handoverComplete
  /-- GENERATION_START (R372) -/
  | generationStart
  /-- GEN_DATA_SEND (R372) -/
  | genDataSend
  /-- GEN_DATA_RECEIVED (R374): class, region, capture tick, what a takeover takes from the region's 4 KiB -/
  | genDataReceived (hdr : HokuaHdr) (gen cls region capture : Nat) (items : List MirrorItem)
  /-- GEN_END_RECEIVED (R374) -/
  | genEndReceived (hdr : HokuaHdr) (gen regions : Nat)
  /-- JOURNAL_SEND (R373) -/
  | journalSend
  /-- JOURNAL_RECEIVED (R374): the recorded tick, whether all parts arrived, the changes by class and region, the register
  writes and commands held -/
  | journalReceived (hdr : HokuaHdr) (tick : Nat) (complete : Bool) (changes : List (Nat × Nat × MirrorItem))
      (writes : List (Nat × Word)) (cmds : List Word)
  /-- MIRROR_STALE (R374) -/
  | mirrorStale
  /-- TX_PATH_PROVEN (R377) -/
  | txPathProven
  /-- DRILL (R378) -/
  | drill (tag : Byte)
  /-- DRILL_REQ_RECEIVED (R378): the swap tick in this part's ticks and RETURN_S -/
  | drillReqReceived (hdr : HokuaHdr) (swapTick returnS : Nat)
  /-- DRILL_ACK_DEADLINE (R378): the answer that arrived, none where none did -/
  | drillAckDeadline (ack : Option Bool)
  /-- DRILL_SWAP (R378) -/
  | drillSwap
  /-- DRILL_RETURN (R378) -/
  | drillReturn
  /-- TABLET_CLAIM (R379) -/
  | tabletClaim (tag : Byte)
  /-- DEVICE_KEY (R386) -/
  | deviceKey (tag : Byte)
  /-- BUNDLE_BEGIN (R396) -/
  | bundleBegin (tag : Byte)
  /-- BUNDLE_CHUNK (R396) -/
  | bundleChunk (tag : Byte)
  /-- SD_LOAD (R397): the file's bytes, none when the card or the file is absent -/
  | sdLoad (tag : Byte) (file : Option (List Byte))
  /-- SD_CARD_INSERTED (R397) -/
  | sdCardInserted (file : Option (List Byte))
  /-- BUNDLE_VERIFY (R398) -/
  | bundleVerify (tag : Byte)
  /-- BUNDLE_ACTIVATE (R399) -/
  | bundleActivate (tag : Byte)
  /-- BUNDLE_ABORT (R395) -/
  | bundleAbort (tag : Byte)
  /-- COMPONENT_HANDOVER_END (R400) -/
  | componentHandoverEnd
  /-- MC_MIGRATION_STEP (R401) -/
  | mcMigrationStep
  /-- COMPONENT_CONFIRMED (R402) -/
  | componentConfirmed
  /-- HEALTH_WINDOW_EXPIRY (R403) -/
  | healthWindowExpiry
  /-- KEY_SET (R410) -/
  | keySet (tag : Byte)
  /-- KEY_WIPE (R411): the file's bytes, none when absent -/
  | keyWipe (tag : Byte) (file : Option (List Byte))
  /-- SETTINGS_READ (R395) -/
  | settingsRead (tag : Byte)
  /-- SETTINGS_WRITE (R412) -/
  | settingsWrite (tag : Byte)
  /-- PCIE_RESET (R417) -/
  | pcieReset
  /-- REGISTER_WRITE (R419): window 0 A, 1 B, 2 C; byte offset; bytes (4 or 8; 1 to 3 are narrower than a register) -/
  | registerWrite (window offset : Nat) (bytes : List Byte)
  /-- W1C_CLEAR (R421): a Window A register offset, the bits written 1, the bits hardware sets in the same cycle -/
  | w1cClear (offset : Nat) (mask sameCycle : Word)
  /-- INTERRUPT_WRITE (R424): offset 0x2000 or 0x2004 -/
  | interruptWrite (enable : Bool) (value : Word)
  /-- NQ_POP (R432): corrected words, an uncorrectable word -/
  | nqPop (corrected : Nat) (uncorr : Bool)
  /-- OQ_POP (R433) -/
  | oqPop (corrected : Nat) (uncorr : Bool)
  /-- DROP_REST (R435) -/
  | dropRest
  /-- LATCHED_READ (R41): window 0 A, 1 B, 2 C; offset; bytes read; cycle within the tick at which the read reaches the
  hub -/
  | latchedRead (window offset len cycle : Nat)
  /-- DEPOT_UNCORRECTABLE_READ (R442): island, depot word, reader 0 port B, 1 engine traffic, 2 engine PM record; the
  tributary or point concerned, and for a PM record which of its 5 words -/
  | depotUncorrectableRead (island word reader ref part : Nat)
  /-- PATROL_REGION_START (R446) -/
  | patrolRegionStart (island : Nat)
  /-- PATROL_WRITE_BACK (R446): every read of the test matched -/
  | patrolWriteBack (island : Nat) (matched : Bool)
  /-- SCAN_START (R455): channel and the SCAN_CTRL value -/
  | scanStart (channel : Nat) (value : Word)
  /-- SCAN_COMPLETE (R456): an uncorrectable word was read -/
  | scanComplete (channel : Nat) (poison : Bool)
  /-- PCNT_SEL_WRITE (R460): the counter, the value, the events of the cycle under the new selection, the counter
  wraps in the cycle -/
  | pcntSelWrite (counter : Nat) (value : Word) (sameCycle : Nat)
  /-- SNAP_ARM (R461): the value written to SNAP_TICK_HI -/
  | snapArm (hi : Word)
  /-- COUNTER_SNAPSHOT (R461) -/
  | counterSnapshot
  /-- BW_WINDOW_END (R462) -/
  | bwWindowEnd
  /-- SENSOR_READ (R468): sensor temperatures in degrees, by number -/
  | sensorRead (temps : List (Nat × Int))
  /-- THERMAL_TRIP (R470): the sensor and its temperature -/
  | thermalTrip (sensor : Nat) (temp : Int)
  /-- SB_RESET_WRITE (R475): the value and whether it comes within 10 ms of the write before -/
  | sbResetWrite (value : Byte) (within10ms : Bool)
  /-- SB_ALERT_CLEAR (R475) -/
  | sbAlertClear (value : Byte)
  /-- INJECT_EN_WRITE (R485) -/
  | injectEnWrite (value : Word)
  /-- INJECTION_ARM (R485) -/
  | injectionArm (slot : Nat)
  /-- INJECTION_START (R485) -/
  | injectionStart (slot : Nat)
  /-- INJECTION_END (R485) -/
  | injectionEnd (slot : Nat)
  /-- TABLE_PORT_GO (R492): the port and the TAP_CTRL value -/
  | tablePortGo (port : Nat) (value : Word)
  /-- TABLE_PORT_DONE (R492) -/
  | tablePortDone (port : Nat)
  /-- COLD_SENSOR_READ (R470) -/
  | coldSensorRead (temps : List (Nat × Int))
  /-- SIGNAL_BOX_RESTART (R37) -/
  | signalBoxRestart
  /-- SIGNAL_BOX_RESUME (R36) -/
  | signalBoxResume
  /-- REFIN_PULSE (R293) -/
  | refinPulse (input : Nat)
  deriving DecidableEq, Repr

end Sys2Proof
end

