-- ==== Sys2Proof/Decode.lean ====
section
/-!
DEFINITION. Commands spelt by words. The table of operations and events gives no row any bits (INDEX of the spec), so no word
spells a command.
-/
namespace Sys2Proof

/-- The command a table word spells: none, since no row of the table has bits. -/
def decodeTableWord (_nbits _w : Nat) : Option Instr := none

end Sys2Proof
end

