-- ==== Sys2Proof/Config.lean ====
section
/-!
DEFINITION. What the spec leaves to a named standard, to an implementation or to nothing: constants with no body. No proof
can learn a value of any of them (assumption log 8 and 9).
-/
namespace Sys2Proof

/-- ECDSA P-384 over SHA-384 (R82): whether a signature over a message verifies under a key. The manual names the
algorithm and leaves it to its standard. -/
opaque Config.ecdsaOk : BitVec 768 → List Byte → List Byte → Bool

/-- The PCS lanes that IEEE 802.3 places on one physical lane, by port rate in Gbit/s and number of lanes (R153). -/
opaque Config.pcsPerLane : (rate lanes : Nat) → Nat

/-- The payload type G.709 assigns where the spec gives no number (R185): mapping function, and type of the child. -/
opaque Config.payloadType : (func type : Nat) → Nat

/-- The signal label a VC is expected to show, if any (R225): its type, and whether it is terminated into children. -/
opaque Config.vcLabel : (type : Nat) → (terminated : Bool) → Option Nat

/-- A value the spec does not give: the n-th one the part has used. -/
opaque Config.freeValue : Nat → Nat

/-- Whether a count of B2 violations over 80 ticks on an SDH stack reaches what a BER of 10 to the minus k gives (R224); the
spec does not say how a BER turns into violations. -/
opaque Config.b2Reaches : (stack count k : Nat) → Bool

/-- Whether errored blocks among blocks of a layer (1 section, 2 path) show a BER of 10 to the minus k or more (R228); the
spec does not say how the BER is estimated. -/
opaque Config.berReaches : (layer errored blocks k : Nat) → Bool

/-- The natural logarithm of 1 + h/24 for h hours, in units of 10 to the minus 6 (R327): a function of mathematics the spec
names without giving a precision. -/
opaque Config.lnDays : Nat → Int

/-- The weighted normal-equation sums of the oscillator fit after one more minute record (R328), as a token: sums, control
value, temperature, hours in service, period of its reference. -/
opaque Config.fitAdd : (sums : Nat) → (ctl temp : Int) → (hours period : Nat) → Nat

/-- The coefficients of the fit (R326 to R328): sums, order of the temperature model, whether the ageing terms are fitted
(0 none, 1 A, 2 A and B), hours in service, and which: 0 to 2 the temperature terms, 3 and 4 the ageing terms, in the units
of `HO_MODEL`, 5 the rms residual in 10 to the minus 15, 6 the standard error of the ageing slope in 10 to the minus 16 per
second. -/
opaque Config.fitTerm : (sums order ageing hours which : Nat) → Int

/-- The step of the signal box servo (R342): bandwidth step, frequency in force, sample. The spec gives its bandwidth and
gain peaking and not its terms. -/
opaque Config.servoStep : (bw : Nat) → (ffo sample : Int) → Int

/-- SHA-384 of bytes, byte by byte (R386, R389): the manual names the algorithm and leaves it to its standard. -/
opaque Config.sha384Byte : List Byte → Nat → Byte

/-- The part's own public key (R386), made at manufacture, byte by byte: x, then y. -/
opaque Config.devicePubByte : Nat → Byte

/-- Beywell's certificate for the part's key (R386): its length and bytes. -/
opaque Config.deviceCertLen : Nat
opaque Config.deviceCertByte : Nat → Byte

/-- The root key fused into the part (R389). -/
opaque Config.rootKey : BitVec 768

/-- The content key a wrap record opens to with this part's private key (R387), as a token; none where it does not open. -/
opaque Config.contentKey : List Byte → Option Nat

/-- Whether a chunk's tag checks (R388): key, header, chunk number, ciphertext with tag. -/
opaque Config.chunkOk : (key : Nat) → (header : List Byte) → (i : Nat) → List Byte → Bool

/-- A byte of a chunk's plaintext (R388). -/
opaque Config.chunkPlain : (key : Nat) → (header : List Byte) → (i : Nat) → List Byte → Nat → Byte

/-- Whether a version of the mapper microcode holds a function code (R399). -/
opaque Config.mcHas : (version func : Nat) → Bool

/-- A byte of settings item 0x0001 (R412), whose layout the manual does not give: fit sums, hours, order, byte. -/
opaque Config.oscItemByte : (sums hours order byte : Nat) → Byte

/-- Whether a signal box version knows a `SET_VER` of a settings item, and the one it writes (R413): signal box, item, version. -/
opaque Config.setKnown : (sb item ver : Nat) → Bool
opaque Config.setWrites : (sb item : Nat) → Nat

/-- `PLACE_REV` of a signal box version (R103). -/
opaque Config.placeRev : Nat → BitVec 16

/-- The regions in use for an image, by its placement digest (R372, R381): the manual gives the numbers at full configuration
only. -/
opaque Config.genRegions : Word → Nat

/-- Whether the mirror captures a region of an island at a boundary of a generation (R372, R449): the manual does not order the
captures among the islands. -/
opaque Config.captureAt : (gen tick island : Nat) → Bool

/-- The bits a random corruption inverts in a tick (R484): seed, target, parameter, tick counted from T. The generator is not
given. -/
opaque Config.injBits : (seed target param tick : Word) → Nat

/-- The flits a causeway injection hits in a tick (R483). -/
opaque Config.injFlits : (seed target param tick : Word) → Nat

end Sys2Proof
end

