-- ==== Sys2Proof/Machine/Bits.lean ====
section
/-!
DEFINITION. Bit fields, packing, byte order, check values and sparse tables: the helpers every meaning uses.
-/
namespace Sys2Proof.Machine
open Sys2Proof

/-- The field of `w` bits that starts at bit `lo` (R8 writes it [lo+w-1:lo]), as a number. -/
def bits {n : Nat} (x : BitVec n) (lo w : Nat) : Nat := (x.toNat >>> lo) % 2 ^ w

/-- Bit `k` of a record or register. -/
def bitAt {n : Nat} (x : BitVec n) (k : Nat) : Bool := (x.toNat >>> k) % 2 == 1

/-- A Boolean as a one-bit field. -/
def bnat (b : Bool) : Nat := if b then 1 else 0

/-- Fields put together, most significant first: (width, value) pairs. -/
def packN (l : List (Nat × Nat)) : Nat := l.foldl (fun acc f => acc * 2 ^ f.1 + f.2 % 2 ^ f.1) 0

/-- A 32-bit register from its fields, most significant first (R11). -/
def reg32 (l : List (Nat × Nat)) : Word := BitVec.ofNat 32 (packN l)

/-- `x` with the `w` bits from bit `lo` replaced by `v`. -/
def setBits {n : Nat} (x : BitVec n) (lo w v : Nat) : BitVec n :=
  BitVec.ofNat n (x.toNat - ((x.toNat >>> lo) % 2 ^ w) * 2 ^ lo + (v % 2 ^ w) * 2 ^ lo)

/-- Saturating increment at `cap`. -/
def satInc (cap v : Nat) : Nat := if v < cap then v + 1 else cap

/-- Saturating addition at `cap`. -/
def satAdd (cap v d : Nat) : Nat := if v + d ≤ cap then v + d else cap

/-- Ceiling of a quotient. -/
def ceilDiv (a b : Nat) : Nat := (a + b - 1) / b

/-- An unsigned field of `w` bits read as two's complement. -/
def toSigned (w v : Nat) : Int := if v % 2 ^ w < 2 ^ (w - 1) then (v % 2 ^ w : Nat) else ((v % 2 ^ w : Nat) : Int) - (2 ^ w : Nat)

/-- A signed number as a `w`-bit two's complement field. -/
def ofSigned (w : Nat) (v : Int) : Nat := (v % ((2 ^ w : Nat) : Int)).toNat

/-- A signed number held within `lo` to `hi`. -/
def clampInt (lo hi v : Int) : Int := if v < lo then lo else if v > hi then hi else v

/-- The numbers 0 to n-1, ascending. -/
def upto (n : Nat) : List Nat := List.range n

/-! ### Sparse tables -/

/-- The entry at index `i`; `d` is what an unlisted index reads as. -/
def tget {α : Type} (d : α) : FMap α → Nat → α
  | [], _ => d
  | (k, v) :: t, i => if k = i then v else tget d t i

/-- Put an entry in its place, replacing what stood there. -/
def tput {α : Type} : FMap α → Nat → α → FMap α
  | [], i, v => [(i, v)]
  | (k, w) :: t, i, v =>
    if i < k then (i, v) :: (k, w) :: t
    else if i = k then (i, v) :: t
    else (k, w) :: tput t i v

/-- Remove the entry at an index. -/
def tdel {α : Type} (m : FMap α) (i : Nat) : FMap α := m.filter (fun e => decide (e.1 ≠ i))

/-- Write an entry: the value an unlisted index reads as is not listed. -/
def tset {α : Type} [DecidableEq α] (d : α) (m : FMap α) (i : Nat) (v : α) : FMap α :=
  if v = d then tdel m i else tput m i v

/-- Apply a function to one entry. -/
def tupd {α : Type} [DecidableEq α] (d : α) (m : FMap α) (i : Nat) (f : α → α) : FMap α :=
  tset d m i (f (tget d m i))

/-- Apply a function to every listed entry, dropping those that become the default. -/
def tmap {α : Type} [DecidableEq α] (d : α) (m : FMap α) (f : Nat → α → α) : FMap α :=
  m.filterMap (fun e => let v := f e.1 e.2; if v = d then none else some (e.1, v))

/-- The indexes a table lists. -/
def tkeys {α : Type} (m : FMap α) : List Nat := m.map (·.1)

/-- Insert a number into an ascending list without repeats. -/
def insAsc : List Nat → Nat → List Nat
  | [], x => [x]
  | y :: t, x => if x < y then x :: y :: t else if x = y then y :: t else y :: insAsc t x

/-- A memory in its canonical form from address `lo` up: addresses rising, no entry equal to what an unlisted address reads
as, which is 0. -/
def memFrom (lo : Nat) : FMap Byte → Bool
  | [] => true
  | (a, b) :: t => lo ≤ a && b ≠ 0 && memFrom (a + 1) t

/-- A memory in its canonical form. -/
def Memory.wf (m : FMap Byte) : Bool := memFrom 0 m

/-! ### Bytes and words (R67: little-endian) -/

/-- `n` bytes of memory from address `a`, lowest first. -/
def readBytes (d : Byte) (m : FMap Byte) (a : Nat) : Nat → List Byte
  | 0 => []
  | n + 1 => tget d m a :: readBytes d m (a + 1) n

/-- Bytes written from address `a` upward. -/
def writeBytes (d : Byte) (m : FMap Byte) (a : Nat) : List Byte → FMap Byte
  | [] => m
  | b :: t => writeBytes d (tset d m a b) (a + 1) t

/-- The number whose little-endian bytes are given (R67). -/
def leNat : List Byte → Nat
  | [] => 0
  | b :: t => b.toNat + 256 * leNat t

/-- The `n` little-endian bytes of a number (R67). -/
def leBytes : Nat → Nat → List Byte
  | 0, _ => []
  | n + 1, v => BitVec.ofNat 8 (v % 256) :: leBytes n (v / 256)

/-- The number whose big-endian bytes are given. -/
def beNat (l : List Byte) : Nat := l.foldl (fun a b => a * 256 + b.toNat) 0

/-! ### Check values -/

/-- The reflection of a `w`-bit number. -/
def reflectN : Nat → Nat → Nat
  | 0, _ => 0
  | w + 1, v => (v % 2) * 2 ^ w + reflectN w (v / 2)

/-- One reflected CRC step for `k` bits. -/
def crcShiftR (poly : Nat) : Nat → Nat → Nat
  | 0, c => c
  | k + 1, c => crcShiftR poly k (if c % 2 = 1 then (c / 2) ^^^ poly else c / 2)

/-- A reflected CRC (the polynomial already reflected) over bytes, without the final exclusive-or. -/
def crcRefl (poly : Nat) (init : Nat) (l : List Byte) : Nat :=
  l.foldl (fun c b => crcShiftR poly 8 (c ^^^ b.toNat)) init

/-- One unreflected CRC step of width `w` for `k` bits. -/
def crcShiftL (w poly : Nat) : Nat → Nat → Nat
  | 0, c => c
  | k + 1, c =>
    crcShiftL w poly k (if (c >>> (w - 1)) % 2 = 1 then ((c * 2) % 2 ^ w) ^^^ poly else (c * 2) % 2 ^ w)

/-- An unreflected CRC of width `w` over bytes, without the final exclusive-or. -/
def crcDirect (w poly init : Nat) (l : List Byte) : Nat :=
  l.foldl (fun c b => crcShiftL w poly 8 (c ^^^ (b.toNat <<< (w - 8)))) init

/-- CRC-32C, the check value of image sections, images and PLACE_DIGEST (R70, R82, R103): the reflected Castagnoli
polynomial, preset and final exclusive-or all ones. -/
def crc32c (l : List Byte) : Nat := (crcRefl 0x82F63B78 0xFFFFFFFF l) ^^^ 0xFFFFFFFF

end Sys2Proof.Machine
end

