-- ==== Sys2Proof/Machine/StateImage.lean ====
section
/-!
DEFINITION. State of the service image (R66 to R94), of placements (R95, R114), of the two timetable banks and the
junction (R53, R198 to R220) and of commits (R55, R56).
-/
namespace Sys2Proof.Machine
open Sys2Proof

/-- A record of a section, its bits as the record map of its section numbers them; unused high bits are 0. -/
abbrev Rec := BitVec 384

/-- The structure an image states (R68 to R81): per section type its records by key, with the header fields the part
keeps (R94). -/
structure Image where
  secs  : FMap (FMap Rec)
  seq   : Nat
  build : Word
  minor : Nat
  deriving DecidableEq, Repr

/-- A failure record (R86). -/
structure ImgFail where
  stage   : Nat
  sect    : Nat
  reason  : Nat
  index   : Nat
  deriving DecidableEq, Repr

/-- One item of a work list (R46): not-before cycle (0 for none), allotment, the context it runs on (a tributary, or a carrier
from 0x40000 up) and its function code. -/
structure Item where
  nb    : Nat
  allot : Nat
  owner : Nat
  func  : Nat
  deriving DecidableEq, Repr

/-- The placement of one tributary (R95, R114). `src` and `egr` are its windows in ascending order; `lists` the lists of
its parts (R190), part 0 first; `seg` its S (R189). -/
structure Plc where
  island : Nat
  lists  : List Nat
  ctx    : Nat
  base   : Nat
  units  : Nat
  n      : Nat
  seg    : Nat
  src    : List Nat
  egr    : List Nat
  pm     : List Nat
  ing    : Nat
  jct    : Nat
  egrc   : Nat
  express : Bool
  pinned : Bool
  deriving DecidableEq, Repr

/-- A carrier of low-order grooming (R194, R195). -/
structure Carrier where
  srcIsl : Nat
  egrIsl : Nat
  srcB   : Nat
  egrB   : Nat
  srcList : Nat
  egrList : Nat
  base0  : Nat
  base1  : Nat
  vcs    : List (Nat × Nat)
  deriving DecidableEq, Repr

/-- A whole placement: tributaries (counterparts of R282 under the working tributary's number plus 0x20000), carriers by
number, work lists by 16 × island + list, the timetable by 15,000 × island + egress window, and per group the
protection member's island and shift (R209). `nlists` is the number of lists per island (R99, R518). -/
structure Placement where
  tribs    : FMap Plc
  carriers : FMap Carrier
  items    : FMap (List Item)
  tt       : FMap (BitVec 40)
  alt      : FMap (Nat × Nat)
  nlists   : FMap Nat
  deriving DecidableEq, Repr

/-- One entry of `JCT_STAT` that counts (R220). -/
structure JctSt where
  corr  : BitVec 48
  subst : BitVec 48
  lost  : Word
  bufUncorr : BitVec 48
  deriving DecidableEq, Repr

/-- Selector state of one group (R209, R218): the uncorrectable fields await restoration. -/
structure SelSt where
  select   : Bool
  switches : BitVec 16
  badSel   : Bool
  badAlt   : Bool
  deriving DecidableEq, Repr

/-- The junction: selectors, difference map (R215), hard faults and stored entries found uncorrectable (R217, R199, both as
960,000 × bank + index), source and egress windows whose flit was lost (R20: 15,000 × island + window, with the tick), entries now
undeliverable (R216) and the last tick with one, statistics with what `JCT_STAT` shows: counts, and per island the source
berths, egress berths and express entries held. -/
structure JunctionSt where
  sel   : FMap SelSt
  diff  : List Nat
  hard  : List Nat
  unc   : List Nat
  lostSrc : List (Nat × Nat)
  lostEgr : List (Nat × Nat)
  lostNow : List Nat
  lostTick : Option Nat
  stat  : FMap JctSt
  pubStat : FMap JctSt
  pubUse : FMap (Nat × Nat × Nat)
  deriving DecidableEq, Repr

/-- What a change awaiting its commit is (R56, R58, R59): kind 1 first image, 2 replacement, 3 amendment;
`commitAt` its commit boundary once the shadow is frozen, `deferred` under R59; `woken` its wakes have started. -/
structure Change where
  kind   : Nat
  accept : Nat
  repack : Bool
  bytes  : List Byte
  image  : Option Image
  place  : Option Placement
  outMap : FMap Nat
  commitAt : Option Nat
  deferred : Bool
  woken : Bool
  deriving DecidableEq, Repr

/-- Commit registers and timing (R55, R56, R59, R86). `released` is the boundary C at which the last commit switched
banks, while its release at C+1 and rebuild at C+2 are due; `copied` says the context copy of C−1 ran; `newFed` the tributaries
whose feed at the last commit is not the one they had before it (R214); `replaceDue` a placement waits for the signal box
(R37). -/
structure CommitSt where
  pending   : Bool
  lastResult : Nat
  shadowReady : Bool
  activeBank : Bool
  cTick     : Nat
  cTickHi   : Word
  change    : Option Change
  named     : Option Nat
  lastC     : Option Nat
  releaseDue : Bool
  rebuildDue : Bool
  copied    : Bool
  newFed    : List Nat
  replaceDue : Bool
  failStage : Nat
  failSection : Nat
  failSource : Nat
  failReason : Nat
  failIndex : Word
  digest    : Word
  placeRev  : BitVec 16
  deriving DecidableEq, Repr

/-- The committed image, the placement in force and the shadow (R53, R84). -/
structure ImageSt where
  image  : Option Image
  place  : Placement
  shadow : Placement
  deriving DecidableEq, Repr

end Sys2Proof.Machine
end

