-- ==== Sys2Proof/Machine/Image.lean ====
section
/-!
DEFINITION. The service image: record fields (R73 to R81), integrity (R84), schema (R71 to R81, R517, R523, R131),
amendments (R91, R92) and the copy that READ_IMAGE writes (R94).
-/
namespace Sys2Proof.Machine
open Sys2Proof

/-! ### Record fields -/

/-- Records of a section, by key. -/
def Image.sec (im : Image) (t : Nat) : FMap Rec := tget [] im.secs t

/-- One record of a section. -/
def Image.getRec (im : Image) (t k : Nat) : Option Rec := (im.sec t).lookup k

/-- An image with no record. -/
def imageEmpty : Image := { secs := [], seq := 0, build := 0, minor := 0 }

def portAdmin (r : Rec) : Bool := bitAt r 23
def portElec (r : Rec) : Nat := bits r 15 8
def portMode (r : Rec) : Nat := bits r 12 3
def portCount (r : Rec) : Nat := bits r 9 3

def stackPrio (r : Rec) : Nat := bits r 72 2
def stackExport (r : Rec) : Nat := bits r 64 8
def stackPhy (r : Rec) : Nat := bits r 52 8
def stackGroup (r : Rec) : Nat := bits r 32 20
def stackFec (r : Rec) : Bool := bitAt r 25
def stackSonet (r : Rec) : Bool := bitAt r 24
def stackType (r : Rec) : Nat := bits r 16 8

def tribTpn (r : Rec) : Nat := bits r 352 10
def tribTs (r : Rec) : Nat := bits r 192 160
def tribTsBase (r : Rec) : Nat := bits r 164 11
def tribClass (r : Rec) : Nat := bits r 155 8
def tribMon (r : Rec) : Nat := bits r 148 7
def tribPm (r : Rec) : Nat := bits r 140 8
def tribPinEn (r : Rec) : Bool := bitAt r 139
def tribPin (r : Rec) : Nat := bits r 133 6
def tribBound (r : Rec) : Nat := bits r 116 16
def tribRate (r : Rec) : Nat := bits r 96 20
def tribParam (r : Rec) : Nat := bits r 64 32
def tribFunc (r : Rec) : Nat := bits r 43 12
def tribType (r : Rec) : Nat := bits r 35 8
def tribServer (r : Rec) : Nat := bits r 18 17
def tribKind (r : Rec) : Nat := bits r 17 1

def xconGroup (r : Rec) : Nat := bits r 56 17
def xconBidir (r : Rec) : Bool := bitAt r 54
def xconDst (r : Rec) : Nat := bits r 37 17
def xconSrc (r : Rec) : Nat := bits r 20 17

def protSdTrig (r : Rec) : Bool := bitAt r 78
def protTcm (r : Rec) : Nat := bits r 74 4
def protWtr (r : Rec) : Nat := bits r 64 10
def protHold (r : Rec) : Nat := bits r 56 7
def protP (r : Rec) : Nat := bits r 39 17
def protW (r : Rec) : Nat := bits r 22 17
def protBidir (r : Rec) : Bool := bitAt r 21
def protRevert (r : Rec) : Bool := bitAt r 20
def protArch (r : Rec) : Nat := bits r 19 1
def protKind (r : Rec) : Nat := bits r 16 3

def pairRole (r : Rec) : Nat := bits r 56 2
def pairGuard (r : Rec) : Nat := bits r 44 12
def pairRenew (r : Rec) : Nat := bits r 32 12
def pairLease (r : Rec) : Nat := bits r 20 12
def pairYield (r : Rec) : Bool := bitAt r 19

def inMask (r : Rec) : Nat := bits r 116 4
def inQlForce (r : Rec) : Nat := bits r 112 4
def inDriftLim (r : Rec) : Nat := bits r 96 16
def inHard (r : Rec) : Nat := bits r 80 16
def inSoft (r : Rec) : Nat := bits r 64 16
def inNominal (r : Rec) : Nat := bits r 32 32
def inTap (r : Rec) : Nat := bits r 23 9
def inTime (r : Rec) : Bool := bitAt r 22
def inEnable (r : Rec) : Bool := bitAt r 21
def inPrio (r : Rec) : Nat := bits r 16 4
def dpConflict (r : Rec) : Nat := bits r 112 16
def dpWtr (r : Rec) : Nat := bits r 96 16
def dpLostDays (r : Rec) : Nat := bits r 88 8
def dpLostNs (r : Rec) : Nat := bits r 72 16
def dpGuard (r : Rec) : Nat := bits r 60 12
def dpSpan (r : Rec) : Nat := bits r 48 12
def dpSlope (r : Rec) : Nat := bits r 32 16
def dpMode (r : Rec) : Nat := bits r 30 2
def dpInitial (r : Rec) : Nat := bits r 24 6
def dpBw (r : Rec) : Nat := bits r 16 4
def outPhase (r : Rec) : Int := toSigned 32 (bits r 64 32)
def outFreq (r : Rec) : Nat := bits r 32 32
def outSquelch (r : Rec) : Bool := bitAt r 19
def outSource (r : Rec) : Nat := bits r 17 2
def outEnable (r : Rec) : Bool := bitAt r 16

def powSidings (r : Rec) : Nat := bits r 32 4
def powWake (r : Rec) : Nat := bits r 8 24
def powGroup (r : Rec) : Nat := bits r 0 8

def noticeMask (r : Rec) : Nat := bits r 16 16
def noticeClearMute (r : Rec) : Bool := bitAt r 12
def noticeTcaMute (r : Rec) : Bool := bitAt r 11
def noticeMute (r : Rec) : Bool := bitAt r 10
def noticePrio (r : Rec) : Nat := bits r 8 2

/-- The DPLL record in force: that of the image, or the Reset values of R78 where it has none (R517). -/
def dpllRec (im : Image) (d : Nat) : Rec :=
  match im.getRec 6 (0x200 + d) with
  | some r => r
  | none => BitVec.ofNat 384 (packN [(16, 0x1F4), (16, 0x12C), (8, 10), (16, 0x5DC), (12, 15), (12, 60), (16, 0x4B),
      (2, 0), (6, 0x3F), (4, 0), (4, 6), (8, d), (8, 2)])

/-! ### Sections -/

/-- Record bytes of each section type (R71). -/
def recBytes : Nat → Nat
  | 1 => 8 | 2 => 16 | 3 => 48 | 4 => 16 | 5 => 16 | 6 => 32 | 7 => 8 | 8 => 32 | 9 => 16 | _ => 0

/-- Records a section may hold (R71). -/
def recMax : Nat → Nat
  | 1 => 320 | 2 => 320 | 3 => 131072 | 4 => 262144 | 5 => 65537 | 6 => 96 | 7 => 96 | 8 => 255 | 9 => 255 | _ => 0

/-- A record's key (R71). -/
def recKey (t : Nat) (r : Rec) : Nat :=
  match t with
  | 1 => bits r 0 9
  | 2 => bits r 0 9
  | 3 => bits r 0 17
  | 4 => bits r 0 20
  | 5 => if protKind r = 7 then 0x10000 else bits r 0 16
  | 6 => bits r 0 8 * 256 + bits r 8 8
  | 7 => bits r 0 8
  | 8 => bits r 0 8
  | 9 => bits r 0 8
  | _ => 0

/-- Reserved fields, as (first bit, width), of a record (R73 to R81). -/
def recReserved (t : Nat) (r : Rec) : List (Nat × Nat) :=
  match t with
  | 1 => [(24, 40)]
  | 2 => [(74, 54), (60, 4), (26, 6), (9, 7)]
  | 3 => [(362, 22), (175, 17), (163, 1), (132, 1), (55, 9)]
  | 4 => [(73, 55), (55, 1)]
  | 5 => if protKind r = 7 then [(58, 70)] else [(79, 49), (63, 1)]
  | 6 =>
    match bits r 0 8 with
    | 1 => [(120, 136), (20, 1)]
    | 2 => [(128, 128), (20, 4)]
    | 3 => [(96, 160), (20, 12)]
    | _ => []
  | 7 => [(36, 28)]
  | 8 => [(248, 8), (10, 54)]
  | 9 => [(32, 96), (13, 3)]
  | _ => []

/-- The electrical rate codes of R131, with 0 for optical ports. -/
def elecCodes : List Nat := [0, 1, 2, 3, 4, 5, 6, 7, 8, 9, 10, 11, 12, 0x20, 0x21, 0x22, 0x23, 0x24]

/-- The stack types of R74. -/
def stackTypes : List Nat := [1, 2, 3, 4, 0x10, 0x20, 0x30, 0x31, 0x32, 0x40]

/-- The tributary types of R75. -/
def tribTypes : List Nat :=
  [1, 2, 3, 4, 5, 6, 7, 8, 0x10, 0x11, 0x12, 0x13, 0x14, 0x15, 0x16, 0x17, 0x20, 0x21, 0x30, 0x31, 0x32, 0x33]

/-- `FUNC_PARAM` lies within the encoding of its function (R181, R523). A code that R181 does not list has no encoding
to check here. -/
def funcParamOk (f ty p : Nat) : Bool :=
  match f with
  | 0x001 => p < 2
  | 0x002 => p < 2
  | 0x003 => p = 0
  | 0x004 => p = 0
  | 0x005 => p < 1024 && p / 256 < 3 && (p / 256 = 0 || ty = 0x14)
  | 0x006 => 1 ≤ p && p ≤ 0xFFFE
  | 0x010 => p < 2
  | 0x011 => p = 0
  | 0x020 => p < 2
  | 0x021 => p = 0
  | 0x022 => if ty = 0x20 then p = 0 else [2, 3, 5, 6, 7].contains p
  | 0x030 =>
    p < 128 && p % 4 < 3 && p / 4 % 8 < 7 && (ty ≠ 0x16 || p / 32 < 3) && (ty ≠ 0x15 || p / 4 = 0)
  | _ => true

/-- The fields of a record lie within their encodings and ranges (0x0205: R73 to R81, R131, R356, R331, R517, R523). DESIGN CHOICE
(log 28): `INITIAL_REF` and `TAP_PORT` are judged at consistency (R294). -/
def recRangeOk (t : Nat) (r : Rec) : Bool :=
  match t with
  | 1 => elecCodes.contains (portElec r) && [0, 1, 2, 4, 5].contains (portMode r) && portCount r ≤ 4 && bits r 0 9 < 320
  | 2 =>
    stackTypes.contains (stackType r) && bits r 0 9 < 320 &&
    (if stackType r = 0x20 then
      1 ≤ stackPhy r && stackPhy r ≤ 254 && 1 ≤ stackGroup r && stackGroup r ≤ 0xFFFFE
     else stackPhy r = 0 && stackGroup r = 0)
  | 3 =>
    tribTypes.contains (tribType r) &&
    (if tribType r = 7 || tribType r = 0x20 then
      5000 ≤ tribRate r && tribRate r ≤ 835000 && tribRate r % 5000 = 0
     else tribRate r = 0) &&
    funcParamOk (tribFunc r) (tribType r) (tribParam r)
  | 4 => xconGroup r ≤ 0xFFFF || xconGroup r = 0x1FFFF
  | 5 =>
    if protKind r = 7 then
      bits r 0 16 = 0 && pairRole r ≤ 2 && 4 ≤ pairRenew r && 2 * pairRenew r ≤ pairLease r && 8 ≤ pairGuard r
    else protKind r ≤ 4 && protTcm r ≤ 6 && protWtr r ≤ 720 && protHold r ≤ 100
  | 6 =>
    match bits r 0 8 with
    | 1 => (bits r 8 8 ≤ 11 || (16 ≤ bits r 8 8 && bits r 8 8 ≤ 47)) && inQlForce r ≤ 0xB
    | 2 => bits r 8 8 ≤ 3 && dpBw r ≤ 13 && dpMode r ≤ 1 && 1 ≤ dpSlope r && dpSlope r ≤ 10000 && dpLostDays r ≠ 0
    | 3 => bits r 8 8 ≤ 11 || (16 ≤ bits r 8 8 && bits r 8 8 ≤ 19) || bits r 8 8 = 24
    | _ => false
  | 7 => powGroup r ≤ 0x5F && powSidings r ≤ 8
  | 8 => bits r 0 8 ≤ 254
  | 9 => 1 ≤ bits r 0 8 && bits r 0 8 ≤ 254
  | _ => false

/-- A record's own schema verdict: reserved bits first (0x0204), then ranges (0x0205). -/
def recSchema (t : Nat) (r : Rec) : Option Nat :=
  if (recReserved t r).any (fun f => bits r f.1 f.2 ≠ 0) then some 0x0204
  else if recRangeOk t r then none else some 0x0205

/-! ### Bytes -/

/-- `n` bytes of a list from `off`. -/
def sub (l : List Byte) (off n : Nat) : List Byte := (l.drop off).take n

/-- The `n`-byte little-endian field at `off`; absent bytes read 0. -/
def leAt (l : List Byte) (off n : Nat) : Nat := leNat (sub l off n)

/-- The code a failing section shows in `FAIL_SECTION` (R86): its type where the field holds it, else 0xF. -/
def failSect (t : Nat) : Nat := if 1 ≤ t ∧ t ≤ 0xE then t else 0xF

/-- No record is named (R86). -/
def noIndex : Nat := 0xFFFFFFFF

/-- A failure of integrity. -/
def failInt (sect reason : Nat) : ImgFail := { stage := 1, sect := sect, reason := reason, index := noIndex }

/-- A failure of schema. -/
def failSch (sect reason index : Nat) : ImgFail := { stage := 2, sect := sect, reason := reason, index := index }

/-- A check: the failure when the condition holds. -/
def chk (c : Bool) (f : ImgFail) : Option ImgFail := if c then some f else none

/-- The first failure of a list of checks. -/
def firstFail : List (Option ImgFail) → Option ImgFail
  | [] => none
  | some f :: _ => some f
  | none :: t => firstFail t

/-! ### Integrity -/

/-- The signature settings integrity reads (R83): whether an image must be signed, and the image keys by slot. -/
structure SigEnv where
  required : Bool
  keys : FMap (BitVec 768)
  minor : Nat

/-- Steps 4 and 5 of integrity, and the seal's place and length (R84): `off` is where the seal header stands. DESIGN CHOICE
(log 28): `KEY_SLOT` is judged only where `SIG_ALG` is 0x01. -/
def sealCheck (e : SigEnv) (l : List Byte) (len off : Nat) (crcs : Option ImgFail) : Option ImgFail :=
  let alg := leAt l (off + 4) 1
  let slot := leAt l (off + 5) 1
  let fin := off + 16 + (if alg = 1 then 96 else 0)
  firstFail [
    chk (1 < alg) (failInt 0 0x0108),
    chk (fin ≠ len) (failInt 0 0x0104),
    crcs,
    chk (crc32c (sub l 0 off) ≠ leAt l off 4) (failInt 0 0x0106),
    chk (e.required && alg = 0) (failInt 0 0x0107),
    chk (alg = 1 && (3 < slot || (e.keys.lookup slot).isNone)) (failInt 0 0x0109),
    chk (alg = 1 && !(Config.ecdsaOk ((e.keys.lookup slot).getD 0) (sub l 0 (off + 16)) (sub l (off + 16) 96)))
      (failInt 0 0x0108)]

/-- The walk over `n` sections from `off` (R84 step 2): where each begins, or the first that fails, with where it ends. -/
def walkSections (l : List Byte) (len : Nat) : Nat → Nat → Option ImgFail × List Nat × Nat
  | 0, off => (none, [], off)
  | n + 1, off =>
    let slen := leAt l (off + 8) 4
    if slen < 16 || len < off + slen + 16 then (some (failInt (failSect (leAt l off 1)) 0x0105), [], off)
    else
      let r := walkSections l len n (off + slen)
      (r.1, off :: r.2.1, r.2.2)

/-- The verdict of one section's check value (R84 step 3). -/
def sectionCrc (l : List Byte) (off : Nat) : Option ImgFail :=
  chk (crc32c (sub l (off + 16) (leAt l (off + 8) 4 - 16)) ≠ leAt l (off + 12) 4)
    (failInt (failSect (leAt l off 1)) 0x0105)

/-- Integrity of a full image of `l` bytes (R84); `seq` is the committed sequence. -/
def imageIntegrity (e : SigEnv) (seq : Nat) (l : List Byte) : Option ImgFail :=
  let len := leAt l 8 4
  match firstFail [
    chk (leAt l 0 3 ≠ 0x495341) (failInt 0 0x0101),
    chk (leAt l 3 1 ≠ 1 || e.minor < leAt l 4 1) (failInt 0 0x0102),
    chk (leAt l 6 2 ≠ 0x2304) (failInt 0 0x0103),
    chk (len ≠ l.length || 0x1000000 < len) (failInt 0 0x0104),
    chk (leAt l 12 4 = 0 || leAt l 12 4 ≤ seq) (failInt 0 0x010A)] with
  | some f => some f
  | none =>
    let w := walkSections l len (leAt l 16 2) 64
    match w.1 with
    | some f => some f
    | none => sealCheck e l len w.2.2 (firstFail (w.2.1.map (sectionCrc l)))

/-! ### Schema of a full image -/

/-- The record at index `i` of the section at `off`. -/
def recAt (l : List Byte) (off t i : Nat) : Rec := BitVec.ofNat 384 (leAt l (off + 16 + i * recBytes t) (recBytes t))

/-- Schema of one record after those before it (R84): the lowest of 0x0204, 0x0205, 0x0206, 0x0208. `seen` holds the keys
before it, newest first. -/
def recVerdict (t : Nat) (r : Rec) (seen : List Nat) : Option Nat :=
  match recSchema t r with
  | some c => some c
  | none =>
    if seen.contains (recKey t r) then some 0x0206
    else match seen with
      | k :: _ => if recKey t r < k then some 0x0208 else none
      | [] => none

/-- Schema of `n` records from index `i`, gathering the records by key. -/
def schemaRecords (l : List Byte) (off t : Nat) : Nat → Nat → List Nat → FMap Rec → Option ImgFail × FMap Rec
  | 0, _, _, m => (none, m)
  | n + 1, i, seen, m =>
    let r := recAt l off t i
    match recVerdict t r seen with
    | some c => (some (failSch t c i), m)
    | none => schemaRecords l off t n (i + 1) (recKey t r :: seen) (tput m (recKey t r) r)

/-- Schema of a section header (R70, R71): the lowest of 0x0201, 0x0202, 0x0204, 0x0207. `last` is the type before it. -/
def sectionHeader (l : List Byte) (off last : Nat) : Option ImgFail :=
  let t := leAt l off 1
  let n := leAt l (off + 2) 4
  firstFail [
    chk (recBytes t = 0 || t ≤ last) (failSch (failSect t) 0x0201 noIndex),
    chk (leAt l (off + 1) 1 * 8 ≠ recBytes t || leAt l (off + 8) 4 ≠ 16 + n * recBytes t)
      (failSch (failSect t) 0x0202 noIndex),
    chk (leAt l (off + 6) 2 ≠ 0) (failSch (failSect t) 0x0204 noIndex),
    chk (recMax t < n) (failSch (failSect t) 0x0207 noIndex)]

/-- Schema of the sections that begin at the given offsets. -/
def schemaSections (l : List Byte) : List Nat → Nat → FMap (FMap Rec) → Option ImgFail × FMap (FMap Rec)
  | [], _, m => (none, m)
  | off :: tl, last, m =>
    let t := leAt l off 1
    match sectionHeader l off last with
    | some f => (some f, m)
    | none =>
      let r := schemaRecords l off t (leAt l (off + 2) 4) 0 [] []
      match r.1 with
      | some f => (some f, m)
      | none => schemaSections l tl t (if r.2 = [] then m else tput m t r.2)

/-- No section may exceed its limit (R71, 0x0207); after the last section, PORT and TIMING must hold a record (R68, R84, 0x0203). -/
def schemaResult (secs : FMap (FMap Rec)) : Option ImgFail :=
  firstFail (secs.map (fun e => chk (recMax e.1 < e.2.length) (failSch e.1 0x0207 noIndex)) ++
    [chk ((tget [] secs 1) = []) (failSch 1 0x0203 noIndex), chk ((tget [] secs 6) = []) (failSch 6 0x0203 noIndex)])

/-- Schema of a full image that passed integrity: the image it states, or its first failure. DESIGN CHOICE (log 28): the reserved
bits of the seal header are judged after 0x0203. -/
def imageSchema (l : List Byte) : Option ImgFail × Image :=
  let w := walkSections l (leAt l 8 4) (leAt l 16 2) 64
  match firstFail [
    chk (leAt l 5 1 ≠ 0 || leAt l 18 2 ≠ 0 || leAt l 24 40 ≠ 0) (failSch 0 0x0204 noIndex),
    chk (9 < leAt l 16 2) (failSch 0 0x0205 noIndex)] with
  | some f => (some f, imageEmpty)
  | none =>
    let s := schemaSections l w.2.1 0 []
    let im : Image := { secs := s.2, seq := leAt l 12 4, build := BitVec.ofNat 32 (leAt l 20 4), minor := leAt l 4 1 }
    (firstFail [s.1, schemaResult s.2, chk (leAt l (w.2.2 + 6) 10 ≠ 0) (failSch 0 0x0204 noIndex)], im)

/-! ### Amendments -/

/-- Whether an operation has a body (R91): add and modify of a section type of R71. -/
def opHasBody (l : List Byte) (off : Nat) : Bool :=
  let op := leAt l off 1 % 4
  (op = 1 || op = 2) && recBytes (leAt l (off + 1) 1) ≠ 0

/-- Bytes of the operation at `off` (R91). -/
def opBytes (l : List Byte) (off : Nat) : Nat := 8 + (if opHasBody l off then recBytes (leAt l (off + 1) 1) else 0)

/-- The walk over `n` operations (R84). -/
def walkOps (l : List Byte) (len : Nat) : Nat → Nat → Nat → Option ImgFail × List Nat × Nat
  | 0, _, off => (none, [], off)
  | n + 1, i, off =>
    if len < off + opBytes l off + 16 then
      (some { failInt (failSect (leAt l (off + 1) 1)) 0x0105 with index := i }, [], off)
    else
      let r := walkOps l len n (i + 1) (off + opBytes l off)
      (r.1, off :: r.2.1, r.2.2)

/-- Integrity of an amendment (R84, R91). -/
def amendIntegrity (e : SigEnv) (l : List Byte) : Option ImgFail :=
  let len := leAt l 8 4
  match firstFail [
    chk (leAt l 0 3 ≠ 0x415341) (failInt 0 0x0101),
    chk (leAt l 3 1 ≠ 1) (failInt 0 0x0102),
    chk (leAt l 6 2 ≠ 0x2304) (failInt 0 0x0103),
    chk (len ≠ l.length || 0x1000000 < len) (failInt 0 0x0104)] with
  | some f => some f
  | none =>
    let w := walkOps l len (leAt l 20 4) 0 32
    match w.1 with
    | some f => some f
    | none => sealCheck e l len w.2.2 none

/-- One operation's verdict against the copy it applies to (R92, steps 1 to 7). -/
def opVerdict (l : List Byte) (off : Nat) (secs : FMap (FMap Rec)) : Option Nat :=
  let op := leAt l off 1 % 4
  let t := leAt l (off + 1) 1
  let key := leAt l (off + 2) 4
  let body := BitVec.ofNat 384 (leAt l (off + 8) (recBytes t))
  let held := ((tget [] secs t).lookup key).isSome
  if recBytes t = 0 then some 0x0201
  else if op = 0 then some 0x0205
  else if leAt l off 1 / 4 ≠ 0 || leAt l (off + 6) 2 ≠ 0 then some 0x0204
  else if op ≠ 3 && (recSchema t body).isSome then recSchema t body
  else if op ≠ 3 && recKey t body ≠ key then some 0x0205
  else if op = 1 && held then some 0x0206
  else if op ≠ 1 && !held then some 0x0209
  else none

/-- One operation applied (R91). -/
def opApply (l : List Byte) (off : Nat) (secs : FMap (FMap Rec)) : FMap (FMap Rec) :=
  let op := leAt l off 1 % 4
  let t := leAt l (off + 1) 1
  let key := leAt l (off + 2) 4
  let s := tget [] secs t
  if op = 3 then tset [] secs t (tdel s key)
  else tset [] secs t (tput s key (BitVec.ofNat 384 (leAt l (off + 8) (recBytes t))))

/-- The operations in order, each applied before the next is checked (R92). -/
def opsRun (l : List Byte) : List Nat → Nat → FMap (FMap Rec) → Option ImgFail × FMap (FMap Rec)
  | [], _, secs => (none, secs)
  | off :: tl, i, secs =>
    match opVerdict l off secs with
    | some c => (some (failSch (failSect (leAt l (off + 1) 1)) c i), secs)
    | none => opsRun l tl (i + 1) (opApply l off secs)

/-- An amendment that passed integrity, applied to the committed image (R92): `BASE_SEQ` first (0x0507 at stage 5),
header fields, operations, then the result's own schema. DESIGN CHOICE (log 28): the reserved bits of the seal header are judged
between the two. -/
def amendApply (im : Image) (l : List Byte) : Option ImgFail × Image :=
  if leAt l 12 4 ≠ im.seq then (some { stage := 5, sect := 0xF, reason := 0x0507, index := noIndex }, im)
  else
    match firstFail [
      chk (leAt l 4 2 ≠ 0 || leAt l 24 8 ≠ 0) (failSch 0 0x0204 noIndex),
      chk (leAt l 20 4 = 0 || 65536 < leAt l 20 4 || leAt l 16 4 ≤ leAt l 12 4) (failSch 0 0x0205 noIndex)] with
    | some f => (some f, im)
    | none =>
      let w := walkOps l (leAt l 8 4) (leAt l 20 4) 0 32
      let r := opsRun l w.2.1 0 im.secs
      (firstFail [r.1, chk (leAt l (w.2.2 + 6) 10 ≠ 0) (failSch 0 0x0204 noIndex), schemaResult r.2],
        { im with secs := r.2, seq := leAt l 16 4 })

/-! ### The image written out -/

/-- A section's records as bytes. -/
def sectionBody (t : Nat) (m : FMap Rec) : List Byte := (m.map (fun e => leBytes (recBytes t) e.2.toNat)).flatten

/-- A section as bytes, with its header (R70). -/
def sectionOut (t : Nat) (m : FMap Rec) : List Byte :=
  let b := sectionBody t m
  leBytes 1 t ++ leBytes 1 (recBytes t / 8) ++ leBytes 4 m.length ++ leBytes 2 0 ++ leBytes 4 (16 + b.length) ++
    leBytes 4 (crc32c b) ++ b

/-- The committed image as `READ_IMAGE` writes it (R94): full, unsigned, empty sections left out. -/
def imageOut (im : Image) : List Byte :=
  let ss := im.secs.filter (fun e => e.2 ≠ [])
  let body := (ss.map (fun e => sectionOut e.1 e.2)).flatten
  let hdr := leBytes 3 0x495341 ++ leBytes 1 1 ++ leBytes 1 im.minor ++ leBytes 1 0 ++ leBytes 2 0x2304 ++
    leBytes 4 (64 + body.length + 16) ++ leBytes 4 im.seq ++ leBytes 2 ss.length ++ leBytes 2 0 ++
    leBytes 4 im.build.toNat ++ leBytes 40 0
  hdr ++ body ++ leBytes 4 (crc32c (hdr ++ body)) ++ leBytes 12 0

end Sys2Proof.Machine
end

