-- ==== Sys2Proof/Machine/StateHost.lean ====
section
/-!
DEFINITION. State of the device as a whole and of the host interface: device state and tick (R30, R41), mailbox
(R425 to R428), interrupts (R422 to R424), queues (R432 to R435), notices (R240, R243), table access ports (R491), and
what the part sends outside.
-/
namespace Sys2Proof.Machine
open Sys2Proof

/-- The nine device states (R30). -/
inductive DevState where
  | cold | boot | awaitImage | validating | held | starting | running | standby | handover
  deriving DecidableEq, Repr

/-- A register whose writes take effect at the next tick boundary: the value last written, which a read returns (R11),
and the value in effect. -/
structure Timed where
  wr  : Word
  eff : Word
  deriving DecidableEq, Repr

/-- The device as a whole (R30, R31, R41, R37, R490). `tick` is the 64-bit tick count; `lit` whether line transmitters
may be lit; `sbDown` whether the signal box restarts or hands over (R37, R431); `done` names the once-per-tick steps
already taken in the present tick (the model's own, see the log). -/
structure DevSt where
  state   : DevState
  tick    : Nat
  tickHi  : Word
  tickCyc : BitVec 19
  lit     : Bool
  sbDown  : Bool
  scratch : Word
  done    : List Nat
  deriving DecidableEq, Repr

/-- A final result register, `MB_FINAL_IMG` or `MB_FINAL_UPD` (R428). -/
structure FinalSt where
  pending : Bool
  done    : Bool
  tag     : Byte
  reason  : BitVec 16
  deriving DecidableEq, Repr

/-- The command the mailbox holds while `BUSY` is 1: code, tag, tick A and parameters as accepted (R425 to R427). -/
structure MbCur where
  code   : Nat
  tag    : Byte
  accept : Nat
  p0 : Word
  p1 : Word
  p2 : Word
  p3 : Word
  deriving DecidableEq, Repr

/-- A reply that waits for the signal box (R431). -/
structure MbReply where
  result : Nat
  r0 : Word
  r1 : Word
  deriving DecidableEq, Repr

/-- The mailbox (R425, R426, R428). -/
structure MbSt where
  cur     : Option MbCur
  held    : Option MbReply
  done    : Bool
  overrun : Bool
  code    : BitVec 12
  tag     : Byte
  result  : Byte
  p0 : Word
  p1 : Word
  p2 : Word
  p3 : Word
  reply0 : Word
  reply1 : Word
  accept : Nat
  acceptHi : Word
  finalImg : FinalSt
  finalUpd : FinalSt
  deriving DecidableEq, Repr

/-- One MSI-X table entry (R424): message address, data, vector control (bit 0 masks). -/
structure MsixEnt where
  addrLo : Word
  addrHi : Word
  data   : Word
  ctl    : Word
  deriving DecidableEq, Repr

/-- Interrupt summary (R422 to R424). `pba` lists the vectors whose message is held, ascending. -/
structure IntSt where
  status : Byte
  enable : Byte
  vec0   : Word
  vec1   : Word
  pace   : BitVec 16
  msix   : FMap MsixEnt
  pba    : List Nat
  deriving DecidableEq, Repr

/-- One queue (R432 to R435): items in order of arrival, the rest of the packet a pop has started, captures and error
counts. -/
structure QueueSt where
  items   : List (BitVec 128)
  openPkt : List (BitVec 128)
  w2 : Word
  w1 : Word
  w0 : Word
  uncorr : Byte
  corr   : Byte
  deriving DecidableEq, Repr

/-- A notice before it is packed into an item (R240). -/
structure Notice where
  ntype : Nat
  prio  : Nat
  clear : Bool
  pk    : Nat
  lvl   : Nat
  family : Nat
  bit   : Nat
  ref   : Nat
  conseq : Nat
  tick  : Nat
  deriving DecidableEq, Repr

/-- Notices held in hub memory, and `NOTICE_STAT` (R243). -/
structure NoticeSt where
  held      : List Notice
  rootOvf   : Bool
  coalesced : BitVec 16
  deriving DecidableEq, Repr

/-- A table access port (R491, R492): the operation under way is a read or a write of the block at `offset`. -/
structure TapSt where
  offset : BitVec 22
  busy   : Bool
  done   : Bool
  overrun : Bool
  write  : Bool
  wordEn : BitVec 16
  data   : FMap Word
  deriving DecidableEq, Repr

/-- What stands in a tributary's place on a line or in a berth: its data, its replacement signal (R50) or its open-connection
signal (R203). -/
inductive Signal where
  | data | oduAis | auAis | tuAis | localFault | cpriIdle | oduOci | unequipped | nullOdu
  deriving DecidableEq, Repr

/-- What an egress window delivers (R200): nothing (R203, R214, R216), 3,200 zero bytes (R20, R219), the bytes a source window
(island, berth) carried in a tick, or the replacement signal that source sent in that tick (R49, R50). -/
inductive BerthData where
  | nothing
  | zeros
  | source (island berth tick : Nat)
  | replaced (sig : Signal)
  deriving DecidableEq, Repr

/-- What the part has sent outside, in order (the model's own record; no register shows it): MSI-X messages (R424),
Hokua messages with their body words (R365; `hokuaBad` with a bad FCS, R480), depot words that port B read, byte by byte as tokens (none for a zero byte, R441, R442), TODOUT messages (R350), overhead and packets taken for transmission (R172),
the fill of an empty ring's channels by item type, and what a client carries in place of or as the frames it took in (R163, R172),
edges of realigned outputs (R346), berth bytes delivered by the centre stage (R200). -/
inductive Output where
  | msix (vector : Nat) (addr : Word64) (data : Word)
  | hokua (kind : Nat) (words : List Nat)
  | hokuaBad (kind : Nat) (words : List Nat)
  | depotRead (island : Nat) (word : Nat) (what : List (Option (Nat × Nat)))
  | todout (bytes : List Byte)
  | ohSent (port : Nat) (items : List (BitVec 128))
  | ohFill (port : Nat) (fill : List (Nat × Nat))
  | client (port : Nat) (idle : Bool) (bytes : List Byte)
  | edge (target : Nat) (tick : Nat)
  | berth (island window : Nat) (what : BerthData) (delay : Nat)
  deriving DecidableEq, Repr

/-- The host side: what the last read returned, and what has been sent (R418, R424). -/
structure HostSt where
  readData : List Byte
  out      : List Output
  deriving DecidableEq, Repr

end Sys2Proof.Machine
end

