-- ==== Sys2Proof/Machine/StateDepot.lean ====
section
/-!
DEFINITION. State of the depots and their patrol (R437 to R453), the scan unit (R454 to R456), the performance counters and
port bandwidth (R457 to R463) and fault injection (R480 to R488), with the copies that tables updated at a boundary show.
-/
namespace Sys2Proof.Machine
open Sys2Proof

/-- A byte of a depot as a token (payload is symbolic, see the log): the number of the write that stored it, counted over both ports
of the island, and the lane of that write it came from (R439). A byte nothing has written since the clear is zero (R453). -/
abbrev DepByte := Nat × Nat

/-- One island's depot (R442, R446 to R451): counters of `DEPOT_STAT`, the region under test and whether its write-back has
been taken, the region the held buffer is bound to, the next region, regions put out since BOOT, regions queued for early
patrol, the boundary of the last start and of the last notice of an uncorrectable read. `bytes` the depot by byte address, `slots`
the number of the write that a context slot or junction port buffer window holds, by 2^22 × target + address (1 context slot, 2
window), `bad` the depot words found uncorrectable and not whole again (R442), `writes` how many writes have been numbered. -/
structure DepotSt where
  corr   : BitVec 48
  bLost  : BitVec 48
  uncorr : Word
  sCorr  : Word
  passes : BitVec 16
  borrowed : Option Nat
  back   : Bool
  held   : Option Nat
  next   : Nat
  newOut : Nat
  queue  : List Nat
  lastStart : Option Nat
  lastNote  : Option Nat
  bytes  : FMap DepByte
  slots  : FMap Nat
  bad    : List Nat
  writes : Nat
  deriving DecidableEq, Repr

/-- A scan channel (R455): registers, flags, the CRC register as the last run left it. -/
structure ScanSt where
  addr : Word
  len  : Word
  cont : Bool
  source : Nat
  poly : Nat
  island : Nat
  busy : Bool
  done : Bool
  overrun : Bool
  poison : Bool
  crc  : Nat
  resLo : Word
  resHi : Word
  deriving DecidableEq, Repr

/-- A performance counter (R457). -/
structure PcntSt where
  val : BitVec 48
  enable : Bool
  chain : Bool
  ovf : Bool
  scope : Nat
  ev  : Nat
  deriving DecidableEq, Repr

/-- The counters' registers (R457 to R463): `latchA` and `latchC` the capture latches of the two windows (R459); the snapshot
tick as written and as armed; the tick and values of the last snapshot; captures of `SNAP_LAST_HI`, `BW_END_HI` and of Window
C's tick; the bandwidth window: `BW_CTRL`, whether a full window is under way, bytes counted, the window last reported. -/
structure CountSt where
  cnt    : FMap PcntSt
  latchA : BitVec 16
  latchC : BitVec 16
  freeze : Bool
  userEn : Bool
  snapDone : Bool
  every  : Nat
  tickLo : Word
  tickHi : Word
  armed  : Option Nat
  last   : Nat
  lastHi : Word
  tickHiC : Word
  snap   : FMap (BitVec 48)
  bw     : Timed
  bwLive : Bool
  bwAcc  : FMap (Nat × Nat)
  bwPub  : FMap (BitVec 128)
  bwEnd  : Nat
  bwEndHi : Word
  deriving DecidableEq, Repr

/-- An injection slot (R482, R485): registers, states, the start tick in use; `seen` the selected messages counted from T and
`late` the messages a strait reorder holds, each with the messages it still waits for. -/
structure InjSlot where
  target : Word
  param  : Word
  seed   : Word
  startLo : Word
  startHi : Word
  duration : Word
  armed  : Bool
  running : Bool
  done   : Bool
  cut    : Bool
  events : Word
  seen   : Nat
  late   : List (Nat × Nat × List Nat)
  deriving DecidableEq, Repr

/-- Depots, patrol control, the scan unit, counters, injection, and the published copies of tables: lanes, contexts, depots
and engines as of the last boundary. -/
structure DepSt where
  isl    : FMap DepotSt
  patrol : Timed
  memStat : BitVec 6
  scan   : FMap ScanSt
  count  : CountSt
  injEn  : Bool
  inj    : FMap InjSlot
  lanePub : FMap (BitVec 512)
  ctxPub : FMap (BitVec 512)
  depPub : FMap (BitVec 512)
  deriving DecidableEq, Repr

def depotDflt : DepotSt := { corr := 0, bLost := 0, uncorr := 0, sCorr := 0, passes := 0, borrowed := none, back := false, held := none, next := 0, newOut := 0, queue := [], lastStart := none, lastNote := none, bytes := [], slots := [], bad := [], writes := 0 }
/-- The reset values of a scan channel (R455). -/
def scanDflt : ScanSt := { addr := 0, len := 1, cont := false, source := 0, poly := 0, island := 0, busy := false, done := false, overrun := false, poison := false, crc := 0, resLo := 0, resHi := 0 }
/-- The reset values of a counter (R457). -/
def pcntDflt : PcntSt := { val := 0, enable := false, chain := false, ovf := false, scope := 0x1FF, ev := 0 }
/-- The reset values of an injection slot (R482). -/
def injDflt : InjSlot := { target := 0, param := 0, seed := 1, startLo := 0, startHi := 0, duration := 0, armed := false, running := false, done := false, cut := false, events := 0, seen := 0, late := [] }
def countReset : CountSt := { cnt := [], latchA := 0, latchC := 0, freeze := false, userEn := false, snapDone := false, every := 0, tickLo := 0, tickHi := 0, armed := none, last := 0, lastHi := 0, tickHiC := 0, snap := [], bw := { wr := 0x1F40, eff := 0x1F40 }, bwLive := false, bwAcc := [], bwPub := [], bwEnd := 0, bwEndHi := 0 }
/-- Depots, scan unit, counters and injection at reset (R450, R455, R457, R462, R482). -/
def depReset : DepSt := { isl := [], patrol := { wr := 0x80000008, eff := 0x80000008 }, memStat := 0, scan := [], count := countReset, injEn := false, inj := [], lanePub := [], ctxPub := [], depPub := [] }

end Sys2Proof.Machine
end

