-- ==== Sys2Proof/Machine/StateDp.lean ====
section
/-!
DEFINITION. State of the datapath: engines and islands (R52, R105 to R115), causeways (R18 to R21), tributary contexts
(R174 to R177).
-/
namespace Sys2Proof.Machine
open Sys2Proof

/-- One engine (R52, R115): tag, list, `ROLE`, `CAUSE`, `STALE_WRITES`; overruns since BOOT, the boundaries of those of the
last 8,000 ticks, the latest finish of the last complete window and of the present one; the lowest death cause seen in
the present tick (0 none, R106); whether it is halted for the rest of the tick; `flush` the cycles of the present tick its flush
takes before its list runs (R49); `pad` the 64-bit words of its 128 KiB scratchpad, each as the number of the write that stored it
last, counted by `padWrites` (R22, R443). -/
structure EngSt where
  tag    : Byte
  list   : Nat
  role   : Nat
  cause  : Nat
  stale  : BitVec 12
  total  : BitVec 24
  recent : List Nat
  peak   : BitVec 19
  winPeak : BitVec 19
  seen   : Nat
  halted : Bool
  flush  : Nat
  pad    : FMap Nat
  padWrites : Nat
  deriving DecidableEq, Repr

/-- One island (R105, R107 to R110): epoch of each list, engine bound to each list, lists whose new engine starts at the
boundary after its binding (with that boundary), orphaned lists, number of lists, engines and 4 KiB regions out, what the
twin sent. -/
structure IslSt where
  epochs  : FMap Byte
  bind    : FMap Nat
  starts  : FMap Nat
  orphans : List Nat
  nlists  : Nat
  engOut  : BitVec 16
  twinOut : BitVec 16
  regions : List Nat
  twinRegions : List Nat
  twinMerged  : Bool
  deriving DecidableEq, Repr

/-- One causeway (R18 to R21): spare lanes used, lanes declared bad and awaiting a spare at the next boundary, whether it
has failed, uncorrectable flits, retransmissions. -/
structure CwySt where
  used   : Nat
  badNow : Nat
  failed : Bool
  uncorr : BitVec 48
  retrans : Nat
  deriving DecidableEq, Repr

/-- The live context of one tributary (R174 to R177, R528). `repl` the tributary emits its replacement signal in the
present tick and `replLast` it did in the last; `errored` its data of the tick is marked errored (R20, R216, R219);
`unf` it is marked unfinished for the tick (R49, R106); `upd` its entry has been updated in the tick (R176); `until_` the tick
up to which it reacquires after initialisation; `fills` the ring fills of the last 64 ticks, latest first, `adjAt` the tick of the last generated pointer adjustment and `fresh` a new
alignment since the commit (R192); `calRx` and `calTx` the receive and transmit calendars of a FlexE client have yet to switch (R187); `slip` the last tick with a slip. -/
structure CtxSt where
  func   : BitVec 96
  neg    : Word
  pos    : Word
  unfinished : Word
  range  : Word
  fill   : BitVec 16
  oor    : Bool
  slip   : Nat
  repl   : Bool
  replLast : Bool
  errored : Bool
  unf    : Bool
  upd    : Bool
  until_ : Nat
  fills  : List Nat
  adjAt  : Nat
  fresh  : Bool
  calRx  : Bool
  calTx  : Bool
  seq    : BitVec 16
  deriving DecidableEq, Repr

end Sys2Proof.Machine
end

