-- ==== Sys2Proof/Machine/StateLine.lean ====
section
/-!
DEFINITION. State of lanes and laser inputs (R116 to R143), of alignment (R144 to R158), of traces (R164, R165) and of the
overhead channels (R166 to R172); state of power groups, sensors, reset and sideband (R464 to R479).
-/
namespace Sys2Proof.Machine
open Sys2Proof

/-- Receiver states of a lane (R138). -/
inductive RxState where
  | off | noSignal | adapting | qicHunt | locked
  deriving DecidableEq, Repr

/-- What a lane and its port decoded in one tick, for the estimates of R143: `qicErr` of `qicBits` received on the lane; `rsErr` of `rsBits`, both
as multiples that make the port's equal shares whole. -/
structure BerTick where
  tick : Nat
  qicErr : Nat
  qicBits : Nat
  rsErr : Nat
  rsBits : Nat
  deriving DecidableEq, Repr

/-- One lane (R138, R141): `huntTick` the tick it entered QIC_HUNT; `lowWin` consecutive LOCKED windows below 32 and `hyp` the adopted
hypothesis, 8 × bit offset + phase (R127); `lockTick` whether it was LOCKED at some time of the present tick; `ber` the ticks of the last 8,000 in
which it decoded, latest first (R143). -/
structure LaneSt where
  rx : RxState
  los : Bool
  losses : BitVec 16
  lowWin : Nat
  huntTick : Nat
  hyp : Nat
  lockTick : Bool
  logical : BitVec 3
  rsUncorr : BitVec 48
  rsCorr : BitVec 48
  rsCw : BitVec 48
  qicUncorr : BitVec 48
  qicCorr : BitVec 48
  qicCw : BitVec 48
  snr : BitVec 16
  preRs : BitVec 16
  preQic : BitVec 16
  ber : List BerTick
  rxPower : BitVec 16
  txPower : BitVec 16
  deriving DecidableEq, Repr

/-- Skew of a port at its last lock (R135, R140). -/
structure SkewSt where
  ns : BitVec 10
  seen : Bool
  bad : Bool
  deriving DecidableEq, Repr

/-- One laser input (R120): `lost` its feed fell below the loss threshold and `recal` the recalibration runs (either shows `FEED_LOSS`); `dark` its lanes
stay muted until the next boundary with the feed sound; `power` as last measured (R141). -/
structure LaserSt where
  lost : Bool
  recal : Bool
  dark : Bool
  power : BitVec 16
  deriving DecidableEq, Repr

/-- A `LANE_EQ` or `TS_PORT` entry whose writes take effect at the next boundary (R134, R338). -/
structure Timed64 where
  wr  : Word64
  eff : Word64
  deriving DecidableEq, Repr

/-- States of an alignment unit (R145, R157). -/
inductive AlignState where
  | hunt | arbitrate | inFrame
  deriving DecidableEq, Repr

/-- A candidate position (R145): hits, whether confirmed, whether another was confirmed since, score over the frames of
the round; `tag` and `crc` what the discriminator keeps of the last hit (R146). -/
structure Cand where
  pos : Nat
  hits : Nat
  confirmed : Bool
  rival : Bool
  score : Nat
  frames : Nat
  tag : Nat
  crc : Bool
  deriving DecidableEq, Repr

/-- A multiframe (R156): whether in it, consecutive frames or multiframes that speak for and against it, the tick from which it has been out,
loss of multiframe, the place in the multiframe (its length where unknown) and the last bit seen. -/
structure MfSt where
  isIn : Bool
  good : Nat
  bad  : Nat
  out  : Nat
  lom  : Bool
  pos  : Nat
  last : Nat
  deriving DecidableEq, Repr

/-- One alignment unit (R145, R148, R152, R156): `pos` the adopted position, or the offset being tested in a HUNT that tests one at a time; `miss` and `seen`
the misses and positions of the adopted position's count, `outSince` and `inSince` the tick from which it has been out of or in IF,
`fasMiss` consecutive frames without the slice's FAS, `mf` its multiframe and `smf` its OTUC slice's; `ids` what its last sound overhead showed
(R151, R162). -/
structure AlignSt where
  state : AlignState
  cands : List Cand
  pos : Nat
  miss : Nat
  seen : Nat
  outSince : Nat
  inSince : Nat
  lof : Bool
  fasMiss : Nat
  sliceOof : Bool
  mf : MfSt
  smf : MfSt
  ids : Option (Nat × Nat × Nat)
  deriving DecidableEq, Repr

/-- `PORT_ALIGN` flags of a port (R157). -/
structure PortAlignSt where
  lookalike : Bool
  rival : Bool
  losses : BitVec 16
  deriving DecidableEq, Repr

/-- A `TRACE` entry (R164, R165): `txEff` the trace being sent; `cand` the value last
received and how often in a row. -/
structure TraceSt where
  tx : BitVec 512
  exp : BitVec 512
  acc : BitVec 512
  accValid : Bool
  format : Bool
  timMode : BitVec 3
  txEff : BitVec 512
  cand : BitVec 512
  run : Nat
  deriving DecidableEq, Repr

/-- A two-step message sent and awaiting its timestamp item (R339). -/
structure TwoStep where
  cookie : BitVec 16
  stamp : Nat
  deriving DecidableEq, Repr

/-- The overhead channels of a port (R169 to R172): `gaps` the item types whose next item carries `GAP`, `last7e` those
whose last byte was 0x7E, `part` the bytes of a channel that do not yet fill an item, `pktTick` the tick at which the packet at the ring's head became whole. -/
structure OhPortSt where
  cons : BitVec 16
  prod : BitVec 16
  rxDiscard : BitVec 16
  txDiscard : BitVec 16
  gaps : List Nat
  last7e : List Nat
  part : FMap (List Byte)
  pktTick : Option Nat
  twoStep : List TwoStep
  deriving DecidableEq, Repr

/-- The low-order multiframe of a VC-4 (R156): whether in multiframe, consecutive correct and breaking frames, frames out
of it, the place H4 is expected to show (4 where unknown). -/
structure H4St where
  isIn : Bool
  good : Nat
  bad  : Nat
  out  : Nat
  pos  : Nat
  deriving DecidableEq, Repr

/-- A value accepted after equal frames (R185, R225): the value last received, how often in a row, the accepted one. -/
structure AccSt where
  cand : Nat
  run  : Nat
  acc  : Option Nat
  deriving DecidableEq, Repr

/-- A pointer's interpreter (R192): accepted value, `PTR_STATE`, the value last received and how often in a row, consecutive invalid
pointers, NDF and all-ones. -/
structure PtrSt where
  acc   : Nat
  state : Nat
  cand  : Nat
  run   : Nat
  bad   : Nat
  ndf   : Nat
  ones  : Nat
  deriving DecidableEq, Repr

/-- A defect read from frames (R224, R225): its bit, the consecutive frames that raise it and that clear it, whether this frame shows it. -/
structure FrameInd where
  bit : Nat
  nd : Nat
  nc : Nat
  ind : Bool
  deriving DecidableEq, Repr

/-- What a framer writes into a port's section overhead (R159 to R162, R229): `ids` of the instances (GID, PID and MAP; group, PHY number and map),
`remote` BDI, RDI, RF or RPF, `errors` the violations BEI, REI or M1 carry back, `s1` the QL's SSM, `fill` what empty channels carry, `cal` the calendar in use. -/
structure TxSection where
  ids : List (Nat × Nat × Nat)
  trace : BitVec 512
  remote : Bool
  errors : Nat
  s1 : Option Nat
  aps : Option Word
  fill : List (Nat × Nat)
  cal : Option Bool
  deriving DecidableEq, Repr

/-- What a mapping function writes into a tributary's overhead where the part originates it (R159, R161, R185, R191, R229); `cnd` whether CnD is sent. -/
structure TxPath where
  trace : BitVec 512
  remote : Bool
  errors : Nat
  payload : Option Nat
  msi : List (Nat × Nat)
  cnd : Bool
  aps : Option Word
  deriving DecidableEq, Repr

/-- The calendars of a FlexE group (R187): which is in use on transmit and on receive (0 A, 1 B), whether the transmit one has yet to
switch, and the client ID of each slot in both transmit calendars. -/
structure CalSt where
  inUse : Bool
  rx : Bool
  due : Bool
  a : FMap Nat
  b : FMap Nat
  deriving DecidableEq, Repr

/-- The line side: lanes, skew of ports, laser inputs (2 × engine, + 1 for B), `LANE_EQ`, `TS_PORT`, alignment units by
64 × port + unit, `PORT_ALIGN`, traces, overhead channels, island staging, low-order multiframes, accepted values by defect (R225), pointers by
tributary, FTFL of path points by tributary (R159), calendars by FlexE group. -/
structure LineSt where
  lanes  : FMap LaneSt
  skew   : FMap SkewSt
  lasers : FMap LaserSt
  laneEq : FMap Timed64
  tsPort : FMap Timed64
  align  : FMap AlignSt
  portAlign : FMap PortAlignSt
  trace  : FMap TraceSt
  oh     : FMap OhPortSt
  staging : FMap (List (BitVec 128))
  h4     : FMap H4St
  acc    : FMap AccSt
  ptr    : FMap PtrSt
  ftfl   : FMap (List Byte)
  cal    : FMap CalSt
  deriving DecidableEq, Repr

/-- A power group (R465 to R467): state, the tick its wake began, whether woken for a pending change and from what
state, wakes since BOOT, whether its faults spoil the wake, the phase of an
optical engine group's wake (R139: 1 supplies, 2 calibration, 3 adaptation, 4 QIC hunt). -/
structure GroupSt where
  state : Nat
  waking : Option Nat
  former : Option Nat
  wakes : BitVec 16
  faulty : Bool
  phase : Nat
  deriving DecidableEq, Repr

/-- Power, reset and sideband (R464 to R479). `temps` the last sensor readings; `warn` and `throt` the sensors standing at
those levels; the trip record of R475 and R473; `hold` COLD holds after a trip until the sensors are cool. -/
structure PowerSt where
  groups : FMap GroupSt
  temps : FMap Int
  warn : List Nat
  throt : List Nat
  therm : Timed
  warnSeen : Bool
  throtSeen : Bool
  causeReg : Word
  cause : Nat
  tripSensor : Nat
  tripTemp : Int
  supplies : BitVec 4
  coldTick : Nat
  straps : BitVec 6
  alert : BitVec 3
  armed : Bool
  hold : Bool
  suppliesOk : Bool
  resetLow : Bool
  deriving DecidableEq, Repr

end Sys2Proof.Machine
end

