-- ==== Sys2Proof/Machine/StatePair.lean ====
section
/-!
DEFINITION. State of a pair of parts (R354 to R382): tablet, lease, interlock, strait link, twin, drill, mirror.
-/
namespace Sys2Proof.Machine
open Sys2Proof

/-- What the part knows of its twin (R355, R363, R365, R366): the last header's fields, strap and fingerprint of the present
BOOT, pairing record, and the last `STATUS` with its tick. -/
structure TwinSt where
  state  : Nat
  holder : Bool
  epoch  : Nat
  imgSeq : Nat
  strap  : Option Bool
  fp     : Option Word64
  role   : Nat
  unproven : Bool
  ready  : Bool
  warm   : Bool
  statTick : Option Nat
  deriving DecidableEq, Repr

/-- An interlock input (R361): present now; seen present, and seen released, in the present tick. -/
structure LoopIn where
  present : Bool
  sawOn   : Bool
  sawOff  : Bool
  deriving DecidableEq, Repr

/-- A drill under way at the holder (R378): its swap tick, `RETURN_S`, whether acknowledged, whether the mailbox waits for it. -/
structure DrillSt where
  swap  : Nat
  ret   : Nat
  acked : Bool
  mailbox : Bool
  deriving DecidableEq, Repr

/-- A mirrored region the standby holds (R374): its generation, capture tick and content. -/
structure RegionSt where
  gen     : Nat
  capture : Nat
  items   : List MirrorItem
  deriving DecidableEq, Repr

/-- A complete journal record (R373). -/
structure JnlRec where
  tick    : Nat
  changes : List (Nat × Nat × MirrorItem)
  writes  : List (Nat × Word)
  cmds    : List Word
  deriving DecidableEq, Repr

/-- The mirror (R372 to R374). Holder: the generation being sent, with the regions sent, when it started, and how many it
sent in the present tick; the register writes and commands of the present tick and of the last. Standby: regions held by
class × 2^24 + region, whether a whole generation stands, the last complete one, complete journal records, the last one's
tick, `STALE`; `seq` and `digest` the placement it belongs to. -/
structure MirrorSt where
  gen     : Nat
  active  : Bool
  sent    : Nat
  sentTick : Nat
  startAt : Nat
  writes  : List (Nat × Word)
  cmds    : List Word
  lastWrites : List (Nat × Word)
  lastCmds : List Word
  regions : FMap RegionSt
  full    : Bool
  lastGen : Nat
  records : List JnlRec
  lastRec : Option Nat
  stale   : Bool
  seq     : Nat
  digest  : Word
  twinRec : Nat
  again   : Bool
  deriving DecidableEq, Repr

/-- The pair. `seen` the highest epoch in any valid message; `acq` the acquisition tick; `acked` the tick in which the latest
acknowledged renewal was sent; `sends` the renewals not yet acknowledged by `MSG_SEQ`; `renewed` the tick of the latest
renewal received in this STANDBY and `entered` the tick of its entry; `released` the tick in which a RELEASE with the holder's
epoch arrived that no renewal has followed, `relCode` its code; `gaveOnce` the part has given up on the interlock tie-break since the link was last up;
`tieRun` ticks INTLK_IN was present while INTLK_OUT was driven; `lastMsg` the tick of the last valid message; `hubBad` hub
health lost (R362); `withheld` the release codes withheld; `causes` the degrade causes notified; `dualTold` double holding
already notified; `handAt` the boundary T of a takeover and `warm` whether it is warm, `mode` its `TAKEN` mode; `drillRet`
the return a drill taken up here owes; `retAt` the boundary at which it is due; `run` ticks toward a proven path. -/
structure PairSt where
  holder  : Bool
  epoch   : Nat
  seen    : Nat
  acq     : Nat
  acked   : Nat
  sends   : List (Nat × Nat)
  renewAt : Nat
  renewed : Option Nat
  entered : Nat
  released : Option Nat
  relCode : Nat
  yielded : Bool
  gaveOnce : Bool
  tieRun  : Nat
  linkUp  : Bool
  lanesUp : Bool
  helloAt : Nat
  lastMsg : Nat
  msgSeq  : Nat
  hubBad  : Bool
  intlk   : LoopIn
  echo    : LoopIn
  twin    : TwinSt
  strapMis : Bool
  cfgMis  : Bool
  placeMis : Bool
  dual    : Bool
  dualTold : Bool
  lastRel : Nat
  withheld : List Nat
  causes  : Nat
  handAt  : Nat
  warm    : Bool
  mode    : Nat
  drill   : Option DrillSt
  drillIn : Option (Nat × Nat)
  drillRet : Nat
  retAt   : Option Nat
  unproven : Bool
  run     : Nat
  twinTick : Int
  twinHi  : Word
  mirror  : MirrorSt
  mapSent : List (Nat × Nat × List Nat)
  deriving DecidableEq, Repr

end Sys2Proof.Machine
end

