-- ==== Sys2Proof/Machine/StateProt.lean ====
section
/-!
DEFINITION. State of path and line protection (R268 to R289).
-/
namespace Sys2Proof.Machine
open Sys2Proof

/-- One member of a group (R272, R275): the condition posted for the last tick, that of the last tick evaluated, the
evaluations left on its hold-off timer, whether its SF or SD request stands, and the tick whose evaluation raised SD. -/
structure MemSt where
  inSf  : Bool
  inSd  : Bool
  sf    : Bool
  sd    : Bool
  hold  : Nat
  reqSf : Bool
  reqSd : Bool
  sdAt  : Nat
  deriving DecidableEq, Repr

/-- An APS channel's receiver (R279): the value last received and how often in a row. -/
structure ApsRxSt where
  cand : Word
  run  : Nat
  deriving DecidableEq, Repr

/-- One protection group (R274 to R286). `loc` the state the group's own requests give, `state` the one it is in, `remote`
set by a far-end request; `wtr` evaluations left; `accepted` the far-end value accepted so far and `far` that posted for the
last tick, each with whether there is one; `sent` the value being sent and `next` that of the last evaluation; `select` and
`bridge` of the last evaluation, `decided` the boundary at which a changed selection is due, `cause` its state code;
`nrSince` the evaluation since which the far end has not returned the requested signal; `busy` whether a request of rank 1 to
6 was present at the last evaluation; `evalAt` the tick of the last evaluation; `born` the boundary it started at; `told` the
protocol failures last notified (bit 0 `FOP_PM`, 1 `FOP_CM`, 2 `FOP_NR`). -/
structure GrpSt where
  w : MemSt
  p : MemSt
  state  : Nat
  loc    : Nat
  remote : Bool
  standing : Nat
  wtr    : Nat
  rx     : ApsRxSt
  rxW    : ApsRxSt
  accepted : Option Word
  far    : Option Word
  badRun : Nat
  okRun  : Nat
  sent   : Word
  next   : Word
  bridged : Bool
  bridge : Bool
  select : Bool
  decided : Option Nat
  cause  : Nat
  fopPm  : Bool
  fopCm  : Bool
  fopNr  : Bool
  told   : Nat
  nrSince : Option Nat
  busy   : Bool
  evalAt : Nat
  born   : Nat
  lastSwitch : Nat
  deriving DecidableEq, Repr

/-- Protection: the groups of the committed image, and `PROT_GRP` as last updated. -/
structure ProtSt where
  groups : FMap GrpSt
  pub    : FMap (BitVec 256)
  deriving DecidableEq, Repr

end Sys2Proof.Machine
end

