-- ==== Sys2Proof/Machine/StateSvc.lean ====
section
/-!
DEFINITION. State of defects and correlation (R221 to R244) and of performance monitoring (R245 to R267).
-/
namespace Sys2Proof.Machine
open Sys2Proof

/-- One defect of one point (R223 to R230): present now, present in some cycle of the present tick, consecutive frames that
speak against its present standing, consecutive ticks present and unsuppressed, consecutive ticks absent while failed,
whether a failure is declared and when. -/
structure DefSt where
  present : Bool
  inTick  : Bool
  run     : Nat
  pres    : Nat
  abs     : Nat
  failed  : Bool
  decl    : Nat
  deriving DecidableEq, Repr

/-- One open root (R232 to R236). `kind` 1 tree, 2 burst, 3 causeway; `list` its consequents, `prior` those with an earlier
notice; `slot` and `base` its places in the tables, if it has any; `reported` the count last notified; `ended` its notice
was superseded (R232). -/
structure Root where
  kind   : Nat
  pk     : Nat
  ref    : Nat
  lvl    : Nat
  bit    : Nat
  family : Nat
  decl   : Nat
  cls    : Nat
  list   : List Nat
  prior  : List Nat
  slot   : Option Nat
  base   : Nat
  raised : Bool
  reported : Nat
  lastUpd : Option Nat
  ended  : Bool
  deriving DecidableEq, Repr

/-- A collection window (R233, R526): key, tick N, end, `CORR_MIN` as it opened, members that cleared (key, declaration,
clearing). -/
structure CorrWin where
  family : Nat
  port   : Nat
  start  : Nat
  fin    : Nat
  least  : Nat
  gone   : List (Nat × Nat × Nat)
  deriving DecidableEq, Repr

/-- What became of a declared failure (R232, R233): `how` 0 point notice, 1 tree root, 2 window or burst, 3 held by a root;
whether a notice of it was raised; its declaration tick; its burst key. -/
structure FailSt where
  how    : Nat
  told   : Bool
  decl   : Nat
  family : Nat
  port   : Nat
  deriving DecidableEq, Repr

/-- Defects and correlation. `repl` the tributaries that send their replacement signal for an SF defect (R227), `ind` the
points whose reverse direction carries a remote indication (R229: 2 × 131,072 + port, 4 × 131,072 + tributary); `b2` the B2
counts of a port's last 80 ticks, latest first (R224); `aux` the standing of IAE and BIAE at TCM points, either of which makes dIAE (R225); `rei` the BIP violations of the last tick that BEI and REI carry back, by the keys of `ind` (R229); `rawPub` and `failPub` what the tables show (R237). -/
structure DefectsSt where
  d     : FMap DefSt
  ctrl  : Timed
  corr  : Timed
  corrSeq : Word
  roots : List Root
  wins  : List CorrWin
  fails : FMap FailSt
  repl  : List Nat
  ind   : List Nat
  b2    : FMap (List Nat)
  aux   : FMap DefSt
  rei   : FMap Nat
  rawPub : List Nat
  failPub : List Nat
  deriving DecidableEq, Repr

/-- One bin of one end (R258, R259). -/
structure PmBin where
  part : Bool
  late : Bool
  uas  : Nat
  ses  : Nat
  es   : Nat
  bbe  : Nat
  deriving DecidableEq, Repr

/-- A counted second that a correction may still reach (R255, R256): its verdict, its BBE, the quarter and day it fell in. -/
structure PmSec where
  es  : Bool
  ses : Bool
  bbe : Nat
  q   : Nat
  d   : Nat
  deriving DecidableEq, Repr

/-- One end of a point: availability, run, last 9 seconds (latest first), 15-minute slots 0 to 4, 24-hour slots 0 and 1,
thresholds already notified in the current bins (0 to 3 for 15 minutes, 4 to 7 for 24 hours). -/
structure PmEndSt where
  avail : Bool
  run   : Nat
  hist  : List PmSec
  b15   : FMap PmBin
  b24   : FMap PmBin
  told  : List Nat
  deriving DecidableEq, Repr

/-- Second accumulators (R252 to R254). -/
structure PmAcc where
  blocks : Nat
  ne  : Nat
  fe  : Nat
  sf  : Bool
  iae : Bool
  biae : Bool
  fdef : Bool
  pos : Nat
  neg : Nat
  int : Nat
  deriving DecidableEq, Repr

/-- Extras of a quarter (R260). -/
structure PmEx where
  pos : Nat
  neg : Nat
  int : Nat
  deriving DecidableEq, Repr

/-- What `dDEG` of a point rests on (R228): blocks, errored blocks and SF of the present second; consecutive bad and good seconds, or for SDH the seconds,
errored blocks and blocks of the present estimate. -/
structure DegSt where
  blocks : Nat
  ne  : Nat
  sf  : Bool
  bad : Nat
  good : Nat
  sec : Nat
  err : Nat
  blk : Nat
  deriving DecidableEq, Repr

/-- A point's record (R257). -/
structure PmRecSt where
  ne  : PmEndSt
  fe  : PmEndSt
  ex0 : PmEx
  ex1 : PmEx
  acc : PmAcc
  deriving DecidableEq, Repr

/-- Performance monitoring. `points` the tributary and level of each point number; `recs` the records by point number,
section point j at 0x40000 + j; `deg` the standing of `dDEG` at the same keys, whatever `SEC_EN` says; `freed` the numbers a commit freed, until C+1. -/
structure PmSt where
  points : FMap (Nat × Nat)
  recs   : FMap PmRecSt
  deg    : FMap DegSt
  freed  : List Nat
  originLo : Word
  originHi : Word
  origin : Nat
  armed  : Option Nat
  quarter : Nat
  day    : Nat
  capQ   : Word
  capD   : Word
  ctrl   : Timed
  deriving DecidableEq, Repr

end Sys2Proof.Machine
end

