-- ==== Sys2Proof/Machine/StateTim.lean ====
section
/-!
DEFINITION. State of the timing block (R290 to R353): inputs, DPLLs, the oscillator and its models, T1's time, SOFTWARE mode
and the outputs. Frequencies are in units of 10 to the minus 15 ("fx") or 0.01 ppb, temperatures in 0.01 degree, times in
0.25 ns.
-/
namespace Sys2Proof.Machine
open Sys2Proof

/-- A timing input (R290 to R302). `act` the activity monitor's verdict; `open_` it declared no activity in the present tick;
`offset` 0.01 ppb; `measured` a full window since activity; `qualTick` when it last entered QUALIFYING; `secSum`, `secCnt` the
offsets of the present minute and `mins` those of the last 60 minutes, latest first (R300); `dRaw` its own drift and `drift`
the judged one, 0.0001 ppb/h; time of day: last second named, consecutive messages, pulses and tick since the last one that
continued, whether one has come since the last pulse, UTC fields; `rxQl` the received QL with the S1 value being counted and the tick of the last
ESMC PDU. -/
structure InSt where
  status : Nat
  reason : Nat
  act    : Bool
  open_  : Bool
  offset : Int
  measured : Bool
  qualLeft : Nat
  qualTick : Nat
  soft   : Bool
  hard   : Bool
  secSum : Int
  secCnt : Nat
  mins   : List (Int × Nat)
  dRaw   : Option Int
  drift  : Int
  driftWarn : Bool
  driftRun  : Nat
  driftTick : Nat
  timeOffset : Int
  timePrev : Option Int
  jump   : Bool
  todOk  : Bool
  todLast : Option Nat
  todRun : Nat
  todPulses : Nat
  todTick : Nat
  todFresh : Bool
  utc    : BitVec 16
  leap   : BitVec 2
  rxQl   : Nat
  s1     : Nat
  s1Run  : Nat
  esmcTick : Nat
  tapLane : Nat
  deriving DecidableEq, Repr

/-- One minute record (R322). `hours` in service; `period` numbers the unbroken periods on one reference (R328). -/
structure MinRec where
  fin    : Nat
  ctl    : Int
  temp   : Int
  usable : Bool
  hours  : Nat
  period : Nat
  deriving DecidableEq, Repr

/-- A holdover (R323 to R331): its boundary H, span end E, baseline B, its standard error, mean temperature, records used,
whether the guard was extended, P0 and the temperature term of P so far in fs, P in fs. -/
structure HoSt where
  h    : Nat
  e    : Nat
  base : Int
  ub   : Nat
  thB  : Int
  used : Nat
  ext  : Bool
  p0   : Nat
  tsum : Nat
  pred : Nat
  deriving DecidableEq, Repr

/-- A conflict (R307): R and X, warning only, consecutive seconds within 0.8 of the threshold. -/
structure ConfSt where
  r : Nat
  x : Nat
  warn : Bool
  near : Nat
  deriving DecidableEq, Repr

/-- One DPLL. State codes of R316; inputs by index, 0x3F none; `aside` with seconds near the winner; `wtr` seconds left;
`cmd` 1 while a `REF_SELECT` and 2 while a commit named the host's choice at this boundary; `span` end of the measurement
span of a switch under way; `lockFrom` and `badFrom` the boundaries since which the lock criteria held or the phase error lay
beyond 1 us; `lastTicks` the frequency in each of the last 8,000 ticks; `secs` the mean frequency of the last 60 seconds, latest first; sums of the present second and minute; `ring`
the minute records, latest first; `fromSw` it has just left SOFTWARE mode; `warns` the drift ticks seen on the selected input. -/
structure DpSt where
  state  : Nat
  sel    : Nat
  host   : Nat
  cmd    : Nat
  aside  : FMap Nat
  conf   : Option ConfSt
  wtr    : Option Nat
  stateTick : Nat
  buildOut : Int
  phaseErr : Int
  rate   : Int
  ffo    : Int
  span   : Option Nat
  pulling : Bool
  pullNext : Bool
  fromSw : Bool
  lockFrom : Option Nat
  badFrom : Option Nat
  hoReady : Bool
  lastTicks : List Int
  secs   : List Int
  secSum : Int
  secCnt : Nat
  minSum : Int
  minCnt : Nat
  minTemp : Int
  minOk  : Bool
  period : Nat
  ring   : List MinRec
  warns  : List Nat
  ho     : Option HoSt
  deriving DecidableEq, Repr

/-- The oscillator and its models (R303, R326 to R329, R334). `sums` stands for the weighted normal-equation sums (see the
log); learned range, number of learning records and the in-service hours they span; coefficients as `HO_MODEL` gives them;
`rms` and `ua` the fit's residual (fx) and ageing error (0.1 fx per second); `learnTo` the hour boundary up to which minute records are learned. -/
structure OscSt where
  fail   : Bool
  temp   : Int
  tempFail : Bool
  badReads : Nat
  goodReads : Nat
  unlock : Option Nat
  sums   : Nat
  lo     : Int
  hi     : Int
  count  : Nat
  firstH : Nat
  lastH  : Nat
  hours  : Nat
  k1 : Int
  k2 : Int
  k3 : Int
  ageA : Int
  ageB : Int
  order : Nat
  tempValid : Bool
  ageValid : Bool
  rms : Nat
  ua  : Nat
  learnTo : Nat
  deriving DecidableEq, Repr

/-- T1's time and SOFTWARE mode (R335 to R343): time in 0.25 ns units at the last boundary, seconds as captured, the
reference T1 steps to, SOFTWARE mode, `SW_STATE` in force, frequency in force and as written, whether a frequency write waits,
the latest sample, ticks since which samples lay within 50 ns or beyond 1 us, tick of the last owner write, whether one came
since the last boundary, watchdog expired. -/
structure T1St where
  time   : Nat
  secCap : Nat
  stepTo : Option Nat
  swMode : Bool
  ctrl   : Timed
  swLocked : Bool
  ffoWr  : Word
  ffoNew : Bool
  sample : Option Int
  goodFrom : Option Nat
  badFrom : Option Nat
  ownTick : Nat
  ownNew : Bool
  expired : Bool
  deriving DecidableEq, Repr

/-- One frame and pulse output (R344 to R348): offset of its edges from the target and as last shown, T1 time of its last
edge, a realignment under way (1 `PPS_ALIGN`, 2 `PHASE_STEP`) and its amount. -/
structure OutSt where
  off   : Int
  shown : Int
  last  : Nat
  move  : Nat
  step  : Int
  deriving DecidableEq, Repr

/-- The timing block. Inputs by `INDEX`, DPLLs by number, outputs by `TARGET` of R347; `tickLeft` what a tick move still has
to move in 0.125 ns, with the command that started it (0 `TICK_ALIGN`, 2 `PHASE_STEP`); `todDue` the tick at which a TODOUT
message starts; `ql` and `loop` as sent (R297); `deferred` verdicts a TF hand-over holds back (1 a second's,
2 a minute's too; R400); `refitDue` a refit that a throttle defers (R469); tables as last updated. -/
structure TimSt where
  ins    : FMap InSt
  dps    : FMap DpSt
  osc    : OscSt
  t1     : T1St
  outs   : FMap OutSt
  tim    : Timed
  refin  : Timed
  todInfo : Word
  tickMoving : Bool
  tickLeft : Int
  tickKind : Nat
  tickPhase : Nat
  todDue : Option Nat
  deferred : Nat
  refitDue : Bool
  ql     : Nat
  loop   : Nat
  refPub : FMap (BitVec 256)
  dpPub  : FMap (BitVec 256)
  hoPub  : FMap (BitVec 256)
  modelPub : BitVec 256
  deriving DecidableEq, Repr

end Sys2Proof.Machine
end

