-- ==== Sys2Proof/Machine/StateUpd.lean ====
section
/-!
DEFINITION. State of firmware update and settings (R383 to R414): the boot flash as its parts hold it, the running versions,
an activation under way, the craft card.
-/
namespace Sys2Proof.Machine
open Sys2Proof

/-- One component's manifest entry (R390): version, and per component 0 OEC, 1 TF, 2 MC, 3 SB the least and greatest versions
it works with; `imgMinor` for SB. -/
structure Manif where
  comp   : Nat
  ver    : Nat
  offset : Nat
  length : Nat
  ranges : List (Nat × Nat)
  imgMinor : Nat
  deriving DecidableEq, Repr

/-- A boot record (R394). -/
structure BootRec where
  slot  : Bool
  trial : Bool
  confirmed : Nat
  bootId : Nat
  fallbackId : Nat
  floor : Nat
  seq   : Nat
  deriving DecidableEq, Repr

/-- A slot (R392, R393): `SLOT_STATE` code, bundle header of 128 bytes, what follows it up to the chunks, chunks as received
with their tags, whether the verified word stands, the manifest found by verification. -/
structure SlotSt where
  state  : Nat
  header : List Byte
  head2  : List Byte
  chunks : FMap (List Byte)
  verified : Bool
  manifest : List Manif
  deriving DecidableEq, Repr

/-- A settings item of another `SET_VER` kept beside the one in use (R413): 0x0001 the oscillator, 0x0004 the three settings of
`SETTINGS_WRITE`, 0x0005 the legacy thresholds; the fields of the other items mean nothing. -/
structure FormerItem where
  id : Nat
  ver : Nat
  osc : OscSt
  healthS : Nat
  sdAuto : Bool
  allowHit : Bool
  legacyPm : List Byte
  deriving DecidableEq, Repr

/-- The settings (R412), with the `SET_VER` of each item that was ever written and the items kept beside them (R413). -/
structure SettingsSt where
  osc    : OscSt
  imgKeys : FMap (BitVec 768)
  imgSig : Bool
  opKeys : FMap (BitVec 768)
  cosign : Bool
  healthS : Nat
  sdAuto : Bool
  allowHit : Bool
  legacyPm : List Byte
  wipeFloor : Nat
  vers : FMap Nat
  former : List FormerItem
  deriving DecidableEq, Repr

/-- An activation or fallback under way (R399 to R403). `comp` the component handing over (`phase` 0) or on probation (1),
`since` when that began, `trial` a trial boot; `goodFrom` the boundary since which its criterion has held; what the criteria
compare with: DPLL states and selections, lanes last LOCKED, transmit powers, engine troubles; `mcNew` the engines of each
island that hold the new microcode, `mcHits` lists migrated with a hit, `mcStart` the boundary M and `mcAt` the last
boundary of R401 taken, `mcDone` islands that have finished; `old` the versions before. -/
structure ActSt where
  fallback : Bool
  trial  : Bool
  comp   : Nat
  phase  : Nat
  handed : Nat
  confirmed : Nat
  since  : Nat
  goodFrom : Option Nat
  dps    : List (Nat × Nat)
  lanes  : List Nat
  power  : FMap Nat
  trouble : Nat
  mcNew  : FMap (BitVec 16)
  mcDone : List Nat
  mcHits : FMap Nat
  mcStart : Nat
  mcAt   : Nat
  old    : List Manif
  deriving DecidableEq, Repr

/-- Update and settings. `rec0`, `rec1` the boot record copies and `set0`, `set1` the settings copies with their sequence,
none where a copy is not valid; `live` the settings in use; `run` the
manifest entries of the running components; `blob` depot regions the signal box's state holds (R400); whether a card is in
the craft slot, with the files `UPDATE.SKB` and `KEYWIPE.SKW` last found on it. -/
structure UpdSt where
  rec0 : Option BootRec
  rec1 : Option BootRec
  slotA : SlotSt
  slotB : SlotSt
  set0 : Option (Nat × SettingsSt)
  set1 : Option (Nat × SettingsSt)
  live : SettingsSt
  run  : List Manif
  act  : Option ActSt
  nextChunk : Nat
  lastCode : Nat
  bootFail : Nat
  blob : Nat
  cardIn : Bool
  file   : Option (List Byte)
  wipe   : Option (List Byte)
  deriving DecidableEq, Repr

end Sys2Proof.Machine
end

