-- ==== Sys2Proof/Machine/StateReset.lean ====
section
/-!
DEFINITION. What each part of the state holds after reset: the values of the register chapters; values the spec does not give
are named in the assumption log (1 and 32).
-/
namespace Sys2Proof.Machine
open Sys2Proof

def devReset : DevSt := { state := .cold, tick := 0, tickHi := 0, tickCyc := 0, lit := false, sbDown := false, scratch := 0, done := [] }
def finalReset : FinalSt := { pending := false, done := false, tag := 0, reason := 0 }
def mbReset : MbSt := { cur := none, held := none, done := false, overrun := false, code := 0, tag := 0, result := 0, p0 := 0, p1 := 0, p2 := 0, p3 := 0, reply0 := 0, reply1 := 0, accept := 0, acceptHi := 0, finalImg := finalReset, finalUpd := finalReset }
def intReset : IntSt := { status := 0, enable := 0, vec0 := 0, vec1 := 0, pace := 0, msix := [], pba := [] }
def queueReset : QueueSt := { items := [], openPkt := [], w2 := 0, w1 := 0, w0 := 0, uncorr := 0, corr := 0 }
def noticeReset : NoticeSt := { held := [], rootOvf := false, coalesced := 0 }
def hostReset : HostSt := { readData := [], out := [] }
def placeReset : Placement := { tribs := [], carriers := [], items := [], tt := [], alt := [], nlists := [] }
def imageReset : ImageSt := { image := none, place := placeReset, shadow := placeReset }
def commitReset : CommitSt := { pending := false, lastResult := 0, shadowReady := false, activeBank := false, cTick := 0, cTickHi := 0, change := none, named := none, lastC := none, releaseDue := false, rebuildDue := false, copied := false, newFed := [], replaceDue := false, failStage := 0, failSection := 0, failSource := 0, failReason := 0, failIndex := 0xFFFFFFFF, digest := 0, placeRev := 0 }
def junctionReset : JunctionSt := { sel := [], diff := [], hard := [], unc := [], lostSrc := [], lostEgr := [], lostNow := [], lostTick := none, stat := [], pubStat := [], pubUse := [] }
def lineReset : LineSt := { lanes := [], skew := [], lasers := [], laneEq := [], tsPort := [], align := [], portAlign := [], trace := [], oh := [], staging := [], h4 := [], acc := [], ptr := [], ftfl := [], cal := [] }
/-- Power, sensors and sideband (R471, R473 to R475). -/
def powerReset : PowerSt := { groups := [], temps := [], warn := [], throt := [], therm := { wr := 0x5F460000, eff := 0x5F460000 }, warnSeen := false, throtSeen := false, causeReg := 0x10000000, cause := 1, tripSensor := 0, tripTemp := 0, supplies := 0, coldTick := 0, straps := 0, alert := 0, armed := false, hold := false, suppliesOk := true, resetLow := true }
/-- Defects (R231, R526). -/
def defectsReset : DefectsSt := { d := [], ctrl := { wr := 0x196471E8, eff := 0x196471E8 }, corr := { wr := 0x03200801, eff := 0x03200801 }, corrSeq := 0, roots := [], wins := [], fails := [], repl := [], ind := [], b2 := [], aux := [], rei := [], rawPub := [], failPub := [] }
/-- Performance monitoring (R248). -/
def pmReset : PmSt := { points := [], recs := [], deg := [], freed := [], originLo := 0, originHi := 0, origin := 0, armed := none, quarter := 0, day := 0, capQ := 0, capD := 0, ctrl := { wr := 0xFF000001, eff := 0xFF000001 } }
def protReset : ProtSt := { groups := [], pub := [] }
/-- Empty holdover models (R329). -/
def oscEmpty : OscSt := { fail := false, temp := 0, tempFail := false, badReads := 0, goodReads := 0, unlock := none, sums := 0, lo := 0, hi := 0, count := 0, firstH := 0, lastH := 0, hours := 0, k1 := 0, k2 := 0, k3 := 0, ageA := 0, ageB := 0, order := 0, tempValid := false, ageValid := false, rms := 0, ua := 0, learnTo := 0 }
/-- T1 (R341). -/
def t1Reset : T1St := { time := 0, secCap := 0, stepTo := none, swMode := false, ctrl := { wr := 0x3E80, eff := 0x3E80 }, swLocked := false, ffoWr := 0, ffoNew := false, sample := none, goodFrom := none, badFrom := none, ownTick := 0, ownNew := false, expired := false }
/-- Timing (R293, R344, R297). -/
def timReset : TimSt := { ins := [], dps := [], osc := oscEmpty, t1 := t1Reset, outs := [], tim := { wr := 0x80A3C000, eff := 0x80A3C000 }, refin := { wr := 0, eff := 0 }, todInfo := 0, tickMoving := false, tickLeft := 0, tickKind := 0, tickPhase := 0, todDue := none, deferred := 0, refitDue := false, ql := 8, loop := 0x1FF, refPub := [], dpPub := [], hoPub := [], modelPub := 0 }
/-- The settings' defaults (R412). -/
def settingsDflt : SettingsSt := { osc := oscEmpty, imgKeys := [], imgSig := false, opKeys := [], cosign := false, healthS := 60, sdAuto := false, allowHit := false, legacyPm := [], wipeFloor := 0, vers := [], former := [] }
def slotEmpty : SlotSt := { state := 0, header := [], head2 := [], chunks := [], verified := false, manifest := [] }
def manifDflt : Manif := { comp := 0, ver := 0, offset := 0, length := 0, ranges := [], imgMinor := 0 }

/-- The firmware the flash leaves the factory with (assumption log 32): four components of version 1 that work with each
other. -/
def factoryManif : List Manif :=
  [0, 1, 2, 3].map (fun k => { comp := k, ver := 0x00010000, offset := 0, length := 0, ranges := List.replicate 4 (0, 0xFFFFFFFF), imgMinor := 0 })
/-- Its header's first bytes: format 1, target 0x2304, bundle 1. -/
def factoryHeader : List Byte := [0x53, 0x4B, 0x42, 0x01, 0x04, 0x23, 0, 0, 1, 0, 0, 0, 0, 0, 0, 0]
/-- The slot it stands in. -/
def factorySlot : SlotSt := { state := 4, header := factoryHeader, head2 := [], chunks := [], verified := true, manifest := factoryManif }
/-- The boot record that names it (R394). -/
def factoryRec : BootRec := { slot := false, trial := false, confirmed := 15, bootId := 1, fallbackId := 0, floor := 0, seq := 1 }
/-- Flash and card. -/
def updReset : UpdSt := { rec0 := some factoryRec, rec1 := none, slotA := factorySlot, slotB := slotEmpty, set0 := none, set1 := none, live := settingsDflt, run := [], act := none, nextChunk := 0, lastCode := 0, bootFail := 0, blob := 0, cardIn := false, file := none, wipe := none }

def loopReset : LoopIn := { present := false, sawOn := false, sawOff := false }
def twinReset : TwinSt := { state := 0, holder := false, epoch := 0, imgSeq := 0, strap := none, fp := none, role := 0, unproven := false, ready := false, warm := false, statTick := none }
def mirrorNone : MirrorSt := { gen := 0, active := false, sent := 0, sentTick := 0, startAt := 0, writes := [], cmds := [], lastWrites := [], lastCmds := [], regions := [], full := false, lastGen := 0, records := [], lastRec := none, stale := false, seq := 0, digest := 0, twinRec := 0, again := false }
/-- The pair (R382: `UNPROVEN` is 1). -/
def pairReset : PairSt := { holder := false, epoch := 0, seen := 0, acq := 0, acked := 0, sends := [], renewAt := 0, renewed := none, entered := 0, released := none, relCode := 0, yielded := false, gaveOnce := false, tieRun := 0, linkUp := false, lanesUp := false, helloAt := 0, lastMsg := 0, msgSeq := 0, hubBad := false, intlk := loopReset, echo := loopReset, twin := twinReset, strapMis := false, cfgMis := false, placeMis := false, dual := false, dualTold := false, lastRel := 0, withheld := [], causes := 0, handAt := 0, warm := false, mode := 0, drill := none, drillIn := none, drillRet := 0, retAt := none, unproven := true, run := 0, twinTick := 0, twinHi := 0, mirror := mirrorNone, mapSent := [] }

end Sys2Proof.Machine
end

