-- ==== Sys2Proof/Machine/State.lean ====
section
/-!
DEFINITION. The whole state of the part, its faults and refusals, and the state after reset (R30, R33, R493).
-/
namespace Sys2Proof.Machine
open Sys2Proof

/-- Everything but the memories and the queue of waiting commands. -/
structure Chip where
  dev    : DevSt
  mb     : MbSt
  int    : IntSt
  nq     : QueueSt
  oq     : QueueSt
  notice : NoticeSt
  taps   : FMap TapSt
  host   : HostSt
  img    : ImageSt
  cm     : CommitSt
  jct    : JunctionSt
  eng    : FMap EngSt
  isl    : FMap IslSt
  cwy    : FMap CwySt
  ctx    : FMap CtxSt
  line   : LineSt
  power  : PowerSt
  dfx    : DefectsSt
  pm     : PmSt
  prot   : ProtSt
  tim    : TimSt
  upd    : UpdSt
  pair   : PairSt
  dep    : DepSt
  free   : Nat
  deriving DecidableEq, Repr

/-- The state of the part. `mem` is the Window B memory the host writes (R420: `IMAGE_STAGE`, `BUNDLE_STAGE`, `OH_TX`) by
Window B byte offset, an unlisted byte reading 0; `pending` the commands that wait, first in, first out. -/
structure State where
  c       : Chip
  mem     : List Host.Cell
  pending : List Instr
  deriving DecidableEq, Repr

/-- Why the machine stops. -/
inductive Fault where
  /-- A register or memory access that R12 and R418 call unpredictable: raised by REGISTER_WRITE and LATCHED_READ on such an access,
  and by the rows that carry one register's write or one port's access (`mayStop` lists the sixteen). Safe: the hardware goes on
  with a result the spec does not give. -/
  | unpredictableAccess (window offset : Nat)
  deriving DecidableEq, Repr

/-- Why the machine gives no meaning. -/
inductive Refusal where
  /-- The command has no meaning yet in this model. Safe. -/
  | notModelled (mnemonic : String)
  deriving DecidableEq, Repr

/-- Everything but memories and queue right after reset: COLD, with nothing lit and every register at the value the spec states
or the log names. -/
def chipReset : Chip := { dev := devReset, mb := mbReset, int := intReset, nq := queueReset, oq := queueReset, notice := noticeReset, taps := [], host := hostReset, img := imageReset, cm := commitReset, jct := junctionReset, eng := [], isl := [], cwy := [], ctx := [], line := lineReset, power := powerReset, dfx := defectsReset, pm := pmReset, prot := protReset, tim := timReset, upd := updReset, pair := pairReset, dep := depReset, free := 0 }

/-- The part right after reset: COLD before power comes, nothing waiting (R30, R33, R493). -/
def State.reset : State := { c := chipReset, mem := [], pending := [] }

end Sys2Proof.Machine
end

