-- ==== Sys2Proof/Machine/Ops.lean ====
section
/-!
DEFINITION. The shared operations over the state: messages and interrupts (R422 to R424), queues (R432 to R436), notices
(R240 to R243), the mailbox (R425 to R431), the device state (R30) and the marks of once-per-tick steps.
-/
namespace Sys2Proof.Machine
open Sys2Proof

/-- The state with its chip changed: what almost every command does. -/
def onChip (f : Chip → Chip) (s : State) : State := { s with c := f s.c }

/-- Apply an operation where a condition holds. -/
def when (b : Bool) (f : Chip → Chip) (c : Chip) : Chip := if b then f c else c

/-- Apply an operation for each of a list, in order. -/
def forEach {α : Type} (l : List α) (f : α → Chip → Chip) (c : Chip) : Chip := l.foldl (fun c a => f a c) c

/-- The part has left COLD (R33). -/
def awake (c : Chip) : Bool := c.dev.state != DevState.cold

/-- The part is in one of the listed states. -/
def inState (l : List DevState) (c : Chip) : Bool := l.contains c.dev.state

/-- The states in which the committed image runs the datapath: RUNNING, STANDBY and HANDOVER (R30). -/
def onImage (c : Chip) : Bool := inState [.running, .standby, .handover] c

/-- `DEV_STATE` (R420), 0 for COLD (R475). -/
def devCode : DevState → Nat
  | .cold => 0 | .boot => 1 | .awaitImage => 2 | .validating => 3 | .held => 4 | .starting => 5 | .running => 6
  | .standby => 7 | .handover => 8

/-- The timing firmware restarts in a hand-over (R400). -/
def tfBusy (c : Chip) : Bool := match c.upd.act with | some a => a.comp = 1 && a.phase = 0 | none => false

/-- The present tick. -/
def now (c : Chip) : Nat := c.dev.tick

/-- Whether a once-per-tick step has been taken in this tick. -/
def isDone (k : Nat) (c : Chip) : Bool := c.dev.done.contains k

/-- Mark a once-per-tick step as taken. -/
def markDone (k : Nat) (c : Chip) : Chip := { c with dev := { c.dev with done := insAsc c.dev.done k } }

/-- Use up one free value (the model's own counter). -/
def takeFree (c : Chip) : Nat × Chip := (Config.freeValue c.free, { c with free := c.free + 1 })

/-! ### Performance counters -/

/-- A counter adds k and wraps at 2^48; an even one carries into a chained neighbour (R457, R460). -/
def pcntAdd (n k : Nat) (c : Chip) : Chip :=
  let t := c.dep.count
  let x := tget pcntDflt t.cnt n
  let v := x.val.toNat + k
  let w := v / 2 ^ 48
  let m1 := tset pcntDflt t.cnt n { x with val := BitVec.ofNat 48 v, ovf := x.ovf || w ≠ 0 }
  let y := tget pcntDflt m1 (n + 1)
  let m2 := if w ≠ 0 && n % 2 = 0 && y.chain && y.enable then
      tset pcntDflt m1 (n + 1) { y with val := BitVec.ofNat 48 (y.val.toNat + w), ovf := y.ovf || 2 ^ 48 ≤ y.val.toNat + w }
    else m1
  { c with dep := { c.dep with count := { t with cnt := m2 } } }

/-- Whether a counter counts an event of a scope; scope 0x1FF stands for an event of the whole part (R457, R458). -/
def pcntTakes (n : Nat) (x : PcntSt) (ev scope : Nat) : Bool :=
  x.enable && x.ev = ev && !(n % 2 = 1 && x.chain) && (x.scope = 0x1FF || scope = 0x1FF || x.scope = scope)

/-- k events of a number and scope are counted (R458), unless frozen (R460). -/
def countEvent (ev scope k : Nat) (c : Chip) : Chip :=
  if c.dep.count.freeze || k = 0 then c
  else forEach ((c.dep.count.cnt.filter (fun e => pcntTakes e.1 e.2 ev scope)).map (·.1)) (fun n c => pcntAdd n k c) c

/-! ### Injection in force -/

/-- `KIND`, `ACTION`, `POINT`, `DIR`, `LANE_B` and `INDEX` of a slot (R482). -/
def injKind (x : InjSlot) : Nat := bits x.target 28 4
def injAction (x : InjSlot) : Nat := bits x.target 26 2
def injPoint (x : InjSlot) : Nat := bits x.target 24 2
def injDir (x : InjSlot) : Nat := bits x.target 23 1
def injLaneB (x : InjSlot) : Nat := bits x.target 9 3
def injIndex (x : InjSlot) : Nat := bits x.target 0 9

/-- Change a slot. -/
def updInj (k : Nat) (f : InjSlot → InjSlot) (c : Chip) : Chip := { c with dep := { c.dep with inj := tupd injDflt c.dep.inj k f } }

/-- Add to `INJ_EVENTS`, which saturates (R482). -/
def injEvents (n : Nat) (x : InjSlot) : InjSlot := { x with events := BitVec.ofNat 32 (satAdd 0xFFFFFFFF x.events.toNat n) }

/-- A running slot drops a lane (kind 1) or a port (kind 2) (R480, R486). -/
def injDrops (kind i : Nat) (c : Chip) : Bool :=
  c.dep.inj.any (fun e => e.2.running && injKind e.2 = kind && injAction e.2 = 0 && injIndex e.2 = i)

/-! ### Messages and interrupts -/

/-- Record what the part sends outside. -/
def emit (o : Output) (c : Chip) : Chip := { c with host := { c.host with out := c.host.out ++ [o] } }

/-- The reset value of an MSI-X table entry: masked, as PCI Express gives it. -/
def msixDflt : MsixEnt := { addrLo := 0, addrHi := 0, data := 0, ctl := 1 }

/-- The message of vector v: sent, or held in the PBA while v is masked (R424). -/
def sendVector (v : Nat) (c : Chip) : Chip :=
  let e := tget msixDflt c.int.msix v
  if bitAt e.ctl 0 then { c with int := { c.int with pba := insAsc c.int.pba v } }
  else emit (.msix v (BitVec.ofNat 64 (e.addrHi.toNat * 4294967296 + e.addrLo.toNat)) e.data) c

/-- The vector of a source (R423). -/
def vectorOf (c : Chip) (src : Nat) : Nat :=
  if src < 4 then bits c.int.vec0 (8 * src) 6 else bits c.int.vec1 (8 * (src - 4)) 6

/-- Hardware sets a source of `INT_STATUS`: its message goes out when the source becomes set and enabled (R424). -/
def setInt (src : Nat) (c : Chip) : Chip :=
  if bitAt c.int.status src then c
  else
    let c1 := { c with int := { c.int with status := setBits c.int.status src 1 1 } }
    if bitAt c.int.enable src then sendVector (vectorOf c src) c1 else c1

/-- The vectors of the sources that are set and enabled, each once, ascending. -/
def liveVectors (c : Chip) : List Nat :=
  ((upto 8).filter (fun s => bitAt c.int.status s && bitAt c.int.enable s)).foldl (fun l s => insAsc l (vectorOf c s)) []

/-- After a write to `INT_STATUS` or `INT_ENABLE`: the message of each vector with a source set and enabled (R424). -/
def resend (c : Chip) : Chip := forEach (liveVectors c) sendVector c

/-- Write one MSI-X entry; a vector held in the PBA is sent when its mask clears (R424). -/
def msixWrite (v : Nat) (e : MsixEnt) (c : Chip) : Chip :=
  let c1 := { c with int := { c.int with msix := tset msixDflt c.int.msix v e } }
  if !bitAt e.ctl 0 && c1.int.pba.contains v then
    sendVector v { c1 with int := { c1.int with pba := c1.int.pba.filter (· ≠ v) } }
  else c1

/-- The device enters a state; `STATE_CHANGE` is set when `DEV_STATE` changes (R422). -/
def setDev (st : DevState) (c : Chip) : Chip :=
  if c.dev.state = st then c else setInt 4 { c with dev := { c.dev with state := st } }

/-! ### Queues -/

/-- Item type, priority, FIRST and LAST of an item (R166, R240). -/
def itemType (i : BitVec 128) : Nat := bits i 120 8
def itemPrio (i : BitVec 128) : Nat := bits i 118 2
def itemFirst (i : BitVec 128) : Bool := bitAt i 117
def itemLast (i : BitVec 128) : Bool := bitAt i 116

/-- The idle item (R434): type 0x00 and the tick of the pop. -/
def idleItem (tick : Nat) : BitVec 128 := BitVec.ofNat 128 (tick % 2 ^ 64)

/-- The damaged item (R434): type 0xFF, FIRST and LAST 1, and the tick of the pop. -/
def damagedItem (tick : Nat) : BitVec 128 := BitVec.ofNat 128 (packN [(8, 0xFF), (2, 0), (1, 1), (1, 1), (52, 0), (64, tick)])

/-- Room of the two queues (R432). -/
def nqRoom : Nat := 16384
def oqRoom : Nat := 65536

/-- Items a queue holds (R432): those that wait and the rest of the open packet. -/
def qCount (q : QueueSt) : Nat := q.items.length + q.openPkt.length

/-- Remove the first item of a priority, with what precedes and follows it. -/
def takePrio (p : Nat) : List (BitVec 128) → Option (BitVec 128 × List (BitVec 128))
  | [] => none
  | i :: t => if itemPrio i = p then some (i, t) else (takePrio p t).map (fun r => (r.1, i :: r.2))

/-- The oldest item of the highest priority that holds one (R433). -/
def takeNext (l : List (BitVec 128)) : Option (BitVec 128 × List (BitVec 128)) :=
  match takePrio 0 l with
  | some r => some r
  | none => match takePrio 1 l with
    | some r => some r
    | none => match takePrio 2 l with
      | some r => some r
      | none => takePrio 3 l

/-- The items of priority p that follow in order up to the one with LAST 1, and what is left of the queue: the rest of a
packet, whose items stand one behind the other within their priority (R433). -/
def takeRest (p : Nat) : List (BitVec 128) → List (BitVec 128) × List (BitVec 128)
  | [] => ([], [])
  | i :: t =>
    if itemPrio i = p then
      if itemLast i then ([i], t) else let r := takeRest p t; (i :: r.1, r.2)
    else let r := takeRest p t; (r.1, i :: r.2)

/-- The next item a pop removes, and the queue without it (R433): the open packet first. -/
def qTake (q : QueueSt) : Option (BitVec 128 × QueueSt) :=
  match q.openPkt with
  | i :: t => some (i, { q with openPkt := t })
  | [] => match takeNext q.items with
    | none => none
    | some (i, l) =>
      if itemFirst i && !itemLast i then
        let r := takeRest (itemPrio i) l
        some (i, { q with openPkt := r.1, items := r.2 })
      else some (i, { q with items := l })

/-- The captures of a pop (R432). -/
def qCapture (i : BitVec 128) (q : QueueSt) : QueueSt :=
  { q with w2 := BitVec.ofNat 32 (bits i 64 32), w1 := BitVec.ofNat 32 (bits i 32 32), w0 := BitVec.ofNat 32 (bits i 0 32) }

/-- A pop (R432 to R434): the item delivered and the queue after it. `corr` words were corrected; with `bad` a word of the
item is uncorrectable, so a damaged item comes in its place and the rest of its packet is discarded. -/
def qPop (tick corr : Nat) (bad : Bool) (q : QueueSt) : BitVec 128 × QueueSt :=
  match qTake q with
  | none => (idleItem tick, qCapture (idleItem tick) q)
  | some (i, q1) =>
    if bad then
      (damagedItem tick,
        qCapture (damagedItem tick) { q1 with openPkt := [], uncorr := BitVec.ofNat 8 (satInc 255 q1.uncorr.toNat) })
    else (i, qCapture i { q1 with corr := BitVec.ofNat 8 (satAdd 255 q1.corr.toNat corr) })

/-! ### Notices -/

/-- A notice as its queue item (R240). -/
def noticeItem (n : Notice) : BitVec 128 :=
  BitVec.ofNat 128 (packN [(8, n.ntype), (2, n.prio), (1, 1), (1, 1), (1, bnat n.clear), (3, n.pk), (4, n.lvl),
    (4, n.family), (5, n.bit), (17, n.ref), (18, min n.conseq 0x3FFFF), (64, n.tick)])

/-- A clearing notice that ends a raise (R243): the same notice in everything but CLEAR, CONSEQ and TICK. -/
def clearsRaise (r k : Notice) : Bool :=
  !r.clear && k.clear && r.ntype == k.ntype && r.pk == k.pk && r.lvl == k.lvl && r.family == k.family && r.bit == k.bit &&
  r.ref == k.ref

/-- The first raise of a list that a later clearing of the list ends, with the list without the two. -/
def coalesce : List Notice → Option (List Notice)
  | [] => none
  | r :: t =>
    if t.any (clearsRaise r) then some (t.eraseP (clearsRaise r))
    else (coalesce t).map (r :: ·)

/-- The undelivered transitions the signal box keeps (R243). -/
def heldRoom : Nat := 65536

/-- Add a notice to those held; beyond the room a raise and its clearing are discarded together (R243). -/
def holdNotice (n : Notice) (ns : NoticeSt) : NoticeSt :=
  let l := ns.held ++ [n]
  if l.length ≤ heldRoom then { ns with held := l }
  else match coalesce l with
    | none => { ns with held := l }
    | some l' => { ns with held := l', coalesced := BitVec.ofNat 16 (satInc 0xFFFF ns.coalesced.toNat) }

/-- Move held notices into the queue while it has room, oldest first (R436, R243). -/
def drainList : List Notice → QueueSt → List Notice × QueueSt
  | [], q => ([], q)
  | n :: t, q => if qCount q < nqRoom then drainList t { q with items := q.items ++ [noticeItem n] } else (n :: t, q)

/-- The signal box puts what it holds into the notice queue (R243); while it is down it forms none (R37). -/
def drainNotices (c : Chip) : Chip :=
  if c.dev.sbDown then c
  else
    let r := drainList c.notice.held c.nq
    countEvent 0x060 0x1FF (c.notice.held.length - r.1.length) { c with nq := r.2, notice := { c.notice with held := r.1 } }

/-- Raise a notice that no class filters. -/
def notify (n : Notice) (c : Chip) : Chip := drainNotices { c with notice := holdNotice n c.notice }

/-- The NOTICE record of a class; class 0 exists without one (R81). -/
def classRec (c : Chip) (k : Nat) : Rec :=
  match (match c.img.image with | some im => if k = 0 then none else im.getRec 9 k | none => none) with
  | some r => r
  | none => 0xFFFF0200

/-- Whether a class raises a defect notice (R242). -/
def classPass (r : Rec) (family : Nat) (clear : Bool) : Bool :=
  !noticeMute r && (noticeMask r).testBit family && !(clear && noticeClearMute r)

/-- Raise a defect notice of a class at the class's priority, unless the class filters it (R242). -/
def notifyClass (k : Nat) (n : Notice) (c : Chip) : Chip :=
  let r := classRec c k
  if classPass r n.family n.clear then notify { n with prio := bits r 8 2 } c else c

/-- A notice of a type above 0x0F, never filtered: type, priority, point kind, family, bit, reference, consequents. -/
def event (ty pk family bit ref conseq tick : Nat) (clear : Bool) : Notice :=
  { ntype := ty, prio := 1, clear := clear, pk := pk, lvl := 0, family := family, bit := bit, ref := ref, conseq := conseq,
    tick := tick }

/-! ### Journal -/

/-- The committed image pairs the part (R356). -/
def paired (c : Chip) : Bool := match c.img.image with | some im => (im.getRec 5 0x10000).isSome | none => false

/-- A holder journals a register write of R373. -/
def jnlWrite (offset : Nat) (v : Word) (c : Chip) : Chip :=
  if c.pair.holder && paired c then { c with pair := { c.pair with mirror := { c.pair.mirror with writes := c.pair.mirror.writes ++ [(offset, v)] } } } else c

/-- A holder journals an accepted `PROT_CMD` (R373). -/
def jnlCmd (p0 : Word) (c : Chip) : Chip :=
  if c.pair.holder && paired c then { c with pair := { c.pair with mirror := { c.pair.mirror with cmds := c.pair.mirror.cmds ++ [p0] } } } else c

/-! ### Mailbox -/

/-- The reply is written: `BUSY` falls, `DONE` rises (R425, R426); the flag raises its interrupt (R422). -/
def mbDeliver (r : MbReply) (c : Chip) : Chip :=
  match c.mb.cur with
  | none => c
  | some k =>
    setInt 0 { c with mb := { c.mb with cur := none, held := none, done := true, code := BitVec.ofNat 12 k.code, tag := k.tag, result := BitVec.ofNat 8 r.result, reply0 := r.r0, reply1 := r.r1 } }

/-- A reply: delivered, or held while the signal box is down (R431). -/
def mbReply (result r0 r1 : Nat) (c : Chip) : Chip :=
  let r : MbReply := { result := result, r0 := BitVec.ofNat 32 r0, r1 := BitVec.ofNat 32 r1 }
  if c.dev.sbDown then { c with mb := { c.mb with held := some r } } else mbDeliver r c

/-- A judged reply with a reason code (R426). -/
def mbCode (r0 : Nat) (c : Chip) : Chip := mbReply 0 r0 0 c

/-- A command of the image group is taken on (R428). -/
def imgTake (tag : Byte) (c : Chip) : Chip :=
  { c with mb := { c.mb with finalImg := { c.mb.finalImg with pending := true, tag := tag } } }

/-- A command of the update group is taken on (R428). -/
def updTake (tag : Byte) (c : Chip) : Chip :=
  { c with mb := { c.mb with finalUpd := { c.mb.finalUpd with pending := true, tag := tag } } }

/-- The final result of the image group's command, if one is pending (R428). -/
def imgFinal (reason : Nat) (c : Chip) : Chip :=
  if c.mb.finalImg.pending then
    setInt 1 { c with mb := { c.mb with finalImg := { c.mb.finalImg with pending := false, done := true, reason := BitVec.ofNat 16 reason } } }
  else c

/-- The final result of the update group's command, if one is pending (R428). -/
def updFinal (reason : Nat) (c : Chip) : Chip :=
  if c.mb.finalUpd.pending then
    setInt 2 { c with mb := { c.mb with finalUpd := { c.mb.finalUpd with pending := false, done := true, reason := BitVec.ofNat 16 reason } } }
  else c

/-- The command codes (R429). -/
def mbCodes : List Nat :=
  [0x010, 0x011, 0x012, 0x013, 0x020, 0x030, 0x031, 0x032, 0x033, 0x034, 0x035, 0x040, 0x041, 0x050, 0x051, 0x052, 0x053,
    0x054, 0x055, 0x056, 0x057, 0x058, 0x059, 0x05A]

/-- Whether a command is legal in the device state (R430). -/
def mbLegal (code : Nat) (st : DevState) (bootFail : Bool) : Bool :=
  if code = 0x010 then [DevState.awaitImage, .held, .running, .standby].contains st
  else if code = 0x011 then [DevState.validating, .starting].contains st
  else if code = 0x012 || code = 0x013 then [DevState.running, .standby].contains st
  else if code = 0x020 || (0x030 ≤ code && code ≤ 0x034) then [DevState.running, .standby, .handover].contains st
  else if code = 0x040 then st == .running
  else if code = 0x041 then st == .standby
  else if (0x050 ≤ code && code ≤ 0x054) || code = 0x05A then st != .cold && (st != .boot || bootFail)
  else if code = 0x055 then [DevState.awaitImage, .held, .running, .standby].contains st
  else st != .cold && st != .boot

/-- A parameter word by number (R426). -/
def mbParam (c : Chip) (k : Nat) : Nat :=
  match k with | 0 => c.mb.p0.toNat | 1 => c.mb.p1.toNat | 2 => c.mb.p2.toNat | _ => c.mb.p3.toNat

/-- Step 3 of R427: reserved parameter bits are 0 and fields lie in their ranges, and words R429 does not name are 0. -/
def mbParamsOk (code : Nat) (st : DevState) (c : Chip) : Bool :=
  let p0 := mbParam c 0
  let p1 := mbParam c 1
  let p2 := mbParam c 2
  let p3 := mbParam c 3
  let z (l : List Nat) : Bool := l.all (· = 0)
  match code with
  | 0x010 => p1 < 2 && ([DevState.running, .standby].contains st || z [p2, p3])
  | 0x011 => z [p0, p1]
  | 0x012 => p1 = 0
  | 0x020 => z [p1, p2, p3]
  | 0x030 => z [p1, p2, p3]
  | 0x031 => z [p2, p3]
  | 0x032 => z [p1, p2, p3]
  | 0x033 => z [p1, p2, p3]
  | 0x034 => z [p2, p3]
  | 0x040 => p0 < 65536 && z [p1, p2, p3]
  | 0x051 => z [p1, p2, p3]
  | 0x052 => z [p1, p2, p3]
  | 0x057 => p0 % 16 < 4 && p0 < 32 && z [p1, p2, p3]
  | 0x058 => p0 < 65536 && z [p1, p2, p3]
  | 0x059 => p0 < 65536 && z [p2, p3]
  | _ => z [p0, p1, p2, p3]

/-- A write of `MB_CMD` (R425 to R427): discarded with `MB_OVERRUN` while `BUSY` is 1; otherwise accepted in this tick and
judged. `ok` is the rest of step 3, `act` the command's own judgement and effect. -/
def mbSubmit (code : Nat) (tag : Byte) (bootFail : Bool) (ok : Chip → Bool) (act : Chip → Chip) (c : Chip) : Chip :=
  if !awake c then c
  else if c.mb.cur.isSome then { c with mb := { c.mb with overrun := true } }
  else
    let c1 := countEvent 0x080 0x1FF 1 { c with mb := { c.mb with cur := some { code := code, tag := tag, accept := now c, p0 := c.mb.p0, p1 := c.mb.p1, p2 := c.mb.p2, p3 := c.mb.p3 }, accept := now c } }
    if !mbCodes.contains code then mbReply 2 0 0 c1
    else if !mbLegal code c.dev.state bootFail then mbReply 1 0 0 c1
    else if !(mbParamsOk code c.dev.state c && ok c) then mbReply 3 0 0 c1
    else act c1

/-- The command the mailbox holds, if it is of a code. -/
def mbHolds (code : Nat) (c : Chip) : Option MbCur := c.mb.cur.filter (fun k => k.code = code)

/-! ### Registers whose writes wait for the boundary -/

/-- A timed register takes its written value at the boundary. -/
def latch (t : Timed) : Timed := { t with eff := t.wr }

end Sys2Proof.Machine
end

