-- ==== Sys2Proof/Machine/ImageCheck.lean ====
section
/-!
DEFINITION. Consistency of a service image (R84, R85): ports and lanes (R4, R5, R73, R117, R131, R520), stacks (R74,
R151), the tributary tree (R75, R180 to R186, R523), cross-connects (R76), groups (R77, R268 to R270), timing (R294,
R352), power and filters; and the rates (R43, R178) and feeding relation those checks and the dispatcher use.
-/
namespace Sys2Proof.Machine
open Sys2Proof

/-! ### Ports -/

/-- The lanes of a port by number and `LANE_COUNT` (R4, R5); electrical lane i is 256 + i. Empty where R5 has none. -/
def lanesOf (p count : Nat) : List Nat :=
  if p < 256 then
    match count with
    | 0 => [p]
    | 1 => if p % 2 = 0 then [p, p + 1] else []
    | 2 => if p % 4 = 0 then (upto 4).map (p + ·) else []
    | 3 => if p % 8 = 0 then (upto 8).map (p + ·) else []
    | _ => []
  else if p < 320 then
    match count with
    | 0 => [p]
    | 4 => if (p - 256) % 4 = 0 then (upto 4).map (p + ·) else []
    | _ => []
  else []

/-- The lanes of a port of the image. -/
def portLanes (im : Image) (p : Nat) : List Nat :=
  match im.getRec 1 p with
  | some r => lanesOf p (portCount r)
  | none => []

/-- The island of a lane (R2). -/
def laneIsland (l : Nat) : Nat := if l < 256 then l / 4 else l - 256

/-- The islands a port belongs to, ascending: one, or those of its bond (R5, R27). -/
def portIslands (im : Image) (p : Nat) : List Nat := ((portLanes im p).map laneIsland).foldl insAsc []

/-- The port rate in Gbit/s (R117, R520); 0 where the stack names the rate. -/
def portRate (im : Image) (p : Nat) : Nat :=
  match im.getRec 1 p with
  | none => 0
  | some r =>
    if p < 256 then (lanesOf p (portCount r)).length * (match portMode r with | 0 => 400 | 1 => 200 | 2 => 100 | _ => 0)
    else match portElec r with
      | 7 => 10
      | 0xB => 25
      | 0x20 => 50
      | 0x21 => 100
      | 0x22 => 100
      | 0x23 => if portCount r = 4 then 800 else 200
      | 0x24 => if portCount r = 4 then 800 else 200
      | _ => 0

/-- The stack type of a port; 0 where it has no STACK record (R74). -/
def portStack (im : Image) (p : Nat) : Nat :=
  match im.getRec 2 p with
  | some r => if (im.getRec 1 p).isSome then stackType r else 0
  | none => 0

/-- Whether an electrical code is PAM4 (R131). -/
def elecPam4 (c : Nat) : Bool := 0x20 ≤ c

/-- 0x0302: `LANE_MODE` or `ELEC_RATE` does not suit the port (R73, R117, R131). -/
def portModeBad (p : Nat) (r : Rec) : Bool :=
  if p < 256 then portElec r ≠ 0 || 2 < portMode r || (portCount r = 3 && portMode r ≠ 0)
  else portElec r = 0 || portMode r ≠ (if elecPam4 (portElec r) then 5 else 4) ||
    (portCount r = 4 && portElec r ≠ 0x23 && portElec r ≠ 0x24)

/-- Stacks an electrical code carries (R131). -/
def elecStacks : Nat → List Nat
  | 2 => [0x30] | 3 => [0x40] | 4 => [0x40] | 5 => [0x31] | 6 => [0x40] | 7 => [0x10] | 8 => [3] | 9 => [4]
  | 0xA => [0x40] | 0xB => [0x10] | 0xC => [0x32] | 0x20 => [0x10] | 0x21 => [0x10, 0x20] | 0x22 => [2]
  | 0x23 => [0x10, 0x20] | 0x24 => [0x10, 0x20] | _ => []

/-- A failure of consistency at a record. -/
def failCon (sect reason index : Nat) : ImgFail := { stage := 3, sect := sect, reason := reason, index := index }

/-- The records of a section with their indexes and keys. -/
def recsIdx (im : Image) (t : Nat) : List (Nat × Nat × Rec) :=
  ((im.sec t).zipIdx).map (fun e => (e.2, e.1.1, e.1.2))

/-- A PORT record's verdict: 0x0301, 0x0302, 0x0303 (R4, R5, R85). DESIGN CHOICE (log 28): of two ports that overlap, the later
record is reported. -/
def checkPort (im : Image) (p : Nat) (r : Rec) : Option Nat :=
  let ls := lanesOf p (portCount r)
  let others := ((im.sec 1).filter (fun e => e.1 < p)).map (fun e => lanesOf e.1 (portCount e.2))
  if ls = [] || others.flatten.any ls.contains then some 0x0301
  else if portModeBad p r then some 0x0302
  else if portAdmin r && (im.getRec 2 p).isNone then some 0x0303
  else none

/-- The ports of a FlexE group, in ascending PHY number (R183). -/
def flexePhys (im : Image) (g : Nat) : List Nat :=
  let l := (im.sec 2).filter (fun e => stackType e.2 = 0x20 && stackGroup e.2 = g)
  (l.foldl (fun (m : FMap Nat) e => tput m (stackPhy e.2 * 512 + e.1) e.1) []).map (·.2)

/-- A STACK record's verdict: 0x0303, 0x0304 (R74, R131, R151). DESIGN CHOICE (log 28): of two PHYs of one group with different
rates, the later record is reported. -/
def checkStack (im : Image) (p : Nat) (r : Rec) : Option Nat :=
  match im.getRec 1 p with
  | none => some 0x0303
  | some pr =>
    let st := stackType r
    if (p < 256 && !([1, 0x10, 0x20].contains st)) || (256 ≤ p && !(elecStacks (portElec pr)).contains st) ||
        (portCount pr = 3 && st ≠ 1) ||
        (st = 0x20 && !([100, 200, 400].contains (portRate im p))) ||
        (st = 0x20 && (flexePhys im (stackGroup r)).any (fun q => q < p && portRate im q ≠ portRate im p))
    then some 0x0304 else none

/-! ### The tributary tree -/

/-- A tributary's record. -/
def tribRec (im : Image) (t : Nat) : Option Rec := im.getRec 3 t

/-- The port at the root of a tributary's server chain; none where the chain is broken, loops, or ends at a port without
a stack (R74, R85). -/
def rootPortF (im : Image) : Nat → Nat → Option Nat
  | 0, _ => none
  | f + 1, t =>
    match tribRec im t with
    | none => none
    | some r =>
      if tribKind r = 0 then (if portStack im (tribServer r) = 0 then none else some (tribServer r))
      else rootPortF im f (tribServer r)

/-- The port at the root of a tributary's server chain. -/
def rootPort (im : Image) (t : Nat) : Option Nat := rootPortF im ((im.sec 3).length + 1) t

/-- 0x0305 at a tributary's own record (R74, R85): its `SERVER_REF` names no tributary or a port without a stack, or its chain
loops. An ancestor's bad `SERVER_REF` is the ancestor's. -/
def serverBad (im : Image) (t : Nat) (r : Rec) : Bool :=
  if tribKind r = 0 then portStack im (tribServer r) = 0
  else (tribRec im (tribServer r)).isNone || chainLoops im (im.sec 3).length t
where
  /-- The chain has not ended after as many steps as there are tributaries. -/
  chainLoops (im : Image) : Nat → Nat → Bool
    | f, t =>
      match tribRec im t with
      | none => false
      | some r => if tribKind r = 0 then false else match f with | 0 => true | f + 1 => chainLoops im f (tribServer r)

/-- The children of a tributary, ascending. -/
def tribChildren (im : Image) (t : Nat) : List Nat :=
  ((im.sec 3).filter (fun e => tribKind e.2 = 1 && tribServer e.2 = t)).map (·.1)

/-- A tributary's ancestors, nearest first. -/
def ancestorsF (im : Image) : Nat → Nat → List Nat
  | 0, _ => []
  | f + 1, t =>
    match tribRec im t with
    | none => []
    | some r => if tribKind r = 1 then tribServer r :: ancestorsF im f (tribServer r) else []

/-- A tributary's ancestors, nearest first. -/
def ancestors (im : Image) (t : Nat) : List Nat := ancestorsF im ((im.sec 3).length) t

/-- The tributaries served directly by a port's stack; a FlexE client by every PHY of its group (R222). -/
def portTribs (im : Image) (p : Nat) : List Nat :=
  ((im.sec 3).filter (fun e => tribKind e.2 = 0 &&
    (tribServer e.2 = p ||
      (tribType e.2 = 0x20 && portStack im p = 0x20 && portStack im (tribServer e.2) = 0x20 &&
       ((im.getRec 2 p).map stackGroup) = ((im.getRec 2 (tribServer e.2)).map stackGroup))))).map (·.1)

def isOdu (ty : Nat) : Bool := 1 ≤ ty && ty ≤ 8
def isHoVc (ty : Nat) : Bool := 0x10 ≤ ty && ty ≤ 0x14
def isLoVc (ty : Nat) : Bool := 0x15 ≤ ty && ty ≤ 0x17
def isCpri (ty : Nat) : Bool := 0x30 ≤ ty && ty ≤ 0x33

/-- n of the ODUCn that a port's OTUCn stack carries (R74). -/
def oducN (im : Image) (t : Nat) : Nat := portRate im ((rootPort im t).getD 0) / 100

/-- An Ethernet client's MAC rate in Gbit/s: the port's for a termination, else its function's (R181). -/
def ethRate (im : Image) (t : Nat) (r : Rec) : Nat :=
  match tribFunc r with
  | 0x003 => portRate im ((rootPort im t).getD 0)
  | 0x020 => 100
  | 0x021 => 10
  | 0x022 => match tribParam r % 16 with | 2 => 25 | 3 => 50 | 5 => 200 | 6 => 400 | 7 => 800 | _ => 0
  | _ => 0

/-- A tributary's nominal rate in kbit/s (R43, R178). -/
def tribKbps (im : Image) (t : Nat) (r : Rec) : Nat :=
  match tribType r with
  | 1 => 1244160 | 2 => 2498775 | 3 => 10037274 | 4 => 10399525 | 5 => 40319219 | 6 => 104794446
  | 7 => tribRate r * 1000
  | 8 => oducN im t * 105258138
  | 0x10 => 9621504 | 0x11 => 2405376 | 0x12 => 601344 | 0x13 => 150336 | 0x14 => 48960
  | 0x15 => 48960 | 0x16 => 2240 | 0x17 => 1664
  | 0x20 => tribRate r * 1000
  | 0x21 => ethRate im t r * 1000000
  | 0x30 => 9830400 | 0x31 => 8110080 | 0x32 => 10137600 | 0x33 => 24330240
  | _ => 0

/-- A type's frequency tolerance in 0.1 ppm (R43, R178). -/
def tribTol (ty : Nat) : Nat :=
  if ty = 4 || ty = 7 then 1000
  else if isOdu ty then 200
  else if isHoVc ty || isLoVc ty then 46
  else 1000

/-- Numerator of Bmax over 640,000,000: bytes per tick at the highest rate (R43). -/
def bmaxNum (im : Image) (t : Nat) (r : Rec) : Nat := tribKbps im t r * (10000000 + tribTol (tribType r))

/-- Slots of a FlexE client (R186). -/
def flexeSlots (r : Rec) : Nat := tribRate r / 5000

/-- Payload capacity of a parent's slot in kbit/s (R183). -/
def slotCap : Nat → Nat
  | 2 => 1244160 | 3 => 1249410 | 5 => 1254700 | 6 => 1301710 | 8 => 5240890 | _ => 0

/-- Slots of a parent (R183). -/
def slotCount (im : Image) (t : Nat) (ty : Nat) : Nat :=
  match ty with | 2 => 2 | 3 => 8 | 5 => 32 | 6 => 80 | 8 => 20 * oducN im t | _ => 0

/-- The pairs that R182 marks AMP, with their slot counts. -/
def ampSlots : Nat → Nat → Option Nat
  | 1, 2 => some 1 | 2, 3 => some 2 | 2, 5 => some 2 | 3, 5 => some 8 | _, _ => none

/-- Whether a child ODU type may be multiplexed into a parent ODU type (R182). -/
def muxOk (c p : Nat) : Bool :=
  match p with
  | 2 => c = 1
  | 3 => c = 1 || c = 2 || c = 7
  | 5 => c = 1 || c = 2 || c = 3 || c = 4 || c = 7
  | 6 => c = 1 || c = 2 || c = 3 || c = 4 || c = 5 || c = 7
  | 8 => (1 ≤ c && c ≤ 7)
  | _ => false

/-- Slots a child takes of its parent (R182, R183). -/
def slotsNeed (im : Image) (t : Nat) (r : Rec) (pty : Nat) : Nat :=
  match ampSlots (tribType r) pty with
  | some n => n
  | none => ceilDiv (bmaxNum im t r) (slotCap pty * (10000000 - 200))

/-- The slots a TRIB record names (R75). -/
def tribSlots (r : Rec) : List Nat := ((upto 160).filter (fun k => (tribTs r).testBit k)).map (tribTsBase r + ·)

/-- The least `RATE_MBPS` of an ODUflex that carries a client (R184): 1.0045 times a GMP client's rate, 1.0084 times an
IMP client's, up to the next multiple of 5,000. -/
def oduflexLeast (im : Image) (t : Nat) (r : Rec) : Nat :=
  let k := tribKbps im t r
  5000 * ceilDiv (k * (if tribFunc r = 0x022 then 10084 else 10045)) (10000 * 5000000)

/-- 0x0306: whether the server can carry the type (R180 to R182, R184). -/
def serverCarries (im : Image) (t : Nat) (r : Rec) : Bool :=
  let ty := tribType r
  if tribKind r = 0 then
    let p := tribServer r
    match portStack im p with
    | 1 => ty = 8
    | 2 => ty = 6
    | 3 => ty = 3
    | 4 => ty = 4
    | 0x10 => ty = 0x21
    | 0x20 => ty = 0x20 && (flexePhys im (stackGroup ((im.getRec 2 p).getD 0))).all (p ≤ ·)
    | 0x30 => isHoVc ty
    | 0x31 => isHoVc ty
    | 0x32 => isHoVc ty
    | 0x40 => ty = (match portElec ((im.getRec 1 p).getD 0) with | 3 => 0x31 | 4 => 0x30 | 6 => 0x32 | _ => 0x33)
    | _ => false
  else
    match tribRec im (tribServer r) with
    | none => false
    | some pr =>
      let pt := tribType pr
      if isOdu ty then muxOk ty pt
      else if isLoVc ty then pt = 0x13
      else if isCpri ty then pt = 7 && oduflexLeast im t r ≤ tribRate pr
      else if ty = 0x20 then pt = 7 && flexeSlots r ≤ 160 && oduflexLeast im t r ≤ tribRate pr
      else if ty = 0x21 then
        match tribFunc r with
        | 0x020 => pt = 6
        | 0x021 => pt = 4
        | 0x022 => pt = 7 && oduflexLeast im t r ≤ tribRate pr
        | _ => pt = 6 || pt = 4 || pt = 7
      else false

/-- The function codes of R181. -/
def funcCodes : List Nat := [1, 2, 3, 4, 5, 6, 0x10, 0x11, 0x20, 0x21, 0x22, 0x30]

/-- Whether a function suits its type and server and the mapper microcode that runs, of version `mc`, holds it (R181, R523),
else 0x0308. -/
def funcOk (mc : Nat) (im : Image) (r : Rec) : Bool :=
  let ty := tribType r
  let f := tribFunc r
  let k := tribKind r
  let pt := match tribRec im (tribServer r) with | some pr => tribType pr | none => 0
  funcCodes.contains f && Config.mcHas mc f && k = (if f ≤ 6 then 0 else 1) &&
  (match f with
  | 0x001 => ty = 8
  | 0x002 => ty = 6 || ty = 3 || ty = 4
  | 0x003 => ty = 0x21
  | 0x004 => isCpri ty
  | 0x005 => isHoVc ty
  | 0x006 => ty = 0x20
  | 0x010 => isOdu ty && (ampSlots ty pt).isNone && muxOk ty pt
  | 0x011 => (ampSlots ty pt).isSome
  | 0x020 => (ty = 0x21 && pt = 6) || (isCpri ty && pt = 7)
  | 0x021 => ty = 0x21 && pt = 4
  | 0x022 => (ty = 0x21 || ty = 0x20) && pt = 7
  | 0x030 => isLoVc ty && pt = 0x13
  | _ => false)

/-- AU-4s of an SDH stack (R523). -/
def stmN : Nat → Nat
  | 0x30 => 16 | 0x31 => 64 | 0x32 => 256 | _ => 0

/-- X of a VC-4-Xc, 1 for a VC-4 or VC-3 (R523). -/
def vcX : Nat → Nat
  | 0x10 => 64 | 0x11 => 16 | 0x12 => 4 | _ => 1

/-- AU-3 positions a high-order VC takes (R181): three per AU-4, one for a VC-3. -/
def auCells (r : Rec) : List Nat :=
  let a := tribParam r % 256
  if tribType r = 0x14 then [a * 3 + tribParam r / 256 % 4] else (upto (3 * vcX (tribType r))).map (a * 3 + ·)

/-- TU positions in 1/84ths of a VC-4 that a low-order VC takes (R181): 28 columns' worth for a VC-3; in a TUG-2 of 12 columns,
every third for a TU-12 and every fourth for a TU-11, so that any two of different kinds overlap (R523; the interleave is the
family's, log 30). -/
def tuCells (r : Rec) : List Nat :=
  let p := tribParam r
  let g := p % 4 * 84 + p / 4 % 8 * 12
  match tribType r with
  | 0x15 => (upto 84).map (p % 4 * 84 + ·)
  | 0x16 => (upto 4).map (fun m => g + p / 32 + 3 * m)
  | _ => (upto 3).map (fun m => g + p / 32 + 4 * m)

/-- The (port, instance) pairs of a FlexE group in order (R183). -/
def flexeInstances (im : Image) (g : Nat) : List Nat :=
  ((flexePhys im g).map (fun p => List.replicate (portRate im p / 100) p)).flatten

/-- The ports whose calendar slots a FlexE client uses (R186). -/
def flexeClientPorts (im : Image) (r : Rec) : List Nat :=
  let inst := flexeInstances im (stackGroup ((im.getRec 2 (tribServer r)).getD 0))
  (tribSlots r).map (fun s => inst.getD (s / 20) 0xFFFF)

/-- The islands a tributary may have as home: those of its root port, or of its slots' PHYs for a FlexE client (R96,
R186). -/
def homeIslands (im : Image) (t : Nat) : List Nat :=
  match tribRec im t with
  | none => []
  | some r =>
    if tribType r = 0x20 && tribKind r = 0 then
      match (flexeClientPorts im r).map (portIslands im) with
      | [] => []
      | l :: tl => l.filter (fun i => tl.all (·.contains i))
    else portIslands im ((rootPort im t).getD 0xFFFF)

/-- Sibling tributaries before `t` on its server. -/
def siblingsBefore (im : Image) (t : Nat) (r : Rec) : List (Nat × Rec) :=
  (im.sec 3).filter (fun e => e.1 < t && tribKind e.2 = tribKind r && tribServer e.2 = tribServer r)

/-- 0x0307: positions, slots and `TPN` (R181 to R186, R523). Two records that clash are reported at the later. Where an ancestor's
server is missing, what depends on the line's rate is not judged here: the ancestor's record fails. -/
def slotsBad (im : Image) (t : Nat) (r : Rec) : Bool :=
  let sib := siblingsBefore im t r
  if tribKind r = 0 then
    let st := portStack im (tribServer r)
    if stmN st ≠ 0 then
      let a := tribParam r % 256
      let x := vcX (tribType r)
      a % x ≠ 0 || stmN st < a + x || sib.any (fun e => (auCells e.2).any (auCells r).contains)
    else if st = 0x20 then
      let sl := tribSlots r
      sl.length ≠ flexeSlots r ||
      sl.any (fun s => 20 * (flexeInstances im (stackGroup ((im.getRec 2 (tribServer r)).getD 0))).length ≤ s) ||
      homeIslands im t = [] || sib.any (fun e => (tribSlots e.2).any sl.contains)
    else sib ≠ []
  else
    let pt := match tribRec im (tribServer r) with | some pr => tribType pr | none => 0
    if tribType r = 7 && 160 < slotsNeed im t r pt then true
    else if isLoVc (tribType r) then sib.any (fun e => (tuCells e.2).any (tuCells r).contains)
    else if isOdu (tribType r) then
      let sl := tribSlots r
      let tpnMax := if pt = 8 then 10 * oducN im (tribServer r) else slotCount im (tribServer r) pt
      let known := (rootPort im t).isSome || pt ≠ 8
      sl.length ≠ slotsNeed im t r pt || (known && sl.any (slotCount im (tribServer r) pt ≤ ·)) ||
      sib.any (fun e => !(isOdu (tribType e.2)) || (tribSlots e.2).any sl.contains) ||
      tribTpn r = 0 || (known && tpnMax < tribTpn r) || sib.any (fun e => tribTpn e.2 = tribTpn r)
    else sib ≠ []

/-- A TRIB record's verdict (R84: 0x0305, 0x0306, 0x0308, 0x0307, then ascending). -/
def checkTrib (mc : Nat) (im : Image) (t : Nat) (r : Rec) : Option Nat :=
  if serverBad im t r then some 0x0305
  else if !(serverCarries im t r) then some 0x0306
  else if !(funcOk mc im r) then some 0x0308
  else if slotsBad im t r then some 0x0307
  else if (tribPm r ≠ 0xFF && (im.getRec 8 (tribPm r)).isNone) || (tribClass r ≠ 0 && (im.getRec 9 (tribClass r)).isNone)
  then some 0x0311
  else if tribPinEn r && (rootPort im t).isSome && !((homeIslands im t).contains (tribPin r)) then some 0x0312
  else none

/-! ### Cross-connects -/

/-- A group's record; the pairing record is no group. -/
def groupRec (im : Image) (g : Nat) : Option Rec := if g ≤ 0xFFFF then im.getRec 5 g else none

/-- The (destination, source, group) feeds an XCON record makes (R76, R205): forward, and with `BIDIR` the reverse, which
bridges to both members of its group. Group 0x1FFFF is none. -/
def xconFeeds (im : Image) (r : Rec) : List (Nat × Nat × Nat) :=
  let rev := match groupRec im (xconGroup r) with
    | some g => [(protW g, xconDst r, 0x1FFFF), (protP g, xconDst r, 0x1FFFF)]
    | none => [(xconSrc r, xconDst r, 0x1FFFF)]
  (xconDst r, xconSrc r, xconGroup r) :: (if xconBidir r then rev else [])

/-- Every feed of the image. -/
def allFeeds (im : Image) : List (Nat × Nat × Nat) := ((im.sec 4).map (fun e => xconFeeds im e.2)).flatten

/-- What feeds a tributary's egress: its sources and the group that selects among them. -/
def feedOf (im : Image) (t : Nat) : Option (Nat × Nat) := ((allFeeds im).find? (fun f => f.1 = t)).map (·.2)

/-- Whether a tributary has children, or is an ODUCn (R76, R178). -/
def terminated (im : Image) (t : Nat) (r : Rec) : Bool := tribType r = 8 || tribChildren im t ≠ []

/-- An XCON record's verdict, its checks in ascending code (R76, R84, R85, R178, R270). DESIGN CHOICE (log 28): of two records that
feed one destination, the later is reported. -/
def checkXcon (im : Image) (x : Nat) (r : Rec) : Option Nat :=
  let s := tribRec im (xconSrc r)
  let d := tribRec im (xconDst r)
  let fs := (xconFeeds im r).map (·.1)
  let before := (((im.sec 4).filter (fun e => e.1 < x)).map (fun e => (xconFeeds im e.2).map (·.1))).flatten
  let differ := match s, d with
    | some s, some d => tribType s ≠ tribType d || (tribType s ≠ 8 && tribKbps im (xconSrc r) s ≠ tribKbps im (xconDst r) d)
    | _, _ => false
  let ends (t : Nat) : Option Rec → Bool := fun q => match q with | some q => terminated im t q | none => true
  if differ then some 0x0309
  else if fs.any before.contains then some 0x030A
  else if ends (xconSrc r) s || ends (xconDst r) d then some 0x030B
  else if xconGroup r ≠ 0x1FFFF && (groupRec im (xconGroup r)).isNone then some 0x030C
  else match groupRec im (xconGroup r) with
    | some g => if protW g ≠ xconSrc r || protKind g = 4 then some 0x030E else none
    | none => none

/-! ### Protection groups -/

/-- Whether `KIND`, `ARCH`, `SNC_TCM` and switching suit the members (R268 to R270), else 0x030D. -/
def protKindOk (im : Image) (g : Rec) : Bool :=
  let w := (tribRec im (protW g)).getD 0
  let p := (tribRec im (protP g)).getD 0
  let odu := isOdu (tribType w) && tribType w ≠ 8
  let archOk := protArch g = 0 || protBidir g
  let mon := (tribMon w).testBit (protTcm g) && (tribMon p).testBit (protTcm g)
  match protKind g with
  | 0 => odu && archOk && protTcm g = 0
  | 1 => odu && archOk && mon
  | 2 => odu && archOk && protTcm g ≠ 0 && mon
  | 3 => (isHoVc (tribType w) || isLoVc (tribType w)) && protArch g = 0 && !(protBidir g) && protTcm g = 0
  | 4 => stmN (portStack im (protW g)) ≠ 0 && protArch g = 0 && protTcm g = 0
  | _ => true

/-- Members of a group, an MSP port marked by 0x40000. -/
def groupMembers (g : Rec) : List Nat :=
  if protKind g = 7 then []
  else if protKind g = 4 then [0x40000 + protW g, 0x40000 + protP g] else [protW g, protP g]

/-- A PROT record's verdict (R85, R268 to R270). DESIGN CHOICE (log 28): of two groups that share a member, the later record is
reported. -/
def checkProt (im : Image) (k : Nat) (r : Rec) : Option Nat :=
  if protKind r = 7 then none
  else
    let msp := protKind r = 4
    let missing := if msp then portStack im (protW r) = 0 || portStack im (protP r) = 0
      else (tribRec im (protW r)).isNone || (tribRec im (protP r)).isNone
    let differ := if msp then
        portStack im (protW r) ≠ portStack im (protP r) ||
        ((im.getRec 2 (protW r)).map stackSonet) ≠ ((im.getRec 2 (protP r)).map stackSonet)
      else
        ((tribRec im (protW r)).map (fun x => (tribType x, tribKbps im (protW r) x))) ≠
        ((tribRec im (protP r)).map (fun x => (tribType x, tribKbps im (protP r) x)))
    let before := (((im.sec 5).filter (fun e => e.1 < k)).map (fun e => groupMembers e.2)).flatten
    if missing || protW r = protP r || differ then some 0x030C
    else if !(protKindOk im r) then some 0x030D
    else if (groupMembers r).any before.contains then some 0x030E
    else none

/-! ### Timing, power -/

/-- Bandwidth of each step in mHz (R78). -/
def bwMilli : Nat → Nat
  | 0 => 1 | 1 => 3 | 2 => 10 | 3 => 30 | 4 => 100 | 5 => 300 | 6 => 1000 | 7 => 3000 | 8 => 10000 | 9 => 30000
  | 10 => 100000 | 11 => 300000 | 12 => 1000000 | _ => 4000000

/-- Baud rates that `TOD_BAUD` lists (R301). -/
def todBauds : List Nat := [9600, 19200, 38400, 57600, 115200]

/-- Whether an input record holds (R294). DESIGN CHOICE (log 28): a `TAP_PORT` that is no port number fails here, with 0x030F. -/
def timInputOk (im : Image) (i : Nat) (r : Rec) : Bool :=
  let nom := inNominal r
  let tap := 16 ≤ i
  let nomOk := if tap then nom = 0 else if 8 ≤ i then nom = 1 else 0 < nom && nom ≤ 750000000
  let maskOk := tap || (upto 4).all (fun d => !((inMask r).testBit d) || 10 * bwMilli (dpBw (dpllRec im d)) ≤ nom * 1000)
  let tapOk := !tap || ((im.getRec 1 (inTap r)).isSome &&
    !((im.sec 6).any (fun e => 0x110 ≤ e.1 && e.1 < 0x100 + i && inTap e.2 = inTap r)))
  maskOk && nomOk && tapOk && (8 ≤ i || !(inTime r))

/-- Whether a DPLL record holds (R294, R311). DESIGN CHOICE (log 28): an `INITIAL_REF` that names no input fails here, with 0x030F. -/
def timDpllOk (im : Image) (d : Nat) (r : Rec) : Bool :=
  let bwOk := match d with | 0 => dpBw r ≤ 8 | 1 => dpBw r ≤ 6 | _ => true
  let refOk := dpInitial r = 0x3F ||
    (match im.getRec 6 (0x100 + dpInitial r) with
     | some i => inEnable i && (inMask i).testBit d && inPrio i ≠ 0
     | none => false)
  bwOk && refOk && (dpMode r = 0 || d = 1)

/-- Whether an output record holds (R349, R352). -/
def timOutputOk (o : Nat) (r : Rec) : Bool :=
  if !(outEnable r) then true
  else if o ≤ 11 then 1 ≤ outFreq r && outFreq r ≤ 750000000 && (8000 < outFreq r || outSource r = 1)
  else if o = 24 then todBauds.contains (outFreq r) && outSource r = 1
  else outFreq r = 1 && outSource r = 1

/-- A TIMING record's verdict. -/
def checkTiming (im : Image) (k : Nat) (r : Rec) : Option Nat :=
  let ok := match k / 256 with
    | 1 => timInputOk im (k % 256) r
    | 2 => timDpllOk im (k % 256) r
    | _ => timOutputOk (k % 256) r
  if ok then none else some 0x030F

/-- One record's verdict at consistency. -/
def checkRecord (mc : Nat) (im : Image) (t k : Nat) (r : Rec) : Option Nat :=
  match t with
  | 1 => checkPort im k r
  | 2 => checkStack im k r
  | 3 => checkTrib mc im k r
  | 4 => checkXcon im k r
  | 5 => checkProt im k r
  | 6 => checkTiming im k r
  | 7 => if 0x40 ≤ powGroup r && powSidings r ≠ 0 then some 0x0310 else none
  | _ => none

/-- Consistency: sections in type order, records in index order, the first failure (R84); `mc` is the version of the mapper
microcode that runs (R181). -/
def imageConsistency (mc : Nat) (im : Image) : Option ImgFail :=
  firstFail ((im.secs.map (fun s => (recsIdx im s.1).map (fun e =>
    (checkRecord mc im s.1 e.2.1 e.2.2).map (fun c => failCon s.1 c e.1)))).flatten)

end Sys2Proof.Machine
end

