-- ==== Sys2Proof/Machine/Place.lean ====
section
/-!
DEFINITION. The dispatcher (R95 to R105, R188 to R190, R193 to R195, R201 to R212, R282, R518, R519): costs, segment
counts, stage latencies, and the placement of an image around the placement in force.
-/
namespace Sys2Proof.Machine
open Sys2Proof

/-- What a placement is computed from (R93): the image, the fault map, the placement in force with its image, `REPACK`,
lists without an engine and free sidings per island (R518). -/
structure PlaceIn where
  im : Image
  engOut : FMap Nat
  badRegions : FMap (List Nat)
  old : Option (Image × Placement)
  repack : Bool
  orphans : FMap (List Nat)
  freeSidings : FMap Nat

/-- The dispatcher's work: windows, contexts and depot units in use as bit sets per island, cycles the old placement
holds per list, PM addresses per island, work lists, results, shifts, express entries per egress island; the tributaries and
carriers kept. -/
structure PlaceWork where
  src : FMap Nat
  egr : FMap Nat
  ctx : FMap Nat
  dep : FMap Nat
  held : FMap Nat
  pm : FMap (List Nat)
  items : FMap (List Item)
  out : FMap Plc
  alt : FMap (Nat × Nat)
  expr : FMap Nat
  kept : List Nat
  carriers : FMap Carrier

/-- Nothing placed and nothing held. -/
def placeNone : PlaceWork :=
  { src := [], egr := [], ctx := [], dep := [], held := [], pm := [], items := [], out := [], alt := [], expr := [], kept := [], carriers := [] }

/-- A step of the dispatcher: its work, or the reason code with the tributary it failed at. -/
abbrev PlaceM := Except (Nat × Nat)

/-! ### Costs -/

/-- A function's cost per segment; the fixed-cost functions have none (R188). -/
def funcF : Nat → Nat
  | 0x003 => 300 | 0x006 => 300 | 0x004 => 200 | 0x005 => 250 | 0x010 => 240 | 0x011 => 200 | 0x020 => 260
  | 0x021 => 160 | 0x022 => 320 | 0x030 => 60 | _ => 0

/-- The stream term: the highest bytes per tick, 32 to a cycle (R188). -/
def streamCyc (im : Image) (t : Nat) (r : Rec) : Nat := ceilDiv (bmaxNum im t r) (640000000 * 32)

/-- Whether a function has a fixed cost only (R188, R193). -/
def funcFixed (r : Rec) : Bool := tribFunc r = 1 || tribFunc r = 2

/-- Cost of a function per direction at S segments in one of k parts (R188, R190). -/
def funcCost (im : Image) (t : Nat) (r : Rec) (s k : Nat) : Nat :=
  match tribFunc r with
  | 0x001 => 1200 + 150 * oducN im t
  | 0x002 => 800
  | f => s * funcF f + ceilDiv (streamCyc im t r) k

/-- Berths of a tributary in each direction (R43, R178, R201). -/
def berthsOf (im : Image) (t : Nat) (r : Rec) : Nat :=
  if terminated im t r || isLoVc (tribType r) then 0
  else if tribType r = 0x20 then 25 * flexeSlots r
  else ceilDiv (bmaxNum im t r * 257) (640000000 * 819200)

/-- Points monitored (R245). -/
def monCount (r : Rec) : Nat := ((upto 7).filter (fun k => (tribMon r).testBit k)).length

/-- The parts of a wide tributary (R190), 0 where 8 do not do. -/
def partsOf (im : Image) (t : Nat) (r : Rec) (s : Nat) : Nat :=
  if funcFixed r then 1
  else (((upto 8).map (· + 1)).find? (fun k => funcCost im t r s k ≤ 170000)).getD 0

/-- The groups a tributary is a member of (at most one, R270). -/
def groupOf (im : Image) (t : Nat) : Option (Nat × Rec) :=
  ((im.sec 5).find? (fun e => protKind e.2 ≠ 7 && protKind e.2 ≠ 4 && (protW e.2 = t || protP e.2 = t))).map id

/-- The MSP group whose working port is at the root of a tributary's chain (R282). -/
def mspOf (im : Image) (t : Nat) : Option (Nat × Rec) :=
  (im.sec 5).find? (fun e => protKind e.2 = 4 && rootPort im t = some (protW e.2))

/-- Cycles a tributary's total holds beside its function: children in both directions, monitored points, APS (R188, R271). -/
def extraCost (im : Image) (t : Nat) (r : Rec) : Nat :=
  (if tribChildren im t ≠ [] && tribType r ≠ 8 then 1200 else 0) + 180 * monCount r +
  (match groupOf im t with
   | some g => if protP g.2 = t && protBidir g.2 && protKind g.2 ≤ 2 then 100 else 0
   | none => 0)

/-- The j-th of S shares of a number, the first ones larger. -/
def share (c s j : Nat) : Nat := c / s + (if j < c % s then 1 else 0)

/-- The items of one part of a tributary: for each segment its ingress and its egress item, whose allotments sum to C in
each direction; in part 0 one item more for what the total holds beside the function (R46, R188 to R190; log 13). -/
def itemsOf (im : Image) (t : Nat) (r : Rec) (s k p owner : Nat) : List Item :=
  let n := if funcFixed r then 1 else s
  let c := funcCost im t r s k
  let x := extraCost im t r
  ((upto n).map (fun j =>
    [{ nb := j * (375000 / n), allot := share c n j, owner := owner, func := tribFunc r },
     { nb := j * (375000 / n), allot := share c n j, owner := owner, func := tribFunc r }])).flatten ++
  (if p = 0 && x ≠ 0 then [{ nb := 0, allot := x, owner := owner, func := tribFunc r }] else [])

/-- An item put behind every item whose not-before cycle is no later. -/
def itemInsert : List Item → Item → List Item
  | [], x => [x]
  | y :: t, x => if x.nb < y.nb then x :: y :: t else y :: itemInsert t x

/-- Planned finishes of a list in order (R46): owner and finish of each item. -/
def planned : List Item → Nat → List (Nat × Nat)
  | [], _ => []
  | i :: t, f => (i.owner, max i.nb f + i.allot) :: planned t (max i.nb f + i.allot)

/-- Planned finish of the last item of a list, 0 for an empty one. -/
def planEnd (l : List Item) : Nat := l.foldl (fun f i => max i.nb f + i.allot) 0

/-- Cycles a list's items take. -/
def itemSum (l : List Item) : Nat := l.foldl (fun a i => a + i.allot) 0

/-! ### Stage latencies -/

/-- The streaming functions between the line and a tributary's berths, the tributary first (R193). -/
def chainOf (im : Image) (t : Nat) : List (Nat × Rec) :=
  (t :: ancestors im t).filterMap (fun a => match tribRec im a with
    | some r => if funcFixed r then none else some (a, r)
    | none => none)

/-- Whether a port is bonded (R27). -/
def portBonded (im : Image) (p : Nat) : Bool := 1 < (portIslands im p).length

/-- Lane latencies (receive, transmit) of a port (R130, R136). -/
def laneLat (im : Image) (p : Nat) : Nat × Nat :=
  let b := if portBonded im p then 40 else 0
  match im.getRec 1 p with
  | some r =>
    if 256 ≤ p then (320 + b, 60 + b)
    else match portMode r with
      | 0 => (579 + b, 287 + b)
      | 1 => (789 + b, 497 + b)
      | _ => (320 + b, 60 + b)
  | none => (0, 0)

/-- The deskew charge of a port (R136). -/
def deskewCyc (im : Image) (p : Nat) : Nat :=
  if (portLanes im p).length ≤ 1 then 0 else if 256 ≤ p then 1080 else 540

/-- Framer latency of a stack (R193). -/
def framerCyc (st : Nat) : Nat :=
  if st = 1 then 1800 else if st ≤ 4 then 1200 else if st = 0x10 || st = 0x20 then 600 else if st = 0x40 then 300 else 900

/-- The stages' share of a latency at the segment counts given (R193). -/
def stageSum (im : Image) (sOf : FMap Nat) (t : Nat) : Nat :=
  (chainOf im t).foldl (fun a e =>
    let s := tget 1 sOf e.1
    a + 375000 / s + ceilDiv (funcCost im e.1 e.2 s (max 1 (partsOf im e.1 e.2 s))) s) 0

/-- The ports whose lines carry a tributary: its root port, or the PHYs its slots lie on for a FlexE client (R186). -/
def linePorts (im : Image) (t : Nat) : List Nat :=
  match tribRec im t with
  | some r => if tribType r = 0x20 && tribKind r = 0 then (flexeClientPorts im r).foldl insAsc [] else [(rootPort im t).getD 0]
  | none => []

/-- Latency between the line and the framer, the largest over the ports that carry a tributary: receive (with deskew) and
transmit (R193). -/
def lineLat (im : Image) (t : Nat) : Nat × Nat :=
  (linePorts im t).foldl (fun a p =>
    (max a.1 ((laneLat im p).1 + deskewCyc im p + framerCyc (portStack im p)), max a.2 (framerCyc (portStack im p) + (laneLat im p).2))) (0, 0)

/-- Ingress stage latency (R193). -/
def ingLat (im : Image) (sOf : FMap Nat) (t n : Nat) : Nat :=
  (lineLat im t).1 + stageSum im sOf t + 25 * (ceilDiv (max n 1) (tget 1 sOf t) + 1)

/-- Egress stage latency (R193). -/
def egrLat (im : Image) (sOf : FMap Nat) (t : Nat) : Nat := stageSum im sOf t + (lineLat im t).2

/-- The sources of a tributary's feed: one, or both members of its group (R65). -/
def feedSources (im : Image) (t : Nat) : List Nat :=
  match feedOf im t with
  | none => []
  | some (s, g) => match groupRec im g with
    | some r => [protW r, protP r]
    | none => [s]

/-! ### Segment counts -/

/-- The values S may take (R189). -/
def segValues : List Nat := [1, 3, 15, 30, 60, 120]

/-- The largest S a tributary may run at (R189). -/
def segMax (im : Image) (t : Nat) : Nat :=
  match tribRec im t with
  | none => 1
  | some r =>
    if isLoVc (tribType r) then 1
    else
      let n := berthsOf im t r
      if n = 0 then 120 else (segValues.filter (· ≤ n)).foldl max 1

/-- Every stage of both chains at one S, within each tributary's limit. -/
def uniformSeg (im : Image) (t s : Nat) : FMap Nat :=
  ((t :: feedSources im t).map (fun x => x :: ancestors im x)).flatten.foldl
    (fun m x => tput m x (((segValues.filter (· ≤ min s (segMax im x))).foldl max 1))) []

/-- The latency of R65 at one S, as step 1 of R189 counts it. -/
def segLatency (im : Image) (t s : Nat) : Nat :=
  let u := uniformSeg im t s
  let n := match tribRec im t with | some r => berthsOf im t r | none => 0
  (feedSources im t).foldl (fun a x => max a (ingLat im u x n)) 0 + 145 + egrLat im u t

/-- A tributary's own value (R189 step 1), at least `least` (raised after a failure with 0x0405). -/
def ownSeg (im : Image) (least : FMap Nat) (t : Nat) (r : Rec) : Nat :=
  let v := if tribBound r = 0 || feedSources im t = [] then 1
    else (segValues.find? (fun s => segLatency im t s ≤ 300 * tribBound r)).getD 1
  min (max v (tget 1 least t)) (segMax im t)

/-- No allowed S meets the tributary's bound (R189). -/
def segUnmet (im : Image) (t : Nat) (r : Rec) : Bool :=
  tribBound r ≠ 0 && feedSources im t ≠ [] &&
    (segValues.filter (· ≤ segMax im t)).all (fun s => 300 * tribBound r < segLatency im t s)

/-- Every tributary's S (R189 steps 2 and 3). -/
def segCounts (im : Image) (least : FMap Nat) : FMap Nat :=
  let own := (im.sec 3).map (fun e => (e.1, ownSeg im least e.1 e.2))
  let up := own.foldl (fun (m : FMap Nat) e =>
    ((e.1 :: feedSources im e.1).map (fun x => x :: ancestors im x)).flatten.foldl
      (fun m x => tput m x (max (tget 1 m x) e.2)) m) []
  up.map (fun e => (e.1, (segValues.filter (· ≤ min e.2 (segMax im e.1))).foldl max 1))

/-! ### Order -/

/-- Insertion by (no bound last, bound, number) (R98 step 1). -/
def orderInsert : List (Nat × Nat) → Nat × Nat → List (Nat × Nat)
  | [], x => [x]
  | y :: t, x => if x.1 < y.1 || (x.1 = y.1 && x.2 < y.2) then x :: y :: t else y :: orderInsert t x

/-- The order of placement: ascending bound, then number, parents before their children (R98 step 1). -/
def placeOrder (im : Image) (ts : List Nat) : List Nat :=
  let key := fun t => match tribRec im t with | some r => if tribBound r = 0 then 65536 else tribBound r | none => 65536
  let sorted := (ts.foldl (fun l t => orderInsert l (key t, t)) []).map (·.2)
  sorted.foldl (fun l t => ((ancestors im t).reverse ++ [t]).foldl (fun l x => if l.contains x || !(ts.contains x) then l else l ++ [x]) l) []

/-! ### Resources -/

/-- The first index from `i`, wrapping at `m`, that is free in a bit set and satisfies a condition. -/
def firstFree (set m : Nat) (ok : Nat → Bool) : Nat → Nat → Option Nat
  | 0, _ => none
  | f + 1, i =>
    let j := i % m
    if set.testBit j || !(ok j) then firstFree set m ok f (i + 1) else some j

/-- A bit set with one more member. -/
def setAdd (set i : Nat) : Nat := set ||| (1 <<< i)

/-- Members of a bit set below `m`. -/
def setCount (set m : Nat) : Nat := ((upto m).filter (fun i => set.testBit i)).length

/-- `n` free windows, each from the window after the one before, the first from `start`. -/
def takeWindows (ok : Nat → Bool) : Nat → Nat → Nat → Option (List Nat × Nat)
  | 0, set, _ => some ([], set)
  | n + 1, set, start =>
    match firstFree set 15000 ok 15000 start with
    | none => none
    | some w => (takeWindows ok n (setAdd set w) (w + 1)).map (fun r => (w :: r.1, r.2))

/-- An ascending insertion sort of windows. -/
def sortWindows (l : List Nat) : List Nat := l.foldl insAsc []

/-- The berth groups of R189: (size, first window after the segment's planned finish). -/
def berthGroups (n s : Nat) (fin : List Nat) : List (Nat × Nat) :=
  (upto s).map (fun j => (share n s j, ceilDiv (fin.getD j 0) 25))

/-- Windows for every group in turn. -/
def takeGroups (ok : Nat → Bool) : List (Nat × Nat) → Nat → Option (List Nat × Nat)
  | [], set => some ([], set)
  | g :: t, set =>
    match takeWindows ok g.1 set g.2 with
    | none => none
    | some r => (takeGroups ok t r.2).map (fun q => (r.1 ++ q.1, q.2))

/-- Berth distance (R62). -/
def berthDist (s e : Nat) : Nat := let d := (e + 15000 - s) % 15000; if d = 0 then 15000 else d

/-- Whether a distance is express (R206). -/
def isExpress (d : Nat) : Bool := d ≤ 355

/-- The units of the regions that are out in an island (R100). -/
def badUnits (bad : List Nat) : Nat := bad.foldl (fun m r => m ||| ((2 ^ 16 - 1) <<< (16 * r))) 0

/-- The 256-byte units the fixed charges take in an island (R100). DESIGN CHOICE (log 13): all 2,320 of them lie at the lowest
usable units. -/
def depotFixed (bad : List Nat) : Nat := takeFixed (badUnits bad) 2320 16384 0 0
where
  /-- The lowest usable units, `n` of them, added to the set. -/
  takeFixed (out : Nat) : Nat → Nat → Nat → Nat → Nat
    | 0, _, _, set => set
    | _, 0, _, set => set
    | n + 1, f + 1, i, set => if out.testBit i then takeFixed out (n + 1) f (i + 1) set else takeFixed out n f (i + 1) (setAdd set i)

/-- The first run of `n` free units from unit `i`. -/
def firstRun (set n : Nat) : Nat → Nat → Option Nat
  | 0, _ => none
  | f + 1, i =>
    if 16384 < i + n then none
    else if (set >>> i) % 2 ^ n = 0 then some i else firstRun set n f (i + 1)

/-- The highest free place of a 160-byte PM record below `u` (R519). -/
def pmPlace (bad used : List Nat) : Nat → Nat → Option Nat
  | 0, _ => none
  | f + 1, u =>
    if u < 160 then none
    else
      let a := u - 160
      match bad.find? (fun r => r = a / 4096 || r = (a + 159) / 4096) with
      | some r => pmPlace bad used f (r * 4096)
      | none => if used.contains a then pmPlace bad used f a else some a

/-- `n` PM records more. -/
def pmTake (bad : List Nat) : Nat → List Nat → Option (List Nat × List Nat)
  | 0, used => some ([], used)
  | n + 1, used =>
    match pmPlace bad used (used.length + 1026) 4194304 with
    | none => none
    | some a => (pmTake bad n (a :: used)).map (fun r => (a :: r.1, r.2))

/-- The highest unit in use plus one. -/
def depTop (set : Nat) : Nat := set.log2 + 1

/-- Least of a list, `d` when empty. -/
def listMin (d : Nat) (l : List Nat) : Nat := l.foldl min d

/-- Engines out of an island, as the union of the fault maps counts them (R99, R105). -/
def outCount (i : PlaceIn) (isl : Nat) : Nat := setCount (tget 0 i.engOut isl) 16

/-- `SIDING_COUNT` of an island, 1 without a record (R79). -/
def sidingCount (im : Image) (isl : Nat) : Nat := match im.getRec 7 isl with | some r => powSidings r | none => 1

/-- An island in which work may be placed: one with an admin-up port or a bond (R113). -/
def islandOpen (im : Image) (isl : Nat) : Bool :=
  (im.sec 1).any (fun e => (portIslands im e.1).contains isl && (portAdmin e.2 || portBonded im e.1))

/-- The lists an island has for a placement (R99, R518). -/
def listsOf (i : PlaceIn) (isl : Nat) : Nat :=
  match i.old, i.repack with
  | some (oim, pl), false =>
    tget 0 pl.nlists isl + min (sidingCount oim isl - sidingCount i.im isl) (tget 0 i.freeSidings isl)
  | _, _ => 16 - sidingCount i.im isl - outCount i isl

/-! ### Placing one tributary -/

/-- The code a resource failure takes: a pinned tributary's is 0x040A (R97), a bonded port's berths 0x0407 (R29). DESIGN CHOICE
(log 13): 0x040A stands for a pinned tributary also where its island has no list at all (R99 has 0x0401). -/
def resCode (im : Image) (t : Nat) (r : Rec) (c : Nat) : Nat :=
  if tribPinEn r then 0x040A
  else if c = 0x0402 && portBonded im ((rootPort im t).getD 0) then 0x0407 else c

/-- An option as a step that may fail. -/
def need {α : Type} (o : Option α) (c t : Nat) : PlaceM α :=
  match o with
  | some a => .ok a
  | none => .error (c, t)

/-- A condition as a step that may fail. -/
def must (b : Bool) (c t : Nat) : PlaceM Unit := if b then .ok () else .error (c, t)

/-- The home island (R96 to R98 step 2): the pin, or the island of the bond with the most free source berths. -/
def chooseIsland (im : Image) (w : PlaceWork) (t : Nat) (r : Rec) : Nat :=
  if tribPinEn r then tribPin r
  else
    ((homeIslands im t).foldl (fun (best : Option (Nat × Nat)) i =>
      let f := 15000 - setCount (tget 0 w.src i) 15000
      match best with
      | none => some (i, f)
      | some b => if b.2 < f then some (i, f) else best) none |>.map (·.1)).getD 0

/-- Whether a list takes more items (R46, R99, R90). -/
def listFits (w : PlaceWork) (key : Nat) (its : List Item) : Bool :=
  let l := its.foldl itemInsert (tget [] w.items key)
  itemSum l + tget 0 w.held key ≤ 360000 && planEnd l ≤ 360000

/-- The lists of a tributary's parts (R98 step 4, R190): for each the lowest that takes it, no two the same; part 0's no lower
than `lo`. Only a list with an engine takes new work (R518). -/
def chooseLists (i : PlaceIn) (isl t : Nat) (r : Rec) (s k owner lo : Nat) : List Nat → List Nat → PlaceWork → Option (List Nat × PlaceWork)
  | [], got, w => some (got, w)
  | p :: ps, got, w =>
    let its := itemsOf i.im t r s k p owner
    match (upto (listsOf i isl)).find? (fun l =>
        (p ≠ 0 || lo ≤ l) && !(got.contains l) && !((tget [] i.orphans isl).contains l && !i.repack) && listFits w (isl * 16 + l) its) with
    | none => none
    | some l =>
      chooseLists i isl t r s k owner lo ps (got ++ [l])
        { w with items := tput w.items (isl * 16 + l) (its.foldl itemInsert (tget [] w.items (isl * 16 + l))) }

/-- Planned finishes of a tributary's segments in part 0's list: ingress and egress (R46). The item of `extraCost` stands
third, behind the first segment's two. -/
def segFinishes (w : PlaceWork) (pl : Plc) (owner : Nat) : List Nat × List Nat :=
  let f := ((planned (tget [] w.items (pl.island * 16 + pl.lists.getD 0 0)) 0).filter (·.1 = owner)).map (·.2)
  let x := f.length - 2 * pl.seg
  let at' := fun j => if j = 0 then 0 else 2 * j + x
  (((upto pl.seg).map (fun j => f.getD (at' j) 0)), ((upto pl.seg).map (fun j => f.getD (at' j + 1) 0)))

/-- Steps 3 and 4 of R98 for one tributary (or for its counterpart) in the island given, its part 0 in a list no lower than `lo`.
DESIGN CHOICE (log 13): the stage latencies of a tributary without berths read 0. -/
def placeBase (i : PlaceIn) (sOf : FMap Nat) (w : PlaceWork) (t owner : Nat) (r : Rec) (isl lo : Nat) : PlaceM PlaceWork := do
  let im := i.im
  let s := tget 1 sOf t
  let n := berthsOf im t r
  let slot ← need (firstFree (tget 0 w.ctx isl) 2048 (fun _ => true) 2048 0) (resCode im t r 0x0404) t
  must (!(segUnmet im t r)) 0x0405 t
  let k ← (let k := partsOf im t r s; if k = 0 then .error (resCode im t r 0x0401, t) else .ok k)
  let lw ← need (chooseLists i isl t r s k owner lo (upto k) [] w) (resCode im t r 0x0401) t
  let ing := if n = 0 && !(isLoVc (tribType r)) then 0 else ingLat im sOf t n
  let egr := if n = 0 && !(isLoVc (tribType r)) then 0 else egrLat im sOf t
  must (ing ≤ 4194303 && egr ≤ 4194303) 0x0405 t
  let seg := if funcFixed r then 1 else s
  let pl : Plc := Plc.mk isl lw.1 slot 0 0 n seg [] [] [] ing 0 egr false (tribPinEn r && owner = t)
  .ok { lw.2 with ctx := tput w.ctx isl (setAdd (tget 0 w.ctx isl) slot), out := tput w.out owner pl }

/-- `units` of depot at the lowest free address of an island that holds them, clear of bad regions and of the PM records given
(R98 step 6, R519). -/
def depotTake (i : PlaceIn) (w : PlaceWork) (isl units : Nat) (pm : List Nat) : Option (Nat × Nat) :=
  let bad := tget [] i.badRegions isl
  let dep := tget (depotFixed bad) w.dep isl
  (firstRun (dep ||| badUnits bad) units 16384 0).bind (fun base =>
    let dep' := dep ||| ((2 ^ units - 1) <<< base)
    if depTop dep' * 256 ≤ listMin 4194304 pm then some (base, dep') else none)

/-- Step 6 of R98: a tributary's buffers, and its PM records (R100, R519). -/
def placeDepot (i : PlaceIn) (w : PlaceWork) (t owner : Nat) (r : Rec) : PlaceM PlaceWork :=
  match w.out.lookup owner with
  | none => .ok w
  | some pl => do
    let units := if pl.n = 0 then 2 else 2 * (1 + ceilDiv pl.n 8)
    let mon := if owner = t then monCount r else 0
    let pm ← need (pmTake (tget [] i.badRegions pl.island) mon (tget [] w.pm pl.island)) (resCode i.im t r 0x0403) t
    let b ← need (depotTake i w pl.island units pm.2) (resCode i.im t r 0x0403) t
    .ok { w with dep := tput w.dep pl.island b.2, pm := tput w.pm pl.island pm.2,
                 out := tput w.out owner { pl with base := b.1, units := units, pm := pm.1 } }

/-- A tributary's source berths by the segments (R98 step 5). -/
def takeSource (i : PlaceIn) (w : PlaceWork) (t : Nat) (r : Rec) (pl : Plc) : PlaceM PlaceWork := do
  let g := berthGroups pl.n pl.seg (segFinishes w pl t).1
  let x ← need (takeGroups (fun _ => true) g (tget 0 w.src pl.island)) (resCode i.im t r 0x0402) t
  .ok { w with src := tput w.src pl.island x.2, out := tput w.out t { pl with src := sortWindows x.1 } }

/-- The smallest shift from `d` at which every shifted window is free (R210). -/
def findShift (set : Nat) (base : List Nat) : Nat → Nat → Option Nat
  | 0, _ => none
  | f + 1, d => if base.all (fun b => !(set.testBit ((b + d) % 15000))) then some d else findShift set base f (d + 1)

/-- The protection member's source berths at the first free shift from `d` (R210). -/
def takeShifted (w : PlaceWork) (g : Nat) (gr : Rec) (d : Nat) : PlaceM PlaceWork :=
  match w.out.lookup (protW gr), w.out.lookup (protP gr) with
  | some pw, some pp =>
    let free := pp.src.foldl (fun s b => s ^^^ (1 <<< b)) (tget 0 w.src pp.island)
    match findShift free pw.src (15000 - d) d with
    | none => .error (0x0405, protP gr)
    | some x =>
      let src := pw.src.map (fun b => (b + x) % 15000)
      .ok { w with
        src := tput w.src pp.island (src.foldl setAdd free)
        out := tput w.out (protP gr) { pp with src := sortWindows src }
        alt := tput w.alt g (pp.island, x) }
  | _, _ => .ok w

/-- A working member's source berths at the smallest shift below those of a protection member that is kept (R90, R210). -/
def takeUnder (i : PlaceIn) (w : PlaceWork) (g : Nat) (gr : Rec) (pw pp : Plc) : PlaceM PlaceWork :=
  let set := tget 0 w.src pw.island
  match (upto 15000).find? (fun d => pp.src.all (fun b => !(set.testBit ((b + 15000 - d) % 15000)))) with
  | none => .error (match tribRec i.im (protW gr) with | some r => resCode i.im (protW gr) r 0x0402 | none => 0x0402, protW gr)
  | some d =>
    let src := pp.src.map (fun b => (b + 15000 - d) % 15000)
    .ok { w with
      src := tput w.src pw.island (src.foldl setAdd set)
      out := tput w.out (protW gr) { pw with src := sortWindows src }
      alt := tput w.alt g (pp.island, d) }

/-- Source berths, those of a group's protection member when the later of the two is placed (R98 step 5, R210). -/
def placeSource (i : PlaceIn) (w : PlaceWork) (t : Nat) (r : Rec) : PlaceM PlaceWork :=
  match w.out.lookup t with
  | none => .ok w
  | some pl =>
    if pl.n = 0 then .ok w
    else match groupOf i.im t with
      | none => takeSource i w t r pl
      | some (g, gr) =>
        if protW gr = t then
          match w.kept.contains (protP gr), w.out.lookup (protP gr) with
          | true, some pp => takeUnder i w g gr pl pp
          | _, p => do
            let w ← takeSource i w t r pl
            if p.isSome then takeShifted w g gr 0 else .ok w
        else if ((w.out.lookup (protW gr)).map (fun p => !p.src.isEmpty)).getD false then takeShifted w g gr 0
        else .ok w

/-- A tributary's entries as (egress window, source window, the other member's window): the k-th egress berth names the
k-th source berth (R202). -/
def entryPairs (src egr : List Nat) (shift : Option Nat) : List (Nat × Nat × Option Nat) :=
  (egr.zip src).map (fun e => (e.1, e.2, shift.map (fun d => (e.2 + d) % 15000)))

/-- Whether both members' distances lie in one class (R206). -/
def classOk (e : Nat × Nat × Option Nat) : Bool :=
  match e.2.2 with
  | none => true
  | some a => isExpress (berthDist e.2.1 e.1) == isExpress (berthDist a e.1)

/-- The junction latency over a set of entries (R63, R210). -/
def entriesLat (l : List (Nat × Nat × Option Nat)) : Nat :=
  l.foldl (fun m e => max m (25 * max (berthDist e.2.1 e.1) (match e.2.2 with | some a => berthDist a e.1 | none => 0) + 120)) 0

/-- Express entries of a set. -/
def entriesExpress (l : List (Nat × Nat × Option Nat)) : Nat := (l.filter (fun e => isExpress (berthDist e.2.1 e.1))).length

/-- The shift of the group, or of the line's group, through which a source feeds a tributary (R210, R212). -/
def feedShift (im : Image) (alt : FMap (Nat × Nat)) (s g : Nat) : Option Nat :=
  match groupRec im g with
  | some _ => (alt.lookup g).map (·.2)
  | none => match mspOf im s with
    | some x => (alt.lookup x.1).map (·.2)
    | none => none

/-- A tributary's entries as the placement stands; none where its source has no place. -/
def entriesNow (im : Image) (out : FMap Plc) (alt : FMap (Nat × Nat)) (t : Nat) : List (Nat × Nat × Option Nat) :=
  match feedOf im t, out.lookup t with
  | some (s, g), some pl => match out.lookup s with
    | some ps => entryPairs ps.src pl.egr (feedShift im alt s g)
    | none => []
  | _, _ => []

/-- The largest ingress stage latency among what may feed a tributary: its sources, and their counterparts (R65, R282). -/
def feedIng (im : Image) (out : FMap Plc) (t : Nat) : Nat :=
  (feedSources im t).foldl (fun a x =>
    max a (max (((out.lookup x).map (·.ing)).getD 0) (((out.lookup (x + 0x20000)).map (·.ing)).getD 0))) 0

/-- The largest berth distance at which a bound holds (R62, R65); any without a bound. -/
def boundReach (bound ingc egrc : Nat) : Nat := if bound = 0 then 15000 else (300 * bound - ingc - egrc - 120) / 25

/-- An egress window for each source berth, in ascending order from the start of its group: first within express reach
where that is wanted, else with the distance not express, each no further than `reach` (R98 step 5, R207). A request is a source
window, the other member's, and the start of the group for its first berth. -/
def takeEgress (wantExpress : Bool) (reach : Nat) : List (Nat × Option Nat × Option Nat) → Nat → Nat → Option (List Nat × Nat)
  | [], _, set => some ([], set)
  | (s, a, start) :: tl, cur, set =>
    let fits := fun (express : Bool) e => [some s, a].all (fun m => match m with
      | some x => isExpress (berthDist x e) == express && berthDist x e ≤ reach
      | none => true)
    let e1 := if wantExpress then firstFree set 15000 (fits true) 355 (s + 1) else none
    match (match e1 with | some e => some e | none => firstFree set 15000 (fits false) 15000 (start.getD cur)) with
    | none => none
    | some e => (takeEgress wantExpress reach tl (e + 1) (setAdd set e)).map (fun r => (e :: r.1, r.2))

/-- The start window of each berth of a tributary's groups, `d` windows on: of the first berth of a group, none else. -/
def berthStarts (g : List (Nat × Nat)) (d : Nat) : List (Option Nat) :=
  (g.map (fun x => (upto x.1).map (fun k => if k = 0 then some (x.2 + d) else none))).flatten

/-- Egress windows judged: classes, express room (none without a bound, R207), reach. -/
def egressOk (room bound ingc egrc : Nat) (l : List (Nat × Nat × Option Nat)) : Bool :=
  l.all classOk && entriesExpress l ≤ room && (bound = 0 || ingc + entriesLat l + egrc ≤ 300 * bound)

/-- A fresh choice of egress windows judged: as `egressOk`, and none express without a bound (R207). -/
def choiceOk (room bound ingc egrc : Nat) (l : List (Nat × Nat × Option Nat)) : Bool :=
  egressOk (if bound = 0 then 0 else room) bound ingc egrc l

/-- Egress berths of a tributary whose sources are placed (R98 step 5, R206, R207, R210): near windows for one with a bound, else the
first of the plain choices, from later and later starts, that holds; where none does, the code that says why (0x0406 where only
the express limit stands in the way). -/
def chooseEgress (i : PlaceIn) (w : PlaceWork) (t : Nat) (r : Rec) (pl : Plc) : PlaceM PlaceWork := do
  let g := berthGroups pl.n pl.seg (segFinishes w pl t).2
  let set := tget 0 w.egr pl.island
  match feedOf i.im t with
  | none =>
    let x ← need (takeGroups (fun _ => true) g set) (resCode i.im t r 0x0402) t
    .ok { w with egr := tput w.egr pl.island x.2, out := tput w.out t { pl with egr := sortWindows x.1 } }
  | some (s, gid) =>
    let ps ← need (w.out.lookup s) 0x0405 t
    must (pl.n ≤ 15000 - setCount set 15000) (resCode i.im t r 0x0402) t
    let shift := feedShift i.im w.alt s gid
    let ingc := feedIng i.im w.out t
    let reach := boundReach (tribBound r) ingc pl.egrc
    let room := 1024 - tget 0 w.expr pl.island
    let req := fun j => (ps.src.zip (berthStarts g j)).map (fun e => (e.1, shift.map (fun d => (e.1 + d) % 15000), e.2))
    let ok := fun rm (x : List Nat × Nat) => choiceOk rm (tribBound r) ingc pl.egrc (entryPairs ps.src (sortWindows x.1) shift)
    let near := if tribBound r = 0 then none else takeEgress true reach (req 0) 0 set
    let pick := match near.filter (ok room) with
      | some x => some x
      | none => (upto 15000).findSome? (fun j => (takeEgress false reach (req j) 0 set).filter (ok room))
    match pick with
    | some x =>
      let l := entryPairs ps.src (sortWindows x.1) shift
      .ok { w with
        egr := tput w.egr pl.island x.2
        expr := tput w.expr pl.island (tget 0 w.expr pl.island + entriesExpress l)
        out := tput w.out t { pl with egr := sortWindows x.1, jct := entriesLat l, express := entriesExpress l ≠ 0 } }
    | none =>
      .error (if (near.filter (ok 15000)).isSome then 0x0406
        else if tribBound r = 0 && shift.isNone then resCode i.im t r 0x0402 else 0x0405, t)

/-- A tributary's egress windows given up again. -/
def dropEgress (im : Image) (w : PlaceWork) (t : Nat) : PlaceWork :=
  match w.out.lookup t with
  | none => w
  | some pl => { w with
      egr := tput w.egr pl.island (pl.egr.foldl (fun s b => s ^^^ (1 <<< b)) (tget 0 w.egr pl.island))
      expr := tput w.expr pl.island (tget 0 w.expr pl.island - entriesExpress (entriesNow im w.out w.alt t))
      out := tput w.out t { pl with egr := [], jct := 0, express := false } }

/-- The egress berths of several tributaries in turn. -/
def egressAll (i : PlaceIn) : List Nat → PlaceWork → PlaceM PlaceWork
  | [], w => .ok w
  | t :: tl, w =>
    match tribRec i.im t, w.out.lookup t with
    | some r, some pl => do let w ← chooseEgress i w t r pl; egressAll i tl w
    | _, _ => egressAll i tl w

/-- Egress berths fed by a group: at the shift in force, or with the protection member moved to a later shift and every
tributary the group already feeds chosen afresh (R210). -/
def egressShifting (i : PlaceIn) (t g : Nat) (gr : Rec) (fed : List Nat) : Nat → PlaceWork → PlaceM PlaceWork
  | 0, _ => .error (0x0405, t)
  | f + 1, w =>
    let free := fed.foldl (dropEgress i.im) w
    match egressAll i (fed ++ [t]) free with
    | .ok w' => .ok w'
    | .error e =>
      match takeShifted free g gr (((w.alt.lookup g).map (·.2)).getD 0 + 1) with
      | .error _ => .error e
      | .ok w' => egressShifting i t g gr fed f w'

/-- Whether a tributary's egress berths can be chosen now: it and all its sources are placed (R98 step 5). -/
def egressReady (i : PlaceIn) (w : PlaceWork) (t : Nat) : Bool :=
  match w.out.lookup t with
  | none => false
  | some pl => pl.n ≠ 0 && pl.egr = [] && (feedSources i.im t).all (fun s => ((w.out.lookup s).map (fun p => !p.src.isEmpty)).getD false)

/-- The egress berths that have become choosable. -/
def placeEgress (i : PlaceIn) : List Nat → PlaceWork → PlaceM PlaceWork
  | [], w => .ok w
  | t :: tl, w =>
    if egressReady i w t then
      match tribRec i.im t, w.out.lookup t with
      | some r, some pl =>
        match feedOf i.im t with
        | some (_, gid) =>
          match groupRec i.im gid with
          | some gr => do
            let fed := (tkeys w.out).filter (fun x => x < 0x20000 && !(w.kept.contains x) && ((w.out.lookup x).map (fun p => !p.egr.isEmpty)).getD false &&
              ((feedOf i.im x).map (fun f => f.2 == gid)).getD false)
            let w ← (match chooseEgress i w t r pl with
              | .ok w' => .ok w'
              | .error e => if w.kept.contains (protP gr) then .error e else egressShifting i t gid gr fed 15000 w)
            placeEgress i tl w
          | none => do let w ← chooseEgress i w t r pl; placeEgress i tl w
        | none => do let w ← chooseEgress i w t r pl; placeEgress i tl w
      | _, _ => placeEgress i tl w
    else placeEgress i tl w

/-- Steps 3 to 6 of R98 for one tributary, its part 0 in a list no lower than `lo`; its own egress berths, and those that can be
chosen now that it is placed. -/
def placeAt (i : PlaceIn) (sOf : FMap Nat) (done : List Nat) (t : Nat) (r : Rec) (isl lo : Nat) (w : PlaceWork) : PlaceM PlaceWork := do
  let w ← placeBase i sOf w t t r isl lo
  let w ← placeSource i w t r
  let w ← placeEgress i done w
  placeDepot i w t t r

/-- A tributary in the lowest list from which every bound it bears on can still be met (R98 step 4, R113), trying lists from `lo`
up. -/
def placeFrom (i : PlaceIn) (sOf : FMap Nat) (done : List Nat) (t : Nat) (r : Rec) (isl : Nat) : Nat → Nat → PlaceWork → PlaceM PlaceWork
  | 0, lo, w => placeAt i sOf done t r isl lo w
  | f + 1, lo, w =>
    match placeAt i sOf done t r isl lo w with
    | .ok w' => .ok w'
    | .error e =>
      let s := tget 1 sOf t
      match if e.1 = 0x0405 then chooseLists i isl t r s (partsOf i.im t r s) t lo (upto (partsOf i.im t r s)) [] w else none with
      | none => .error e
      | some l => match placeFrom i sOf done t r isl f (l.1.getD 0 15 + 1) w with
        | .ok w' => .ok w'
        | .error _ => .error e

/-- Every tributary of the order placed in turn. -/
def placeTribs (i : PlaceIn) (sOf : FMap Nat) : List Nat → List Nat → PlaceWork → PlaceM PlaceWork
  | [], _, w => .ok w
  | t :: tl, done, w =>
    match tribRec i.im t with
    | none => placeTribs i sOf tl done w
    | some r => do
      let isl := chooseIsland i.im w t r
      must (listsOf i isl ≠ 0 && islandOpen i.im isl) (resCode i.im t r 0x0401) t
      let w ← placeFrom i sOf (done ++ [t]) t r isl 15 0 w
      placeTribs i sOf tl (done ++ [t]) w

/-! ### MSP counterparts -/

/-- The number of a working tributary's counterpart in the placement's table (R282). -/
def counterpart (t : Nat) : Nat := t + 0x20000

/-- The tributaries a port's chain serves, at any depth, in placement order. -/
def portServed (im : Image) (p : Nat) : List Nat := ((im.sec 3).filter (fun e => rootPort im e.1 = some p)).map (·.1)

/-- Whether a shift serves tributaries of a line (R212): the shifted windows are free, and for every entry fed by the line both
members' distances lie in one class and within the bound. -/
def mspShiftOk (im : Image) (w : PlaceWork) (ts : List Nat) (set d : Nat) : Bool :=
  ts.all (fun t => match w.out.lookup t with
    | none => true
    | some pl => pl.src.all (fun b => !(set.testBit ((b + d) % 15000))) &&
      (w.out.all (fun e => if ((feedOf im e.1).map (·.1)) = some t then
          egressOk 1024 (((tribRec im e.1).map tribBound).getD 0) (feedIng im w.out e.1) e.2.egrc (entryPairs pl.src e.2.egr (some d))
        else true)))

/-- The counterparts of a group's line that are not kept: resources, one shift for the whole line, egress berths (R212, R282). -/
def placeMsp (i : PlaceIn) (sOf : FMap Nat) (g : Nat) (gr : Rec) (w : PlaceWork) : PlaceM PlaceWork := do
  let im := i.im
  let ts := (portServed im (protW gr)).filter (fun t => !(w.kept.contains t))
  let isl := (portIslands im (protP gr)).getD 0 0
  must (ts = [] || (listsOf i isl ≠ 0 && islandOpen im isl)) 0x0401 (ts.getD 0 0)
  let w ← ts.foldlM (fun w t => match tribRec im t with
    | some r => placeBase i sOf w t (counterpart t) r isl 0
    | none => .ok w) w
  let set := tget 0 w.src isl
  let d ← need (match w.alt.lookup g with
    | some a => if mspShiftOk im w ts set a.2 then some a.2 else none
    | none => (upto 15000).find? (mspShiftOk im w ts set)) 0x0409 (ts.getD 0 0)
  ts.foldlM (fun w t => match w.out.lookup t, w.out.lookup (counterpart t), tribRec im t with
    | some pl, some cp, some r => do
      let src := sortWindows (pl.src.map (fun b => (b + d) % 15000))
      let gp := berthGroups cp.n cp.seg (segFinishes w cp (counterpart t)).2
      let x ← need (takeGroups (fun e => match feedOf im t with
          | some (s, _) => ((w.out.lookup s).map (fun p => p.src.all (fun b => !(isExpress (berthDist b e))))).getD true
          | none => true) (if cp.n = 0 then [] else gp) (tget 0 w.egr isl)) (resCode im t r 0x0402) t
      placeDepot i { w with
        src := tput w.src isl (src.foldl setAdd (tget 0 w.src isl))
        egr := tput w.egr isl x.2
        alt := tput w.alt g (isl, d)
        out := tput w.out (counterpart t) { cp with src := src, egr := sortWindows x.1 } } t (counterpart t) r
    | _, _, _ => .ok w) w

/-! ### Carriers -/

/-- Units of a low-order VC (R194). -/
def vcUnits (ty : Nat) : Nat := if ty = 0x16 then 4 else if ty = 0x17 then 3 else 86

/-- Units a carrier's VCs take. -/
def carrierUsed (vcs : List (Nat × Nat)) : Nat := vcs.foldl (fun a v => a + v.2) 0

/-- The (source island, egress island, VC) triples that need units (R195, R196, R282). -/
def carrierNeeds (im : Image) (w : PlaceWork) : List (Nat × Nat × Nat) :=
  ((im.sec 3).filter (fun e => isLoVc (tribType e.2))).map (fun e =>
    let dests := (tkeys w.out).filter (fun x => x < 0x20000 && (feedSources im x).contains e.1)
    let isls := dests.foldl (fun l x => match w.out.lookup x with | some p => insAsc l p.island | none => l) []
    ([e.1, counterpart e.1].filterMap (fun v => (w.out.lookup v).map (fun p => isls.map (fun d => (p.island, d, v))))).flatten)
  |>.flatten

/-- The largest berth distance that meets the bounds of the destinations in an egress island of the VCs given (R65, R207); none
where none of them has a bound. -/
def carrierReach (im : Image) (out : FMap Plc) (ei : Nat) (vcs : List (Nat × Nat)) : Option Nat :=
  out.foldl (fun a e =>
    match tribRec im e.1 with
    | some r =>
      if e.2.island = ei && tribBound r ≠ 0 && (feedSources im e.1).any (fun s => vcs.any (fun v => v.1 % 0x20000 = s)) then
        some (min (a.getD 15000) (boundReach (tribBound r) (feedIng im out e.1) e.2.egrc))
      else a
    | none => a) none

/-- The owner number of a carrier in work lists. -/
def carrierOwner (c : Nat) : Nat := 0x40000 + c

/-- The carriers of low-order grooming while they are packed: those kept, and for each pair of islands (64 × source + egress) what
the new ones hold. -/
abbrev CarrierPack := FMap Carrier × FMap (List (List (Nat × Nat)))

/-- First fit of one need into the carriers of its pair of islands (R195): those kept first, where the bounds of what it feeds hold
through them, then the new ones. -/
def carrierFit (im : Image) (out : FMap Plc) (p : CarrierPack) (e : Nat × Nat × Nat) : CarrierPack :=
  let v := (e.2.2, vcUnits (((tribRec im (e.2.2 % 0x20000)).map tribType).getD 0))
  let key := e.1 * 64 + e.2.1
  if p.1.any (fun c => c.2.srcIsl = e.1 && c.2.egrIsl = e.2.1 && c.2.vcs.contains v) then p
  else match p.1.find? (fun c => c.2.srcIsl = e.1 && c.2.egrIsl = e.2.1 && carrierUsed c.2.vcs + v.2 ≤ 344 &&
      berthDist c.2.srcB c.2.egrB ≤ (carrierReach im out e.2.1 [v]).getD 15000) with
    | some c => (tput p.1 c.1 { c.2 with vcs := c.2.vcs ++ [v] }, p.2)
    | none => (p.1, tput p.2 key (firstFit v (tget [] p.2 key)))
where
  /-- First fit into new carriers. -/
  firstFit (v : Nat × Nat) : List (List (Nat × Nat)) → List (List (Nat × Nat))
    | [] => [[v]]
    | c :: tl => if carrierUsed c + v.2 ≤ 344 then (c ++ [v]) :: tl else c :: firstFit v tl

/-- One end's list and depot of a carrier (R100, R188, R195). A carrier's item has no function code of R181. -/
def carrierEnd (i : PlaceIn) (isl c t : Nat) (w : PlaceWork) : PlaceM (Nat × Nat × PlaceWork) := do
  let it : Item := { nb := 0, allot := 120, owner := carrierOwner c, func := 0 }
  let l ← need ((upto (listsOf i isl)).find? (fun l => !((tget [] i.orphans isl).contains l && !i.repack) && listFits w (isl * 16 + l) [it])) 0x0401 t
  let b ← need (depotTake i w isl 4 (tget [] w.pm isl)) 0x0403 t
  .ok (l, b.1, { w with items := tput w.items (isl * 16 + l) (itemInsert (tget [] w.items (isl * 16 + l)) it), dep := tput w.dep isl b.2 })

/-- One new carrier placed (R195, R207). -/
def placeCarrier (i : PlaceIn) (c key : Nat) (vcs : List (Nat × Nat)) (w : PlaceWork) : PlaceM PlaceWork := do
  let si := key / 64
  let ei := key % 64
  let t := ((vcs.map (·.1)).getD 0 0) % 0x20000
  let (l0, b0, w) ← carrierEnd i si c t w
  let (l1, b1, w) ← carrierEnd i ei c t w
  let fin := fun isl l => (((planned (tget [] w.items (isl * 16 + l)) 0).filter (·.1 = carrierOwner c)).map (·.2)).foldl max 0
  let s ← need (firstFree (tget 0 w.src si) 15000 (fun _ => true) 15000 (ceilDiv (fin si l0) 25)) 0x0402 t
  let reach := carrierReach i.im w.out ei vcs
  let pick := fun near => takeEgress near (reach.getD 15000) [(s, none, some (ceilDiv (fin ei l1) 25))] 0 (tget 0 w.egr ei)
  let x ← need (pick (reach.isSome && tget 0 w.expr ei < 1024))
    (if reach.isNone then 0x0402 else if (pick true).isSome then 0x0406 else 0x0405) t
  let e := x.1.getD 0 0
  .ok { w with src := tput w.src si (setAdd (tget 0 w.src si) s), egr := tput w.egr ei x.2,
               expr := tput w.expr ei (tget 0 w.expr ei + (if isExpress (berthDist s e) then 1 else 0)),
               carriers := tput w.carriers c { srcIsl := si, egrIsl := ei, srcB := s, egrB := e, srcList := l0, egrList := l1, base0 := b0, base1 := b1, vcs := vcs } }

/-- The lowest number from `c` that no carrier has. -/
def carrierFree (m : FMap Carrier) : Nat → Nat → Nat
  | 0, c => c
  | f + 1, c => if (m.lookup c).isSome then carrierFree m f (c + 1) else c

/-- Every carrier of the image: those kept with what they hold now, and new ones by the lowest free numbers (R57, R195). -/
def placeCarriers (i : PlaceIn) (w : PlaceWork) : PlaceM PlaceWork :=
  let p := (carrierNeeds i.im w).foldl (carrierFit i.im w.out) (w.carriers, [])
  ((p.2.map (fun g => g.2.map (fun c => (g.1, c)))).flatten).foldlM
    (fun w e => placeCarrier i (carrierFree w.carriers w.carriers.length 0) e.1 e.2 w) { w with carriers := p.1 }

/-- A low-order VC's junction latency is its carriers' entry (R195), the larger where a group or a protected line feeds it (R210);
its bound is judged against it. -/
def carrierLatency (im : Image) (cs : FMap Carrier) (t : Nat) (pl : Plc) : Nat × Bool :=
  (cs.filter (fun c => c.2.egrIsl = pl.island && (feedSources im t).any (fun s => c.2.vcs.any (fun v => v.1 % 0x20000 = s)))).foldl
    (fun a c => (max a.1 (25 * berthDist c.2.srcB c.2.egrB + 120), a.2 || isExpress (berthDist c.2.srcB c.2.egrB))) (0, false)

/-! ### The whole placement -/

/-- A timetable entry (R198). -/
def ttEntry (express : Bool) (sel isl berth : Nat) : BitVec 40 :=
  BitVec.ofNat 40 (packN [(1, 1), (1, bnat express), (17, sel), (1, 0), (6, isl), (14, berth)])

/-- What an unlisted index of a timetable bank reads as (R198). -/
def ttNone : BitVec 40 := 0x3FFFE00000

/-- The timetable of a placement (R202, R208, R282). -/
def buildTt (im : Image) (out : FMap Plc) (cs : FMap Carrier) : FMap (BitVec 40) :=
  let m := out.foldl (fun m e =>
    match feedOf im (e.1 % 0x20000) with
    | none => m
    | some (s, g) =>
      match out.lookup s with
      | none => m
      | some ps =>
        let sel := if (groupRec im g).isSome then g else match mspOf im s with | some x => x.1 | none => 0x1FFFF
        (e.2.egr.zip ps.src).foldl (fun m p =>
          tput m (e.2.island * 15000 + p.1) (ttEntry (isExpress (berthDist p.2 p.1)) sel ps.island p.2)) m) []
  cs.foldl (fun m c => tput m (c.2.egrIsl * 15000 + c.2.egrB)
    (ttEntry (isExpress (berthDist c.2.srcB c.2.egrB)) 0x1FFFF c.2.srcIsl c.2.srcB)) m

/-- Whether R90 lets a tributary keep its placement: its record, its chain's, its port's and stack's, and its group's are
unchanged. -/
def keeps (im oim : Image) (pl : Placement) (t : Nat) : Bool :=
  (pl.tribs.lookup t).isSome && (t :: ancestors im t).all (fun a => im.getRec 3 a = oim.getRec 3 a) &&
  (match rootPort im t with
   | some p => im.getRec 1 p = oim.getRec 1 p && im.getRec 2 p = oim.getRec 2 p
   | none => false) &&
  (groupOf im t = groupOf oim t) && (mspOf im t = mspOf oim t)

/-- The shifts that stand: those of groups the change leaves as they were, both of whose members (or whose line) are kept. -/
def keptAlt (im oim : Image) (kept : List Nat) (alt : FMap (Nat × Nat)) : FMap (Nat × Nat) :=
  alt.filter (fun e => match im.getRec 5 e.1 with
    | some r => oim.getRec 5 e.1 = some r &&
      (if protKind r = 4 then (portServed im (protW r)).any kept.contains else kept.contains (protW r) && kept.contains (protP r))
    | none => false)

/-- The work to start from: what the placement in force holds is not free (R45, R90, R100); what is kept is already out. A carrier is
kept with the VCs it still carries from a kept source to a kept destination (R57). -/
def startWork (i : PlaceIn) (kept : List Nat) : PlaceWork :=
  match i.old with
  | none => placeNone
  | some (oim, pl) =>
    let addAll := fun (m : FMap Nat) (isl : Nat) (l : List Nat) => if l = [] then m else tput m isl (l.foldl setAdd (tget 0 m isl))
    let addDep := fun (m : FMap Nat) (isl base units : Nat) =>
      tput m isl ((tget (depotFixed (tget [] i.badRegions isl)) m isl) ||| ((2 ^ units - 1) <<< base))
    let w := pl.tribs.foldl (fun (w : PlaceWork) e =>
      let p := e.2
      { w with
        src := addAll w.src p.island p.src
        egr := addAll w.egr p.island p.egr
        ctx := addAll w.ctx p.island [p.ctx]
        dep := addDep w.dep p.island p.base p.units
        pm := if p.pm = [] then w.pm else tput w.pm p.island (p.pm ++ tget [] w.pm p.island)
        out := if kept.contains (e.1 % 0x20000) then tput w.out e.1 p else w.out })
      { placeNone with kept := kept, alt := keptAlt i.im oim kept pl.alt }
    let needs := carrierNeeds i.im w
    let w := pl.carriers.foldl (fun (w : PlaceWork) (e : Nat × Carrier) =>
      let vcs : List (Nat × Nat) := e.2.vcs.filter (fun v => needs.contains (e.2.srcIsl, e.2.egrIsl, v.1))
      { w with
        src := addAll w.src e.2.srcIsl [e.2.srcB]
        egr := addAll w.egr e.2.egrIsl [e.2.egrB]
        dep := addDep (addDep w.dep e.2.srcIsl e.2.base0 4) e.2.egrIsl e.2.base1 4
        expr := if !vcs.isEmpty && isExpress (berthDist e.2.srcB e.2.egrB) then tput w.expr e.2.egrIsl (tget 0 w.expr e.2.egrIsl + 1) else w.expr
        carriers := if vcs.isEmpty then w.carriers else tput w.carriers e.1 { e.2 with vcs := vcs } }) w
    let w := w.out.foldl (fun (v : PlaceWork) e =>
      { v with expr := tput v.expr e.2.island (tget 0 v.expr e.2.island + entriesExpress (entriesNow i.im w.out w.alt e.1)) }) w
    pl.items.foldl (fun (w : PlaceWork) e =>
      let keep := e.2.filter (fun it => if it.owner < 0x40000 then kept.contains (it.owner % 0x20000) else (w.carriers.lookup (it.owner - 0x40000)).isSome)
      { w with items := if keep = [] then w.items else tput w.items e.1 keep,
               held := tput w.held e.1 (itemSum e.2 - itemSum keep) }) w

/-- Express entries of an egress island (R206). -/
def expressTotal (im : Image) (w : PlaceWork) (isl : Nat) : Nat :=
  (w.out.filter (fun e => e.2.island = isl)).foldl (fun a e => a + entriesExpress (entriesNow im w.out w.alt e.1)) 0 +
  (w.carriers.filter (fun c => c.2.egrIsl = isl && isExpress (berthDist c.2.srcB c.2.egrB))).length

/-- A kept tributary whose entries the change rewrites (R90). -/
def rewritten (i : PlaceIn) (w : PlaceWork) (t : Nat) : Bool :=
  match i.old with
  | some (oim, pl) => entriesNow i.im w.out w.alt t ≠ entriesNow oim pl.tribs pl.alt t
  | none => false

/-- Kept tributaries that may not be kept (R90): those whose rewritten entries break class or bound, and in an egress island over
the express limit those, in ascending number, with which the rewritten entries pass it. -/
def keptBroken (i : PlaceIn) (w : PlaceWork) (kept : List Nat) : List Nat :=
  let rw := kept.filter (rewritten i w)
  let bad := rw.filter (fun t => match w.out.lookup t, tribRec i.im t with
    | some pl, some r => !(egressOk 15000 (tribBound r) (feedIng i.im w.out t) pl.egrc (entriesNow i.im w.out w.alt t))
    | _, _ => false)
  let size := fun t => entriesExpress (entriesNow i.im w.out w.alt t)
  let tooMany := fun isl =>
    let mine := rw.filter (fun t => ((w.out.lookup t).map (·.island)) = some isl && size t ≠ 0)
    let others := expressTotal i.im w isl - mine.foldl (fun a t => a + size t) 0
    (mine.foldl (fun (a : Nat × List Nat) t => if a.1 + size t ≤ 1024 then (a.1 + size t, a.2) else (a.1, a.2 ++ [t])) (others, [])).2
  bad ++ ((upto 64).map tooMany).flatten

/-- Latencies of every tributary read from the finished placement (R63, R114). -/
def finishPlc (im : Image) (w : PlaceWork) : FMap Plc :=
  w.out.map (fun e =>
    if 0x20000 ≤ e.1 then e
    else match tribRec im e.1, feedOf im e.1 with
      | some r, some _ =>
        if isLoVc (tribType r) then
          let c := carrierLatency im w.carriers e.1 e.2
          (e.1, { e.2 with jct := c.1, express := c.2 })
        else
          let l := entriesNow im w.out w.alt e.1
          (e.1, { e.2 with jct := entriesLat l, express := entriesExpress l ≠ 0 })
      | _, _ => (e.1, { e.2 with jct := 0, express := false }))

/-- The first tributary whose bound the finished placement breaks, carriers included (R65, R102). -/
def boundBroken (im : Image) (out : FMap Plc) : Option Nat :=
  (out.find? (fun e => e.1 < 0x20000 && (match tribRec im e.1 with
    | some r => tribBound r ≠ 0 && feedSources im e.1 ≠ [] &&
      300 * tribBound r < feedIng im out e.1 + e.2.jct + e.2.egrc
    | none => false))).map (·.1)

/-- Lists per island after the change: a raised `SIDING_COUNT` withdraws the highest empty lists, one for each; an empty list at the
top that has lost its engine yields none and goes with them (R518). -/
def finalLists (i : PlaceIn) (items : FMap (List Item)) : FMap Nat :=
  (upto 64).map (fun isl =>
    let l := listsOf i isl
    match i.old, i.repack with
    | some (oim, _), false =>
      (isl, withdraw items (tget [] i.orphans isl) isl l (sidingCount i.im isl - sidingCount oim isl))
    | _, _ => (isl, l))
where
  /-- Lower the number of lists while the highest holds no work. -/
  withdraw (items : FMap (List Item)) (none : List Nat) (isl : Nat) : Nat → Nat → Nat
    | l, 0 => l
    | 0, _ => 0
    | l + 1, k + 1 =>
      if tget [] items (isl * 16 + l) ≠ [] then l + 1
      else withdraw items none isl l (if none.contains l then k + 1 else k)

/-- Segment counts with those in force for the tributaries kept, whose items stay as they are (R90). -/
def keptSegs (i : PlaceIn) (kept : List Nat) (sOf : FMap Nat) : FMap Nat :=
  match i.old with
  | some (_, pl) => kept.foldl (fun m t => match pl.tribs.lookup t with | some p => tput m t p.seg | none => m) sOf
  | none => sOf

/-- One placement with the segment counts given, around the tributaries kept. -/
def placeOnce (i : PlaceIn) (s0 : FMap Nat) (kept : List Nat) : PlaceM PlaceWork := do
  let sOf := keptSegs i kept s0
  let all := (i.im.sec 3).map (·.1)
  let w ← placeTribs i sOf (placeOrder i.im (all.filter (fun t => !(kept.contains t)))) (all.filter kept.contains) (startWork i kept)
  let w ← ((i.im.sec 5).filter (fun e => protKind e.2 = 4 &&
      !((portServed i.im (protW e.2)).all kept.contains && (portServed i.im (protW e.2)) ≠ []))).foldlM
    (fun w e => placeMsp i sOf e.1 e.2 w) w
  placeCarriers i w

/-- Placements with kept tributaries that break placed anew, up to `f` times (R90). -/
def placeKept (i : PlaceIn) (sOf : FMap Nat) : Nat → List Nat → PlaceM PlaceWork
  | 0, kept => placeOnce i sOf kept
  | f + 1, kept => do
    let w ← placeOnce i sOf kept
    let b := keptBroken i w kept
    if b = [] then .ok w else placeKept i sOf f (kept.filter (fun t => !(b.contains t)))

/-- The next value of S, within a tributary's limit; none where it stands at its limit. -/
def nextSeg (im : Image) (t s : Nat) : Option Nat := (segValues.find? (fun v => s < v)).filter (· ≤ segMax im t)

/-- Placements with own values raised after 0x0405 (R189), up to `f` times. -/
def placeRaise (i : PlaceIn) (kept : List Nat) : Nat → FMap Nat → PlaceM Placement
  | 0, _ => .error (0x0405, 0)
  | f + 1, least => do
    let sOf := segCounts i.im least
    let r : PlaceM Placement := do
      let w ← placeKept i sOf kept.length kept
      let out := finishPlc i.im w
      match boundBroken i.im out with
      | some t => .error (0x0405, t)
      | none => .ok { tribs := out, carriers := w.carriers, items := w.items, tt := buildTt i.im out w.carriers, alt := w.alt, nlists := finalLists i w.items }
    match r with
    | .ok p => .ok p
    | .error (c, t) =>
      if c = 0x0405 && !(match tribRec i.im t with | some q => segUnmet i.im t q | none => false) then
        match nextSeg i.im t (tget 1 sOf t) with
        | some v => placeRaise i kept f (tput least t v)
        | none => .error (c, t)
      else .error (c, t)

/-- The monitored points up to the first that exceeds 262,144 (R245): the tributary at which it does. -/
def pointsOver (im : Image) : Option Nat :=
  ((im.sec 3).foldl (fun (a : Nat × Option Nat) e =>
    let n := a.1 + monCount e.2
    (n, if a.2.isNone && 262144 < n then some e.1 else a.2)) (0, none)).2

/-- The index of a key in a section (R86). -/
def keyIndex (im : Image) (t k : Nat) : Nat := (((im.sec t).map (·.1)).takeWhile (· ≠ k)).length

/-- Tributaries R90 lets keep their placement. -/
def keptTribs (i : PlaceIn) : List Nat :=
  match i.old, i.repack with
  | some (oim, pl), false => ((i.im.sec 3).map (·.1)).filter (keeps i.im oim pl)
  | _, _ => []

/-- Feasibility (R84, R85): the placement, or the failure. A change that fits only once the placement in force is gone
fails with 0x0409 (R90, R103). -/
def feasible (i : PlaceIn) : Option ImgFail × Option Placement :=
  let mk := fun c t => (some { stage := 4, sect := 3, reason := c, index := keyIndex i.im 3 t }, none)
  match pointsOver i.im with
  | some t => mk 0x0408 t
  | none =>
    let fuel := 6 * (i.im.sec 3).length + 1
    match placeRaise i (keptTribs i) fuel [] with
    | .ok p => (none, some p)
    | .error (c, t) =>
      if i.old.isSome && c ≠ 0x0409 then
        match placeRaise { i with old := none, repack := true, orphans := [] } [] fuel [] with
        | .ok _ => mk 0x0409 t
        | .error _ => mk c t
      else mk c t

/-- A placement with nothing placed. -/
def placementEmpty : Placement := { tribs := [], carriers := [], items := [], tt := [], alt := [], nlists := [] }

/-- A `PLACEMENT` entry (R114). -/
def plcWord (p : Plc) : BitVec 128 :=
  BitVec.ofNat 128 (packN [(12, 0), (22, p.egrc), (19, p.jct), (22, p.ing), (1, 0), (1, bnat p.express), (1, bnat p.pinned),
    (1, 1), (14, p.n), (14, p.base), (11, p.ctx), (4, p.lists.getD 0 0), (6, p.island)])

/-- `DIGEST` over every placed entry in ascending number (R103). -/
def placeDigest (p : Placement) : Word :=
  let l := (p.tribs.filter (fun e => e.1 < 0x20000)).map (fun e => leBytes 16 (plcWord e.2).toNat)
  if l = [] then 0 else BitVec.ofNat 32 (crc32c l.flatten)

end Sys2Proof.Machine
end

