-- ==== Sys2Proof/Machine/Defects.lean ====
section
/-!
DEFINITION. Defects, suppression, integration and correlation (R221 to R244, R524 to R526).
-/
namespace Sys2Proof.Machine
open Sys2Proof

/-! ### Points -/

/-- A defect's key: point kind (R221, numbered as R240), reference, TCM level or lane, bit. -/
def dkey (kind ref level bit : Nat) : Nat := ((kind * 131072 + ref) * 16 + level) * 32 + bit
def dkKind (k : Nat) : Nat := k / 67108864
def dkRef (k : Nat) : Nat := k / 512 % 131072
def dkLevel (k : Nat) : Nat := k / 32 % 16
def dkBit (k : Nat) : Nat := k % 32

/-- A defect never seen. -/
def defDflt : DefSt := { present := false, inTick := false, run := 0, pres := 0, abs := 0, failed := false, decl := 0 }

/-- The committed image, or none (empty). -/
def theImage (c : Chip) : Image := c.img.image.getD imageEmpty

/-- The ports at the root of a tributary's chain: for a FlexE client every PHY of its group (R222). -/
def chainPorts (im : Image) (t : Nat) : List Nat :=
  match rootPort im t with
  | none => []
  | some p =>
    match im.getRec 2 p with
    | some r => if stackType r = 0x20 then flexePhys im (stackGroup r) else [p]
    | none => [p]

/-- Lanes of a port of the image. -/
def portLaneCount (im : Image) (p : Nat) : Nat :=
  match im.getRec 1 p with
  | some r => (lanesOf p (portCount r)).length
  | none => 0

/-- The PORT and LANE points above a port's SECTION. -/
def sectionParents (im : Image) (p : Nat) : List (Nat × Nat × Nat) :=
  (0, p, 0) :: (upto (portLaneCount im p)).map (fun k => (1, p, k))

/-- TRIB and PATH points of ancestors, and the SECTION, LANE and PORT points of the chain's ports (R222). -/
def tribParents (im : Image) (t : Nat) : List (Nat × Nat × Nat) :=
  ((ancestors im t).map (fun a => [(4, a, 0), (3, a, 0)])).flatten ++
  ((chainPorts im t).map (fun p => (2, p, 0) :: sectionParents im p)).flatten

/-- Every point above a point (R222). -/
def pointParents (im : Image) (kind ref : Nat) : List (Nat × Nat × Nat) :=
  match kind with
  | 0 => []
  | 1 => [(0, ref, 0)]
  | 2 => sectionParents im ref
  | 3 => tribParents im ref
  | 4 => (3, ref, 0) :: tribParents im ref
  | _ => (4, ref, 0) :: (3, ref, 0) :: tribParents im ref

/-- The bits of a point kind's signal-fail defects (R224, R225). -/
def sfBits : Nat → List Nat
  | 0 => [0, 2]
  | 1 => [0, 1]
  | 2 => [0, 1, 2, 3, 4, 7, 10, 11, 12]
  | 3 => [0, 1, 2, 3, 4]
  | 4 => [0, 1, 2, 3, 4, 5, 8, 9, 11]
  | _ => []

/-- A defect's family (R224, R225). -/
def defFamily (kind bit : Nat) : Nat :=
  let l : List Nat := match kind with
    | 0 => [0, 1, 2]
    | 1 => [0, 2]
    | 2 => [3, 3, 3, 4, 6, 8, 9, 9, 10, 10, 9, 3, 3]
    | 3 => [4, 3, 7, 11, 7]
    | 4 => [4, 5, 5, 5, 6, 7, 8, 9, 7, 4, 8, 3]
    | _ => [4, 5, 5, 5, 6, 8, 9, 10]
  l.getD bit 0

/-- The bits a defect suppresses at its own point (R226). -/
def sameSup (kind bit : Nat) : List Nat :=
  match kind with
  | 0 => if bit = 0 then [2] else []
  | 2 =>
    if bit = 0 then [1, 2, 3, 4, 5, 6, 7, 8, 9, 10, 11, 12]
    else if bit = 1 || bit = 2 || bit = 11 || bit = 12 then [4, 5, 6, 8, 9]
    else if bit = 3 then [5, 6, 7]
    else if bit = 4 then [5, 6, 7, 8, 9]
    else if bit = 10 then [5] else []
  | 3 => if bit = 0 then [1, 2, 3, 4] else if bit = 1 then [2, 3] else []
  | 4 =>
    if bit = 0 || bit = 9 then [1, 2, 3, 4, 5, 6, 7, 8, 10, 11]
    else if bit = 1 || bit = 2 || bit = 3 then [4, 5, 6, 7, 8, 10, 11]
    else if bit = 4 then [5, 6, 7, 8, 11]
    else if bit = 5 then [8, 11] else []
  | 5 =>
    if bit = 0 then [1, 2, 3, 4, 5, 6, 7]
    else if bit = 1 || bit = 2 || bit = 3 then [4, 5, 6, 7]
    else if bit = 4 then [5, 6, 7] else []
  | _ => []

/-! ### Contexts -/

/-- A context as initialised (R177). -/
def ctxDflt : CtxSt := { func := 0, neg := 0, pos := 0, unfinished := 0, range := 0, fill := 0, oor := false, slip := 0, repl := false, replLast := false, errored := false, unf := false, upd := false, until_ := 0, fills := [], adjAt := 0, fresh := false, calRx := false, calTx := false, seq := 0 }

def getCtx (c : Chip) (t : Nat) : CtxSt := tget ctxDflt c.ctx t

/-- Change the context of a tributary that the placement in force holds. -/
def updCtx (t : Nat) (f : CtxSt → CtxSt) (c : Chip) : Chip :=
  if (c.img.place.tribs.lookup t).isSome then { c with ctx := tupd ctxDflt c.ctx t f } else c

/-! ### Presence -/

def dget (c : Chip) (k : Nat) : DefSt := tget defDflt c.dfx.d k

/-- A defect's standing is changed. -/
def dupd (k : Nat) (f : DefSt → DefSt) (c : Chip) : Chip := { c with dfx := { c.dfx with d := tupd defDflt c.dfx.d k f } }

/-- A defect is or is not present from now; a tick counts as present when it was in any cycle of it (R230). -/
def setDefect (k : Nat) (b : Bool) (c : Chip) : Chip :=
  dupd k (fun d => { d with present := b, inTick := d.inTick || b, run := 0 }) c

/-- One frame's indication: the defect is detected after `nd` consecutive frames with it and cleared after `nc` without. -/
def frameInd (k nd nc : Nat) (ind : Bool) (c : Chip) : Chip :=
  let d := dget c k
  if ind = d.present then dupd k (fun d => { d with run := 0 }) c
  else if d.run + 1 < (if d.present then nc else nd) then dupd k (fun d => { d with run := d.run + 1 }) c
  else setDefect k ind c

/-- A defect no longer detected: not present, its frame count afresh (R525). -/
def dropDefect (k : Nat) (c : Chip) : Chip := dupd k (fun d => { d with present := false, run := 0 }) c

/-- An SF defect is present at a point. -/
def pointSf (c : Chip) (p : Nat × Nat × Nat) : Bool :=
  (sfBits p.1).any (fun b => (dget c (dkey p.1 p.2.1 p.2.2 b)).present)

/-- An SF defect was present at a point in some cycle of the tick. -/
def pointSfTick (c : Chip) (p : Nat × Nat × Nat) : Bool :=
  (sfBits p.1).any (fun b => (dget c (dkey p.1 p.2.1 p.2.2 b)).inTick)

/-- Server signal fail of a tributary (R223). -/
def tribSF (c : Chip) (t : Nat) : Bool := ((4, t, 0) :: pointParents (theImage c) 4 t).any (pointSf c)

/-- The points whose SF defects replace a tributary's data: its TRIB point and those above (R227), but not a CPRI line's section, whose bits are
carried in frame or not (R155). -/
def replPoints (im : Image) (t : Nat) : List (Nat × Nat × Nat) :=
  (3, t, 0) :: (tribParents im t).filter (fun p => !(p.1 = 2 && portStack im p.2.1 = 0x40))

/-- An SF defect at the tributary's TRIB point or above: what replaces its data (R227). -/
def tribSFAbove (c : Chip) (t : Nat) : Bool := (replPoints (theImage c) t).any (pointSf c)

/-- SF at PORT, LANE or SECTION of a port. -/
def portSF (c : Chip) (p : Nat) : Bool := ((2, p, 0) :: sectionParents (theImage c) p).any (pointSf c)

/-- A defect is suppressed in the tick: by an SF defect above its point (R223) or by one of its own point (R226). -/
def suppressed (im : Image) (c : Chip) (k : Nat) : Bool :=
  (pointParents im (dkKind k) (dkRef k)).any (pointSfTick c) ||
  (upto 13).any (fun b => (sameSup (dkKind k) b).contains (dkBit k) &&
    (dget c (dkey (dkKind k) (dkRef k) (dkLevel k) b)).inTick)

/-- The part detects defects only on a committed image (R244). -/
def detects (c : Chip) : Bool := onImage c

/-- Defects named by a list of keys are no longer detected. -/
def dropKeys (p : Nat → Bool) (c : Chip) : Chip :=
  forEach (((tkeys c.dfx.d).filter p)) dropDefect c

/-- R525: a unit of the port is out of IF, so only dLOF, dLOM and dHIBER are detected at the SECTION, and nothing at the
points of tributaries the port serves; frame counts of traces, multiframes and of what dIAE is made of start afresh. -/
def dropPortFrames (p : Nat) (c : Chip) : Chip :=
  let im := theImage c
  let serves (t : Nat) : Bool := (chainPorts im t).contains p
  let traces (e : Nat × TraceSt) : Bool := e.1 = p || (320 ≤ e.1 && (match c.pm.points.lookup (e.1 - 320) with | some x => serves x.1 | none => false))
  let c1 := dropKeys (fun k => (dkKind k = 2 && dkRef k = p && !([0, 1, 10].contains (dkBit k))) || (3 ≤ dkKind k && serves (dkRef k))) c
  { c1 with dfx := { c1.dfx with aux := c1.dfx.aux.filter (fun e => !(serves (dkRef e.1))) }, line := { c1.line with h4 := c1.line.h4.filter (fun e => !(serves e.1)), trace := c1.line.trace.map (fun e => if traces e then (e.1, { e.2 with run := 0 }) else e), acc := c1.line.acc.filter (fun e => !(serves (dkRef e.1))), ptr := c1.line.ptr.map (fun e => if serves e.1 then (e.1, { e.2 with state := 0, run := 0, bad := 0, ndf := 0, ones := 0 }) else e) } }

/-! ### Roots -/

/-- The tributaries of the subtree of a point; a TRIB or PATH root's own tributary is no consequent (R232). -/
def subtree (im : Image) (kind ref : Nat) : List Nat :=
  if kind ≤ 2 then ((im.sec 3).map (·.1)).filter (fun t => (chainPorts im t).contains ref)
  else if kind ≤ 4 then ((im.sec 3).map (·.1)).filter (fun t => (ancestors im t).contains ref)
  else []

/-- A root's rank, to compare in order (R232). -/
def rootRank (r : Root) : List Nat := [if r.kind = 1 then r.pk else if r.kind = 3 then 6 else 7, r.ref, r.decl, r.bit]

/-- Lexicographic order. -/
def lexLt : List Nat → List Nat → Bool
  | a :: s, b :: t => a < b || (a = b && lexLt s t)
  | _, _ => false

/-- The root that holds a tributary: the highest of those that list it (R232). -/
def holderOf (roots : List Root) (t : Nat) : Option Root :=
  (roots.filter (fun r => r.list.contains t)).foldl
    (fun h r => match h with | none => some r | some q => if lexLt (rootRank r) (rootRank q) then some r else some q) none

/-- The members of a burst key. -/
def burstMembers (c : Chip) (family port : Nat) : List (Nat × FailSt) :=
  c.dfx.fails.filter (fun e => e.2.how = 2 && e.2.family = family && e.2.port = port)

/-- A root's count: consequents, or members of a burst (R232 to R234). -/
def rootCount (c : Chip) (r : Root) : Nat :=
  if r.kind = 2 then (burstMembers c r.family r.ref).length else r.list.length

/-- Runs of `CONSEQ_LIST` in use, by first index. -/
def usedRuns (roots : List Root) : FMap Nat :=
  (roots.filter (fun r => r.slot.isSome && r.list ≠ [])).foldl (fun m r => tput m r.base r.list.length) []

/-- The first free run of `n` entries from `at_` below the runs in use. -/
def firstGap (n : Nat) : FMap Nat → Nat → Option Nat
  | [], a => if a + n ≤ 131072 then some a else none
  | (b, l) :: t, a => if a + n ≤ b then some a else firstGap n t (b + l)

/-- The lowest free entry of `ROOT_TABLE`. -/
def freeSlot (roots : List Root) : Option Nat := (upto 8192).find? (fun i => !(roots.any (fun r => r.slot = some i)))

/-- A root takes its places in both tables, or none with `ROOT_OVF` (R236). -/
def placeRoot (r : Root) (c : Chip) : Root × Chip :=
  let slot := match r.slot with | some i => some i | none => freeSlot c.dfx.roots
  match slot, firstGap r.list.length (usedRuns c.dfx.roots) 0 with
  | some i, some b => ({ r with slot := some i, base := b }, c)
  | _, _ => ({ r with slot := none, base := 0 }, { c with notice := { c.notice with rootOvf := true } })

def setRoots (l : List Root) (c : Chip) : Chip := { c with dfx := { c.dfx with roots := l } }
def setFails (m : FMap FailSt) (c : Chip) : Chip := { c with dfx := { c.dfx with fails := m } }
def setWins (l : List CorrWin) (c : Chip) : Chip := { c with dfx := { c.dfx with wins := l } }

/-- A root opens. -/
def openRoot (r : Root) (c : Chip) : Chip :=
  let x := placeRoot r c
  setRoots (x.2.dfx.roots ++ [x.1]) x.2

/-- The same root: kind, point, bit and declaration. -/
def sameRoot (a b : Root) : Bool :=
  a.kind == b.kind && a.pk == b.pk && a.ref == b.ref && a.lvl == b.lvl && a.bit == b.bit && a.family == b.family &&
  a.decl == b.decl

/-- A root leaves the list of open roots. -/
def dropRoot (r : Root) (c : Chip) : Chip := setRoots (c.dfx.roots.filter (fun q => !(sameRoot q r))) c

/-- A root's list changes: its run in `CONSEQ_LIST` is chosen afresh when its length changes. -/
def relistRoot (r : Root) (l : List Nat) (c : Chip) : Chip :=
  if l = r.list then c
  else
    let others := dropRoot r c
    let x := placeRoot { r with list := l } others
    setRoots (c.dfx.roots.map (fun q => if sameRoot q r then x.1 else q)) x.2

/-- The notice class of a point (R242). -/
def pointClass (c : Chip) (kind ref : Nat) : Nat :=
  if 3 ≤ kind then (match tribRec (theImage c) ref with | some r => tribClass r | none => 0) else 0

/-- A point notice (0x01). -/
def pointNotice (k : Nat) (clear : Bool) (tick : Nat) : Notice :=
  { ntype := 1, prio := 2, clear := clear, pk := dkKind k, lvl := dkLevel k, family := defFamily (dkKind k) (dkBit k), bit := dkBit k, ref := dkRef k, conseq := 0, tick := tick }

/-- A root's notice: 0x02 tree, 0x03 burst, 0x04 update. -/
def rootNotice (r : Root) (ty count : Nat) (clear : Bool) (tick : Nat) : Notice :=
  { ntype := ty, prio := 1, clear := clear, pk := r.pk, lvl := r.lvl, family := r.family, bit := r.bit, ref := r.ref, conseq := count, tick := tick }

/-- Whether a point's class would raise a notice of it. -/
def wouldRaise (k : Nat) (c : Chip) : Bool :=
  classPass (classRec c (pointClass c (dkKind k) (dkRef k))) (defFamily (dkKind k) (dkBit k)) false

/-- A root's notice, filtered by its class; a causeway root's is never filtered (R242). -/
def rootNotify (r : Root) (n : Notice) (c : Chip) : Chip := if r.kind = 3 then notify n c else notifyClass r.cls n c

/-- Correlation is on (R234, R526). -/
def corrOn (c : Chip) : Bool := bitAt c.dfx.corr.eff 0
def corrWin (c : Chip) : Nat := bits c.dfx.corr.eff 16 16
def corrMin (c : Chip) : Nat := bits c.dfx.corr.eff 8 8

/-- The port of a point's burst key (R233): the root of its server chain. -/
def keyPort (im : Image) (t : Nat) : Nat := (rootPort im t).getD 0

/-- A failure joins its key's burst or window; with neither open a window opens (R233). -/
def joinBurst (k n : Nat) (c : Chip) : Chip :=
  let fam := defFamily (dkKind k) (dkBit k)
  let port := keyPort (theImage c) (dkRef k)
  let c1 := setFails (tput c.dfx.fails k { how := 2, told := false, decl := n, family := fam, port := port }) c
  match c1.dfx.roots.find? (fun r => r.kind = 2 && r.family = fam && r.ref = port) with
  | some r => relistRoot r (insAsc r.list (dkRef k)) c1
  | none =>
    if c1.dfx.wins.any (fun w => w.family = fam && w.port = port) then c1
    else setWins (c1.dfx.wins ++ [{ family := fam, port := port, start := n, fin := n + corrWin c, least := corrMin c, gone := [] }]) c1

/-- The tributaries of a burst's members. -/
def burstList (c : Chip) (family port : Nat) : List Nat :=
  (burstMembers c family port).foldl (fun l e => insAsc l (dkRef e.1)) []

/-- The tributaries of a new root's list that had a notice raised before: of their own points, of a burst, of a root below
the new one (R232). -/
def priorOf (c : Chip) (r : Root) : List Nat :=
  r.list.filter (fun t =>
    c.dfx.fails.any (fun e => 3 ≤ dkKind e.1 && dkRef e.1 = t && e.2.told) ||
    (match holderOf c.dfx.roots t with
     | some h => h.raised && !h.ended && lexLt (rootRank r) (rootRank h)
     | none => false))

/-- A failure is a member of a burst root. -/
def isMember (r : Root) (f : FailSt) : Bool := r.kind = 2 && f.how = 2 && f.family = r.family && f.port = r.ref

/-- A new root ranks above what notified a failure of one of its consequents (R232): a point notice always; a tree root or burst of lower rank;
where the new root is no burst, a collection that has not ended. -/
def outranks (r : Root) (roots : List Root) (k : Nat) (f : FailSt) : Bool :=
  match f.how with
  | 0 => true
  | 1 => roots.any (fun q => q.kind = 1 && q.pk = dkKind k && q.ref = dkRef k && q.lvl = dkLevel k && q.bit = dkBit k && lexLt (rootRank r) (rootRank q))
  | 2 => (match roots.find? (fun q => isMember q f) with | some q => lexLt (rootRank r) (rootRank q) | none => r.kind ≠ 2)
  | _ => r.kind ≠ 2

/-- What a failure is once a root has taken it over (R232): a tree root stands on, anything else is held. -/
def takenFail (f : FailSt) : FailSt := { f with how := if f.how = 1 then 1 else 3, told := false }

/-- A root's notice ends, for all it listed is taken over (R232): it stays open with its list and raises no further notice. -/
def endedBy (r q : Root) : Bool :=
  lexLt (rootRank r) (rootRank q) && q.kind = 1 && q.list.all r.list.contains && (q.pk ≤ 2 || r.list.contains q.ref) && !(q.pk = r.pk && q.ref = r.ref)

/-- A new root takes over (R232): of its consequents the point failures, the members of bursts and the roots that it outranks end without a
clearing notice. -/
def subsume (r : Root) (c : Chip) : Chip :=
  let taken (e : Nat × FailSt) : Bool := 3 ≤ dkKind e.1 && r.list.contains (dkRef e.1) && !(isMember r e.2) && outranks r c.dfx.roots e.1 e.2
  let fails := c.dfx.fails.map (fun e => if taken e then (e.1, takenFail e.2) else e)
  let roots := c.dfx.roots.map (fun q => if endedBy r q then { q with ended := true } else q)
  let c1 := setRoots roots (setFails fails c)
  forEach (c1.dfx.roots.filter (fun q => q.kind = 2))
    (fun q c => if burstMembers c q.family q.ref = [] then dropRoot q c else relistRoot q (burstList c q.family q.ref) c) c1

/-- A declared failure is notified, held, collected or made a root (R232, R233). -/
def openFail (k n : Nat) (c : Chip) : Chip :=
  let im := theImage c
  let kind := dkKind k
  let ref := dkRef k
  let fam := defFamily kind (dkBit k)
  let told := wouldRaise k c
  let elig := 3 ≤ kind && [4, 5, 8].contains fam && corrOn c && told
  let put (how : Nat) (told : Bool) : FMap FailSt :=
    tput c.dfx.fails k { how := how, told := told, decl := n, family := fam, port := keyPort im ref }
  let holder := if 3 ≤ kind then holderOf c.dfx.roots ref else none
  match holder with
  | some h =>
    if h.kind = 2 && elig && c.dfx.roots.any (fun r => r.kind = 2 && r.family = fam && r.ref = keyPort im ref) then
      joinBurst k n c
    else setFails (put 3 false) c
  | none =>
    let sub := subtree im kind ref
    if sub ≠ [] then
      let r : Root := { kind := 1, pk := kind, ref := ref, lvl := dkLevel k, bit := dkBit k, family := fam, decl := n, cls := pointClass c kind ref, list := sub, prior := [], slot := none, base := 0, raised := told, reported := sub.length, lastUpd := none, ended := false }
      let r1 := { r with prior := priorOf c r }
      rootNotify r1 (rootNotice r1 2 sub.length false n) (openRoot r1 (subsume r1 (setFails (put 1 told) c)))
    else if elig then joinBurst k n c
    else notifyClass (pointClass c kind ref) (pointNotice k false n) (setFails (put 0 told) c)

/-- Failures that no root holds any more are notified at the release (R232). -/
def releaseHeld (n : Nat) (c : Chip) : Chip :=
  forEach (c.dfx.fails.filter (fun e => e.2.how = 3))
    (fun e c => if (holderOf c.dfx.roots (dkRef e.1)).isNone && (c.dfx.fails.lookup e.1).isSome then
        openFail e.1 n (setFails (tdel c.dfx.fails e.1) c)
      else c) c

/-- A failure leaves: with `loud` its clearing notice is raised where a notice stands (R230, R232, R233). -/
def closeFail (k n : Nat) (loud : Bool) (c : Chip) : Chip :=
  match c.dfx.fails.lookup k with
  | none => c
  | some f =>
    let c1 := setFails (tdel c.dfx.fails k) c
    if f.how = 0 then when loud (notifyClass (pointClass c (dkKind k) (dkRef k)) (pointNotice k true n)) c1
    else if f.how = 1 then
      match c.dfx.roots.find? (fun r => r.kind = 1 && r.pk = dkKind k && r.ref = dkRef k && r.lvl = dkLevel k && r.bit = dkBit k) with
      | none => c1
      | some r => when (loud && !r.ended) (rootNotify r (rootNotice r 2 r.list.length true n)) (dropRoot r c1)
    else if f.how = 2 then
      match c.dfx.roots.find? (fun r => r.kind = 2 && r.family = f.family && r.ref = f.port) with
      | some r =>
        if burstMembers c1 f.family f.port = [] then notifyClass 0 (rootNotice r 3 0 true n) (dropRoot r c1)
        else relistRoot r (burstList c1 f.family f.port) c1
      | none =>
        if loud then
          setWins (c1.dfx.wins.map (fun w => if w.family = f.family && w.port = f.port then
            { w with gone := w.gone ++ [(k, f.decl, n)] } else w)) c1
        else c1
    else c1

/-- Insert an event of a window's end in order of tick, raise before clear. -/
def insEvent : List (Nat × Bool × Nat) → Nat × Bool × Nat → List (Nat × Bool × Nat)
  | [], x => [x]
  | y :: t, x => if x.1 < y.1 then x :: y :: t else y :: insEvent t x

/-- Members in order of declaration. -/
def membersByDecl (l : List (Nat × FailSt)) : List (Nat × Bool × Nat) :=
  (l.map (fun e => (e.2.decl, false, e.1))).foldl insEvent []

/-- The raises and clearings of members that cleared during a window, added to those of its members, in order (R233). -/
def windowEvents (w : CorrWin) (ms : List (Nat × FailSt)) : List (Nat × Bool × Nat) :=
  (w.gone.map (fun g => [(g.2.1, false, g.1), (g.2.2, true, g.1)])).flatten.foldl insEvent (membersByDecl ms)

/-- A window's end: one burst root, or each member's own notices (R233). -/
def endWindow (w : CorrWin) (c : Chip) : Chip :=
  let ms := burstMembers c w.family w.port
  let c1 := setWins (c.dfx.wins.filter (fun v => !(v.family = w.family && v.port = w.port))) c
  match (if w.least ≤ ms.length then (membersByDecl ms).head? else none) with
  | some first =>
    let k := first.2.2
    let r : Root := { kind := 2, pk := dkKind k, ref := w.port, lvl := dkLevel k, bit := dkBit k, family := w.family, decl := w.start, cls := 0, list := burstList c w.family w.port, prior := [], slot := none, base := 0, raised := true, reported := ms.length, lastUpd := none, ended := false }
    let r1 := { r with prior := priorOf c1 r }
    notifyClass 0 (rootNotice r1 3 ms.length false w.start) (openRoot r1 (subsume r1 c1))
  | none =>
    let c2 := setFails (c1.dfx.fails.map (fun e =>
      if ms.any (fun m => m.1 = e.1) then (e.1, { e.2 with how := 0, told := true }) else e)) c1
    forEach (windowEvents w ms) (fun e c =>
      notifyClass (pointClass c (dkKind e.2.2) (dkRef e.2.2)) (pointNotice e.2.2 e.2.1 e.1) c) c2

/-- Update notices that are due: a changed count, at most once in 8,000 ticks (R234). -/
def updateRoots (n : Nat) (c : Chip) : Chip :=
  forEach c.dfx.roots (fun r c =>
    if !r.ended && rootCount c r ≠ r.reported && (match r.lastUpd with | none => true | some u => u + 8000 ≤ n) then
      let c1 := rootNotify r (rootNotice r 4 (rootCount c r) false n) c
      setRoots (c1.dfx.roots.map (fun q => if sameRoot q r then { q with reported := rootCount c r, lastUpd := some n } else q)) c1
    else c) c

/-- What `ROOT_TABLE` and `CONSEQ_LIST` show of the roots (R235): index, first index, kind, defect, point, declaration, consequents. -/
def rootTables (c : Chip) : List (Option Nat × List Nat × List Nat × List Nat) :=
  (c.dfx.roots.filter (fun r => r.slot.isSome)).map (fun r => (r.slot, [r.base, r.kind, r.bit, r.pk, r.ref, r.decl, rootCount c r], r.list, r.prior))

/-- The mark of the rewrite of the tables after a boundary. -/
def doneRewrite : Nat := 9

/-- `CORR_SEQ` advances by 1 before and by 1 after the rewrite that follows a boundary at which a root opens, closes or changes (R236). -/
def rewriting (f : Chip → Chip) (c : Chip) : Chip :=
  let c1 := f c
  if rootTables c1 = rootTables c || isDone doneRewrite c1 then c1
  else markDone doneRewrite { c1 with dfx := { c1.dfx with corrSeq := c1.dfx.corrSeq + 2 } }

/-! ### Integration -/

def integTicks (c : Chip) : Nat := bits c.dfx.ctrl.eff 24 8 * 800
def clearTicks (c : Chip) : Nat := bits c.dfx.ctrl.eff 16 8 * 800

/-- A defect over the tick that ends (R230): counts of a suppressed defect stay 0. -/
def integrate (sup : Bool) (d : DefSt) : DefSt :=
  { d with pres := if d.inTick && !sup then d.pres + 1 else 0, abs := if !d.inTick && d.failed then d.abs + 1 else 0 }

/-- The failure of a defect is declared (R230). -/
def declareFail (k n : Nat) (c : Chip) : Chip := openFail k n (dupd k (fun d => { d with failed := true, abs := 0, decl := n }) c)

/-- A failure clears with its notice (R230). -/
def clearFail (k n : Nat) (c : Chip) : Chip := closeFail k n true (dupd k (fun d => { d with failed := false, abs := 0 }) c)

/-- A failure ends at once without a notice: its defect is suppressed (R230). -/
def silenceFail (k n : Nat) (c : Chip) : Chip := closeFail k n false (dupd k (fun d => { d with failed := false, abs := 0 }) c)

/-- A failure is due (R230). -/
def declDue (c : Chip) (d : DefSt) : Bool := !d.failed && d.present && integTicks c ≤ d.pres && 0 < d.pres

/-- A clearing is due (R230). -/
def clearDue (c : Chip) (d : DefSt) : Bool := d.failed && clearTicks c ≤ d.abs && 0 < d.abs

/-- The tables as they stand after the boundary (R237): RAW bits of the tick that ended, FAIL bits now. -/
def publishDefects (raw : List Nat) (c : Chip) : Chip :=
  { c with dfx := { c.dfx with rawPub := raw, failPub := (c.dfx.d.filter (fun e => e.2.failed)).map (·.1) } }

/-- The integration of every defect over the tick that ends at boundary n (R230). -/
def integrateAll (sup : List Nat) (c : Chip) : Chip :=
  { c with dfx := { c.dfx with d := tmap defDflt c.dfx.d (fun k d => integrate (sup.contains k) d) } }

/-- The verdicts of boundary n, the windows that end there and the updates that are due (R230, R232 to R234): what the closed roots held is released
once every verdict has fallen. -/
def verdicts (sup : List Nat) (n : Nat) (c : Chip) : Chip :=
  let c1 := forEach (sup.filter (fun k => (dget c k).failed)) (fun k c => silenceFail k n c) c
  let c2 := forEach ((c1.dfx.d.filter (fun e => clearDue c1 e.2)).map (·.1)) (fun k c => clearFail k n c) c1
  let due := (c.dfx.d.filter (fun e => !e.2.failed && e.2.inTick && integTicks c ≤ e.2.pres && 0 < e.2.pres)).map (·.1)
  let c3 := releaseHeld n (forEach due (fun k c => declareFail k n c) c2)
  updateRoots n (releaseHeld n (forEach (c3.dfx.wins.filter (fun w => w.fin ≤ n)) endWindow c3))

/-- Defects at the tick n boundary: integration, verdicts, tables (R230, R233, R234, R236, R237). -/
def defectBoundary (n : Nat) (c : Chip) : Chip :=
  let sup := (tkeys c.dfx.d).filter (suppressed (theImage c) c)
  let raw := (c.dfx.d.filter (fun e => e.2.inTick)).map (·.1)
  publishDefects raw (rewriting (verdicts sup n) (integrateAll sup c))

/-- The tick that starts has seen what is present as it starts, and nothing else (R223, R230). -/
def tickFresh (c : Chip) : Chip := { c with dfx := { c.dfx with d := tmap defDflt c.dfx.d (fun _ d => { d with inTick := d.present }) } }

/-! ### Consequent actions -/

/-- Ports of the image. -/
def imagePorts (im : Image) : List Nat := (im.sec 1).map (·.1)

/-- Tributaries of the image. -/
def imageTribs (im : Image) : List Nat := (im.sec 3).map (·.1)

/-- A tributary sends into source berths of its own or into carriers (R45, R194). -/
def sends (c : Chip) (t : Nat) : Bool :=
  match c.img.place.tribs.lookup t with | some p => p.src ≠ [] || isLoVc (match tribRec (theImage c) t with | some r => tribType r | none => 0) | none => false

/-- At a boundary the replacement signals and remote indications of SF defects start, go on or end (R227, R229). `rx` says whether the
framer of a port gives its tributaries their bits, `framed` whether every unit of a port is in IF. -/
def consequentActions (rx framed : Nat → Bool) (c : Chip) : Chip :=
  let im := theImage c
  let repl := (imageTribs im).filter (fun t => sends c t && (tribSFAbove c t || !((chainPorts im t).all rx)))
  let portKey (p : Nat) : Nat := 262144 + p
  let tribKey (t : Nat) : Nat := 524288 + t
  let ports := (imagePorts im).filter (fun p =>
    portStack im p ≠ 0x40 && portStack im p ≠ 0 && (portSF c p || (c.dfx.ind.contains (portKey p) && !(framed p))))
  let tribs := (imageTribs im).filter (fun t =>
    (match tribRec im t with | some r => (isOdu (tribType r) || isHoVc (tribType r) || isLoVc (tribType r)) | none => false) &&
    tribChildren im t ≠ [] && (tribSF c t || (c.dfx.ind.contains (tribKey t) && !((chainPorts im t).all framed))))
  if onImage c then { c with dfx := { c.dfx with repl := repl, ind := ports.map portKey ++ tribs.map tribKey } } else c

/-! ### Commit -/

/-- The records a point rests on are the same in two images: its own, its server chain's, its ports' (R244). -/
def pointSame (old new : Image) (kind ref : Nat) : Bool :=
  let portSame (p : Nat) : Bool := old.getRec 1 p = new.getRec 1 p && old.getRec 2 p = new.getRec 2 p
  if kind ≤ 2 then portSame ref
  else tribRec old ref = tribRec new ref && ancestors old ref = ancestors new ref &&
    (ancestors old ref).all (fun a => tribRec old a = tribRec new a) && chainPorts old ref = chainPorts new ref &&
    (chainPorts old ref).all portSame

/-- A point exists in an image. -/
def pointIn (im : Image) (kind ref level : Nat) : Bool :=
  if kind ≤ 2 then (im.getRec 1 ref).isSome
  else match tribRec im ref with
    | some r => kind ≤ 4 || (tribMon r).testBit level
    | none => false

/-- The tributaries whose berths cross the hub causeway of quadrant q (R241). -/
def crossing (p : Placement) (q : Nat) : List Nat :=
  (p.tribs.filter (fun e => e.1 < 0x20000 && e.2.island / 16 = q && (e.2.src ≠ [] || e.2.egr ≠ []))).map (·.1)

/-- Defects and roots at the commit at boundary n: `old` is the image before it, the chip already holds the new (R244,
R234, R232). -/
def pointsAtCommit (old : Image) (n : Nat) (c : Chip) : Chip :=
  let new := theImage c
  let gone := (tkeys c.dfx.d).filter (fun k => !(pointIn new (dkKind k) (dkRef k) (dkLevel k)))
  let fresh := (tkeys c.dfx.d).filter (fun k => pointIn new (dkKind k) (dkRef k) (dkLevel k) && !(pointSame old new (dkKind k) (dkRef k)))
  let c1 := forEach gone (fun k c => dupd k (fun _ => defDflt) (silenceFail k n c)) c
  let c2 := forEach fresh (fun k c => dupd k (fun _ => defDflt) (clearFail k n c)) c1
  let c3 := forEach c2.dfx.roots (fun r c =>
    if r.kind = 1 then relistRoot r (subtree new r.pk r.ref) c
    else if r.kind = 3 then relistRoot r (crossing c.img.place r.ref) c else c) c2
  releaseHeld n { c3 with dfx := { c3.dfx with repl := c3.dfx.repl.filter (fun t => (tribRec new t).isSome) } }

/-- Defects and roots at the commit, with the rewrite of the tables (R236, R244). -/
def defectsAtCommit (old : Image) (n : Nat) (c : Chip) : Chip := rewriting (pointsAtCommit old n) c

/-- A hub causeway fails or is restored: its notice and its root (R21, R241). -/
def causewayRoot (q n : Nat) (fails : Bool) (c : Chip) : Chip :=
  let l := if q < 4 then crossing c.img.place q else []
  let ev : Notice := event 0x14 7 13 0 q l.length n (!fails)
  if 4 ≤ q then notify ev c
  else if fails then
    let r : Root := { kind := 3, pk := 7, ref := q, lvl := 0, bit := 0, family := 13, decl := n, cls := 0, list := l, prior := [], slot := none, base := 0, raised := true, reported := l.length, lastUpd := none, ended := false }
    let r1 := { r with prior := priorOf c r }
    rewriting (fun c => openRoot r1 (subsume r1 c)) (notify ev c)
  else
    match c.dfx.roots.find? (fun r => r.kind = 3 && r.ref = q) with
    | none => notify ev c
    | some r => rewriting (fun c => releaseHeld n (dropRoot r c)) (notify { ev with conseq := rootCount c r } c)

/-! ### Commands -/

/-- FAILURE_DECLARED (R230, R232, R233). -/
def execFailureDeclared (kind ref level bit : Nat) (s : State) : Host.Outcome State Fault Refusal :=
  .next (onChip (fun c =>
    let k := dkey kind ref level bit
    if detects c && declDue c (dget c k) && !(suppressed (theImage c) c k) then rewriting (declareFail k (now c)) c else c) s)

/-- FAILURE_CLEARED (R230, R232, R233). -/
def execFailureCleared (kind ref level bit : Nat) (s : State) : Host.Outcome State Fault Refusal :=
  .next (onChip (fun c =>
    let k := dkey kind ref level bit
    if detects c && clearDue c (dget c k) then rewriting (fun c => releaseHeld (now c) (clearFail k (now c) c)) c else c) s)

/-- CORR_WINDOW_END (R233). -/
def execCorrWindowEnd (family port : Nat) (s : State) : Host.Outcome State Fault Refusal :=
  .next (onChip (fun c =>
    match c.dfx.wins.find? (fun w => w.family = family && w.port = port) with
    | some w => if w.fin ≤ now c then rewriting (fun c => releaseHeld (now c) (endWindow w c)) c else c
    | none => c) s)

/-- The fields of `DEFECT_CTRL` lie in their ranges and its reserved bits are 0 (R231). -/
def defectCtrlOk (v : Word) : Bool :=
  1 ≤ bits v 24 8 && bits v 24 8 ≤ 100 && 1 ≤ bits v 16 8 && bits v 16 8 ≤ 200 && 2 ≤ bits v 12 4 && bits v 12 4 ≤ 10 &&
  1 ≤ bits v 5 7 && bits v 5 7 ≤ 100 && 1 ≤ bits v 2 3 && bits v 2 3 ≤ 5 && bits v 0 2 = 0

/-- The fields of `CORR_CTRL` lie in their ranges and its reserved bits are 0 (R234). -/
def corrCtrlOk (v : Word) : Bool := 1 ≤ bits v 16 16 && 2 ≤ bits v 8 8 && bits v 1 7 = 0

/-- The stop of R12: a write the part does not check, with an unpredictable result. -/
def misuse (window offset : Nat) : Host.Outcome State Fault Refusal := .fault (.unpredictableAccess window offset)

/-- DEFECT_CTRL_WRITE (R231): in force from the next boundary. -/
def execDefectCtrlWrite (v : Word) (s : State) : Host.Outcome State Fault Refusal :=
  if awake s.c && !(defectCtrlOk v) then misuse 0 0x3080
  else .next (onChip (when (awake s.c) (fun c => jnlWrite 0x3080 v { c with dfx := { c.dfx with ctrl := { c.dfx.ctrl with wr := v } } })) s)

/-- CORR_CTRL_WRITE (R526): in force from the next boundary. -/
def execCorrCtrlWrite (v : Word) (s : State) : Host.Outcome State Fault Refusal :=
  if awake s.c && !(corrCtrlOk v) then misuse 0 0x3084
  else .next (onChip (when (awake s.c) (fun c => jnlWrite 0x3084 v { c with dfx := { c.dfx with corr := { c.dfx.corr with wr := v } } })) s)

/-- NOTICE_ENQUEUE (R243, R436): the signal box puts held notices into the queue while it has room. -/
def execNoticeEnqueue (s : State) : Host.Outcome State Fault Refusal :=
  .next (onChip (when (awake s.c) drainNotices) s)

end Sys2Proof.Machine
end

