-- ==== Sys2Proof/Machine/Qic.lean ====
section
/-!
DEFINITION. The Qoraesta inner code (R121 to R128), PAM4 and lane frames (R126, R132, R134), as functions of symbols and bits.
-/
namespace Sys2Proof.Machine
open Sys2Proof

/-- The input index that interleaver output `t` carries, none before the stream began (R121). -/
def qicInterleave (t : Nat) : Option Nat := if 192 * (t % 32) ≤ t then some (t - 192 * (t % 32)) else none

/-- The delay of branch j of the de-interleaver (R122). -/
def qicDelay (j : Nat) : Nat := 192 * (31 - j)

/-- The position of the received stream that de-interleaver output `t` carries, none before it began (R122). -/
def qicDeinterleave (t : Nat) : Option Nat := if qicDelay (t % 32) ≤ t then some (t - qicDelay (t % 32)) else none

/-- The transmitter's input that the receiver's output `t` carries (R122); none for the first 5,952, which a receiver discards (R126). -/
def qicPath (t : Nat) : Option Nat := (qicDeinterleave t).bind qicInterleave

/-- A symbol of the interleaver's output: the cells are zero at the start (R121). -/
def qicOut (u : List Nat) (t : Nat) : Nat := match qicInterleave t with | some k => u.getD k 0 | none => 0

/-- A symbol of the de-interleaver's output, from the symbols received (R122, R126). -/
def qicIn (w : List Nat) (t : Nat) : Option Nat := match qicPath t with | some _ => (qicDeinterleave t).map (w.getD · 0) | none => none

/-- The 120 data bits of block q (R123): bit b of symbol w(12q + m) is d(10m + b). -/
def qicBlock (u : List Nat) (q : Nat) : List Bool := ((upto 12).map (fun m => (upto 10).map (qicOut u (12 * q + m)).testBit)).flatten

/-- The weight of a 7-bit value. -/
def weight7 (v : Nat) : Nat := ((upto 7).filter v.testBit).length

/-- v0 to v119: the 7-bit values of weight 2 or more, ascending (R124). -/
def qicValues : List Nat := (upto 128).filter (fun v => 2 ≤ weight7 v)

/-- The exclusive-or of the values of the data bits that are 1. -/
def qicXor (d : List Bool) : Nat := (d.zip qicValues).foldl (fun a e => if e.1 then a ^^^ e.2 else a) 0

/-- The parity of a list of bits. -/
def parity (l : List Bool) : Bool := l.foldl Bool.xor false

/-- The seven bits of a number, lowest first. -/
def bits7 (v : Nat) : List Bool := (upto 7).map v.testBit

/-- The eight parity bits p0 to p7 of 120 data bits (R124). -/
def qicParity (d : List Bool) : List Bool :=
  let p := bits7 (qicXor d)
  p ++ [parity (d ++ p)]

/-- The codeword's 128 bits in their order of transmission (R123). -/
def qicEncode (d : List Bool) : List Bool := d ++ qicParity d

/-- The syndrome of 128 received bits: s[6:0] and s[7] (R124). -/
def qicSyndrome (r : List Bool) : Nat × Bool :=
  ((qicXor (r.take 120)) ^^^ (((r.drop 120).take 7).zip [1, 2, 4, 8, 16, 32, 64]).foldl (fun a e => if e.1 then a + e.2 else a) 0,
    parity r)

/-- The parity byte as sent: codeword 0 of a superblock carries the phase pattern 0xB4 (R125). -/
def qicPhase (k p : Nat) : Nat := if k % 8 = 0 then p ^^^ 0xB4 else p

/-- The number whose bits are given, lowest first. -/
def natOfBits : List Bool → Nat
  | [] => 0
  | b :: l => bnat b + 2 * natOfBits l

/-- Eight bits as sent or received, p0 first, with the phase pattern put in or taken out (R125). -/
def qicMark (k : Nat) (p : List Bool) : List Bool := (upto 8).map (qicPhase k (natOfBits p)).testBit

/-- Codeword q of a lane as it is sent (R123 to R125). -/
def qicCodeword (u : List Nat) (q : Nat) : List Bool := qicBlock u q ++ qicMark q (qicParity (qicBlock u q))

/-- The PAM4 level of a pair of bits, the first sent first (R126). -/
def pam4 (x y : Bool) : Nat := match x, y with | false, false => 0 | false, true => 1 | true, true => 2 | true, false => 3

/-- The pair of bits of a PAM4 level (R126). -/
def pam4Bits (v : Nat) : List Bool := match v with | 0 => [false, false] | 1 => [false, true] | 2 => [true, true] | _ => [true, false]

/-- The PAM4 levels of a bit stream (R126). -/
def pam4Levels : List Bool → List Nat
  | x :: y :: l => pam4 x y :: pam4Levels l
  | _ => []

/-- The 1/(1+D) mod 4 precoder (R126, R134): what is sent plus what was sent before gives the level. -/
def precode : Nat → List Nat → List Nat
  | _, [] => []
  | last, v :: l => let s := (v + 4 - last % 4) % 4; s :: precode s l

/-- Its inverse on receive (R134). -/
def unprecode : Nat → List Nat → List Nat
  | _, [] => []
  | last, v :: l => (v + last) % 4 :: unprecode v l

/-- What a PAM4 lane sends for a bit stream, with or without the precoder (R126, R134). -/
def pam4Line (pre : Bool) (l : List Bool) : List Nat := let v := pam4Levels l; if pre then precode 0 v else v

/-- The codeword i of a received bit stream under a hypothesis of bit offset and phase, with the phase pattern removed (R127). -/
def qicUnder (r : List Bool) (off ph i : Nat) : List Bool :=
  let x := (r.drop (off + 128 * i)).take 128
  x.take 120 ++ qicMark ((ph + i) % 8) (x.drop 120)

/-- The codewords of a window of 512 whose syndrome is zero under a hypothesis (R127): what QIC_WINDOW_END counts. -/
def qicCount (r : List Bool) (hyp : Nat) : Nat := ((upto 512).filter (fun i => qicSyndrome (qicUnder r (hyp / 8) (hyp % 8) i) = (0, false))).length

/-- The 1,024 hypotheses: 128 bit offsets times 8 phases (R127). -/
def qicHypotheses : Nat := 1024

/-- A count of a window; an unlisted hypothesis counted 0. -/
def countOf (l : List (Nat × Nat)) (h : Nat) : Nat := (l.lookup h).getD 0

/-- The hypothesis a window in QIC_HUNT adopts (R127): at least 64 zero syndromes, and at least 32 more than every other. -/
def qicBest (l : List (Nat × Nat)) : Option Nat :=
  ((l.filter (fun e => e.1 < qicHypotheses && 64 ≤ countOf l e.1 && l.all (fun f => f.1 = e.1 || countOf l f.1 + 32 ≤ countOf l e.1))).map (·.1)).head?

/-- The fill bit at a position of a lane frame's 46 fill bits: alternating, beginning with 0 (R132). -/
def fillBit (k : Nat) : Bool := k % 2 = 1

/-- A hard decision on 128 received bits: the codeword one bit away when the syndrome names a column (R124). -/
def qicHard (r : List Bool) : Option (List Bool) :=
  let s := qicSyndrome r
  if s.1 = 0 && !s.2 then some r
  else if !s.2 then none
  else
    let col := if s.1 = 0 then 127 else match qicValues.findIdx? (· = s.1) with | some k => k | none => 120 + s.1.log2
    some (r.set col (!(r.getD col false)))

/-- Insert a bit's index before the first of greater reliability. -/
def insRel (rel : List Nat) : List Nat → Nat → List Nat
  | [], i => [i]
  | j :: l, i => if rel.getD i 0 < rel.getD j 0 then i :: j :: l else j :: insRel rel l i

/-- The 4 least reliable bits (R128); of equally reliable ones the earlier (log 50). -/
def leastReliable (rel : List Nat) : List Nat := ((upto rel.length).foldl (insRel rel) []).take 4

/-- The 16 candidates: every subset of the 4 least reliable bits inverted (R128). -/
def chaseCandidates (r : List Bool) (rel : List Nat) : List (List Bool) :=
  (leastReliable rel).foldl (fun cs i => cs ++ cs.map (fun x => x.set i (!(x.getD i false)))) [r]

/-- The soft distance of a codeword from what was received: the reliabilities of the bits in which they differ (R128). -/
def softDistance (r : List Bool) (rel : List Nat) (x : List Bool) : Nat :=
  ((r.zip x).zip rel).foldl (fun a e => if e.1.1 = e.1.2 then a else a + e.2) 0

/-- The closer of two decodings; of equally close ones the earlier (log 50). -/
def closer (r : List Bool) (rel : List Nat) (a : Option (List Bool)) (x : List Bool) : Option (List Bool) :=
  match a with
  | some y => if softDistance r rel x < softDistance r rel y then some x else some y
  | none => some x

/-- The soft decision (R128): of the 16 candidates' hard decodings the one closest to what was received. -/
def qicSoft (r : List Bool) (rel : List Nat) : Option (List Bool) := ((chaseCandidates r rel).filterMap qicHard).foldl (closer r rel) none

/-- What a codeword delivers (R128): its 120 data bits, and whether its 12 symbols are marked as erasures. -/
def qicDecode (r : List Bool) (rel : List Nat) : List Bool × Bool :=
  match qicSoft r rel with
  | some x => (x.take 120, false)
  | none => (r.take 120, true)

/-- The health word a lane sends in its monitor channel (R132): `RX_SNR`, then `PRE_RS_BER`, four bits a frame; the order is the model's (log 50). -/
def monitorBits (snr ber : BitVec 16) (frame : Nat) : List Bool :=
  let w := snr.toNat * 65536 + ber.toNat
  (upto 4).map (fun k => w.testBit (31 - (4 * (frame % 8) + k)))

/-- A lane frame of 900 bits (R132): 4 of the monitor channel, 850 of the coded stream, 46 of fill. -/
def laneFrame (monitor stream : List Bool) : List Bool := monitor.take 4 ++ stream.take 850 ++ (upto 46).map fillBit

/-- The wrong fill bits of a received lane frame (R132). -/
def fillErrors (f : List Bool) : Nat := ((upto 46).filter (fun k => f.getD (854 + k) false ≠ fillBit k)).length

/-- Lane frame lock (R132): the last 64 frames had correct fill; `l` the wrong fill bits of the last frames, latest first. -/
def fillLock (l : List Nat) : Bool := 64 ≤ l.length && (l.take 64).all (· = 0)

/-- Lane frame lock lost (R132): the last 16 frames had 8 or more wrong each. -/
def fillLost (l : List Nat) : Bool := 16 ≤ l.length && (l.take 16).all (8 ≤ ·)

end Sys2Proof.Machine
end

