-- ==== Sys2Proof/Machine/Fec.lean ====
section
/-!
DEFINITION. The RS codes of the stacks (R118, R128, R133), and the BER format of the lane estimates (R143).
-/
namespace Sys2Proof.Machine
open Sys2Proof

/-! ### Reed-Solomon codes -/

/-- An RS code as (symbols of a codeword, data symbols, bits of a symbol): KP4, RS(528,514), and that of G.709 (R118, R133). -/
def kp4 : Nat × Nat × Nat := (544, 514, 10)
def kr4 : Nat × Nat × Nat := (528, 514, 10)
def g709 : Nat × Nat × Nat := (255, 239, 8)

/-- The RS code of a port (R118, R133): its stack's own, none on 10G Ethernet, SDH and CPRI. -/
def rsCode (im : Image) (p : Nat) : Option (Nat × Nat × Nat) :=
  match im.getRec 2 p with
  | none => none
  | some r =>
    let st := stackType r
    if st = 1 || st = 0x20 then some kp4
    else if st = 0x10 then (if portRate im p = 25 && 256 ≤ p then some kr4 else if portRate im p = 10 then none else some kp4)
    else if (st = 2 || st = 3 || st = 4) && stackFec r then some g709
    else none

/-- A code corrects e errors and f erasures (R128). -/
def rsCorrects (k : Nat × Nat × Nat) (e f : Nat) : Bool := 2 * e + f ≤ k.1 - k.2.1

/-- The field polynomial of a symbol width. PRESUMED (log 50): IEEE 802.3 and G.709, which R118 and R133 name. -/
def gfPoly (m : Nat) : Nat := if m = 10 then 0x409 else 0x11D

/-- A field element times x. -/
def gfTwice (m a : Nat) : Nat := if 2 ^ m ≤ 2 * a then (2 * a) ^^^ gfPoly m else 2 * a

/-- The product of field elements, over k bits of the second. -/
def gfMul (m : Nat) : Nat → Nat → Nat → Nat
  | 0, _, _ => 0
  | k + 1, a, b => (if b % 2 = 1 then a else 0) ^^^ gfMul m k (gfTwice m a) (b / 2)

/-- The powers of x from an element on. -/
def gfPowers (m : Nat) : Nat → Nat → List Nat
  | 0, _ => []
  | n + 1, a => a :: gfPowers m n (gfTwice m a)

/-- A polynomial, highest term first, times (x + a). -/
def polyTimes (m : Nat) (g : List Nat) (a : Nat) : List Nat := ((g ++ [0]).zip (0 :: g)).map (fun (e : Nat × Nat) => e.1 ^^^ gfMul m m e.2 a)

/-- The generator of a code: the product of x + each of the first n − k powers. PRESUMED (log 50), as `gfPoly`. -/
def rsGenerator (k : Nat × Nat × Nat) : List Nat := (gfPowers k.2.2 (k.1 - k.2.1) 1).foldl (polyTimes k.2.2) [1]

/-- One data symbol enters the division by the generator. -/
def rsShift (m : Nat) (g reg : List Nat) (s : Nat) : List Nat :=
  let f := s ^^^ reg.headD 0
  ((reg.drop 1 ++ [0]).zip g).map (fun (e : Nat × Nat) => e.1 ^^^ gfMul m m f e.2)

/-- A codeword: the data symbols, then the parity symbols (R118, R133). -/
def rsEncode (k : Nat × Nat × Nat) (d : List Nat) : List Nat :=
  d ++ d.foldl (rsShift k.2.2 ((rsGenerator k).drop 1)) (List.replicate (k.1 - k.2.1) 0)

/-- Where symbol t of a port's coded stream goes: the logical lane, and its place there (R118). PRESUMED (log 50): round robin, as the
stacks' standards have it. -/
def symbolPlace (lanes t : Nat) : Nat × Nat := (t % lanes, t / lanes)

/-- What a logical lane carries of the coded stream (R118). -/
def laneSymbols (lanes j : Nat) (s : List Nat) : List Nat := ((upto s.length).filter (fun t => (symbolPlace lanes t).1 = j)).map (s.getD · 0)

/-! ### The BER format -/

/-- A BER of num / den in the format of R143. DESIGN CHOICE (log 50): digits beyond the mantissa are cut off. -/
def berWord (num den : Nat) : BitVec 16 :=
  if num = 0 || den = 0 then 0
  else match (upto 64).find? (fun e => 100 ≤ num * 10 ^ (e + 2) / den) with
    | some e => BitVec.ofNat 16 (e * 1024 + min 999 (num * 10 ^ (e + 2) / den))
    | none => BitVec.ofNat 16 (63 * 1024 + 100)

/-- The ticks of the 8,000 that end at boundary n (R143). -/
def berWindow (n : Nat) (l : List BerTick) : List BerTick := l.filter (fun b => n ≤ b.tick + 8000)

/-- `PRE_QIC_BER` and `PRE_RS_BER` over such a window (R143). -/
def preQicBer (l : List BerTick) : BitVec 16 := berWord (l.foldl (fun a b => a + b.qicErr) 0) (l.foldl (fun a b => a + b.qicBits) 0)
def preRsBer (l : List BerTick) : BitVec 16 := berWord (l.foldl (fun a b => a + b.rsErr) 0) (l.foldl (fun a b => a + b.rsBits) 0)

end Sys2Proof.Machine
end

