-- ==== Sys2Proof/Machine/Lanes.lean ====
section
/-!
DEFINITION. Lanes, laser inputs and deskew (R116 to R143, R521, R527), and the port and lane defects they show (R224).
-/
namespace Sys2Proof.Machine
open Sys2Proof

/-! ### Defaults and access -/

def laneDflt : LaneSt := { rx := .off, los := false, losses := 0, lowWin := 0, huntTick := 0, hyp := 0, lockTick := false, logical := 0, rsUncorr := 0, rsCorr := 0, rsCw := 0, qicUncorr := 0, qicCorr := 0, qicCw := 0, snr := 0, preRs := 0, preQic := 0, ber := [], rxPower := 0, txPower := 0 }
def skewDflt : SkewSt := { ns := 0, seen := false, bad := false }
def laserDflt : LaserSt := { lost := false, recal := false, dark := false, power := 0 }
/-- The reset value of a `LANE_EQ` entry (R134): TX_MAIN 0x3F. -/
def laneEqDflt : Timed64 := { wr := 0xFC0000, eff := 0xFC0000 }

def getLane (c : Chip) (l : Nat) : LaneSt := tget laneDflt c.line.lanes l
def updLane (l : Nat) (f : LaneSt → LaneSt) (c : Chip) : Chip :=
  { c with line := { c.line with lanes := tupd laneDflt c.line.lanes l f } }
def getLaser (c : Chip) (i : Nat) : LaserSt := tget laserDflt c.line.lasers i
def setLaser (i : Nat) (v : LaserSt) (c : Chip) : Chip :=
  { c with line := { c.line with lasers := tset laserDflt c.line.lasers i v } }
def getSkew (c : Chip) (p : Nat) : SkewSt := tget skewDflt c.line.skew p
def setSkew (p : Nat) (v : SkewSt) (c : Chip) : Chip :=
  { c with line := { c.line with skew := tset skewDflt c.line.skew p v } }

/-- The reset value of a power group: S3 for islands, S4 for optical engine and electrical quad groups, S0 for the hub
(R467). -/
def groupState0 (g : Nat) : Nat := if g < 64 then 3 else if g < 0x60 then 4 else 0
def groupDflt (g : Nat) : GroupSt := { state := groupState0 g, waking := none, former := none, wakes := 0, faulty := false, phase := 0 }
def getGroup (c : Chip) (g : Nat) : GroupSt := (c.power.groups.lookup g).getD (groupDflt g)
def updGroup (g : Nat) (f : GroupSt → GroupSt) (c : Chip) : Chip :=
  { c with power := { c.power with groups := tset (groupDflt g) c.power.groups g (f (getGroup c g)) } }

/-- The power group of a lane: its optical engine or its electrical quad (R6). -/
def laneGroup (l : Nat) : Nat := if l < 256 then 0x40 + l / 16 else 0x50 + (l - 256) / 4

/-- A group is powered: in S0 or waking (R464). -/
def groupOn (c : Chip) (g : Nat) : Bool := (getGroup c g).state = 0 || (getGroup c g).waking.isSome

/-- The image whose lanes are awake: the committed one, or in STARTING the one that waits to commit (R30, R87). -/
def lineImage (c : Chip) : Image :=
  match c.img.image with
  | some im => im
  | none => if c.dev.state = .starting then (match c.cm.change with | some k => k.image.getD imageEmpty | none => imageEmpty) else imageEmpty

/-- The port of an image that uses a lane. -/
def portOfLane (im : Image) (l : Nat) : Option Nat := ((im.sec 1).find? (fun e => (lanesOf e.1 (portCount e.2)).contains l)).map (·.1)

/-- The position of a lane within its port, in ascending physical number (R140). -/
def laneIndex (im : Image) (p l : Nat) : Nat := ((portLanes im p).takeWhile (· ≠ l)).length

/-- The lane runs QIC: an optical lane in 400G or 200G mode (R116, R133). -/
def laneQic (im : Image) (l : Nat) : Bool :=
  l < 256 && (match (portOfLane im l).bind (im.getRec 1) with | some r => portMode r ≤ 1 | none => false)

/-- The lane sends lane frames: electrical code 0x24 (R132). -/
def laneFramed (im : Image) (l : Nat) : Bool :=
  256 ≤ l && (match (portOfLane im l).bind (im.getRec 1) with | some r => portElec r = 0x24 | none => false)

/-- `RX_STATE` (R141). -/
def rxCode : RxState → Nat
  | .off => 0 | .noSignal => 1 | .adapting => 2 | .qicHunt => 3 | .locked => 4

/-- The laser input of an optical lane (R3, R119): 2 × engine, + 1 for input B. -/
def laserOf (l : Nat) : Nat := 2 * (l / 16) + (l % 16) / 8

/-- `FEED_LOSS` of a port: its input is lost or recalibrating (R120, R140). -/
def feedLoss (c : Chip) (p : Nat) : Bool := p < 256 && ((getLaser c (laserOf p)).lost || (getLaser c (laserOf p)).recal)

/-- The port's transmitter is lit (R31, R73, R120): RUNNING, admin-up, feed sound and the group awake. -/
def portLit (c : Chip) (p : Nat) : Bool :=
  c.dev.lit && (match (theImage c).getRec 1 p with | some r => portAdmin r | none => false) &&
  !(feedLoss c p) && !(p < 256 && (getLaser c (laserOf p)).dark) && (getGroup c (laneGroup p)).state = 0

/-- Every lane of the port is LOCKED and the skew within the limit (R137). -/
def deskewOk (c : Chip) (p : Nat) : Bool :=
  let l := portLanes (lineImage c) p
  l ≠ [] && l.all (fun x => (getLane c x).rx = .locked) && !(getSkew c p).bad

/-- The port delivers data (R137, R30): on a committed image, with a stack and its lanes aligned. -/
def delivers (c : Chip) (p : Nat) : Bool := onImage c && portStack (theImage c) p ≠ 0 && deskewOk c p

/-- The skew limit of a port in ns (R135). -/
def skewLimit (p : Nat) : Nat := if p < 256 then 180 else 360

/-! ### Defects of ports and lanes -/

/-- The PORT and LANE defects that follow from lanes and feed at once (R224). -/
def portDefects (p : Nat) (c : Chip) : Chip :=
  if !detects c then c
  else
    let ls := portLanes (theImage c) p
    let los := ls ≠ [] && ls.all (fun l => (getLane c l).los)
    let c1 := setDefect (dkey 0 p 0 0) los c
    let c2 := when (p < 256) (setDefect (dkey 0 p 0 1) (feedLoss c p)) c1
    let c3 := when (1 < ls.length) (setDefect (dkey 0 p 0 2) (getSkew c p).bad) c2
    forEach (upto ls.length) (fun k c =>
      setDefect (dkey 1 p k 0) ((getLane c (ls.getD k 0)).los && !los) c) c3

/-- dLOL at a tick boundary: the lane has signal and is not LOCKED, or it is LOCKED (R224). -/
def laneDefects (p : Nat) (c : Chip) : Chip :=
  let ls := portLanes (theImage c) p
  forEach (upto ls.length) (fun k c =>
    let s := getLane c (ls.getD k 0)
    if s.rx = .locked then setDefect (dkey 1 p k 1) false c
    else if (s.rx = .adapting || s.rx = .qicHunt) && !s.los then setDefect (dkey 1 p k 1) true c else c) c

/-! ### Lane state -/

/-- A lane's exit from LOCKED is counted (R138, R521). -/
def countLoss (s : LaneSt) : LaneSt :=
  if s.rx = .locked then { s with losses := BitVec.ofNat 16 (satInc 0xFFFF s.losses.toNat) } else s

/-- A lane goes to a state of R138. -/
def laneGo (l : Nat) (rx : RxState) (c : Chip) : Chip :=
  updLane l (fun s => { countLoss s with rx := rx, lowWin := 0, lockTick := s.lockTick || rx = .locked, huntTick := if rx = .qicHunt then now c else s.huntTick }) c

/-- When every lane of a multi-lane port is LOCKED its skew is measured (R135). -/
def measureSkew (p skewNs : Nat) (c : Chip) : Chip :=
  let ls := portLanes (lineImage c) p
  if 1 < ls.length && ls.all (fun x => (getLane c x).rx = .locked) then
    let bad := skewLimit p < skewNs
    setSkew p { ns := BitVec.ofNat 10 (min skewNs 0x3FF), seen := (getSkew c p).seen || bad, bad := bad } c
  else c

/-- A lane reaches LOCKED (R138); with the last of its port the skew is measured (R135). -/
def laneLocks (l skewNs : Nat) (c : Chip) : Chip :=
  let c1 := laneGo l .locked c
  match portOfLane (lineImage c) l with
  | some p => portDefects p (measureSkew p skewNs c1)
  | none => c1

/-- `LOGICAL_LANE` of a lane (R135). -/
def setLogical (l logical : Nat) (c : Chip) : Chip := updLane l (fun s => { s with logical := BitVec.ofNat 3 logical }) c

/-- The defects of a lane's port follow its change. -/
def afterLane (l : Nat) (c : Chip) : Chip :=
  match portOfLane (lineImage c) l with
  | some p => portDefects p c
  | none => c

/-- CDR lock and convergence of a lane in ADAPTING (R138). DESIGN CHOICE (log 50): a lane that no port of the image uses has no mode to lock in
and stays in ADAPTING. -/
def cdrLocks (l skewNs : Nat) (c : Chip) : Chip :=
  let im := lineImage c
  if (getLane c l).rx ≠ .adapting || (portOfLane im l).isNone || laneFramed im l then c
  else if laneQic im l then laneGo l .qicHunt c
  else laneLocks l skewNs c

/-- The receivers of a group are enabled (R138, R139). -/
def enableLanes (ls : List Nat) (c : Chip) : Chip :=
  forEach ls (fun l c => if (getLane c l).rx = .off then laneGo l .noSignal c else c) c

/-- The lanes of an optical engine or electrical quad group (R3, R6). -/
def groupLanes (g : Nat) : List Nat :=
  if g < 0x40 then [] else if g < 0x50 then (upto 16).map (16 * (g - 0x40) + ·) else if g < 0x60 then (upto 4).map (256 + 4 * (g - 0x50) + ·) else []

/-- A group that enters S3 or S4 takes its lanes to OFF (R138). DESIGN CHOICE (log 50): a receiver that is disabled shows no `RX_LOS`. -/
def disableLanes (ls : List Nat) (c : Chip) : Chip := forEach ls (fun l c => afterLane l (laneGo l .off (updLane l (fun s => { s with los := false }) c))) c

/-- What a tick's report of a lane, with that of its port's lowest lane, adds to the estimates of R143: 4 bits for an uncorrectable QIC codeword,
16 symbols for an uncorrectable RS codeword shared among the port's lanes. -/
def berTick (im : Image) (p : Nat) (r low : LaneRep) (tick : Nat) : BerTick :=
  let lanes := (portLanes im p).length
  let qic := laneQic im r.lane
  match rsCode im p with
  | some k => { tick := tick, qicErr := if qic then r.qicCorr + 4 * r.qicUncorr else 0, qicBits := if qic then 128 * r.qicCw else 0, rsErr := lanes * r.rsCorr + 16 * low.rsUncorr, rsBits := low.rsCw * k.1 * k.2.2 }
  | none => { tick := tick, qicErr := 0, qicBits := 0, rsErr := 0, rsBits := 0 }

/-- A report of a lane's port by its lowest lane; without one the port counted nothing. -/
def lowReport (reps : List LaneRep) (p : Nat) : LaneRep :=
  (reps.find? (fun r => r.lane = p)).getD { lane := p, snr := 0, rsUncorr := 0, rsCorr := 0, rsCw := 0, qicUncorr := 0, qicCorr := 0, qicCw := 0, rxPower := 0, txPower := 0 }

/-- What a lane measured and counted in a tick (R141, R142): nothing where it is OFF, RS words where the stack has a code, those of the port on its
lowest lane, QIC words of a tick in which it was LOCKED, no transmit power while dark. -/
def countLane (reps : List LaneRep) (r : LaneRep) (c : Chip) : Chip :=
  let im := lineImage c
  let p := portOfLane im r.lane
  let add (b : Bool) (v : BitVec 48) (k : Nat) : BitVec 48 := if b then v + BitVec.ofNat 48 k else v
  let rs : Bool := match p with | some q => (rsCode im q).isSome | none => false
  let lowest := rs && p = some r.lane
  let qic := laneQic im r.lane
  let lit : Bool := match p with | some q => portLit c q | none => false
  if (getLane c r.lane).rx = .off then updLane r.lane (fun s => { s with txPower := if r.lane < 256 && lit then BitVec.ofNat 16 r.txPower else 0 }) c
  else updLane r.lane (fun s => { s with
    rsUncorr := add lowest s.rsUncorr r.rsUncorr, rsCorr := add rs s.rsCorr r.rsCorr, rsCw := add lowest s.rsCw r.rsCw,
    qicUncorr := add (qic && s.lockTick) s.qicUncorr r.qicUncorr, qicCorr := add (qic && s.lockTick) s.qicCorr r.qicCorr,
    qicCw := add (qic && s.lockTick) s.qicCw r.qicCw,
    ber := (match p with | some q => [berTick im q (if s.lockTick then r else { r with qicUncorr := 0, qicCorr := 0, qicCw := 0 }) (lowReport reps q) (now c - 1)] | none => []) ++ s.ber,
    snr := BitVec.ofNat 16 r.snr, rxPower := if r.lane < 256 then BitVec.ofNat 16 r.rxPower else 0,
    txPower := if r.lane < 256 && lit then BitVec.ofNat 16 r.txPower else 0 }) c

/-- The power measured at a laser input (R141). -/
def feedMeasured (e : Nat × Nat) (c : Chip) : Chip := setLaser e.1 { getLaser c e.1 with power := BitVec.ofNat 16 e.2 } c

/-- The lanes and laser inputs over the tick that ends at boundary n (R141, R143). -/
def lanesMeasured (reps : List LaneRep) (feeds : List (Nat × Nat)) (n : Nat) (c : Chip) : Chip :=
  let c1 := forEach (feeds.filter (fun e => e.1 < 32)) feedMeasured (forEach (reps.filter (fun r => r.lane < 320)) (countLane reps) c)
  { c1 with line := { c1.line with lanes := tmap laneDflt c1.line.lanes (fun _ s =>
    let b := berWindow n s.ber
    { s with ber := b, preQic := preQicBer b, preRs := preRsBer b, lockTick := s.rx = .locked }) } }

/-- At a tick boundary the lanes of an input whose recalibration has ended may light again (R120). -/
def lasersRelight (c : Chip) : Chip :=
  { c with line := { c.line with lasers := tmap laserDflt c.line.lasers (fun _ x => if x.lost || x.recal then x else { x with dark := false }) } }

/-- The sum of the absolute tap values of a `LANE_EQ` value, in 1/64 (R134). -/
def tapSum (v : Word64) : Nat :=
  (toSigned 6 (bits v 24 6)).natAbs + bits v 18 6 + (toSigned 6 (bits v 12 6)).natAbs + (toSigned 6 (bits v 6 6)).natAbs +
  (toSigned 6 (bits v 0 6)).natAbs

/-- A `LANE_EQ` value R134 allows. -/
def laneEqOk (v : Word64) : Bool := bits v 33 31 = 0 && bits v 30 2 = 0 && tapSum v ≤ 63

/-- The `LANE_EQ` value in force enables a lane's precoder: on PAM4 lanes only (R134). -/
def lanePrecodes (c : Chip) (l : Nat) : Bool :=
  let pam : Bool := match (portOfLane (lineImage c) l).bind ((lineImage c).getRec 1) with | some r => l < 256 || 0x20 ≤ portElec r | none => false
  pam && bitAt (tget laneEqDflt c.line.laneEq l).eff 32

/-- The PAM4 levels a lane sends for its bits (R126, R134). -/
def laneLevels (c : Chip) (l : Nat) (bs : List Bool) : List Nat := pam4Line (lanePrecodes c l) bs

/-! ### Port status -/

/-- A port window whose lane a multi-lane port of the image uses under another number reads zero (R4, R140). -/
def portUnused (c : Chip) (p : Nat) : Bool := match portOfLane (lineImage c) p with | some q => q ≠ p | none => false

/-- `PORT_LANE_STATUS` (R140); ports that are not of the image read 0. -/
def portLaneStatus (c : Chip) (p : Nat) : Word :=
  let ls := portLanes (lineImage c) p
  if ls = [] then 0
  else
    let mask (f : LaneSt → Bool) : Nat := packN ((ls.reverse).map (fun l => (1, bnat (f (getLane c l)))))
    reg32 [(8, mask (fun s => s.rx = .locked)), (8, mask (·.los)), (1, bnat (feedLoss c p)), (1, bnat (portLit c p)),
      (1, bnat (deskewOk c p)), (1, bnat (getSkew c p).seen), (2, 0), (10, (getSkew c p).ns.toNat)]

/-- A `LANE_STAT` entry with its sequence (R141, R142); `feed` the power at the lane's laser input. -/
def laneStatWord (s : LaneSt) (feed : BitVec 16) (seq : Nat) : BitVec 512 :=
  BitVec.ofNat 512 (packN [(16, seq), (16, s.snr.toNat), (16, s.preRs.toNat), (16, s.preQic.toNat), (48, s.rsUncorr.toNat),
    (48, s.rsCorr.toNat), (48, s.rsCw.toNat), (48, s.qicUncorr.toNat), (48, s.qicCorr.toNat), (48, s.qicCw.toNat),
    (16, s.rxPower.toNat), (16, s.txPower.toNat), (16, feed.toNat), (16, s.losses.toNat), (48, 0),
    (3, s.logical.toNat), (3, rxCode s.rx), (26, 0), (16, seq)])

/-- `FEED_POWER` of a lane: that of its laser input, 0 on electrical lanes (R141). -/
def laneFeed (c : Chip) (l : Nat) : BitVec 16 := if l < 256 then (getLaser c (laserOf l)).power else 0

/-- The entry of a lane. -/
def laneEntry (c : Chip) (n l : Nat) : BitVec 512 := laneStatWord (getLane c l) (laneFeed c l) n

end Sys2Proof.Machine
end

