-- ==== Sys2Proof/Machine/Patterns.lean ====
section
/-!
DEFINITION. What each stack's framer searches for, and how it scores a candidate (R146, R147, R153, R156). A unit's kind is 1 FlexO instance,
2 OTUk with FEC, 3 OTUk without, 4 SDH, 5 Ethernet or FlexE lane, 6 FlexE instance, 7 64b/66b, 8 CPRI 7 (8b/10b), 0 no such unit.
-/
namespace Sys2Proof.Machine
open Sys2Proof

/-- OA1 OA1 OA1 OA2 OA2 OA2, and the last 3 A1 with the first 3 A2 (R146). -/
def alignField : BitVec 48 := 0xF6F6F6282828

/-- Bytes 2 to 5 of the six, which IF asks of an OTUk (R146). DEDUCED (log 20): bytes are numbered from 1, as G.709 does. -/
def midField (x : BitVec 48) : Nat := bits x 8 32

/-- The pattern of R146 stands at a position; in IF an OTUk asks for bytes 2 to 5 only. -/
def patternSeen (k : Nat) (inFrame : Bool) (x : PatternRep) : Bool :=
  match k with
  | 1 => x.errors.length = 20 && 16 ≤ (x.errors.filter (· ≤ 3)).length
  | 2 => if inFrame then midField x.field = midField alignField else x.field = alignField
  | 3 => if inFrame then midField x.field = midField alignField else x.field = alignField
  | 4 => x.field = alignField
  | 5 => x.errors.length = 2 && x.errors.all (· ≤ 3)
  | 6 => x.block = (0x4B, 5, true)
  | 7 => x.sync = 1 || x.sync = 2
  | 8 => x.comma
  | _ => false

/-- The frame period in bits, or in blocks for a FlexE instance; 0 where a standard gives it (R146). -/
def framePeriod (k rate : Nat) : Nat :=
  match k with
  | 1 => 128 * 5440
  | 2 => 130560
  | 3 => 130560
  | 4 => rate / 8
  | 6 => 8 * 20461
  | 7 => 66
  | _ => 0

/-- A position within the frame period. -/
def inPeriod (period pos : Nat) : Nat := if period = 0 then pos else pos % period

/-- The hit goes on from the one before: the marker of the same PCS lane (R153). -/
def sameMarker (k : Nat) (c : Cand) (x : PatternRep) : Bool := k ≠ 5 || c.tag = x.tag

/-- The discriminator at confirmation (R146). -/
def discriminates (k : Nat) (c : Cand) (x : PatternRep) : Bool :=
  match k with
  | 1 => 96 ≤ x.good
  | 2 => 48 ≤ x.good
  | 3 => x.tag % 256 = (c.tag + 1) % 256
  | 4 => x.errors.length = 1 && x.errors.all (· ≤ 8)
  | 5 => 12 ≤ x.good
  | 6 => c.crc && x.crcOk
  | _ => true

/-- The score of one frame (R147). -/
def frameScore (k : Nat) (x : PatternRep) : Nat :=
  match k with
  | 1 => min 128 x.good
  | 2 => min 64 x.good
  | 3 => ((upto 8).filter (fun j => !(bitAt x.parity j))).length
  | 4 => ((upto 8).filter (fun j => !(bitAt x.parity j))).length
  | 5 => min 16 x.good
  | 6 => bnat x.crcOk
  | _ => 0

/-- Hits that confirm a candidate (R146). -/
def hitsNeed (k : Nat) : Nat := if k = 7 then 64 else 2

/-- Candidates a unit may hold: 8, or one offset at a time (R145, R146). -/
def candMax (k : Nat) : Nat := if k = 7 || k = 8 then 1 else 8

/-- A unit that tests one offset at a time slips by a bit, or by a 10-bit character boundary (R146). -/
def slips (k : Nat) : Bool := k = 7 || k = 8
def slipPos (k pos : Nat) : Nat := if k = 7 then (pos + 1) % 66 else pos + 10

/-- Misses that end IF (R146). -/
def missMax (k : Nat) : Nat := match k with | 1 => 5 | 2 => 5 | 3 => 5 | 4 => 4 | 5 => 4 | 6 => 5 | 7 => 16 | _ => 4

/-- Win score and lead of an arbitration (R147). -/
def winLead (k : Nat) : Nat × Nat :=
  match k with | 1 => (1536, 256) | 2 => (768, 128) | 3 => (96, 16) | 4 => (96, 16) | 5 => (192, 32) | _ => (12, 2)

/-! ### Multiframes -/

/-- What keeps a multiframe (R156): 1 MFAS of an OTUk or an OTUC slice, 2 OMFI of a FlexO instance, 3 OMF of a FlexE instance, 4 H4; 0 none. -/
def mfKind (k : Nat) : Nat := match k with | 1 => 2 | 2 => 1 | 3 => 1 | 6 => 3 | _ => 0

/-- Frames of a multiframe (R156). -/
def mfLen (m : Nat) : Nat := match m with | 1 => 256 | 2 => 8 | 3 => 32 | _ => 4

/-- Consecutive frames, or multiframes, that enter it, and frames that leave it (R156). -/
def mfEnter : Nat := 2
def mfLeave (m : Nat) : Nat := match m with | 1 => 5 | 2 => 3 | 3 => 3 | _ => 2

/-- Whether frame `pos` of a multiframe shows the value it should: MFAS and H4 count, OMFI is set in the first frame, OMF is 0 for 16 and 1 for 16. -/
def mfExpects (m pos v : Nat) : Bool :=
  match m with
  | 2 => v = bnat (pos = 0)
  | 3 => v = bnat (16 ≤ pos)
  | _ => v = pos

/-- Whether a frame out of multiframe marks a place in it: OMFI set, OMF changing from 0 to 1, any MFAS or H4; the place it marks. -/
def mfMark (m last v : Nat) : Option Nat :=
  match m with
  | 2 => if v = 1 then some 0 else none
  | 3 => if last = 0 && v = 1 then some 16 else none
  | _ => some v

/-- The place expected to be marked next: that of the mark in a counted bit, the next in a count. -/
def mfDue (m pos : Nat) : Bool := match m with | 2 => pos = 0 | 3 => pos = 16 | _ => true

/-- One frame out of multiframe (R156): a mark at its expected place counts, one elsewhere or none there starts afresh. -/
def mfSearch (m v : Nat) (x : MfSt) : MfSt :=
  let next := if x.pos < mfLen m then (x.pos + 1) % mfLen m else mfLen m
  match mfMark m x.last v with
  | some p =>
    if p = next then (if mfEnter ≤ x.good + 1 then { x with isIn := true, good := 0, bad := 0, lom := false, pos := p } else { x with good := x.good + 1, pos := p })
    else { x with good := 0, pos := p }
  | none => if next < mfLen m && mfDue m next then { x with good := 0, pos := mfLen m } else { x with pos := next }

/-- One frame in multiframe at tick t: as many wrong ones in a row leave it (R156). -/
def mfHold (m v t : Nat) (x : MfSt) : MfSt :=
  let pos := (x.pos + 1) % mfLen m
  if mfExpects m pos v then { x with bad := 0, pos := pos }
  else if mfLeave m ≤ x.bad + 1 then { x with isIn := false, good := 0, bad := 0, out := t, pos := mfLen m }
  else { x with bad := x.bad + 1, pos := pos }

/-- One frame's multiframe indicator at tick t (R156). -/
def mfFrame (m v t : Nat) (x : MfSt) : MfSt := { (if x.isIn then mfHold m v t x else mfSearch m v x) with last := v }

/-- A multiframe is left with its unit's frame (R156). -/
def mfDrop (t : Nat) (x : MfSt) : MfSt := { x with isIn := false, good := 0, bad := 0, out := if x.isIn then t else x.out, pos := 256, last := 1 }

/-- A multiframe never seen. -/
def mfDflt : MfSt := { isIn := false, good := 0, bad := 0, out := 0, lom := false, pos := 256, last := 1 }

/-- The PID and PHY maps as bits by number (R151, R162). -/
def mapOf (l : List Nat) : Nat := l.foldl (fun a k => a + 2 ^ k) 0

end Sys2Proof.Machine
end

