-- ==== Sys2Proof/Machine/Align.lean ====
section
/-!
DEFINITION. Frame alignment (R144 to R158, R522), multiframes (R156), and the lane commands (R120, R127, R132, R134, R138),
whose losses take a port's units back to HUNT (R137).
-/
namespace Sys2Proof.Machine
open Sys2Proof

/-! ### Units -/

def alignDflt : AlignSt := { state := .hunt, cands := [], pos := 0, miss := 0, seen := 0, outSince := 0, inSince := 0, lof := false, fasMiss := 0, sliceOof := false, mf := mfDflt, smf := mfDflt, ids := none }
def portAlignDflt : PortAlignSt := { lookalike := false, rival := false, losses := 0 }

/-- A unit's index: 64 × port + unit. -/
def unitKey (p u : Nat) : Nat := 64 * p + u

def getUnit (c : Chip) (p u : Nat) : AlignSt := tget alignDflt c.line.align (unitKey p u)
def updUnit (p u : Nat) (f : AlignSt → AlignSt) (c : Chip) : Chip :=
  { c with line := { c.line with align := tupd alignDflt c.line.align (unitKey p u) f } }
def updPortAlign (p : Nat) (f : PortAlignSt → PortAlignSt) (c : Chip) : Chip :=
  { c with line := { c.line with portAlign := tupd portAlignDflt c.line.portAlign p f } }

/-- A unit's kind (R144, R146), as `Patterns` numbers them. -/
def unitKind (im : Image) (p u : Nat) : Nat :=
  let lanes := (portLanes im p).length
  match im.getRec 2 p with
  | none => 0
  | some r =>
    let st := stackType r
    if (im.getRec 1 p).isNone then 0
    else if st = 1 then (if u < portRate im p / 100 then 1 else 0)
    else if st = 2 || st = 3 || st = 4 then (if u = 0 then (if stackFec r then 2 else 3) else 0)
    else if st = 0x30 || st = 0x31 || st = 0x32 then (if u = 0 then 4 else 0)
    else if st = 0x10 then
      if portRate im p = 10 then (if u = 0 then 7 else 0) else (if u < lanes then 5 else 0)
    else if st = 0x20 then (if u < lanes then 5 else if u < lanes + portRate im p / 100 then 6 else 0)
    else if st = 0x40 then
      if u ≠ 0 then 0
      else match im.getRec 1 p with | some q => if portElec q = 4 then 8 else 7 | none => 0
    else 0

/-- The units of a port (R144). -/
def portUnits (im : Image) (p : Nat) : List Nat := (upto 64).filter (fun u => unitKind im p u ≠ 0)

/-- A unit and its slice are in frame (R145, R152). -/
def unitIn (s : AlignSt) : Bool := s.state = .inFrame && !s.sliceOof

/-- A port is in frame while every one of its units is (R144, R152). -/
def portFramed (c : Chip) (p : Nat) : Bool :=
  let us := portUnits (theImage c) p
  us ≠ [] && us.all (fun u => unitIn (getUnit c p u))

/-- Mbit/s of an SDH stack, to the kbit/s. -/
def sdhKbps (st : Nat) : Nat := match st with | 0x30 => 2488320 | 0x31 => 9953280 | 0x32 => 39813120 | _ => 0

/-- The frame period of a unit (R146). -/
def unitPeriod (im : Image) (p u : Nat) : Nat := framePeriod (unitKind im p u) (sdhKbps (portStack im p))

/-- Channel item types that carry bytes of a frame's overhead (R167, R169). -/
def byteTypes : List Nat := [0x10, 0x11, 0x12, 0x14, 0x15]

def ohDflt : OhPortSt := { cons := 0, prod := 0, rxDiscard := 0, txDiscard := 0, gaps := [], last7e := [], part := [], pktTick := none, twoStep := [] }
def getOh (c : Chip) (p : Nat) : OhPortSt := tget ohDflt c.line.oh p
def updOh (p : Nat) (f : OhPortSt → OhPortSt) (c : Chip) : Chip :=
  { c with line := { c.line with oh := tupd ohDflt c.line.oh p f } }

/-- Channel bytes of a port break: the next item of each type carries GAP (R169). -/
def breakChannels (p : Nat) (c : Chip) : Chip := updOh p (fun o => { o with gaps := byteTypes.foldl insAsc o.gaps }) c

/-- A unit or its slice has lost its multiframe (R156). -/
def unitLom (k : Nat) (s : AlignSt) : Bool := (mfKind k ≠ 0 && s.mf.lom) || (k = 1 && s.smf.lom)

/-- A unit or its slice is out of multiframe (R156). -/
def unitOom (k : Nat) (s : AlignSt) : Bool := (mfKind k ≠ 0 && !s.mf.isIn) || (k = 1 && !s.smf.isIn)

/-- The section defects that follow from the units (R224): dLOF and dLOM of any unit or slice. -/
def sectionDefects (p : Nat) (c : Chip) : Chip :=
  if !detects c then c
  else
    let im := theImage c
    let us := portUnits im p
    setDefect (dkey 2 p 0 1) (us.any (fun u => unitLom (unitKind im p u) (getUnit c p u))) (setDefect (dkey 2 p 0 0) (us.any (fun u => (getUnit c p u).lof)) c)

/-- From the cycle in which a port stops delivering or a unit leaves IF, the ingress functions below it replace the bytes they do not
receive (R227). A CPRI line's bits are carried whether or not its unit is in frame (R155). -/
def ingressLost (stops : Bool) (p : Nat) (c : Chip) : Chip :=
  if !stops && portStack (theImage c) p = 0x40 then c
  else forEach ((tkeys c.img.place.tribs).filter (fun t => (chainPorts (theImage c) t).contains p)) (fun t c => updCtx t (fun x => { x with repl := true }) c) c

/-- What follows when a unit or slice of a port is no longer in frame (R169, R227, R525). -/
def leftFrame (stops : Bool) (p : Nat) (c : Chip) : Chip := ingressLost stops p (dropPortFrames p (breakChannels p c))

/-- A port gives its tributaries their bits: in frame, or for a CPRI line while it delivers (R155, R227). -/
def portReceives (c : Chip) (p : Nat) : Bool := if portStack (theImage c) p = 0x40 then delivers c p else portFramed c p

/-- Back in frame, the standing `OOR` of the tributaries a port serves is a defect again (R225, R525). -/
def oorReturns (p : Nat) (c : Chip) : Chip :=
  if detects c && portFramed c p then
    forEach ((c.ctx.filter (fun e => e.2.oor && (chainPorts (theImage c) (e.1 % 0x20000)).contains p && (chainPorts (theImage c) (e.1 % 0x20000)).all (portReceives c))).map (·.1))
      (fun t c => setDefect (dkey 3 (t % 0x20000) 0 3) true c) c
  else c

/-- A unit goes back to HUNT with its candidates closed and its multiframes left (R145, R156). -/
def huntState (t : Nat) (s : AlignSt) : AlignSt :=
  { s with state := .hunt, cands := [], miss := 0, seen := 0, fasMiss := 0, sliceOof := false, mf := mfDrop t s.mf, smf := mfDrop t s.smf, outSince := if unitIn s then t else s.outSince, ids := none }

/-- Exits from IF are counted (R157). -/
def countExit (p n : Nat) (c : Chip) : Chip :=
  updPortAlign p (fun a => { a with losses := BitVec.ofNat 16 (satAdd 0xFFFF a.losses.toNat n) }) c

/-- The units of a port that are in IF. -/
def unitsIn (p : Nat) (c : Chip) : Nat := ((upto 64).filter (fun u => (getUnit c p u).state = .inFrame)).length

/-- All units of a port return to HUNT: the port stops delivering (R144, R145). -/
def unitsToHunt (p : Nat) (c : Chip) : Chip :=
  leftFrame true p (countExit p (unitsIn p c) (forEach (portUnits (theImage c) p) (fun u c => updUnit p u (huntState (now c)) c) c))

/-- Units of a port whose stack or port record changes at a commit start afresh in HUNT (R158); those that were in IF leave it (R157). -/
def unitsRestart (p n : Nat) (c : Chip) : Chip :=
  leftFrame true p (forEach (upto 64) (fun u c =>
    updUnit p u (fun _ => if unitKind (theImage c) p u = 0 then alignDflt else { alignDflt with outSince := n, mf := { mfDflt with out := n }, smf := { mfDflt with out := n } }) c) (countExit p (unitsIn p c) c))

/-- After a lane change: the port's defects, and HUNT where it no longer delivers (R137). -/
def laneChanged (l : Nat) (was : Bool) (c : Chip) : Chip :=
  match portOfLane (lineImage c) l with
  | none => c
  | some p =>
    let c1 := portDefects p c
    if was && !(delivers c1 p) then unitsToHunt p c1 else c1

/-- A lane command: the lane's change and what it brings its port. -/
def laneStep (l : Nat) (f : Chip → Chip) (c : Chip) : Chip :=
  let was := match portOfLane (lineImage c) l with | some p => delivers c p | none => false
  laneChanged l was (f c)

/-! ### Search -/

/-- A FlexE instance searches only once every lane of its PHY is in IF (R154). -/
def searchAllowed (c : Chip) (p u : Nat) : Bool :=
  let im := theImage c
  delivers c p && (unitKind im p u ≠ 6 ||
    (portUnits im p).all (fun v => unitKind im p v ≠ 5 || (getUnit c p v).state = .inFrame))

/-- A pattern found in HUNT opens a candidate (R145); a unit that tests one offset at a time looks at no other (R146). -/
def patternHit (p u pos : Nat) (x : PatternRep) (c : Chip) : Chip :=
  let s := getUnit c p u
  let k := unitKind (theImage c) p u
  let q := inPeriod (unitPeriod (theImage c) p u) pos
  if k ≠ 0 && searchAllowed c p u && !(injDrops 2 p c) && s.state = .hunt && patternSeen k false x && s.cands.length < candMax k &&
      !(s.cands.any (fun y => y.pos = q)) && (!(slips k) || q = s.pos) then
    updUnit p u (fun s => { s with cands := s.cands ++ [{ pos := q, hits := 1, confirmed := false, rival := false, score := 0, frames := 0, tag := x.tag, crc := x.crcOk }] }) c
  else c

/-- A candidate's expected position in HUNT (R145): counted, confirmed or closed. A candidate confirmed makes itself a rival of those
confirmed before it. -/
def expectHunt (k pos : Nat) (present : Bool) (x : PatternRep) (l : List Cand) : List Cand :=
  match l.find? (fun y => y.pos = pos) with
  | none => l
  | some y =>
    let hit : Cand := { y with hits := y.hits + 1, tag := x.tag, crc := x.crcOk }
    if !present || !(sameMarker k y x) then l.filter (fun z => z.pos ≠ pos)
    else if y.confirmed || y.hits + 1 < hitsNeed k then l.map (fun z => if z.pos = pos then hit else z)
    else if discriminates k y x then
      l.map (fun z => if z.pos = pos then { hit with confirmed := true } else { z with rival := z.rival || z.confirmed })
    else l.filter (fun z => z.pos ≠ pos)

/-- A unit that tests one offset at a time slips when its candidate closes or no pattern stands there (R146). -/
def slipHunt (k pos : Nat) (present : Bool) (s : AlignSt) : AlignSt :=
  if slips k && pos = s.pos && !present then { s with pos := slipPos k s.pos } else s

/-- A unit leaves IF after its last miss (R145). -/
def loseFrame (p u : Nat) (c : Chip) : Chip := leftFrame false p (countExit p 1 (updUnit p u (huntState (now c)) c))

/-- The adopted position in IF (R145, R146): a run of misses, or for 64b/66b 16 invalid in 64, ends it. DESIGN CHOICE (log 20): the 64 are
counted in blocks, each starting where the one before ended. -/
def adoptedPosition (p u k : Nat) (present : Bool) (c : Chip) : Chip :=
  let s := getUnit c p u
  let miss := if present then (if k = 7 then s.miss else 0) else s.miss + 1
  if missMax k ≤ miss then loseFrame p u c
  else if k = 7 && s.seen + 1 = 64 then updUnit p u (fun s => { s with miss := 0, seen := 0 }) c
  else updUnit p u (fun s => { s with miss := miss, seen := if k = 7 then s.seen + 1 else 0 }) c

/-- The pattern stands at the adopted position; on a lane it is the marker of the PCS lane adopted (R146, R153). -/
def adoptedSeen (k : Nat) (s : AlignSt) (x : PatternRep) : Bool :=
  patternSeen k true x && (k ≠ 5 || (match s.ids with | some i => i.1 = x.tag | none => true))

/-- One scored frame of a round of arbitration (R147, R522). -/
def scoreFrame (k pos : Nat) (lost : Bool) (x : PatternRep) (y : Cand) : Cand :=
  if y.pos = pos && y.frames < 16 then { y with score := y.score + (if lost then 0 else frameScore k x), frames := y.frames + 1 } else y

/-- A candidate's expected position (R145, R147, R522); `lost` what stands there is dropped (R486). -/
def expectedPosition (p u pos : Nat) (lost : Bool) (x : PatternRep) (c : Chip) : Chip :=
  let s := getUnit c p u
  let k := unitKind (theImage c) p u
  let q := inPeriod (unitPeriod (theImage c) p u) pos
  let present := !lost && patternSeen k false x
  if k = 0 || !(delivers c p) then c
  else match s.state with
    | .hunt => if searchAllowed c p u then updUnit p u (fun s => slipHunt k q present { s with cands := expectHunt k q present x s.cands }) c else c
    | .arbitrate => if searchAllowed c p u then updUnit p u (fun s => { s with cands := s.cands.map (scoreFrame k q lost x) }) c else c
    | .inFrame => if q = s.pos then adoptedPosition p u k (!lost && adoptedSeen k s x) c else c

/-- `LOGICAL_LANE` of a lane whose unit has adopted the marker of a PCS lane (R153). -/
def markLogical (p u : Nat) (y : Cand) (c : Chip) : Chip :=
  let im := theImage c
  let ls := portLanes im p
  if unitKind im p u = 5 then setLogical (ls.getD u 0) (y.tag / Config.pcsPerLane (portRate im p) ls.length) c else c

/-- A unit adopts a candidate's position (R145). -/
def adopt (p u : Nat) (y : Cand) (c : Chip) : Chip :=
  oorReturns p (markLogical p u y (updUnit p u (fun s => { s with state := .inFrame, cands := [], pos := y.pos, miss := 0, seen := 0, inSince := now c, ids := if unitKind (theImage c) p u = 5 then some (y.tag, 0, 0) else none }) c))

/-- The end of a confirmed candidate's settle window (R145). -/
def settleEnd (p u pos : Nat) (c : Chip) : Chip :=
  let s := getUnit c p u
  let q := inPeriod (unitPeriod (theImage c) p u) pos
  match s.cands.find? (fun x => x.pos = q && x.confirmed) with
  | none => c
  | some x =>
    if s.state ≠ .hunt || !(searchAllowed c p u) then c
    else if !x.rival then adopt p u x c
    else updUnit p u (fun s => { s with state := .arbitrate, cands := s.cands.filter (·.confirmed) }) c

/-- The candidate that meets R147, if one does. -/
def winner (k : Nat) (l : List Cand) : Option Cand :=
  l.find? (fun x => (winLead k).1 ≤ x.score && l.all (fun y => y.pos = x.pos || y.score + (winLead k).2 ≤ x.score))

/-- The end of a round of arbitration (R145, R147). -/
def arbitrationEnds (p u : Nat) (c : Chip) : Chip :=
  let s := getUnit c p u
  let k := unitKind (theImage c) p u
  if s.state ≠ .arbitrate || !(searchAllowed c p u) || !(s.cands.all (fun x => 16 ≤ x.frames)) then c
  else match winner k s.cands with
    | some x => updPortAlign p (fun a => { a with rival := true }) (adopt p u x c)
    | none =>
      updPortAlign p (fun a => { a with rival := true, lookalike := true })
        (updUnit p u (fun s => { s with state := .hunt, cands := [] }) c)

/-- Out of IF without a break for 24 ticks (R148, R224). -/
def lofDue (wait : Nat) (t : Nat) (s : AlignSt) : Bool := !(unitIn s) && !s.lof && s.outSince + wait ≤ t

/-- In IF without a break for 24 ticks (R148, R224). -/
def lofClearDue (wait : Nat) (t : Nat) (s : AlignSt) : Bool := unitIn s && s.lof && s.inSince + wait ≤ t

/-- LOF of a unit is declared or clears, with dLOF of its port. -/
def setLof (p u : Nat) (b : Bool) (c : Chip) : Chip := sectionDefects p (updUnit p u (fun s => { s with lof := b }) c)

/-- Loss of multiframe is due: out of it for 24 ticks (R156). -/
def lomDue (wait t : Nat) (m : MfSt) : Bool := !m.isIn && !m.lom && m.out + wait ≤ t

/-- Loss of multiframe of a unit or of its slice is due. -/
def unitLomDue (wait t k : Nat) (s : AlignSt) : Bool := (mfKind k ≠ 0 && lomDue wait t s.mf) || (k = 1 && lomDue wait t s.smf)

/-- Loss of multiframe is declared where it is due (R156). -/
def setLom (p u wait : Nat) (c : Chip) : Chip :=
  let t := now c
  let f (m : MfSt) : MfSt := if lomDue wait t m then { m with lom := true } else m
  sectionDefects p (updUnit p u (fun s => { s with mf := f s.mf, smf := f s.smf }) c)

/-- A multiframe changes: what entering or leaving it brings the port (R156, R169, R224). -/
def mfChanged (p : Nat) (was now_ : MfSt) (c : Chip) : Chip :=
  if was.isIn && !now_.isIn then breakChannels p c
  else if was.lom && !now_.lom then sectionDefects p c else c

/-- One frame's multiframe indicator of a unit (R156); FlexO and FlexE overhead counts only with its CRC-16 correct (R151, R162). -/
def multiframe (p u v : Nat) (crcOk : Bool) (c : Chip) : Chip :=
  let k := unitKind (theImage c) p u
  let s := getUnit c p u
  if mfKind k = 0 || s.state ≠ .inFrame || ((k = 1 || k = 6) && !crcOk) then c
  else
    let m := mfFrame (mfKind k) v (now c) s.mf
    mfChanged p s.mf m (updUnit p u (fun s => { s with mf := m }) c)

/-- The FAS and MFAS of an OTUC slice (R152, R156): OOF after 5 consecutive frames without its FAS, which also leaves its multiframe. -/
def sliceFrame (p u v : Nat) (fas : Bool) (c : Chip) : Chip :=
  let s := getUnit c p u
  if unitKind (theImage c) p u ≠ 1 || s.state ≠ .inFrame then c
  else if fas then
    let m := mfFrame 1 v (now c) s.smf
    mfChanged p s.smf m (oorReturns p (updUnit p u (fun s => { s with fasMiss := 0, sliceOof := false, inSince := if s.sliceOof then now c else s.inSince, smf := m }) c))
  else if 5 ≤ s.fasMiss + 1 then
    if s.sliceOof then c
    else leftFrame false p (updUnit p u (fun s => { s with fasMiss := 5, sliceOof := true, outSince := now c, smf := mfDrop (now c) s.smf }) c)
  else updUnit p u (fun s => { s with fasMiss := s.fasMiss + 1 }) c

/-- At the tick n boundary: LOF and LOM of every unit of a port (R148, R156, R224). A unit that went out within a tick is
24 ticks out only in the course of a later one, which LOF_DECLARED may name; the boundary completes it. -/
def alignBoundary (n : Nat) (c : Chip) : Chip :=
  if !detects c then c
  else forEach (imagePorts (theImage c)) (fun p c =>
    forEach (portUnits (theImage c) p) (fun u c =>
      let s := getUnit c p u
      let c1 := if lofDue 25 n s then setLof p u true c else if lofClearDue 25 n s then setLof p u false c else c
      if unitLomDue 25 n (unitKind (theImage c) p u) s then setLom p u 25 c1 else c1) c) c

/-- `PORT_ALIGN` (R157): the least advanced unit. -/
def portAlignWord (c : Chip) (p : Nat) : Word :=
  let im := theImage c
  let us := (portUnits im p).map (getUnit c p)
  let a := tget portAlignDflt c.line.portAlign p
  let st := if !(delivers c p) then 4 else if us.any (·.state = .hunt) then 0 else if us.any (·.state = .arbitrate) then 1 else 3
  let k := unitKind im p 0
  reg32 [(3, st), (1, bnat ((k = 1 || k = 2 || k = 3 || k = 4) && us.any (·.lof))),
    (1, bnat ((portUnits im p).any (fun u => unitOom (unitKind im p u) (getUnit c p u)))), (1, bnat ((portUnits im p).any (fun u => unitLom (unitKind im p u) (getUnit c p u)))),
    (1, bnat a.lookalike), (1, bnat a.rival), (8, 0), (16, a.losses.toNat)]

/-! ### Lane commands -/

/-- A laser input may act: the part is out of COLD and its engine powered (R120). -/
def laserLive (c : Chip) (i : Nat) : Bool := awake c && i < 32 && groupOn c (0x40 + i / 2)

/-- The optical ports of a laser input (R119). -/
def laserPorts (im : Image) (i : Nat) : List Nat := (imagePorts im).filter (fun p => p < 256 && laserOf p = i)

/-- A laser input's state changes, and with it dTXF of its ports. -/
def laserStep (i : Nat) (v : LaserSt) (c : Chip) : Chip := forEach (laserPorts (theImage c) i) portDefects (setLaser i v c)

/-- LASER_FEED_LOSS (R120): feed below the loss threshold for 16 µs. -/
def execLaserFeedLoss (i : Nat) (s : State) : Host.Outcome State Fault Refusal :=
  .next (onChip (fun c => when (laserLive c i) (laserStep i { getLaser c i with lost := true, recal := false, dark := true }) c) s)

/-- FEED_RESTORE_COUNT_END (R120): the feed stood above the restore threshold for 800 ticks; recalibration begins. -/
def execFeedRestoreCountEnd (i : Nat) (s : State) : Host.Outcome State Fault Refusal :=
  .next (onChip (fun c => when (laserLive c i && (getLaser c i).lost && !(getLaser c i).recal)
    (laserStep i { getLaser c i with recal := true }) c) s)

/-- RECALIBRATION_COMPLETE (R120): `FEED_LOSS` clears; the lanes relight at the next boundary. -/
def execRecalibrationComplete (i : Nat) (s : State) : Host.Outcome State Fault Refusal :=
  .next (onChip (fun c => when (laserLive c i && (getLaser c i).recal)
    (laserStep i { getLaser c i with lost := false, recal := false, dark := true }) c) s)

/-- SIGNAL_DETECT (R138, R521): signal present for 16 µs. -/
def execSignalDetect (l : Nat) (s : State) : Host.Outcome State Fault Refusal :=
  .next (onChip (fun c => if (getLane c l).rx = .noSignal && !(injDrops 1 l c) then
    laneStep l (fun c => laneGo l .adapting (updLane l (fun s => { s with los := false }) c)) c else c) s)

/-- CDR_LOCK (R138, R135). -/
def execCdrLock (l skewNs : Nat) (s : State) : Host.Outcome State Fault Refusal :=
  .next (onChip (fun c => laneStep l (cdrLocks l skewNs) c) s)

/-- CDR_LOSS (R138, R137): a LOCKED lane with signal loses its clock. -/
def execCdrLoss (l : Nat) (s : State) : Host.Outcome State Fault Refusal :=
  .next (onChip (fun c => if (getLane c l).rx = .locked then laneStep l (laneGo l .adapting) c else c) s)

/-- A lane's signal is absent (R138). -/
def signalAbsent (l : Nat) (c : Chip) : Chip :=
  if (getLane c l).rx ≠ .off then laneStep l (fun c => updLane l (fun s => { s with los := true }) (laneGo l .noSignal c)) c else c

/-- SIGNAL_ABSENT (R138): absent for 48 µs. -/
def execSignalAbsent (l : Nat) (s : State) : Host.Outcome State Fault Refusal :=
  .next (onChip (signalAbsent l) s)

/-- LANE_FRAME_LOCK (R132, R138): 64 consecutive lane frames with correct fill. -/
def execLaneFrameLock (l : Nat) (fills : List Nat) (skewNs : Nat) (s : State) : Host.Outcome State Fault Refusal :=
  .next (onChip (fun c => if (getLane c l).rx = .adapting && laneFramed (lineImage c) l && fillLock fills then
    laneStep l (laneLocks l skewNs) c else c) s)

/-- LANE_FRAME_LOCK_LOSS (R132, R138): 16 consecutive lane frames with 8 or more fill bits wrong. -/
def execLaneFrameLockLoss (l : Nat) (fills : List Nat) (s : State) : Host.Outcome State Fault Refusal :=
  .next (onChip (fun c => if (getLane c l).rx = .locked && laneFramed (lineImage c) l && fillLost fills then
    laneStep l (laneGo l .adapting) c else c) s)

/-- A QIC window of a LOCKED lane (R127): below 32 zero syndromes in 4 consecutive windows ends LOCKED. -/
def qicLockedWindow (l best : Nat) (c : Chip) : Chip :=
  if 32 ≤ best then updLane l (fun s => { s with lowWin := 0 }) c
  else if 4 ≤ (getLane c l).lowWin + 1 then laneStep l (laneGo l .qicHunt) c
  else updLane l (fun s => { s with lowWin := s.lowWin + 1 }) c

/-- A QIC receiver adopts a hypothesis' bit offset and phase (R127). -/
def qicAdopt (l h : Nat) (c : Chip) : Chip := updLane l (fun s => { s with hyp := h }) c

/-- QIC_WINDOW_END (R127): the best hypothesis is adopted, or the adopted one judged. -/
def execQicWindowEnd (l : Nat) (counts : List (Nat × Nat)) (skewNs : Nat) (s : State) : Host.Outcome State Fault Refusal :=
  .next (onChip (fun c =>
    if !(laneQic (lineImage c) l) then c
    else match (getLane c l).rx with
      | .qicHunt => (match qicBest counts with | some h => laneStep l (fun c => laneLocks l skewNs (qicAdopt l h c)) c | none => c)
      | .locked => qicLockedWindow l (countOf counts (getLane c l).hyp) c
      | _ => c) s)

/-- QIC_HUNT_TIMEOUT (R127): 160 ticks in QIC_HUNT. -/
def execQicHuntTimeout (l : Nat) (s : State) : Host.Outcome State Fault Refusal :=
  .next (onChip (fun c => if (getLane c l).rx = .qicHunt && (getLane c l).huntTick + 160 ≤ now c then
    laneStep l (laneGo l .adapting) c else c) s)

/-- Write a `LANE_EQ` entry (R134): in force from the next boundary. -/
def laneEqWrite (l : Nat) (v : Word64) (c : Chip) : Chip :=
  { c with line := { c.line with laneEq := tupd laneEqDflt c.line.laneEq l (fun t => { t with wr := v }) } }

/-- LANE_EQ_WRITE (R134). -/
def execLaneEqWrite (l : Nat) (v : Word64) (s : State) : Host.Outcome State Fault Refusal :=
  if awake s.c && l < 320 then
    if laneEqOk v then .next (onChip (laneEqWrite l v) s) else misuse 1 (0x0B2F8000 + 8 * l)
  else .next s

/-! ### Alignment commands -/

/-- FRAME_PATTERN_HIT (R145). -/
def execFramePatternHit (p u pos : Nat) (x : PatternRep) (s : State) : Host.Outcome State Fault Refusal :=
  .next (onChip (patternHit p u pos x) s)

/-- CANDIDATE_EXPECTED_POSITION (R145, R147). -/
def execCandidateExpectedPosition (p u pos : Nat) (x : PatternRep) (s : State) : Host.Outcome State Fault Refusal :=
  .next (onChip (expectedPosition p u pos (injDrops 2 p s.c) x) s)

/-- SETTLE_WINDOW_END (R145). -/
def execSettleWindowEnd (p u pos : Nat) (s : State) : Host.Outcome State Fault Refusal :=
  .next (onChip (settleEnd p u pos) s)

/-- ARBITRATION_END (R145, R147). -/
def execArbitrationEnd (p u : Nat) (s : State) : Host.Outcome State Fault Refusal :=
  .next (onChip (arbitrationEnds p u) s)

/-- LOF_DECLARED (R148). -/
def execLofDeclared (p u : Nat) (s : State) : Host.Outcome State Fault Refusal :=
  .next (onChip (fun c => when (detects c && unitKind (theImage c) p u ≠ 0 && lofDue 24 (now c) (getUnit c p u)) (setLof p u true) c) s)

/-- LOF_CLEARED (R148). -/
def execLofCleared (p u : Nat) (s : State) : Host.Outcome State Fault Refusal :=
  .next (onChip (fun c => when (detects c && unitKind (theImage c) p u ≠ 0 && lofClearDue 24 (now c) (getUnit c p u)) (setLof p u false) c) s)

/-- LOSS_OF_MULTIFRAME (R156). -/
def execLossOfMultiframe (p u : Nat) (s : State) : Host.Outcome State Fault Refusal :=
  .next (onChip (fun c => when (detects c && unitLomDue 24 (now c) (unitKind (theImage c) p u) (getUnit c p u)) (setLom p u 24) c) s)

end Sys2Proof.Machine
end

