-- ==== Sys2Proof/Machine/Overhead.lean ====
section
/-!
DEFINITION. Overhead items and the transmit ring (R163, R166 to R172, R337 to R339).
-/
namespace Sys2Proof.Machine
open Sys2Proof

/-- The STACK record of a port of the committed image, 0 where there is none. -/
def stackRec (c : Chip) (p : Nat) : Rec := ((theImage c).getRec 2 p).getD 0

/-- An overhead item (R166): body bytes from the first, in the high bits. -/
def ohItem (ty prio : Nat) (first last : Bool) (port aux : Nat) (body : List Byte) : BitVec 128 :=
  BitVec.ofNat 128 (packN [(8, ty), (2, prio), (1, bnat first), (1, bnat last), (1, 0), (9, port), (4, body.length), (6, aux),
    (96, beNat body * 256 ^ (12 - body.length))])

/-- An item whose body is given as 96 bits and whose `LEN` is 0. -/
def ohHead (ty prio : Nat) (last : Bool) (port aux body : Nat) : BitVec 128 :=
  BitVec.ofNat 128 (packN [(8, ty), (2, prio), (1, 1), (1, bnat last), (1, 0), (9, port), (4, 0), (6, aux), (96, body)])

/-- Bytes cut into groups of at most 12. -/
def chunks12 : Nat → List Byte → List (List Byte)
  | 0, _ => []
  | n + 1, l => if l = [] then [] else l.take 12 :: chunks12 n (l.drop 12)

/-- The items of a packet's bytes after its first `k` items; the last carries LAST. -/
def packetItems (ty prio port : Nat) : Bool → List (List Byte) → List (BitVec 128)
  | _, [] => []
  | f, [b] => [ohItem ty prio f true port 0 b]
  | f, b :: t => ohItem ty prio f false port 0 b :: packetItems ty prio port false t

/-- Items of an island's staging (R170). -/
def stagingRoom : Nat := 4096

/-- The island whose staging takes a port's items: that of its framer (R27, R170). -/
def portIsland (im : Image) (p : Nat) : Nat := (portIslands im p).headD 0

/-- Discarded receive items are counted, and the next item of the port and type carries GAP (R170). -/
def ohLose (p ty n : Nat) (c : Chip) : Chip :=
  updOh p (fun o => { o with rxDiscard := BitVec.ofNat 16 (satAdd 0xFFFF o.rxDiscard.toNat n), gaps := insAsc o.gaps ty }) c

/-- The first item of a list carries GAP. -/
def markGap : List (BitVec 128) → List (BitVec 128)
  | [] => []
  | i :: t => setBits i 115 1 1 :: t

/-- Items of one port and type enter the island's staging whole, or are discarded (R168, R170). -/
def ohStage (p ty : Nat) (items : List (BitVec 128)) (c : Chip) : Chip :=
  if items = [] then c
  else
    let isl := portIsland (theImage c) p
    let q := tget [] c.line.staging isl
    if 128 < items.length || stagingRoom < q.length + items.length then ohLose p ty items.length c
    else
      let gap := (getOh c p).gaps.contains ty
      let c1 := { c with line := { c.line with staging := tset [] c.line.staging isl (q ++ (if gap then markGap items else items)) } }
      updOh p (fun o => { o with gaps := o.gaps.filter (· ≠ ty) }) c1

/-- Channel items of one port and type, each for itself: one that finds the staging full is discarded (R170). -/
def ohStageEach (p ty : Nat) (items : List (BitVec 128)) (c : Chip) : Chip := forEach items (fun i c => ohStage p ty [i] c) c

/-- A packet at the head of a list: the items up to the one with LAST. -/
def headPacket : List (BitVec 128) → List (BitVec 128)
  | [] => []
  | i :: t => if itemLast i then [i] else i :: headPacket t

/-- An island's oldest packet or item moves into the overhead queue where there is room for all of it (R168, R436). -/
def ohEnqueue (isl : Nat) (c : Chip) : Chip :=
  let q := tget [] c.line.staging isl
  let pk := headPacket q
  if pk ≠ [] && qCount c.oq + pk.length ≤ oqRoom then
    countEvent 0x061 0x1FF pk.length { c with oq := { c.oq with items := c.oq.items ++ pk }, line := { c.line with staging := tset [] c.line.staging isl (q.drop pk.length) } }
  else c

/-- Drop every 0x7E that directly follows another (R169); `last` whether the byte before was one. -/
def dropFlags : Bool → List Byte → List Byte
  | _, [] => []
  | last, b :: t => if b = 0x7E && last then dropFlags true t else b :: dropFlags (b = 0x7E) t

/-- The `OH_EXPORT` bit of an item type (R74, R159 to R163). -/
def exportBit (ty : Nat) : Nat :=
  if ty = 0x10 then 0 else if ty = 0x11 then 1 else if ty = 0x12 then 2 else if ty = 0x14 then 3 else if ty = 0x15 then 4
  else if ty = 0x18 || ty = 0x19 then 5 else if ty = 0x30 then 6 else 7

/-- Whole items of 12 bytes, and the bytes left over (R169). -/
def cut12 : Nat → List Byte → List (List Byte) × List Byte
  | 0, l => ([], l)
  | n + 1, l => if l.length < 12 then ([], l) else let r := cut12 n (l.drop 12); (l.take 12 :: r.1, r.2)

def exported (c : Chip) (p ty : Nat) : Bool := (stackExport (stackRec c p)).testBit (exportBit ty)

/-- Bytes of a GCC or DCC channel (R169): they fill items of 12 bytes. DESIGN CHOICE (log 49): bytes that do not fill one go out when the channel idles. -/
def ohChannel (p ty prio : Nat) (bytes : List Byte) (c : Chip) : Chip :=
  let o := getOh c p
  let last := o.last7e.contains ty
  let l := dropFlags last bytes
  let ends : Bool := match bytes.getLast? with | some b => b = 0x7E | none => last
  let idle : Bool := ends && (match bytes.reverse with | _ :: b :: _ => b = 0x7E | [_] => last | [] => false)
  let r := cut12 (l.length + 12) (tget [] o.part ty ++ l)
  let out := if idle && r.2 ≠ [] then r.1 ++ [r.2] else r.1
  ohStageEach p ty (out.map (ohItem ty prio true true p 0))
    (updOh p (fun o => { o with last7e := if ends then insAsc o.last7e ty else o.last7e.filter (· ≠ ty), part := tset [] o.part ty (if idle then [] else r.2) }) c)

/-- A frame's channel bytes become items (R166 to R169). A FlexE block comes as its `AUX` byte and its 8 bytes; one that a classified PTP message uses
is not also delivered (R163). -/
def ohBytes (p ty : Nat) (bytes : List Byte) (c : Chip) : Chip :=
  let prio := stackPrio (stackRec c p)
  if !(exported c p ty) then c
  else if ty = 0x18 || ty = 0x19 then
    if ty = 0x19 && bitAt (bytes.headD 0) 7 && exported c p 0x30 then c
    else ohStage p ty [ohItem ty prio true true p ((bytes.headD 0).toNat % 64) ((bytes.drop 1).take 8)] c
  else if ty = 0x20 then ohStage p ty (packetItems ty prio p true (chunks12 bytes.length bytes)) c
  else ohChannel p ty prio bytes c

/-! ### Classification -/

/-- Where a frame's Ethertype stands: after at most one VLAN tag (R163). -/
def typeAt (f : List Byte) : Nat := if beNat (sub f 12 2) = 0x8100 then 16 else 12

/-- A UDP datagram to a PTP port, from its header (R163). -/
def udpPtp (d : List Byte) : Option (List Byte) :=
  let port := beNat (sub d 2 2)
  if port = 319 || port = 320 then some ((d.take (beNat (sub d 4 2))).drop 8) else none

/-- The PTP message a frame carries, if it is one (R163): Ethertype 0x88F7, or UDP over IPv4 or IPv6 to port 319 or 320. -/
def ptpOf (f : List Byte) : Option (List Byte) :=
  let a := typeAt f
  let b := f.drop (a + 2)
  match beNat (sub f a 2) with
  | 0x88F7 => some b
  | 0x0800 => if (b.getD 9 0) = 17 then udpPtp (b.drop (4 * ((b.getD 0 0).toNat % 16))) else none
  | 0x86DD => if (b.getD 6 0) = 17 then udpPtp (b.drop 40) else none
  | _ => none

/-- An ESMC frame (R162): Ethertype 0x8809, subtype 0x0A. -/
def isEsmc (f : List Byte) : Bool := beNat (sub f 12 2) = 0x8809 && f.getD 14 0 = 0x0A

/-! ### Timestamps -/

def tsDflt : Timed64 := { wr := 0, eff := 0 }

/-- A stamp of 0.25 ns units corrected by an entry of `TS_PORT` (R338). -/
def stampAdd (stamp adj : Nat) : Nat := ((stamp : Int) + toSigned 32 adj).toNat

def rxAdj (c : Chip) (p : Nat) : Nat := bits (tget tsDflt c.line.tsPort p).eff 0 32
def txAdj (c : Chip) (p : Nat) : Nat := bits (tget tsDflt c.line.tsPort p).eff 32 32

/-- A time as 48-bit seconds, 30-bit nanoseconds and quarters (R167, R335). -/
def timeFields (stamp : Nat) : List (Nat × Nat) := [(48, stamp / 4000000000), (30, stamp / 4 % 1000000000), (2, stamp % 4)]

/-- A received PTP message as a packet: its stamp, then its bytes (R167). -/
def ptpItems (p prio : Nat) (flexe : Bool) (stamp : Nat) (msg : List Byte) : List (BitVec 128) :=
  ohHead 0x30 prio (msg = []) p (bnat flexe) (packN (timeFields stamp ++ [(16, msg.length)])) ::
  packetItems 0x30 prio p false (chunks12 msg.length msg)

/-- One-step stamping of a message's bytes: originTimestamp in bytes 34 to 43, the quarters into correctionField
(R339). -/
def oneStep (stamp : Nat) (m : List Byte) : List Byte :=
  let be (n v : Nat) : List Byte := (leBytes n v).reverse
  let corr := (beNat ((m.drop 8).take 8) + (stamp % 4) * 16384) % 2 ^ 64
  (m.take 8 ++ be 8 corr ++ (m.drop 16).take 18 ++ be 6 (stamp / 4000000000) ++ be 4 (stamp / 4 % 1000000000) ++ m.drop 44).take m.length

/-! ### The transmit ring -/

/-- Where a slot of a port's ring stands in Window B (R171, R494). -/
def ohSlotAddr (p k : Nat) : Nat := 0x0B200000 + 1024 * p + 16 * (k % 64)

/-- The item in a slot. -/
def ohSlot (mem : List Host.Cell) (p k : Nat) : BitVec 128 := BitVec.ofNat 128 (leNat (readBytes 0 mem (ohSlotAddr p k) 16))

/-- The items written and not yet taken. -/
def ohWaiting (mem : List Host.Cell) (o : OhPortSt) (p : Nat) : List (BitVec 128) :=
  (upto ((o.prod - o.cons).toNat)).map (fun i => ohSlot mem p (o.cons.toNat + i))

/-- Types R167 lets `OH_TX` hold. -/
def ohTxTypes : List Nat := [0x10, 0x11, 0x12, 0x14, 0x15, 0x18, 0x19, 0x20, 0x30]

/-- An item of a packet type (R172). -/
def isPacket (i : BitVec 128) : Bool := itemType i = 0x20 || itemType i = 0x30

/-- The whole packet at the head of the waiting items, if its LAST item is present. -/
def wholePacket (l : List (BitVec 128)) : Option (List (BitVec 128)) :=
  let p := headPacket l
  match p.getLast? with
  | some i => if itemLast i then some p else none
  | none => none

/-- The body bytes of an item. -/
def bodyBytes (i : BitVec 128) : List Byte := ((leBytes 12 (bits i 0 96)).reverse).take (bits i 102 4)

/-- A packet's message bytes, and whether its stated length exceeds what its items hold (R172). -/
def packetBytes (pk : List (BitVec 128)) : List Byte :=
  ((if (pk.headD 0) |> itemType |> (· = 0x30) then pk.drop 1 else pk).map bodyBytes).flatten

def packetShort (pk : List (BitVec 128)) : Bool :=
  itemType (pk.headD 0) = 0x30 && (packetBytes pk).length < bits (pk.headD 0) 0 16

/-- The tick from which a whole packet stands at the ring's head. -/
def headTick (mem : List Host.Cell) (p : Nat) (c : Chip) : Chip :=
  let l := ohWaiting mem (getOh c p) p
  let whole := match l with | i :: _ => isPacket i && (wholePacket l).isSome | [] => false
  updOh p (fun o => { o with pktTick := if whole then (match o.pktTick with | some t => some t | none => some (now c)) else none }) c

/-- Items leave the ring. -/
def ohConsume (n : Nat) (mem : List Host.Cell) (p : Nat) (c : Chip) : Chip :=
  headTick mem p (updOh p (fun o => { o with cons := o.cons + BitVec.ofNat 16 n, pktTick := none }) c)

/-- A packet is discarded and counted (R172). -/
def txDiscard (pk : List (BitVec 128)) (mem : List Host.Cell) (p : Nat) (c : Chip) : Chip :=
  ohConsume pk.length mem p (updOh p (fun o => { o with txDiscard := BitVec.ofNat 16 (satInc 0xFFFF o.txDiscard.toNat) }) c)

/-- A packet is sent, a PTP message stamped as its first item asks (R339). -/
def txSend (pk : List (BitVec 128)) (stamp : Nat) (mem : List Host.Cell) (p : Nat) (c : Chip) : Chip :=
  let h := pk.headD 0
  let st := stampAdd stamp (txAdj c p)
  let msg := (packetBytes pk).take (bits h 0 16)
  let sync := (msg.headD 0).toNat % 16 = 0
  let sent := if itemType h = 0x30 then
      h :: packetItems 0x30 0 p false (chunks12 msg.length (if bitAt h 97 && sync then oneStep st msg else msg))
    else pk
  let c1 := countEvent 0x055 p (bnat (itemType h = 0x30)) (emit (.ohSent p sent) c)
  ohConsume pk.length mem p (if itemType h = 0x30 && bitAt h 96 then
    updOh p (fun o => { o with twoStep := o.twoStep ++ [{ cookie := BitVec.ofNat 16 (bits h 16 16), stamp := st }] }) c1 else c1)

/-- What the channels of a stack carry while the ring is empty (R172): 0x7E on GCC and DCC, the idle block's type 0x1E on FlexE channels. -/
def channelFill (st : Nat) : List (Nat × Nat) :=
  if 1 ≤ st && st ≤ 4 then [(0x10, 0x7E), (0x11, 0x7E), (0x12, 0x7E)]
  else if st = 0x30 || st = 0x31 || st = 0x32 then [(0x14, 0x7E), (0x15, 0x7E)]
  else if st = 0x20 then [(0x18, 0x1E), (0x19, 0x1E)] else []

/-- What the part takes from a port's ring (R172). -/
def ohTake (mem : List Host.Cell) (p : Nat) (gap : Bool) (stamp : Nat) (c : Chip) : Chip :=
  let l := ohWaiting mem (getOh c p) p
  if !(portLit c p) then ohConsume l.length mem p c
  else match l with
    | [] => emit (.ohFill p (channelFill (stackType (stackRec c p)))) c
    | i :: _ =>
      if !(isPacket i) then ohConsume 1 mem p (emit (.ohSent p [i]) c)
      else match wholePacket l with
        | none => c
        | some pk =>
          if packetShort pk then txDiscard pk mem p c
          else if gap then txSend pk stamp mem p c
          else headTick mem p c

/-- The lists of items the ring's head holds, of the types R167 gives. -/
def ringOk (mem : List Host.Cell) (c : Chip) (p : Nat) : Bool :=
  (ohWaiting mem (getOh c p) p).all (fun i => ohTxTypes.contains (itemType i))

/-! ### Commands -/

/-- OH_ITEM_ENQUEUE (R436, R170). -/
def execOhItemEnqueue (isl : Nat) (s : State) : Host.Outcome State Fault Refusal := .next (onChip (ohEnqueue isl) s)

/-- OH_TX_PRODUCE (R171): a write of `PROD`. -/
def execOhTxProduce (p : Nat) (prod : BitVec 16) (s : State) : Host.Outcome State Fault Refusal :=
  if !(awake s.c) || 320 ≤ p then .next s
  else if 64 < (prod - (getOh s.c p).cons).toNat then misuse 0 (0x10010 + 256 * p)
  else .next (onChip (fun c => headTick s.mem p (updOh p (fun o => { o with prod := prod }) c)) s)

/-- OH_TX_TAKE (R172). -/
def execOhTxTake (p : Nat) (gap : Bool) (stamp : Nat) (s : State) : Host.Outcome State Fault Refusal :=
  if !(onImage s.c) then .next s
  else if portLit s.c p && !(ringOk s.mem s.c p) then misuse 1 (ohSlotAddr p 0)
  else .next (onChip (ohTake s.mem p gap stamp) s)

/-- OH_TX_PACKET_TIMEOUT (R172): no gap within 8 ticks. -/
def execOhTxPacketTimeout (p : Nat) (s : State) : Host.Outcome State Fault Refusal :=
  .next (onChip (fun c =>
    match (getOh c p).pktTick, wholePacket (ohWaiting s.mem (getOh c p) p) with
    | some t, some pk => if t + 8 ≤ now c && portLit c p then txDiscard pk s.mem p c else c
    | _, _ => c) s)

/-- PTP_TX_TIMESTAMP (R339): the item 0x31 of the oldest two-step message sent. -/
def execPtpTxTimestamp (p : Nat) (s : State) : Host.Outcome State Fault Refusal :=
  .next (onChip (fun c =>
    match (getOh c p).twoStep with
    | [] => c
    | t :: tl =>
      ohStage p 0x31 [BitVec.ofNat 128 (packN ([(8, 0x31), (2, stackPrio (stackRec c p)), (1, 1), (1, 1), (1, 0), (9, p), (4, 12), (6, 0)] ++ timeFields t.stamp ++ [(16, t.cookie.toNat)]))]
        (updOh p (fun o => { o with twoStep := tl }) c)) s)

/-- A frame of a port's client, or of a FlexE PHY's shim-to-shim channel, is read for PTP (R163): a message goes to the queue and idle in its place; any
other frame, and every frame with the export bit clear, passes. -/
def ptpArrives (p : Nat) (flexe : Bool) (stamp : Nat) (frame : List Byte) (c : Chip) : Chip :=
  match (if exported c p 0x30 then ptpOf frame else none) with
  | some msg => emit (.client p true frame) (countEvent 0x055 p 1 (ohStage p 0x30 (ptpItems p (stackPrio (stackRec c p)) flexe (stampAdd stamp (rxAdj c p)) msg) c))
  | none => emit (.client p false frame) c

/-- PTP_MESSAGE_RECEIVED (R163, R167, R337): on an Ethernet or FlexE port. -/
def execPtpMessageReceived (p : Nat) (flexe : Bool) (stamp : Nat) (frame : List Byte) (s : State) :
    Host.Outcome State Fault Refusal :=
  .next (onChip (fun c =>
    let st := stackType (stackRec c p)
    when (delivers c p && portFramed c p && (st = 0x10 || st = 0x20) && !(injDrops 2 p c)) (ptpArrives p (st = 0x20 && flexe) stamp frame) c) s)

/-- TS_PORT_WRITE (R338): in force from the next boundary. -/
def execTsPortWrite (p : Nat) (v : Word64) (s : State) : Host.Outcome State Fault Refusal :=
  .next (onChip (when (awake s.c && p < 320)
    (fun c => { c with line := { c.line with tsPort := tupd tsDflt c.line.tsPort p (fun t => { t with wr := v }) } })) s)

end Sys2Proof.Machine
end

