-- ==== Sys2Proof/Machine/Pm.lean ====
section
/-!
DEFINITION. Performance monitoring (R245 to R267) and signal degrade (R228).
-/
namespace Sys2Proof.Machine
open Sys2Proof

/-! ### Points and records -/

def binDflt : PmBin := { part := false, late := false, uas := 0, ses := 0, es := 0, bbe := 0 }
def exDflt : PmEx := { pos := 0, neg := 0, int := 0 }
def accDflt : PmAcc := { blocks := 0, ne := 0, fe := 0, sf := false, iae := false, biae := false, fdef := false, pos := 0, neg := 0, int := 0 }
def endDflt : PmEndSt := { avail := true, run := 0, hist := [], b15 := [], b24 := [], told := [] }
def recDflt : PmRecSt := { ne := endDflt, fe := endDflt, ex0 := exDflt, ex1 := exDflt, acc := accDflt }
/-- The standing of dDEG before its first second (R228). -/
def degDflt : DegSt := { blocks := 0, ne := 0, sf := false, bad := 0, good := 0, sec := 0, err := 0, blk := 0 }

def setPm (p : PmSt) (c : Chip) : Chip := { c with pm := p }

/-- The record of section point j (R248). -/
def secKey (j : Nat) : Nat := 0x40000 + j

/-- A record that exists is changed. -/
def updRec (k : Nat) (f : PmRecSt → PmRecSt) (c : Chip) : Chip :=
  match c.pm.recs.lookup k with
  | some r => setPm { c.pm with recs := tput c.pm.recs k (f r) } c
  | none => c

/-- The levels a tributary is monitored at: 0 path, 1 to 6 TCM (R245). -/
def monLevels (r : Rec) : List Nat := (upto 7).filter (fun l => (tribMon r).testBit l)

/-- The point number of a tributary's level (R246). -/
def pointOf (c : Chip) (t level : Nat) : Option Nat := (c.pm.points.find? (fun e => e.2 = (t, level))).map (·.1)

/-- Where a record stands: the kind, reference and level of its point (2 SECTION, 4 PATH, 5 TCM). -/
def recPoint (c : Chip) (k : Nat) : Nat × Nat × Nat :=
  if 0x40000 ≤ k then (2, (k - 0x40000) / 2, 0)
  else match c.pm.points.lookup k with
    | some (t, 0) => (4, t, 0)
    | some (t, l) => (5, t, l)
    | none => (4, 0, 0)

/-- SDH stacks (R74). -/
def isSdh (st : Nat) : Bool := st = 0x30 || st = 0x31 || st = 0x32

/-- A record counts the far end (R251): not an RS section, not a CPRI client. -/
def hasFarEnd (c : Chip) (k : Nat) : Bool :=
  let p := recPoint c k
  if p.1 = 2 then !(isSdh (portStack (theImage c) p.2.1) && (k - 0x40000) % 2 = 0)
  else match tribRec (theImage c) p.2.1 with
    | some r => !(isCpri (tribType r))
    | none => true

/-- Percent of errored blocks that makes a second SES (R251). -/
def sesShare (c : Chip) (k : Nat) : Nat :=
  let p := recPoint c k
  if p.1 = 2 then (if isSdh (portStack (theImage c) p.2.1) then 30 else 15)
  else match tribRec (theImage c) p.2.1 with
    | some r => if isHoVc (tribType r) || isLoVc (tribType r) then 30 else 15
    | none => 15

/-- The profile of a record: of the tributary, or `SEC_PROFILE` (R248, R250). -/
def profileOf (c : Chip) (k : Nat) : Option Rec :=
  let n := if 0x40000 ≤ k then bits c.pm.ctrl.wr 24 8
    else match tribRec (theImage c) (recPoint c k).2.1 with | some r => tribPm r | none => 0xFF
  if n = 0xFF then none else (theImage c).getRec 8 n

/-- `FAR_END_EN` of the record's profile (R253): with no profile both ends count. -/
def farEnabled (c : Chip) (k : Nat) : Bool := match profileOf c k with | some r => bitAt r 9 | none => true

/-! ### Clock -/

/-- Ticks since the origin, of a period (R249): the origin may lie in the future. -/
def sinceOrigin (n origin period : Nat) : Nat := (((n : Int) - (origin : Int)) % (period : Int)).toNat

def secTicks : Nat := 8000
def quarterTicks : Nat := 7200000
def dayTicks : Nat := 691200000

/-- A boundary of a kind falls at tick n (R249). -/
def atBoundary (n origin period : Nat) : Bool := sinceOrigin n origin period = 0

/-! ### Bins -/

/-- A bin of quarter q or day d of an end is changed; a bin no longer held is left. -/
def onQuarter (c : Chip) (q : Nat) (f : PmBin → PmBin) (e : PmEndSt) : PmEndSt :=
  if c.pm.quarter < q + 5 then { e with b15 := tupd binDflt e.b15 (q % 5) (fun b =>
    let b1 := f b
    if q = c.pm.quarter || b1 = b then b1 else { b1 with late := true }) } else e

def onDay (c : Chip) (d : Nat) (f : PmBin → PmBin) (e : PmEndSt) : PmEndSt :=
  if c.pm.day < d + 2 then { e with b24 := tupd binDflt e.b24 (d % 2) (fun b =>
    let b1 := f b
    if d = c.pm.day || b1 = b then b1 else { b1 with late := true }) } else e

/-- A second's share in both its bins is changed. -/
def onBins (c : Chip) (s : PmSec) (f : PmBin → PmBin) (e : PmEndSt) : PmEndSt := onDay c s.d f (onQuarter c s.q f e)

/-- A second counted while available (R252). -/
def addCounted (s : PmSec) (b : PmBin) : PmBin :=
  { b with es := b.es + bnat s.es, ses := b.ses + bnat s.ses, bbe := satAdd 0xFFFFFFFF b.bbe s.bbe }

/-- A second reclaimed as unavailable (R255). -/
def toUas (b : PmBin) : PmBin := { b with es := b.es - 1, ses := b.ses - 1, uas := b.uas + 1 }

/-- A second given back as available (R255). -/
def fromUas (s : PmSec) (b : PmBin) : PmBin :=
  { b with uas := b.uas - 1, es := b.es + bnat s.es, bbe := satAdd 0xFFFFFFFF b.bbe s.bbe }

/-- One second of one end, with the ten-second rule applied backwards (R255, R256). -/
def endSecond (c : Chip) (s : PmSec) (e : PmEndSt) : PmEndSt :=
  let hist := (s :: e.hist).take 9
  if e.avail then
    let e1 := onBins c s (addCounted s) e
    if s.ses && e.run = 9 then
      let e2 := (s :: e.hist.take 9).foldl (fun e x => onBins c x toUas e) e1
      { e2 with avail := false, run := 0, hist := hist }
    else { e1 with run := if s.ses then e.run + 1 else 0, hist := hist }
  else
    let e1 := onBins c s (fun b => { b with uas := b.uas + 1 }) e
    if !s.ses && e.run = 9 then
      let e2 := (s :: e.hist.take 9).foldl (fun e x => onBins c x (fromUas x) e) e1
      { e2 with avail := true, run := 0, hist := hist }
    else { e1 with run := if s.ses then 0 else e.run + 1, hist := hist }

/-- The near-end verdict of a second (R252). -/
def nearSecond (c : Chip) (share : Nat) (a : PmAcc) : PmSec :=
  let err := if a.iae then 0 else a.ne
  let ses := a.sf || (0 < a.blocks && share * a.blocks ≤ 100 * err)
  { es := ses || 0 < err, ses := ses, bbe := if ses then 0 else err, q := c.pm.quarter, d := c.pm.day }

/-- The far-end verdict of a second (R253). -/
def farSecond (c : Chip) (share : Nat) (a : PmAcc) : PmSec :=
  let err := if a.biae then 0 else a.fe
  let ses := a.fdef || (0 < a.blocks && share * a.blocks ≤ 100 * err)
  { es := ses || 0 < err, ses := ses, bbe := if ses then 0 else err, q := c.pm.quarter, d := c.pm.day }

/-- Extras of the current quarter take what the second gathered (R254, R260). -/
def addEx (a : PmAcc) (x : PmEx) : PmEx :=
  { pos := satAdd 0xFFFFFF x.pos a.pos, neg := satAdd 0xFFFFFF x.neg a.neg, int := satAdd 0xFFFF x.int a.int }

/-- One point's second. -/
def recSecond (c : Chip) (k : Nat) (r : PmRecSt) : PmRecSt :=
  let share := sesShare c k
  let ne := endSecond c (nearSecond c share r.acc) r.ne
  let fe := if hasFarEnd c k && farEnabled c k && ne.avail then endSecond c (farSecond c share r.acc) r.fe else r.fe
  { r with ne := ne, fe := fe, acc := accDflt, ex0 := if c.pm.quarter % 2 = 0 then addEx r.acc r.ex0 else r.ex0, ex1 := if c.pm.quarter % 2 = 1 then addEx r.acc r.ex1 else r.ex1 }

/-! ### Thresholds -/

/-- A bin's counter: 0 ES, 1 SES, 2 BBE, 3 UAS (R265). -/
def counter (b : PmBin) (n : Nat) : Nat := match n with | 0 => b.es | 1 => b.ses | 2 => b.bbe | _ => b.uas

/-- A profile's threshold: 0 to 3 for 15 minutes, 4 to 7 for 24 hours (R80). -/
def threshold (r : Rec) (n : Nat) : Nat :=
  match n with
  | 0 => bits r 64 16 | 1 => bits r 80 16 | 2 => bits r 96 32 | 3 => bits r 128 16
  | 4 => bits r 144 24 | 5 => bits r 168 24 | 6 => bits r 192 32 | _ => bits r 224 24

/-- The current bins of an end. -/
def curBin (c : Chip) (e : PmEndSt) (n : Nat) : PmBin :=
  if n < 4 then tget binDflt e.b15 (c.pm.quarter % 5) else tget binDflt e.b24 (c.pm.day % 2)

/-- The counters that have reached their threshold and are not yet notified (R264). -/
def crossed (c : Chip) (r : Rec) (e : PmEndSt) : List Nat :=
  (upto 8).filter (fun n => !(e.told.contains n) && threshold r n ≠ 0 && threshold r n ≤ counter (curBin c e n) (n % 4))

/-- A threshold-crossing notice (R265). -/
def tcaNotice (c : Chip) (k tick : Nat) (far : Bool) (n : Nat) : Notice :=
  let p := recPoint c k
  { ntype := 8 + bnat far + (if n < 4 then 0 else 2), prio := 2, clear := false, pk := p.1, lvl := if p.1 = 2 then (k - 0x40000) % 2 else p.2.2, family := 0, bit := n % 4, ref := p.2.1, conseq := if p.1 = 2 then k - 0x40000 else k, tick := tick }

/-- A threshold notice takes its class's priority; only `TCA_MUTE` filters it (R264). -/
def tcaNotify (c0 : Chip) (k : Nat) (n : Notice) (c : Chip) : Chip :=
  let r := classRec c0 (pointClass c0 (recPoint c0 k).1 (recPoint c0 k).2.1)
  if noticeTcaMute r then c else notify { n with prio := bits r 8 2 } c

/-- The thresholds of one record at a second boundary (R264). -/
def recThresholds (k tick : Nat) (c : Chip) : Chip :=
  match c.pm.recs.lookup k, profileOf c k with
  | some r, some p =>
    if !(bitAt p 8) then c
    else
      let a := crossed c p r.ne
      let b := crossed c p r.fe
      let c1 := forEach a (fun n c => tcaNotify c k (tcaNotice c k tick false n) c) c
      let c2 := forEach b (fun n c => tcaNotify c k (tcaNotice c k tick true n) c) c1
      updRec k (fun r => { r with ne := { r.ne with told := a.foldl insAsc r.ne.told }, fe := { r.fe with told := b.foldl insAsc r.fe.told } }) c2
  | _, _ => c

/-! ### Signal degrade -/

def degThr (c : Chip) : Nat := bits c.dfx.ctrl.eff 5 7
def degM (c : Chip) : Nat := bits c.dfx.ctrl.eff 12 4
/-- The exponent k of `DEG_BER` (R231). -/
def degBer (c : Chip) : Nat := bits c.dfx.ctrl.eff 2 3 + 4

/-- Seconds of an SDH estimate (R228). -/
def berSeconds (k : Nat) : Nat := if k ≤ 6 then 1 else if k = 7 then 10 else if k = 8 then 100 else 1000

/-- The dDEG bit of a point kind. -/
def degBit (kind : Nat) : Nat := if kind = 4 then 7 else 6

/-- The point is an SDH one: its dDEG compares a BER (R228). -/
def degSdh (c : Chip) (k : Nat) : Bool := sesShare c k = 30

/-- The point has a dDEG (R224, R225): not an Ethernet, FlexE or CPRI client, nor an RS section. -/
def hasDeg (c : Chip) (k : Nat) : Bool :=
  let p := recPoint c k
  if p.1 = 2 then !(isSdh (portStack (theImage c) p.2.1)) || (k - 0x40000) % 2 = 1
  else match tribRec (theImage c) p.2.1 with
    | some r => isOdu (tribType r) || isHoVc (tribType r) || isLoVc (tribType r)
    | none => false

/-- What dDEG of a key rests on is changed. -/
def updDeg (k : Nat) (f : DegSt → DegSt) (c : Chip) : Chip :=
  match c.pm.deg.lookup k with
  | some r => setPm { c.pm with deg := tput c.pm.deg k (f r) } c
  | none => c

/-- The ports of a point are in frame, so its overhead is read (R525). -/
def degReads (c : Chip) (k : Nat) : Bool :=
  let p := recPoint c k
  let ps := if p.1 = 2 then [p.2.1] else chainPorts (theImage c) p.2.1
  detects c && ps ≠ [] && ps.all (portFramed c)

/-- The dDEG of a key. -/
def degKey (c : Chip) (k : Nat) : Nat := let p := recPoint c k; dkey p.1 p.2.1 p.2.2 (degBit p.1)

/-- The verdict of an OTN point's runs (R228, R231), where the point's overhead is read. -/
def degVerdict (k : Nat) (r : DegSt) (c : Chip) : Chip :=
  if !(degReads c k) then c
  else if degM c ≤ r.bad then setDefect (degKey c k) true c
  else if degM c ≤ r.good then setDefect (degKey c k) false c else c

/-- The burst method of OTN points (R228). -/
def degOtn (k : Nat) (r : DegSt) (c : Chip) : Chip :=
  let bad := r.sf || (0 < r.blocks && degThr c * r.blocks ≤ 100 * r.ne)
  let x : DegSt := { r with blocks := 0, ne := 0, sf := false, bad := if bad then r.bad + 1 else 0, good := if bad then 0 else r.good + 1 }
  degVerdict k x (updDeg k (fun _ => x) c)

/-- The estimate of SDH points (R228). -/
def degSdhStep (k : Nat) (r : DegSt) (c : Chip) : Chip :=
  let b := degBer c
  let err := r.err + r.ne
  let blk := r.blk + r.blocks
  let x : DegSt := { r with blocks := 0, ne := 0, sf := false }
  if r.sec + 1 < berSeconds b then updDeg k (fun _ => { x with sec := r.sec + 1, err := err, blk := blk }) c
  else
    let c1 := updDeg k (fun _ => { x with sec := 0, err := 0, blk := 0 }) c
    let layer := if (recPoint c k).1 = 2 then 1 else 2
    if !(degReads c k) then c1
    else if Config.berReaches layer err blk b then setDefect (degKey c k) true c1
    else if !(Config.berReaches layer err blk (b + 1)) then setDefect (degKey c k) false c1 else c1

/-- dDEG at a second boundary (R228), where the point's overhead is read at all (R525). -/
def degrade (k : Nat) (c : Chip) : Chip :=
  match c.pm.deg.lookup k with
  | some r => if !(hasDeg c k) then c else if degSdh c k then degSdhStep k r c else degOtn k r c
  | none => c

/-- `DEFECT_CTRL` has changed: a run that already meets the new `DEG_M` reaches its verdict at this boundary (R231). -/
def degAgain (c : Chip) : Chip :=
  forEach (c.pm.deg.filter (fun e => hasDeg c e.1 && !(degSdh c e.1))) (fun e c => degVerdict e.1 e.2 c) c

/-! ### Boundaries -/

/-- `PM_CTRL` bit 0 in force (R248). -/
def secEnabled (c : Chip) : Bool := bitAt c.pm.ctrl.eff 0

/-- The section points of a port (R248). -/
def sectionPoints (im : Image) (p : Nat) : List Nat :=
  let st := portStack im p
  if 1 ≤ st && st ≤ 4 then [2 * p] else if isSdh st then [2 * p, 2 * p + 1] else []

/-- The section points of the image's ports. -/
def imageSections (c : Chip) : List Nat := if detects c then ((imagePorts (theImage c)).map (sectionPoints (theImage c))).flatten.map secKey else []

/-- A record of a point added at boundary n: PARTIAL where n is no boundary (R266). -/
def freshRec (c : Chip) (n : Nat) : PmRecSt :=
  let pq := !(atBoundary n c.pm.origin quarterTicks)
  let pd := !(atBoundary n c.pm.origin dayTicks)
  let e : PmEndSt := { endDflt with b15 := tset binDflt [] (c.pm.quarter % 5) { binDflt with part := pq }, b24 := tset binDflt [] (c.pm.day % 2) { binDflt with part := pd } }
  { recDflt with ne := e, fe := e }

/-- Section points come and go with `SEC_EN` and the image at boundary n (R248, R266): those kept keep their records; what dDEG rests on follows the
points and every section of the image, whatever `SEC_EN` says (R228). -/
def syncSections (n : Nat) (c : Chip) : Chip :=
  let all := imageSections c
  let want := if secEnabled c then all else []
  let have_ := c.pm.recs.filter (fun e => e.1 < 0x40000 || want.contains e.1 || c.pm.freed.contains e.1)
  let deg := tkeys c.pm.points ++ all
  setPm { c.pm with recs := want.foldl (fun m k => match m.lookup k with | some _ => m | none => tput m k (freshRec c n)) have_, deg := deg.foldl (fun m k => match m.lookup k with | some _ => m | none => tput m k degDflt) (c.pm.deg.filter (fun e => deg.contains e.1)) } c

/-- The current second of every point is counted (R252 to R256), dDEG judged (R228), thresholds compared (R264). -/
def closeSecond (n : Nat) (c : Chip) : Chip :=
  let ks := tkeys c.pm.recs
  let c1 := forEach (tkeys c.pm.deg) degrade c
  let c2 := forEach ks (fun k c => updRec k (recSecond c k) c) c1
  let c3 := forEach ks (fun k c => recThresholds k n c) c2
  setPm { c3.pm with ctrl := { c3.pm.ctrl with eff := c3.pm.ctrl.wr } } c3

/-- The period-close notice (R263). -/
def periodNotice (ref count n : Nat) : Notice :=
  { ntype := 0x0C, prio := 3, clear := false, pk := 0, lvl := 0, family := 0, bit := 0, ref := ref, conseq := count, tick := n }

/-- A quarter closes: the slots that become current are zeroed; `mark` sets PARTIAL in the closed and the new bins (R250,
R257). -/
def endQuarter (q : Nat) (mark : Bool) (e : PmEndSt) : PmEndSt :=
  let closed := if mark then tupd binDflt e.b15 (q % 5) (fun b => { b with part := true }) else e.b15
  { e with b15 := tset binDflt closed ((q + 1) % 5) { binDflt with part := mark }, told := e.told.filter (4 ≤ ·) }

def endDay (d : Nat) (mark : Bool) (e : PmEndSt) : PmEndSt :=
  let closed := if mark then tupd binDflt e.b24 (d % 2) (fun b => { b with part := true }) else e.b24
  { e with b24 := tset binDflt closed ((d + 1) % 2) { binDflt with part := mark }, told := e.told.filter (· < 4) }

/-- PERIOD_CLOSE of a quarter (R263). -/
def closeQuarter (n : Nat) (mark : Bool) (c : Chip) : Chip :=
  let q := c.pm.quarter
  let f (r : PmRecSt) : PmRecSt := { r with ne := endQuarter q mark r.ne, fe := endQuarter q mark r.fe, ex0 := if q % 2 = 1 then exDflt else r.ex0, ex1 := if q % 2 = 0 then exDflt else r.ex1 }
  notify (periodNotice 0 (q + 1) n) (setPm { c.pm with recs := c.pm.recs.map (fun e => (e.1, f e.2)), quarter := q + 1 } c)

/-- PERIOD_CLOSE of a day (R263). -/
def closeDay (n : Nat) (mark : Bool) (c : Chip) : Chip :=
  let d := c.pm.day
  let f (r : PmRecSt) : PmRecSt := { r with ne := endDay d mark r.ne, fe := endDay d mark r.fe }
  notify (periodNotice 1 (d + 1) n) (setPm { c.pm with recs := c.pm.recs.map (fun e => (e.1, f e.2)), day := d + 1 } c)

/-- The mark of the second boundary taken at this tick. -/
def doneSecond : Nat := 1

/-- The second boundary at tick n, with the quarter and day that close there (R249, R263). -/
def pmSecond (n : Nat) (c : Chip) : Chip :=
  let o := c.pm.origin
  let c1 := markDone doneSecond (closeSecond n c)
  let c2 := if atBoundary n o quarterTicks then closeQuarter n false c1 else c1
  syncSections n (if atBoundary n o dayTicks then closeDay n false c2 else c2)

/-- A second boundary is due at tick n and not yet taken. -/
def pmDue (n : Nat) (c : Chip) : Bool := awake c && c.pm.armed.isNone && atBoundary n c.pm.origin secTicks && !(isDone doneSecond c)

/-- The armed origin takes effect at tick n (R250): every second, quarter and day closes there. -/
def pmApply (n : Nat) (c : Chip) : Chip :=
  match c.pm.armed with
  | none => c
  | some o =>
    let both (period : Nat) : Bool := atBoundary n c.pm.origin period && atBoundary n o period
    let c1 := markDone doneSecond (closeSecond n c)
    let c2 := closeDay n (!(both dayTicks)) (closeQuarter n (!(both quarterTicks)) c1)
    syncSections n (setPm { c2.pm with origin := o, armed := none } c2)

/-! ### The tick -/

/-- Raw defects of a point in the tick that ends, as PM reads them (R252, R253). -/
def accDefects (c : Chip) (k : Nat) (a : PmAcc) : PmAcc :=
  let p := recPoint c k
  let seen (b : Nat) : Bool := (dget c (dkey p.1 p.2.1 p.2.2 b)).inTick
  let up := (pointParents (theImage c) p.1 p.2.1).any (pointSfTick c)
  let own := if p.1 = 5 then seen 0 || seen 1 || seen 2 || seen 3 || seen 4 else pointSfTick c p
  { a with
    sf := a.sf || up || own,
    iae := a.iae || (p.1 = 2 && seen 8) || (p.1 = 5 && seen 7),
    biae := a.biae || (p.1 = 2 && seen 9),
    fdef := a.fdef || (p.1 = 2 && seen 5) || (p.1 = 5 && seen 5) || (p.1 = 4 && (seen 6 || seen 10)) }

/-- An SF defect stands at a point or above it in the tick, as `dDEG` reads it (R228). -/
def degSf (c : Chip) (k : Nat) : Bool :=
  let p := recPoint c k
  (pointParents (theImage c) p.1 p.2.1).any (pointSfTick c) || pointSfTick c p

/-- Where BEI or REI carries a point's BIP violations back (R229): a port's section, a tributary terminated into children. -/
def reiKey (c : Chip) (k : Nat) : Option Nat :=
  let p := recPoint c k
  if p.1 = 2 then (if isSdh (portStack (theImage c) p.2.1) && (k - 0x40000) % 2 = 0 then none else some (262144 + p.2.1))
  else if p.1 = 4 && tribChildren (theImage c) p.2.1 ≠ [] then some (524288 + p.2.1) else none

/-- The BIP violations of the tick that ends, to be carried back (R229). -/
def reiTick (reps : List PmRep) (c : Chip) : Chip :=
  { c with dfx := { c.dfx with rei := reps.foldl (fun m r => match reiKey c r.point with | some k => tset 0 m k r.bip | none => m) [] } }

/-- The tick that ends enters the second accumulators (R251 to R254). -/
def pmTick (reps : List PmRep) (c0 : Chip) : Chip :=
  let c := if onImage c0 then reiTick reps c0 else c0
  if c.pm.recs = [] && c.pm.deg = [] then c
  else
    let c1 := if c.dfx.d.all (fun e => !e.2.inTick) then c
      else setPm { c.pm with recs := c.pm.recs.map (fun e => (e.1, { e.2 with acc := accDefects c e.1 e.2.acc })), deg := c.pm.deg.map (fun e => (e.1, { e.2 with sf := e.2.sf || degSf c e.1 })) } c
    forEach reps (fun r c => updDeg r.point (fun x => { x with blocks := x.blocks + r.blocks, ne := x.ne + r.neErr })
      (updRec r.point (fun x => { x with acc := { x.acc with blocks := x.acc.blocks + r.blocks, ne := x.acc.ne + r.neErr, fe := x.acc.fe + r.feErr } }) c)) c1

/-- Adjustments and errored ticks of a tributary go to its path point's extras (R254). -/
def pmExtras (t pos neg int : Nat) (c : Chip) : Chip :=
  match pointOf c t 0 with
  | some k => updRec k (fun x => { x with acc := { x.acc with pos := x.acc.pos + pos, neg := x.acc.neg + neg, int := x.acc.int + int } }) c
  | none => c

/-! ### Commit -/

/-- The points an image asks for, in ascending `TRIB_ID`, path before TCM (R246). -/
def wantedPoints (im : Image) : List (Nat × Nat) :=
  ((im.sec 3).map (fun e => (monLevels e.2).map (fun l => (e.1, l)))).flatten

/-- The lowest number neither in use nor freed by this commit. -/
def freePoint (used : List Nat) : Nat → Nat → Nat
  | 0, k => k
  | f + 1, k => if used.contains k then freePoint used f (k + 1) else k

/-- A point whose records changed (R266): current bins PARTIAL, availability anew, the second counted from C. -/
def restartRec (c : Chip) (r : PmRecSt) : PmRecSt :=
  let f (e : PmEndSt) : PmEndSt := { e with avail := true, run := 0, hist := [], b15 := tupd binDflt e.b15 (c.pm.quarter % 5) (fun b => { b with part := true }), b24 := tupd binDflt e.b24 (c.pm.day % 2) (fun b => { b with part := true }) }
  { r with ne := f r.ne, fe := f r.fe, acc := accDflt }

/-- Points and their records at the commit at boundary n (R246, R266). -/
def pmAtCommit (old : Image) (n : Nat) (c : Chip) : Chip :=
  let new := theImage c
  let want := wantedPoints new
  let kept := c.pm.points.filter (fun e => want.contains e.2)
  let gone := (c.pm.points.filter (fun e => !(want.contains e.2))).map (·.1)
  let added := want.filter (fun w => !(kept.any (fun e => e.2 = w)))
  let pts := added.foldl (fun (m : FMap (Nat × Nat)) w => tput m (freePoint (tkeys m ++ gone) (m.length + gone.length) 0) w) kept
  let same (k : Nat) : Bool :=
    if 0x40000 ≤ k then pointSame old new 2 ((k - 0x40000) / 2)
    else match kept.lookup k with | some (t, _) => pointSame old new 4 t | none => true
  let recs := c.pm.recs.map (fun e => if same e.1 then e else (e.1, restartRec c e.2))
  let recs1 := pts.foldl (fun (m : FMap PmRecSt) e => match m.lookup e.1 with | some _ => m | none => tput m e.1 (freshRec c n)) recs
  let left := (tkeys c.pm.recs).filter (fun k => 0x40000 ≤ k && !((imageSections c).contains k))
  syncSections n (setPm { c.pm with points := pts, recs := recs1, deg := c.pm.deg.filter (fun e => same e.1 && (0x40000 ≤ e.1 || (kept.lookup e.1).isSome)), freed := gone ++ left } c)

/-- At C+1 the records of removed points read 0 and their numbers are free (R246, R266). -/
def pmRelease (c : Chip) : Chip :=
  setPm { c.pm with recs := c.pm.recs.filter (fun e => !(c.pm.freed.contains e.1)), freed := [] } c

/-! ### Reads -/

def bin15Word (b : PmBin) : Nat := packN [(1, bnat b.part), (1, bnat b.late), (10, b.uas), (10, b.ses), (10, b.es), (32, b.bbe)]
def bin24Word (b : PmBin) : Nat := packN [(1, bnat b.part), (1, bnat b.late), (11, 0), (17, b.uas), (17, b.ses), (17, b.es), (32, b.bbe)]
def exWord (x : PmEx) : Nat := packN [(24, x.pos), (24, x.neg), (16, x.int)]

/-- A record's 160 bytes (R257 to R261); `WORK`, not defined for reading, reads as a value the spec leaves open. -/
def pmRecBytes (free : Nat) (r : PmRecSt) : List Byte :=
  ((upto 5).map (fun j => leBytes 8 (bin15Word (tget binDflt r.ne.b15 j)) ++ leBytes 8 (bin15Word (tget binDflt r.fe.b15 j)))).flatten ++
  ((upto 2).map (fun j => leBytes 12 (bin24Word (tget binDflt r.ne.b24 j)) ++ leBytes 12 (bin24Word (tget binDflt r.fe.b24 j)))).flatten ++
  leBytes 8 (exWord r.ex0) ++ leBytes 8 (exWord r.ex1) ++
  leBytes 16 (packN [(1, bnat r.ne.avail), (1, bnat r.fe.avail), (4, r.ne.run), (4, r.fe.run), (118, Config.freeValue free)])

/-- `PM_CLOCK` (R250). -/
def pmClock (c : Chip) : Word :=
  reg32 [(8, 0), (10, sinceOrigin (now c) c.pm.origin quarterTicks / 8000), (1, 0), (13, sinceOrigin (now c) c.pm.origin secTicks)]

/-! ### Commands -/

/-- PM_SECOND_BOUNDARY (R249). -/
def execPmSecondBoundary (s : State) : Host.Outcome State Fault Refusal :=
  .next (onChip (fun c => when (pmDue (now c) c) (pmSecond (now c)) c) s)

/-- PM_ORIGIN_ARM (R250): a write of `PM_ORIGIN_HI`. -/
def execPmOriginArm (hi : Word) (s : State) : Host.Outcome State Fault Refusal :=
  .next (onChip (when (awake s.c) (fun c => jnlWrite 0x3094 hi (setPm { c.pm with originHi := hi, armed := some (hi.toNat * 4294967296 + c.pm.originLo.toNat) } c))) s)

/-- PM_ORIGIN_APPLY (R250). -/
def execPmOriginApply (s : State) : Host.Outcome State Fault Refusal := .next (onChip (fun c => pmApply (now c) c) s)

end Sys2Proof.Machine
end

