-- ==== Sys2Proof/Machine/Prot.lean ====
section
/-!
DEFINITION. Path and line protection (R268 to R289) and the selectors of the junction (R209 to R211, R218).
-/
namespace Sys2Proof.Machine
open Sys2Proof

def memDflt : MemSt := { inSf := false, inSd := false, sf := false, sd := false, hold := 0, reqSf := false, reqSd := false, sdAt := 0 }
def apsRxDflt : ApsRxSt := { cand := 0, run := 0 }
def selDflt : SelSt := { select := false, switches := 0, badSel := false, badAlt := false }

def setGroups (m : FMap GrpSt) (c : Chip) : Chip := { c with prot := { c.prot with groups := m } }

/-- A group that exists is changed. -/
def updGrp (g : Nat) (f : GrpSt → GrpSt) (c : Chip) : Chip :=
  match c.prot.groups.lookup g with
  | some x => setGroups (tput c.prot.groups g (f x)) c
  | none => c

def getSel (c : Chip) (g : Nat) : SelSt := tget selDflt c.jct.sel g
def updSel (g : Nat) (f : SelSt → SelSt) (c : Chip) : Chip := { c with jct := { c.jct with sel := tupd selDflt c.jct.sel g f } }

/-- The PROT record of a group of the committed image. -/
def protRec (c : Chip) (g : Nat) : Option Rec := ((theImage c).getRec 5 g).filter (fun r => protKind r ≠ 7)

/-! ### Requests (R277) -/

/-- State codes. -/
def stNR : Nat := 0
def stDNR : Nat := 1
def stWTR : Nat := 2
def stMSW : Nat := 3
def stMSP : Nat := 4
def stSDW : Nat := 5
def stSDP : Nat := 6
def stSFW : Nat := 7
def stFS : Nat := 8
def stSFP : Nat := 9
def stLO : Nat := 10

/-- The rank of a state's request. -/
def reqRank (st : Nat) : Nat :=
  match st with
  | 10 => 1 | 9 => 2 | 8 => 3 | 7 => 4 | 6 => 5 | 5 => 5 | 4 => 6 | 3 => 6 | 2 => 7 | 1 => 8 | _ => 9

/-- The states that select protection. -/
def selectsP (st : Nat) : Bool := [stFS, stSFW, stSDW, stMSP, stWTR, stDNR].contains st

/-- The G.873.1 request code of a state. -/
def odukCode (st : Nat) : Nat :=
  match st with
  | 10 => 15 | 9 => 14 | 8 => 13 | 7 => 11 | 6 => 9 | 5 => 9 | 4 => 7 | 3 => 7 | 2 => 5 | 1 => 1 | _ => 0

/-- The G.841 K1 request code of a state, the low-priority codes of SF and SD. -/
def k1Code (st : Nat) : Nat :=
  match st with
  | 10 => 15 | 9 => 12 | 8 => 14 | 7 => 12 | 6 => 10 | 5 => 10 | 4 => 8 | 3 => 8 | 2 => 6 | 1 => 1 | _ => 0

/-- The state a far end's G.873.1 request names with its requested signal; none for a request R277 does not list. -/
def odukState (code sig : Nat) : Option Nat :=
  match code with
  | 15 => some stLO | 14 => some stSFP | 13 => some stFS | 11 => some stSFW
  | 9 => some (if sig = 0 then stSDP else stSDW)
  | 7 => some (if sig = 0 then stMSW else stMSP)
  | 5 => some stWTR | 1 => some stDNR | 0 => some stNR | _ => none

/-- The state a far end's K1 names; both priorities of SF and SD are accepted. -/
def k1State (code ch : Nat) : Option Nat :=
  match code with
  | 15 => some stLO | 14 => some stFS
  | 13 => some (if ch = 0 then stSFP else stSFW)
  | 12 => some (if ch = 0 then stSFP else stSFW)
  | 11 => some (if ch = 0 then stSDP else stSDW)
  | 10 => some (if ch = 0 then stSDP else stSDW)
  | 8 => some (if ch = 0 then stMSW else stMSP)
  | 6 => some stWTR | 1 => some stDNR | 0 => some stNR | _ => none

/-- The group is MSP (R268). -/
def grpMsp (r : Rec) : Bool := protKind r = 4

/-- The group sends an APS channel (R279): bidirectional SNC, or MSP. -/
def grpSends (r : Rec) : Bool := grpMsp r || (protKind r ≤ 2 && protBidir r)

/-- Fields of an APS value: request, requested signal, bridged signal (bytes 1 to 3, or K1 and K2). -/
def apsReq (v : Word) : Nat := bits v 28 4
def apsSig (r : Rec) (v : Word) : Nat := if grpMsp r then bits v 24 4 else bits v 16 8
def apsBridged (r : Rec) (v : Word) : Nat := if grpMsp r then bits v 20 4 else bits v 8 8

/-- The far end's request as a state. -/
def farState (r : Rec) (v : Word) : Option Nat :=
  if grpMsp r then k1State (apsReq v) (apsSig r v) else odukState (apsReq v) (apsSig r v)

/-- The value sent: the request of the highest local state, or reverse request with the far end's signal (R277, R279). -/
def apsValue (r : Rec) (loc : Nat) (remote : Option Word) (bridge : Bool) : Word :=
  let sig : Nat := match remote with | some v => apsSig r v | none => bnat (selectsP loc)
  if grpMsp r then
    let code : Nat := if remote.isSome then 2 else k1Code loc
    reg32 [(4, code), (4, sig), (4, bnat bridge), (1, 0), (3, if protBidir r then 4 else 5), (16, 0)]
  else
    let code : Nat := if remote.isSome then 2 else odukCode loc
    reg32 [(4, code), (1, 1), (1, protArch r), (1, bnat (protBidir r)), (1, bnat (protRevert r)), (8, sig), (8, bnat bridge), (8, 0)]

/-! ### Signal conditions (R272, R273) -/

/-- The port that delivers a working port's line: the one its MSP group selects (R273). -/
def mspPort (c : Chip) (p : Nat) : Nat :=
  match (theImage c).sec 5 |>.find? (fun e => protKind e.2 = 4 && protW e.2 = p) with
  | some e => if (getSel c e.1).select then protP e.2 else p
  | none => p

/-- A point as its MSP group delivers it. -/
def mspPoint (c : Chip) (x : Nat × Nat × Nat) : Nat × Nat × Nat := if x.1 ≤ 2 then (x.1, mspPort c x.2.1, x.2.2) else x

/-- A defect was present in some cycle of the tick. -/
def defTick (c : Chip) (k : Nat) : Bool := (dget c k).inTick

/-- An SF defect at a tributary's TRIB point or above in the tick. -/
def tribAboveTick (c : Chip) (t : Nat) : Bool := ((3, t, 0) :: tribParents (theImage c) t).any (fun x => pointSfTick c (mspPoint c x))

/-- Server signal fail in the tick (R223). -/
def ssfTick (c : Chip) (t : Nat) : Bool := pointSfTick c (4, t, 0) || tribAboveTick c t

/-- The hub causeway of a tributary's home quadrant has failed, or a list of its is orphaned (R273). -/
def memberLost (c : Chip) (t : Nat) : Bool :=
  match c.img.place.tribs.lookup t with
  | some pl =>
    (match c.cwy.lookup (pl.island / 16) with | some x => x.failed | none => false) ||
    (match c.isl.lookup pl.island with | some x => pl.lists.any x.orphans.contains | none => false)
  | none => false

/-- SF of a member in the tick. -/
def memberSf (c : Chip) (r : Rec) (m : Nat) : Bool :=
  let k := protTcm r
  match protKind r with
  | 0 => tribAboveTick c m || memberLost c m
  | 3 => ssfTick c m || memberLost c m
  | 4 => ((2, m, 0) :: sectionParents (theImage c) m).any (pointSfTick c)
  | kind =>
    ssfTick c m || memberLost c m ||
    (k ≠ 0 && ((if kind = 2 then [0, 1, 2, 3, 4] else [0, 1, 2, 4]).any (fun b => defTick c (dkey 5 m k b))))

/-- SD of a member in the tick. -/
def memberSd (c : Chip) (r : Rec) (m : Nat) : Bool :=
  let k := protTcm r
  protSdTrig r &&
  (match protKind r with
   | 0 => (chainPorts (theImage c) m).any (fun p => defTick c (dkey 2 (mspPort c p) 0 6))
   | 3 => defTick c (dkey 4 m 0 7)
   | 4 => defTick c (dkey 2 m 0 6)
   | _ => if k = 0 then defTick c (dkey 4 m 0 7) else defTick c (dkey 5 m k 6))

/-- Inputs gathered over the tick that ends (R274): conditions of each member and the far end's value accepted. -/
def gatherGroup (c : Chip) (g : Nat) (x : GrpSt) : GrpSt :=
  match protRec c g with
  | none => x
  | some r =>
    { x with w := { x.w with inSf := memberSf c r (protW r), inSd := memberSd c r (protW r) }, p := { x.p with inSf := memberSf c r (protP r), inSd := memberSd c r (protP r) }, far := x.accepted }

def protGather (c : Chip) : Chip := setGroups (c.prot.groups.map (fun e => (e.1, gatherGroup c e.1 e.2))) c

/-! ### The evaluation (R274 to R278) -/

/-- One member's condition and hold-off in an evaluation (R275). -/
def memberStep (hold n : Nat) (m : MemSt) : MemSt :=
  let m1 := { m with sf := m.inSf, sd := m.inSd && !m.inSf }
  let raise (x : MemSt) : MemSt := { x with reqSf := x.sf, reqSd := x.sd, hold := 0, sdAt := if x.sd then (if x.reqSd then x.sdAt else n) else 0 }
  if hold = 0 || m1.reqSf || m1.reqSd then raise m1
  else if 1 < m1.hold then { m1 with hold := m1.hold - 1 }
  else if m1.hold = 1 then raise m1
  else if m1.sf || m1.sd then { m1 with hold := hold * 800 }
  else m1

/-- The highest condition or command of the group's own, if any (R277): within rank 5 the earlier SD keeps the state. -/
def ownRequest (x : GrpSt) : Option Nat :=
  if x.standing = 1 then some stLO
  else if x.p.reqSf then some stSFP
  else if x.standing = 2 then some stFS
  else if x.w.reqSf then some stSFW
  else if x.w.reqSd && x.p.reqSd then some (if x.w.sdAt < x.p.sdAt then stSDW else stSDP)
  else if x.p.reqSd then some stSDP
  else if x.w.reqSd then some stSDW
  else if x.standing = 3 then some stMSP
  else if x.standing = 4 then some stMSW
  else none

/-- The far end's request that counts: of a bidirectional group without `FOP_PM` (R278, R281). -/
def farRequest (r : Rec) (x : GrpSt) : Option (Nat × Word) :=
  if protBidir r && !x.fopPm then (x.far.bind (fun v => (farState r v).map (fun s => (s, v)))) else none

/-- The state of the group's own requests when none of rank 1 to 6 is present (R276, R278). -/
def idleState (r : Rec) (x : GrpSt) : Nat :=
  if x.loc = stSFW || x.loc = stSDW then
    (if protRevert r then (if protWtr r = 0 then stNR else stWTR) else stDNR)
  else if x.loc = stWTR then (if x.wtr = 0 then stNR else stWTR)
  else if x.loc = stDNR then stDNR
  else if (x.loc = stFS || x.loc = stMSP) && !(protRevert r) then stDNR
  else stNR

/-- Resolve the requests into the state (R277, R278): a manual command is dropped by a higher request, a far-end request
counts where it outranks every local one, a request of rank 1 to 6 ends wait-to-restore. -/
def resolveState (r : Rec) (x : GrpSt) : GrpSt :=
  let far := farRequest r x
  let farHigh : Bool := match far with | some f => reqRank f.1 ≤ 5 | none => false
  let x1 := if (x.standing = 3 || x.standing = 4) && (x.w.reqSf || x.w.reqSd || x.p.reqSf || x.p.reqSd || farHigh) then { x with standing := 0 } else x
  let farBusy : Bool := match far with | some f => reqRank f.1 ≤ 6 | none => false
  let loc : Nat := match ownRequest x1 with
    | some s => s
    | none => let s := idleState r x1; if s = stWTR && farBusy then stNR else s
  let wtr : Nat := if loc ≠ stWTR then 0 else if x1.loc = stWTR then x1.wtr else protWtr r * 8000
  let x2 := { x1 with loc := loc, wtr := wtr }
  match far with
  | some f => if reqRank f.1 < reqRank loc then { x2 with state := f.1, remote := true } else { x2 with state := loc, remote := false }
  | none => { x2 with state := loc, remote := false }

/-- A request of rank 1 to 6 that arrives cancels running hold-off timers (R277). -/
def cancelHold (x : GrpSt) : GrpSt :=
  let busy : Bool := reqRank x.state ≤ 6
  if busy && !x.busy then { x with busy := true, w := { x.w with hold := 0 }, p := { x.p with hold := 0 } } else { x with busy := busy }

/-- Judge a command against the group's state (R285): the result code. -/
def judgeCmd (x : GrpSt) (cmd : Nat) : Nat :=
  match cmd with
  | 1 => 0
  | 7 => if x.standing ≠ 0 || x.state = stWTR then 0 else 3
  | 2 => if x.state = stLO then 1 else if x.state = stSFP && x.standing ≠ 2 then 1 else 0
  | k =>
    if x.state = stLO || x.state = stSFP || x.state = stFS || x.state = stSFW || x.state = stSDW || x.state = stSDP then 1
    else if (k = 3 && x.state = stMSW) || (k = 4 && x.state = stMSP) then 2 else 0

/-- An accepted command's effect (R278): CLEAR removes the standing command, or ends wait-to-restore. -/
def applyCmd (r : Rec) (x : GrpSt) (cmd : Nat) : GrpSt :=
  if cmd = 7 then
    (if x.standing = 0 then resolveState r { x with loc := if x.loc = stWTR then stNR else x.loc, wtr := 0 }
     else resolveState r { x with standing := 0 })
  else resolveState r { x with standing := cmd }

/-- The far end does not return the requested signal (R281). -/
def nrDiffers (r : Rec) (x : GrpSt) : Bool :=
  let got : Nat := match x.far with | some v => apsBridged r v | none => 0
  let want := apsSig r x.sent
  if protArch r = 1 then got ≠ want else want ≠ 0 && got ≠ want

/-- Protocol failures in an evaluation (R281); `FOP_CM` follows accepted values as they come. -/
def fopStep (r : Rec) (n : Nat) (x : GrpSt) : GrpSt :=
  if !(protBidir r) then x
  else
    let pm : Bool := match x.far with
      | some v => !(grpMsp r) && bits v 24 4 ≠ packN [(1, 1), (1, protArch r), (1, 1), (1, bnat (protRevert r))]
      | none => false
    let since : Option Nat := if nrDiffers r x then (match x.nrSince with | some t => some t | none => some n) else none
    { x with fopPm := pm, nrSince := since, fopNr := match since with | some t => x.fopNr || t + 400 ≤ n | none => false }

/-- What the evaluation decides: the value to send, the bridge, the selection and when it is due (R274, R280). -/
def decide_ (r : Rec) (n old : Nat) (x : GrpSt) : GrpSt :=
  let sel := selectsP x.state
  let bridge := protArch r = 0 || sel
  let remote : Option Word := if x.remote then x.far else none
  { x with select := sel, bridge := bridge, next := if grpSends r then apsValue r x.loc remote bridge else 0, decided := if sel = x.select then x.decided else some (n + 1), cause := if sel = x.select then x.cause else if x.state = stNR || x.state = stDNR then old else x.state, evalAt := n }

/-- One evaluation of a group: conditions and timers, then the command if there is one (R274). -/
def evalGroup (r : Rec) (n : Nat) (cmd : Option Nat) (x : GrpSt) : GrpSt × Nat :=
  let x1 := fopStep r n { x with w := memberStep (protHold r) n x.w, p := memberStep (protHold r) n x.p, wtr := x.wtr - 1 }
  let x2 := cancelHold (resolveState r x1)
  match cmd with
  | none => (decide_ r n x.state x2, 0)
  | some k =>
    let res := judgeCmd x2 k
    let x3 := if res = 0 then cancelHold (applyCmd r x2 k) else x2
    (decide_ r n x.state x3, res)

/-- A `PROT_CMD` that waits for this tick's evaluation: its command and group (R274, R284). -/
def protWaiting (c : Chip) : Option (Nat × Nat) :=
  match mbHolds 0x020 c with
  | some k => if k.accept < now c && c.mb.held = none then some (bits k.p0 16 3, bits k.p0 0 16) else none
  | none => none

/-- A group has not yet been evaluated in the tick, and its inputs stand (R274, R288). -/
def evalDue (c : Chip) (x : GrpSt) : Bool := x.evalAt < now c && x.born < now c

/-- The standing conditions notified as protocol failures at the boundary (R287). -/
def fopBits (x : GrpSt) : Nat := bnat x.fopPm + 2 * bnat x.fopCm + 4 * bnat x.fopNr

/-- Evaluate one group in the present tick, with the reply to a command for it. -/
def protEval1 (g : Nat) (c : Chip) : Chip :=
  match c.prot.groups.lookup g, protRec c g with
  | some x, some r =>
    if !(evalDue c x) then c
    else
      let cmd : Option Nat := match protWaiting c with | some w => if w.2 = g then some w.1 else none | none => none
      let e := evalGroup r (now c) cmd x
      let c1 := setGroups (tput c.prot.groups g e.1) c
      match cmd with
      | some k => mbReply 0 (packN [(3, e.1.standing), (4, e.1.state), (8, e.2)]) 0 (when (e.2 = 0) (jnlCmd (BitVec.ofNat 32 (k * 65536 + g))) c1)
      | none => c1
  | _, _ => c

/-- A command for a group the committed image lacks is answered with 0x04 (R284). -/
def protNoGroup (c : Chip) : Chip :=
  match protWaiting c with
  | some w => if (c.prot.groups.lookup w.2).isNone then mbReply 0 4 0 c else c
  | none => c

/-- Every group is evaluated once in the tick (R274). -/
def protEvaluate (c : Chip) : Chip := protNoGroup (forEach (tkeys c.prot.groups) protEval1 c)

/-! ### The boundary -/

/-- The class of a group's notices (R287). -/
def grpClass (c : Chip) (r : Rec) : Nat :=
  if grpMsp r then 0 else match tribRec (theImage c) (protW r) with | some t => tribClass t | none => 0

/-- A group's notice takes its class's priority; only `MUTE` filters it (R287). -/
def grpNotify (r : Rec) (n : Notice) (c : Chip) : Chip :=
  let k := classRec c (grpClass c r)
  if noticeMute k then c else notify { n with prio := bits k 8 2 } c

/-- A selector change that is due takes effect, with its notice (R211, R287). -/
def selectorChange (g n : Nat) (c : Chip) : Chip :=
  match c.prot.groups.lookup g, protRec c g with
  | some x, some r =>
    match x.decided with
    | some d =>
      if n < d then c
      else
        let c1 := updGrp g (fun x => { x with decided := none, lastSwitch := n }) c
        if (getSel c1 g).select = x.select then c1
        else
          let c2 := updSel g (fun s => { s with select := x.select, switches := s.switches + 1 }) c1
          grpNotify r (event 0x15 0 0 x.cause g (bnat x.select) n false) c2
    | none => c
  | _, _ => c

/-- What else an evaluation decided takes effect: the bridge and the value sent, and its protocol failures are notified
(R274, R287). -/
def grpBoundary (g n : Nat) (c : Chip) : Chip :=
  match c.prot.groups.lookup g, protRec c g with
  | some x, some r =>
    let c1 := updGrp g (fun x => { x with sent := x.next, bridged := x.bridge, told := fopBits x }) c
    forEach (upto 3) (fun b c =>
      let was := x.told.testBit b
      let is := (fopBits x).testBit b
      if was = is then c else grpNotify r (event 0x16 0 0 b g 0 n was) c) c1
  | _, _ => c

/-- A `PROT_GRP` entry with its sequence (R286). -/
def grpWord (r : Rec) (x : GrpSt) (sel : Bool) (seq : Nat) : BitVec 256 :=
  let farReq : Nat := match x.accepted with | some v => apsReq v | none => 0
  BitVec.ofNat 256 (packN [(16, seq), (64, x.lastSwitch), (32, (x.accepted.getD 0).toNat), (32, x.sent.toNat), (24, 0),
    (23, x.wtr), (17, max x.w.hold x.p.hold), (5, 0), (3, x.standing), (1, bnat x.remote), (4, x.state), (4, farReq),
    (4, if grpSends r then apsReq x.sent else 0), (1, bnat x.fopNr), (1, bnat x.fopCm), (1, bnat x.fopPm), (1, bnat x.p.sd),
    (1, bnat x.p.sf), (1, bnat x.w.sd), (1, bnat x.w.sf), (1, bnat x.bridged), (1, bnat sel), (1, 0), (1, 1), (16, seq)])

/-- `PROT_GRP` is updated after a boundary (R286); a group removed by the commit at n reads invalid from the next tick
(R288). -/
def protPublish (n : Nat) (c : Chip) : Chip :=
  let kept := if c.cm.lastC = some n then c.prot.pub.filter (fun e => (c.prot.groups.lookup e.1).isNone) else []
  let pub := c.prot.groups.foldl (fun m e =>
    match protRec c e.1 with
    | some r => tput m e.1 (grpWord r e.2 (getSel c e.1).select n)
    | none => m) kept
  { c with prot := { c.prot with pub := pub } }

/-! ### Commit (R288) -/

/-- A group at the start of its life at boundary n. -/
def grpNew (r : Rec) (n : Nat) : GrpSt :=
  { w := memDflt, p := memDflt, state := stNR, loc := stNR, remote := false, standing := 0, wtr := 0, rx := apsRxDflt, rxW := apsRxDflt, accepted := none, far := none, badRun := 0, okRun := 0, sent := if grpSends r then apsValue r stNR none (protArch r = 0) else 0, next := if grpSends r then apsValue r stNR none (protArch r = 0) else 0, bridged := protArch r = 0, bridge := protArch r = 0, select := false, decided := none, cause := 0, fopPm := false, fopCm := false, fopNr := false, told := 0, nrSince := none, busy := false, evalAt := n, born := n, lastSwitch := 0 }

/-- A group stays as it is over a commit (R90, R288): its record and the records its members rest on are the same. -/
def grpKept (old new : Image) (g : Nat) (r : Rec) : Bool :=
  old.getRec 5 g = some r &&
  (if grpMsp r then pointSame old new 2 (protW r) && pointSame old new 2 (protP r)
   else pointSame old new 4 (protW r) && pointSame old new 4 (protP r))

/-- Groups at the commit at boundary n: `old` is the image before it, the chip already holds the new. -/
def protAtCommit (old : Image) (n : Nat) (c : Chip) : Chip :=
  let new := theImage c
  let recs := (new.sec 5).filter (fun e => protKind e.2 ≠ 7)
  let groups := recs.map (fun e =>
    match c.prot.groups.lookup e.1 with
    | some x => if grpKept old new e.1 e.2 then (e.1, x) else (e.1, grpNew e.2 n)
    | none => (e.1, grpNew e.2 n))
  let c1 := setGroups groups c
  let fresh := (tkeys c.jct.sel).filter (fun g => (groups.any (fun e => e.1 = g && e.2.born = n)) || (groups.lookup g).isNone)
  forEach fresh (fun g => updSel g (fun s => { s with select := false, badSel := false, switches := if s.select then s.switches + 1 else s.switches })) c1

/-! ### Received APS (R279, R281) -/

/-- A value on a group's channel: accepted when identical in 3 consecutive frames. A value accepted on the working member
names it as carrying APS (R281). -/
def apsReceived (g : Nat) (working : Bool) (v : Word) (c : Chip) : Chip :=
  match protRec c g with
  | none => c
  | some r =>
    updGrp g (fun x =>
      let old := if working then x.rxW else x.rx
      let rx : ApsRxSt := { cand := v, run := if old.cand = v && old.run ≠ 0 then min 3 (old.run + 1) else 1 }
      if working then
        let bad := if rx.run = 3 then min 3 (x.badRun + 1) else x.badRun
        { x with rxW := rx, badRun := bad, okRun := if rx.run = 3 then 0 else x.okRun, fopCm := x.fopCm || bad = 3 }
      else
        let ok := if rx.run = 3 then min 3 (x.okRun + 1) else x.okRun
        { x with rx := rx, accepted := if rx.run = 3 then some v else x.accepted, okRun := ok, badRun := if rx.run = 3 && !(grpMsp r) then 0 else x.badRun, fopCm := x.fopCm && ok ≠ 3 }) c

/-- The channel level a group's APS uses (R268): 7 stands for SNC/I's own. -/
def apsLevel (r : Rec) : Nat := if protKind r = 0 then 7 else protTcm r

/-- An APS value of a frame goes to the groups that read that channel: bidirectional SNC groups by member, MSP groups by
port (R279). -/
def apsFrame (layer ref level : Nat) (v : Word) (c : Chip) : Chip :=
  forEach ((theImage c).sec 5) (fun e c =>
    let r := e.2
    if protKind r = 4 then
      if layer = 2 && protP r = ref then apsReceived e.1 false v c
      else if layer = 2 && protW r = ref && protBidir r then apsReceived e.1 true v c else c
    else if protKind r ≤ 2 && protBidir r && (layer = 4 || layer = 5) && level = apsLevel r then
      if protP r = ref then apsReceived e.1 false v c else if protW r = ref then apsReceived e.1 true v c else c
    else c) c

/-! ### Commands -/

/-- PROTECTION_EVALUATION (R274). -/
def execProtectionEvaluation (s : State) : Host.Outcome State Fault Refusal :=
  .next (onChip (fun c => if onImage c then protEvaluate c else protNoGroup c) s)

/-- HOLDOFF_EXPIRY (R275): the group's evaluation, in which the member's timer reaches 0. -/
def execHoldoffExpiry (g member : Nat) (s : State) : Host.Outcome State Fault Refusal :=
  .next (onChip (fun c =>
    match c.prot.groups.lookup g with
    | some x => if onImage c && (if member = 0 then x.w.hold else x.p.hold) = 1 then protEval1 g c else c
    | none => c) s)

/-- WTR_EXPIRY (R276): the group's evaluation, in which `WTR_LEFT` reaches 0. -/
def execWtrExpiry (g : Nat) (s : State) : Host.Outcome State Fault Refusal :=
  .next (onChip (fun c =>
    match c.prot.groups.lookup g with
    | some x => if onImage c && x.loc = stWTR && x.wtr = 1 then protEval1 g c else c
    | none => c) s)

/-- FOP_NR_TIMEOUT (R281): 400 ticks since the requested signal was sent and the far end has not returned it. -/
def execFopNrTimeout (g : Nat) (s : State) : Host.Outcome State Fault Refusal :=
  .next (onChip (fun c => when (onImage c) (updGrp g (fun x =>
    match x.nrSince with | some t => if t + 400 ≤ now c then { x with fopNr := true } else x | none => x)) c) s)

/-- SELECTOR_CHANGE (R211): at the boundary at which it is due. -/
def execSelectorChange (g : Nat) (s : State) : Host.Outcome State Fault Refusal :=
  .next (onChip (fun c => when (onImage c) (selectorChange g (now c)) c) s)

/-- PROT_CMD (R284): the CMD value is checked at once; the command is judged in the next tick's evaluation. -/
def protCmdOk (c : Chip) : Bool := [1, 2, 3, 4, 7].contains (bits c.mb.p0 16 3) && bits c.mb.p0 19 13 = 0

/-- PROT_CMD (R284): the mailbox takes it; the reply follows the next tick's evaluation. -/
def execProtCmd (tag : Byte) (s : State) : Host.Outcome State Fault Refusal :=
  .next (onChip (mbSubmit 0x020 tag false protCmdOk id) s)

end Sys2Proof.Machine
end

