-- ==== Sys2Proof/Machine/Refs.lean ====
section
/-!
DEFINITION. Timing inputs (R290 to R302), the oscillator and its models (R303, R326 to R329), quality levels (R295 to R297).
-/
namespace Sys2Proof.Machine
open Sys2Proof

def inDflt : InSt := { status := 0, reason := 0, act := false, open_ := false, offset := 0, measured := false, qualLeft := 0, qualTick := 0, soft := false, hard := false, secSum := 0, secCnt := 0, mins := [], dRaw := none, drift := 0, driftWarn := false, driftRun := 0, driftTick := 0, timeOffset := 0, timePrev := none, jump := false, todOk := false, todLast := none, todRun := 0, todPulses := 0, todTick := 0, todFresh := false, utc := 0, leap := 0, rxQl := 0xA, s1 := 0, s1Run := 0, esmcTick := 0, tapLane := 0 }

def setTim (t : TimSt) (c : Chip) : Chip := { c with tim := t }
def getIn (c : Chip) (i : Nat) : InSt := (c.tim.ins.lookup i).getD inDflt

/-- An input that is monitored is changed. -/
def updIn (i : Nat) (f : InSt → InSt) (c : Chip) : Chip :=
  match c.tim.ins.lookup i with
  | some x => setTim { c.tim with ins := tput c.tim.ins i (f x) } c
  | none => c

def setOsc (o : OscSt) (c : Chip) : Chip := setTim { c.tim with osc := o } c

/-- The record of an input (R78). -/
def inRec (c : Chip) (i : Nat) : Option Rec := (theImage c).getRec 6 (0x100 + i)

/-- An enabled input in a DPLL's mask with a priority (R304, R305). -/
def eligible (c : Chip) (d i : Nat) : Bool :=
  match inRec c i with | some r => inEnable r && (inMask r).testBit d && inPrio r ≠ 0 | none => false

def inPrioOf (c : Chip) (i : Nat) : Nat := match inRec c i with | some r => inPrio r | none => 0

/-- States of `STATUS` (R317). -/
def inNoAct : Nat := 1
def inQualifying : Nat := 2
def inQualified : Nat := 3
def inDisq : Nat := 4

def qualified (c : Chip) (i : Nat) : Bool := (getIn c i).status = inQualified

/-- The QUALIFIED inputs, ascending. -/
def qualifiedList (c : Chip) : List Nat := (tkeys c.tim.ins).filter (qualified c)

/-- A timing notice of types 0x20 to 0x2A: priority 1, never filtered (R319, R352). -/
def timNotice (ty ref bit conseq n : Nat) (clear : Bool) (c : Chip) : Chip := notify (event ty 0 0 bit ref conseq n clear) c

/-! ### Registers -/

def timOscQl (c : Chip) : Nat := bits c.tim.tim.eff 28 4
def timQualS (c : Chip) : Nat := bits c.tim.tim.eff 20 8
def timDqMin (c : Chip) : Nat := bits c.tim.tim.eff 12 8

/-- `TIM_CTRL` values R301 allows. R301 states no range of `OSC_QL`: DESIGN CHOICE (log 23), 0x0 and 0xC to 0xF, which name no
quality level of R295, count as reserved. -/
def timCtrlOk (v : Word) : Bool :=
  1 ≤ bits v 28 4 && bits v 28 4 ≤ 0xB && 1 ≤ bits v 20 8 && bits v 9 3 ≤ 4 && bits v 0 9 = 0

/-- `REFIN_CFG` values R291 allows. -/
def refinOk (v : Word) : Bool := bits v 16 16 = 0 && (upto 8).all (fun k => bits v (2 * k) 2 ≠ 3)

/-- A REFIN receiver is on (R291). -/
def refinOn (c : Chip) (i : Nat) : Bool := bits c.tim.refin.eff (2 * i) 2 ≠ 0

/-! ### Oscillator models (R326, R327) -/

/-- The temperature term m_T in fx, 0 while invalid; beyond 2 degrees outside the learned range, at its nearer edge. -/
def termT (o : OscSt) (th : Int) : Int :=
  if !o.tempValid then 0
  else
    let t := if th < o.lo - 200 then o.lo else if o.hi + 200 < th then o.hi else th
    let x := t - 2500
    o.k1 * x * 10 + o.k2 * x * x / 1000 + o.k3 * x * x * x / 10000000

/-- The ageing term m_A in fx, 0 while invalid. -/
def termA (o : OscSt) (hours : Nat) : Int :=
  if !o.ageValid then 0 else o.ageA * (hours : Int) * 10 / 24 + o.ageB * Config.lnDays hours / 10000

/-- What R299 subtracts from a measured offset: the models' prediction, without a temperature part while it is not
available, in 0.01 ppb. -/
def prediction (o : OscSt) : Int := -((if o.tempFail then 0 else termT o o.temp) + termA o o.hours) / 10000

/-! ### Monitors -/

/-- Seconds of the frequency window (R299). -/
def freqWindow (c : Chip) (i : Nat) : Nat :=
  if 16 ≤ i then 1
  else match inRec c i with
    | some r => if 10000 ≤ inNominal r then 1 else if 1000 ≤ inNominal r then 10 else 100
    | none => 1

/-- The port of a line tap. -/
def tapPort (c : Chip) (i : Nat) : Option Nat := if 16 ≤ i then (inRec c i).map inTap else none

/-- The lanes of a tap's port that are LOCKED, by position. -/
def tapLanes (c : Chip) (p : Nat) : List Nat :=
  let ls := portLanes (theImage c) p
  (upto ls.length).filter (fun k => (getLane c (ls.getD k 0)).rx = .locked)

/-- A tap keeps its lane while it is LOCKED and moves to the next LOCKED one otherwise (R292). -/
def tapMove (i : Nat) (c : Chip) : Chip :=
  match tapPort c i with
  | none => c
  | some p =>
    let l := tapLanes c p
    if l.contains (getIn c i).tapLane then c
    else
      let next := match l.find? (fun k => (getIn c i).tapLane < k) with | some k => some k | none => l.head?
      match next with | some k => updIn i (fun s => { s with tapLane := k }) c | none => c

/-- The activity of a tap (R298). -/
def tapActive (c : Chip) (i : Nat) : Bool :=
  match tapPort c i with
  | none => false
  | some p =>
    !(pointSf c (0, p, 0)) && !(pointSf c (2, p, 0)) &&
    !(pointSf c (1, p, (getIn c i).tapLane) && (tapLanes c p).all (· = (getIn c i).tapLane))

/-- The activity monitor's verdict (R298, R291). -/
def setActive (i : Nat) (b : Bool) (c : Chip) : Chip :=
  let on := b && (8 ≤ i || refinOn c i) && (i < 16 || tapActive c i)
  updIn i (fun s => { s with act := on, open_ := s.open_ || !on }) c

/-- The QL of S1 bits or an SSM value (R295, R296). -/
def qlOfSsm (v : Nat) : Nat := if v = 2 then 4 else if v = 4 then 5 else if v = 8 then 6 else if v = 11 then 8 else 9

/-- S1 bits of a QL sent (R295). -/
def ssmOfQl (q : Nat) : Nat :=
  if 1 ≤ q && q ≤ 4 then 2 else if q = 5 then 4 else if q = 6 then 8 else if q = 7 || q = 8 then 11 else 15

/-- The QL in use (R296). -/
def effQl (c : Chip) (i : Nat) : Nat :=
  match inRec c i with | some r => if inQlForce r ≠ 0 then inQlForce r else (getIn c i).rxQl | none => 0xA

/-- The tap takes its QL from ESMC PDUs (R296). -/
def tapEsmc (c : Chip) (i : Nat) : Bool :=
  match tapPort c i with
  | some p => (portStack (theImage c) p = 0x10 || portStack (theImage c) p = 0x20) && (stackExport (stackRec c p)).testBit 7
  | none => false

def tapSdh (c : Chip) (i : Nat) : Bool := match tapPort c i with | some p => isSdh (portStack (theImage c) p) | none => false

/-- S1 of a frame on a port: accepted when 8 consecutive frames carry it (R296). -/
def s1Received (p v : Nat) (c : Chip) : Chip :=
  forEach (tkeys c.tim.ins) (fun i c =>
    if tapPort c i = some p && tapSdh c i then
      updIn i (fun s =>
        let run := if s.s1 = v && s.s1Run ≠ 0 then min 8 (s.s1Run + 1) else 1
        { s with s1 := v, s1Run := run, rxQl := if run = 8 then qlOfSsm v else s.rxQl }) c
    else c) c

/-- An ESMC PDU's QL on a port (R296). -/
def esmcReceived (p ql : Nat) (c : Chip) : Chip :=
  forEach (tkeys c.tim.ins) (fun i c =>
    if tapPort c i = some p && tapEsmc c i then
      updIn i (fun s => { s with rxQl := if 1 ≤ ql && ql ≤ 9 then ql else 9, esmcTick := now c }) c
    else c) c

/-- No PDU for 40,000 ticks (R296). -/
def esmcExpire (n i : Nat) (c : Chip) : Chip :=
  if tapEsmc c i && (getIn c i).esmcTick + 40000 ≤ n then updIn i (fun s => { s with rxQl := 0xB }) c else c

/-- Three seconds without a message that continues the accepted sequence (R293). -/
def todExpire (n i : Nat) (c : Chip) : Chip :=
  updIn i (fun s => if s.todOk && s.todTick + 24000 ≤ n then { s with todOk := false } else s) c

/-- A warning notice of an input (R319). -/
def warnNotice (i bit n : Nat) (clear : Bool) (c : Chip) : Chip :=
  timNotice 0x21 i bit (min (getIn c i).driftRun 0xFFF) n clear c

/-- One input's measurement at a second boundary (R299, R302): offset, warnings, hard verdict, phase jump. -/
def measureIn (n : Nat) (m : RefRep) (c : Chip) : Chip :=
  match inRec c m.input with
  | none => c
  | some r =>
    let off := m.offset - prediction c.tim.osc
    let a := off.natAbs
    let was := (getIn c m.input).soft
    let soft := if 100 * inSoft r < a then true else if a ≤ 90 * inSoft r then false else was
    let time := 8 ≤ m.input && (m.input ≤ 11 || inTime r)
    let c1 := updIn m.input (fun s => { s with
      offset := off, measured := s.measured || m.fullWindow, soft := soft,
      hard := if 100 * inHard r < a then true else if a ≤ 90 * inHard r then false else s.hard,
      secSum := s.secSum + off, secCnt := s.secCnt + 1,
      timeOffset := if time then m.timeOffset else 0,
      jump := inTime r && (match s.timePrev with | some v => 4000 < (m.timeOffset - v).natAbs | none => false),
      timePrev := some m.timeOffset }) c
    if soft = was then c1 else warnNotice m.input 0 n (!soft) c1

/-- Measurements at a second boundary, of inputs with activity (R299). -/
def measureAll (n : Nat) (l : List RefRep) (c : Chip) : Chip :=
  forEach l (fun m c => if (getIn c m.input).act then measureIn n m c else c) c

/-! ### Drift (R300) -/

/-- The sum and count of a run of minutes. -/
def minutesSum (l : List (Int × Nat)) : Int × Nat := l.foldl (fun a b => (a.1 + b.1, a.2 + b.2)) (0, 0)

/-- The own drift of an input in 0.0001 ppb/h, once 60 minutes stand since it entered QUALIFYING. -/
def ownDrift (n : Nat) (s : InSt) : Option Int :=
  let a := minutesSum (s.mins.take 10)
  let b := minutesSum ((s.mins.drop 50).take 10)
  if s.qualTick + 28800000 ≤ n && 60 ≤ s.mins.length && a.2 ≠ 0 && b.2 ≠ 0 then
    some (120 * (a.1 * b.2 - b.1 * a.2) / ((a.2 : Int) * b.2))
  else none

/-- Insert into an ascending list, repeats kept. -/
def insInt : List Int → Int → List Int
  | [], x => [x]
  | y :: t, x => if x ≤ y then x :: y :: t else y :: insInt t x

/-- The median; of an even count the mean of the middle two (R300). -/
def median (l : List Int) : Int :=
  let s := l.foldl insInt []
  let k := s.length
  if k % 2 = 1 then s.getD (k / 2) 0 else (s.getD (k / 2 - 1) 0 + s.getD (k / 2) 0) / 2

/-- One input's drift verdict at a minute boundary. -/
def driftIn (n i : Nat) (c : Chip) : Chip :=
  match inRec c i, (getIn c i).dRaw with
  | some r, some d0 =>
    let others := (tkeys c.tim.ins).filterMap (fun j => if j ≠ i && qualified c j then (getIn c j).dRaw else none)
    let d := if 2 ≤ others.length then d0 - median others else d0
    let lim := inDriftLim r * 1000
    let s := getIn c i
    let c1 := updIn i (fun s => { s with drift := d }) c
    if lim = 0 then c1
    else if !s.driftWarn && lim ≤ d.natAbs then
      warnNotice i 1 n false (updIn i (fun s => { s with driftWarn := true, driftRun := 1, driftTick := n }) c1)
    else if s.driftWarn && 10 * d.natAbs < 8 * lim then
      warnNotice i 1 n true (updIn i (fun s => { s with driftWarn := false, driftRun := 0, driftTick := 0 }) c1)
    else if s.driftWarn then updIn i (fun s => { s with driftRun := min 255 (s.driftRun + 1) }) c1
    else c1
  | _, _ => c

/-- The minute's offsets are put by and every input's drift is judged (R300). -/
def driftAll (n : Nat) (c : Chip) : Chip :=
  let c1 := forEach (tkeys c.tim.ins) (fun i => updIn i (fun s =>
    let t := { s with mins := (((s.secSum, s.secCnt) :: s.mins).take 60), secSum := 0, secCnt := 0 }
    { t with dRaw := ownDrift n t })) c
  forEach (tkeys c.tim.ins) (driftIn n) c1

/-! ### Input states (R302) -/

/-- The input fails a check, with its reason; 0 when all pass. -/
def checkIn (c : Chip) (i : Nat) : Nat :=
  let s := getIn c i
  match inRec c i with
  | none => 0
  | some r =>
    if s.hard then 2
    else if effQl c i = 9 || effQl c i = 0xB then 4
    else if 8 ≤ i && i ≤ 11 && inTime r && !s.todOk then 5
    else if s.jump then 6
    else if s.driftWarn && inDriftLim r ≠ 0 && timDqMin c ≠ 0 && timDqMin c ≤ s.driftRun then 3
    else 0

/-- An input enters a state with its notice (R302, R319). -/
def inGo (i st reason n : Nat) (c : Chip) : Chip :=
  timNotice 0x20 i st reason n false (updIn i (fun s => { s with status := st, reason := reason }) c)

/-- An input enters QUALIFYING. -/
def inQualify (i n : Nat) (c : Chip) : Chip :=
  inGo i inQualifying 0 n (updIn i (fun s => { s with qualLeft := timQualS c, qualTick := n, mins := [], secSum := 0, secCnt := 0, dRaw := none }) c)

/-- One input's state change at a boundary. -/
def inState1 (sec : Bool) (n : Nat) (i : Nat) (c : Chip) : Chip :=
  let s := getIn c i
  let why := checkIn c i
  if !s.act then (if s.status = inNoAct then c else inGo i inNoAct 1 n (updIn i (fun s => { s with measured := false, timePrev := none, jump := false }) c))
  else if s.status = inNoAct then inQualify i n c
  else if (s.status = inQualifying || s.status = inQualified) && why ≠ 0 then inGo i inDisq why n c
  else if s.status = inQualifying && sec then
    let left := s.qualLeft - 1
    let c1 := updIn i (fun s => { s with qualLeft := left }) c
    if left = 0 && s.measured then inGo i inQualified 0 n c1 else c1
  else if s.status = inDisq && sec && why = 0 then inQualify i n c
  else c

/-- Steps 2 to 5 of R308 for every input; the measurements come at second boundaries, drift at minutes. -/
def inputsBoundary (sec min_ : Bool) (n : Nat) (refs : List RefRep) (c : Chip) : Chip :=
  let ids := tkeys c.tim.ins
  let c1 := forEach ids (fun i c => if 16 ≤ i then setActive i true (tapMove i c) else c) c
  let c2 := forEach ids (fun i c => todExpire n i (esmcExpire n i c)) c1
  let c3 := when sec (measureAll n refs) c2
  let c4 := when min_ (driftAll n) c3
  forEach ids (inState1 sec n) c4

/-- A `REF_STAT` entry with its sequence (R317). -/
def refWord (c : Chip) (i seq : Nat) : BitVec 256 :=
  let s := getIn c i
  BitVec.ofNat 256 (packN [(16, seq), (64, s.driftTick), (32, ofSigned 32 (clampInt (-2147483648) 2147483647 s.offset)),
    (16, ofSigned 16 (clampInt (-32768) 32767 (s.drift / 1000))), (32, ofSigned 32 (clampInt (-2147483648) 2147483647 s.timeOffset)),
    (4, effQl c i), (4, s.rxQl), (3, s.status), (4, s.reason), (1, bnat s.soft), (1, bnat s.driftWarn), (1, bnat s.todOk),
    (8, s.driftRun), (8, s.qualLeft), (3, if 16 ≤ i then s.tapLane else 0), (43, 0), (16, seq)])

/-! ### Commit (R302, R320) -/

/-- An input's record restarts it (R320). -/
def inRestarts (a b : Rec) : Bool :=
  inEnable a ≠ inEnable b || inNominal a ≠ inNominal b || inTap a ≠ inTap b || inTime a ≠ inTime b

/-- Inputs at the commit at boundary n. -/
def inputsAtCommit (old : Image) (n : Nat) (c : Chip) : Chip :=
  forEach ((upto 48).filter (fun i => i < 12 || 16 ≤ i)) (fun i c =>
    let r := (inRec c i).filter inEnable
    let o := (old.getRec 6 (0x100 + i)).filter inEnable
    match r with
    | none =>
      if (c.tim.ins.lookup i).isSome then
        timNotice 0x20 i 0 0 n false (setTim { c.tim with ins := tdel c.tim.ins i } c)
      else c
    | some a =>
      match o, c.tim.ins.lookup i with
      | some b, some _ => if inRestarts b a then timNotice 0x20 i inNoAct 0 n false (setTim { c.tim with ins := tput c.tim.ins i { inDflt with status := inNoAct, esmcTick := n } } c) else c
      | _, _ => timNotice 0x20 i inNoAct 0 n false (setTim { c.tim with ins := tput c.tim.ins i { inDflt with status := inNoAct, esmcTick := n } } c)) c

/-! ### Commands -/

/-- Time-of-day bytes are a message of R350: 16 bytes, its head and its check. -/
def todValid (m : List Byte) : Bool :=
  m.length = 16 && m.headD 0 = 0x53 && (m.drop 1).headD 0 = 0x4B && (m.drop 2).headD 0 = 1 &&
  m.foldl (fun a b => a ^^^ b) 0 = 0

/-- TOD_MESSAGE_RECEIVED (R293). -/
def execTodMessageReceived (i : Nat) (m : List Byte) (s : State) : Host.Outcome State Fault Refusal :=
  .next (onChip (fun c =>
    if onImage c && 8 ≤ i && i ≤ 11 && todValid m then
      updIn i (fun s =>
        let sec := beNat ((m.drop 4).take 6)
        let cont : Bool := match s.todLast with | some l => sec = l + max 1 s.todPulses | none => false
        let run := if s.todLast = some (sec - 1) && 0 < sec then min 3 (s.todRun + 1) else 0
        let ok := s.todOk || run = 3
        let flags := ((m.drop 3).headD 0).toNat
        { s with todLast := some sec, todRun := run, todPulses := 0, todOk := ok, todTick := if cont then now c else s.todTick, todFresh := true, utc := BitVec.ofNat 16 (beNat ((m.drop 10).take 2)), leap := BitVec.ofNat 2 (flags / 4 % 4) }) c
    else c) s)

/-- TOD_TIMEOUT (R293). -/
def execTodTimeout (i : Nat) (s : State) : Host.Outcome State Fault Refusal :=
  .next (onChip (fun c => when (onImage c) (todExpire (now c) i) c) s)

/-- ESMC_TIMEOUT (R296). -/
def execEsmcTimeout (i : Nat) (s : State) : Host.Outcome State Fault Refusal :=
  .next (onChip (fun c => when (onImage c) (esmcExpire (now c) i) c) s)

/-- INPUT_ACTIVITY (R298): the state changes at the next boundary (R308). -/
def execInputActivity (i : Nat) (s : State) : Host.Outcome State Fault Refusal :=
  .next (onChip (fun c => when (onImage c) (setActive i true) c) s)

/-- DRIFT_EVALUATION (R300): at a minute boundary, an input's verdict, unless it stands already. -/
def execDriftEvaluation (i : Nat) (s : State) : Host.Outcome State Fault Refusal :=
  .next (onChip (fun c =>
    if onImage c && now c % 480000 = 0 && now c ≠ 0 && !(isDone 4 c) then driftIn (now c) i c else c) s)

/-- OSC_TEMP_READ (R303): three failed reads in a row set `TEMP_FAIL`, ten good ones clear it. -/
def oscTempRead (t : Option Int) (c : Chip) : Chip :=
  let o := c.tim.osc
  match t with
  | none =>
    let b := min 3 (o.badReads + 1)
    let c1 := setOsc { o with badReads := b, goodReads := 0, tempFail := o.tempFail || b = 3 } c
    if b = 3 && !o.tempFail then timNotice 0x25 0 1 0 (now c) false c1 else c1
  | some v =>
    let g := min 10 (o.goodReads + 1)
    let c1 := setOsc { o with badReads := 0, goodReads := g, temp := v, tempFail := o.tempFail && g ≠ 10 } c
    if g = 10 && o.tempFail then timNotice 0x25 0 1 0 (now c) true c1 else c1

def execOscTempRead (t : Option Int) (s : State) : Host.Outcome State Fault Refusal :=
  .next (onChip (fun c => when (awake c) (oscTempRead t) c) s)

/-- T0_SYNTH_UNLOCK (R303). -/
def execT0SynthUnlock (s : State) : Host.Outcome State Fault Refusal :=
  .next (onChip (fun c => when (awake c) (setOsc { c.tim.osc with unlock := some (now c) }) c) s)

/-- T0_SYNTH_RELOCK (R303). -/
def execT0SynthRelock (s : State) : Host.Outcome State Fault Refusal :=
  .next (onChip (fun c => when (awake c) (setOsc { c.tim.osc with unlock := none }) c) s)

/-- Loss of T0 (R303). -/
def t0Lost (c : Chip) : Bool := c.tim.osc.fail || c.tim.osc.unlock.isSome

end Sys2Proof.Machine
end

