-- ==== Sys2Proof/Machine/Dpll.lean ====
section
/-!
DEFINITION. DPLLs (R304 to R320), holdover (R321 to R333) and the learning of the oscillator models (R328, R329).
-/
namespace Sys2Proof.Machine
open Sys2Proof

/-! ### Access -/

def noInput : Nat := 0x3F
def dpFree : Nat := 0
def dpAcq : Nat := 1
def dpLocked : Nat := 2
def dpHold : Nat := 3
def dpLost : Nat := 4

def dpDflt : DpSt := { state := 0, sel := 0x3F, host := 0x3F, cmd := 0, aside := [], conf := none, wtr := none, stateTick := 0, buildOut := 0, phaseErr := 0, rate := 0, ffo := 0, span := none, pulling := false, pullNext := false, fromSw := false, lockFrom := none, badFrom := none, hoReady := false, lastTicks := [], secs := [], secSum := 0, secCnt := 0, minSum := 0, minCnt := 0, minTemp := 0, minOk := true, period := 0, ring := [], warns := [], ho := none }

def getDp (c : Chip) (d : Nat) : DpSt := (c.tim.dps.lookup d).getD dpDflt

/-- A DPLL that runs is changed. -/
def updDp (d : Nat) (f : DpSt → DpSt) (c : Chip) : Chip :=
  match c.tim.dps.lookup d with
  | some x => setTim { c.tim with dps := tput c.tim.dps d (f x) } c
  | none => c

/-- The record in force of a DPLL (R517). -/
def dpRec (c : Chip) (d : Nat) : Rec := dpllRec (theImage c) d

/-- T1 is in SOFTWARE mode. -/
def dpSw (c : Chip) (d : Nat) : Bool := d = 1 && c.tim.t1.swMode

/-- T1 in SOFTWARE mode follows software: its watchdog has not expired. -/
def dpSoft (c : Chip) (d : Nat) : Bool := dpSw c d && !c.tim.t1.expired

def inOffset (c : Chip) (i : Nat) : Int := (getIn c i).offset

/-- Two offsets differ by more than a threshold in ppb. -/
def apart (a b : Int) (ppb : Nat) : Bool := 100 * ppb < (a - b).natAbs

/-- Two offsets lie within 0.8 of a threshold. -/
def close8 (a b : Int) (ppb : Nat) : Bool := (a - b).natAbs ≤ 80 * ppb

/-- An input carries time to T1 (R293, R315). -/
def timeRef (c : Chip) (d i : Nat) : Bool := d = 1 && (match inRec c i with | some r => inTime r | none => false)

/-- Lock time of a bandwidth step in ticks (R311). -/
def lockTicks (bw : Nat) : Nat :=
  ([3000, 1000, 300, 100, 30, 10, 3].getD bw 1) * 8000

/-! ### The baseline (R323, R324) -/

def minTicks : Nat := 480000

/-- Usable records taken for a baseline: those of the span, or as many further back as make half the span (R323). -/
def spanRecords (span e : Nat) (ring : List MinRec) : List MinRec :=
  let good := ring.filter (fun r => r.usable && r.fin ≤ e)
  let inside := good.filter (fun r => e ≤ r.fin + span * minTicks - minTicks)
  let least := (span + 1) / 2
  if least ≤ inside.length then inside else good.take least

/-- A record's value freed from temperature and age. -/
def recValue (o : OscSt) (r : MinRec) : Int := r.ctl + termT o r.temp + termA o r.hours

/-- Integer square root by bisection on bits. -/
def isqrtFrom : Nat → Nat → Nat → Nat
  | 0, _, r => r
  | k + 1, n, r => let t := r + 2 ^ k; isqrtFrom k n (if t * t ≤ n then t else r)
def isqrt (n : Nat) : Nat := isqrtFrom (n.log2 / 2 + 1) n 0

def sumInt (l : List Int) : Int := l.foldl (· + ·) 0

/-- The baseline of a holdover at boundary h (R323, R330), none where the records do not suffice. -/
def baseline (c : Chip) (d h : Nat) : Option HoSt :=
  let x := getDp c d
  let r := dpRec c d
  let g := dpGuard r * minTicks
  let l := dpSpan r * minTicks
  let e0 := (h - g) / minTicks * minTicks
  let w := (x.warns.filter (fun w => h ≤ w + l + g && w < e0)).foldl (fun m w => match m with | none => some w | some v => some (min v w)) none
  let e := w.getD e0
  let use := spanRecords (dpSpan r) e x.ring
  if use = [] || use.length < (dpSpan r + 1) / 2 || h < g then none
  else
    let n := use.length
    let vals := use.map (recValue c.tim.osc)
    let b := sumInt vals / n
    let sq := (vals.map (fun v => (v - b) * (v - b))).foldl (fun a v => a + v.toNat) 0
    let ub := max 10000 (if n ≤ 1 then 0 else isqrt (sq / ((n - 1) * n)))
    some { h := h, e := e, base := b, ub := ub, thB := sumInt (use.map (·.temp)) / n, used := n, ext := w.isSome, p0 := if d = 1 then x.phaseErr.natAbs * 250000 else 0, tsum := 0, pred := 0 }

/-- `HO_READY` as R324 gives it at boundary n. -/
def readyAt (c : Chip) (d n : Nat) : Bool := !c.tim.osc.fail && (baseline c d n).isSome

def refreshReady (n : Nat) (c : Chip) : Chip := forEach (tkeys c.tim.dps) (fun d c => updDp d (fun x => { x with hoReady := readyAt c d n }) c) c

/-! ### State changes (R310) -/

/-- A DPLL enters a state with its notices (R319, R352). -/
def dpGo (d st n : Nat) (c : Chip) : Chip :=
  let x := getDp c d
  if st = x.state then c
  else
    let leaves := (x.state = dpHold || x.state = dpLost) && st ≠ dpHold && st ≠ dpLost
    let c1 := when leaves (timNotice 0x27 d 0 0 n true) c
    let c2 := updDp d (fun x => { x with state := st, stateTick := n, lockFrom := none, badFrom := none, period := if st = dpAcq then x.period + 1 else x.period }) c1
    timNotice 0x22 d st (getDp c2 d).sel n false c2

/-- The mean frequency of the last 8,000 ticks (R313). -/
def meanTicks (x : DpSt) : Int := if x.lastTicks = [] then x.ffo else sumInt x.lastTicks / x.lastTicks.length

/-- The mean frequency of the last seconds (R307). -/
def meanSecs (x : DpSt) (k : Nat) : Int :=
  let l := x.secs.take k
  if l = [] then x.ffo else sumInt l / l.length

/-- The control value of a holdover (R325). -/
def hoControl (c : Chip) (h : HoSt) : Int := h.base - termT c.tim.osc c.tim.osc.temp - termA c.tim.osc c.tim.osc.hours

/-- A DPLL enters HOLDOVER at boundary n on its baseline, or for a conflict without one on the frequency of the last 60 s
(R323, R325, R307). -/
def enterHold (d n : Nat) (c : Chip) : Chip :=
  let x := getDp c d
  let c0 := updDp d (fun x => { x with sel := noInput, span := none, pulling := false, pullNext := false }) c
  let b : HoSt := match if x.hoReady then baseline c d n else none with
    | some b => b
    | none =>
      let f := meanSecs x 60
      { h := n, e := 0, base := f + termT c.tim.osc c.tim.osc.temp + termA c.tim.osc c.tim.osc.hours, ub := 10000, thB := c.tim.osc.temp, used := 0, ext := false, p0 := if d = 1 then x.phaseErr.natAbs * 250000 else 0, tsum := 0, pred := 0 }
  let b1 : HoSt := { b with pred := b.p0 }
  let c1 := updDp d (fun x => { x with ho := some b1, ffo := hoControl c b1 }) c0
  timNotice 0x27 d 0 (b1.pred / 1000000 % 65536 + 131072 * bnat b1.ext) n false (dpGo d dpHold n c1)

/-- A DPLL has no reference any more: HOLDOVER when ready, else FREE_RUN (R305, R310). -/
def dpNone (d n : Nat) (c : Chip) : Chip :=
  if (getDp c d).hoReady then enterHold d n c
  else dpGo d dpFree n (updDp d (fun x => { x with sel := noInput, span := none, pulling := false, pullNext := false, ffo := 0 }) c)

/-- Ticks of the measurement span of a switch to an input (R314). -/
def spanTicks (c : Chip) (i : Nat) : Nat :=
  match inRec c i with
  | some r => if 16 ≤ i || inNominal r = 0 then 16 else max 16 (ceilDiv 16000 (inNominal r))
  | none => 16

/-- A DPLL takes an input at boundary n for a reason of R319 (R310, R314, R315). -/
def dpSwitch (d i why n : Nat) (c : Chip) : Chip :=
  let x := getDp c d
  let was := x.state
  let fresh := was = dpFree || was = dpLost
  let near := !(apart (inOffset c i) (x.ffo / 10000) (dpConflict (dpRec c d)))
  let steps := fresh && timeRef c d i
  let c1 := timNotice 0x23 d why (64 * x.sel + i) n false c
  let c2 := updDp d (fun x => { x with
    sel := i, wtr := if i = x.host then none else x.wtr,
    span := if steps then none else some (n + spanTicks c i),
    pulling := false, pullNext := timeRef c d i && !fresh, fromSw := false,
    buildOut := if steps then 0 else x.buildOut, period := x.period + 1, lockFrom := none, badFrom := none,
    ffo := if fresh then inOffset c i * 10000 else x.ffo }) c1
  let c3 := when (d = 1) (fun c => setTim { c.tim with t1 := { c.tim.t1 with stepTo := if steps then some i else none } } c) c2
  dpGo d (if (was = dpAcq || was = dpLocked) && near && !x.fromSw then dpLocked else dpAcq) n c3

/-! ### Conflicts (R307) -/

/-- Votes of the arbiters for R less those for X. -/
def votes (c : Chip) (r x ppb : Nat) : Int :=
  (qualifiedList c).foldl (fun v a =>
    if a = r || a = x then v
    else
      let nr := !(apart (inOffset c a) (inOffset c r) ppb)
      let nx := !(apart (inOffset c a) (inOffset c x) ppb)
      if nr && !nx then v + 1 else if nx && !nr then v - 1 else v) 0

def setAside (d i : Nat) (c : Chip) : Chip := updDp d (fun x => { x with aside := tput x.aside i 0 }) c

/-- A conflict is raised. -/
def raiseConflict (d r x n : Nat) (warn : Bool) (c : Chip) : Chip :=
  timNotice 0x24 d (bnat warn) (64 * r + x) n false (updDp d (fun s => { s with conf := some { r := r, x := x, warn := warn, near := 0 } }) c)

/-- A conflict clears. -/
def clearConflict (d n : Nat) (c : Chip) : Chip :=
  match (getDp c d).conf with
  | some k => timNotice 0x24 d (bnat k.warn) (64 * k.r + k.x) n true (updDp d (fun s => { s with conf := none }) c)
  | none => c

/-- Inputs set aside return after 10 seconds near the winner, or when the DPLL has none (R307). -/
def asideStep (d : Nat) (c : Chip) : Chip :=
  let x := getDp c d
  let ppb := dpConflict (dpRec c d)
  let l := x.aside.filterMap (fun e =>
    if !(qualified c x.sel) then none
    else
      let k := if qualified c e.1 && close8 (inOffset c e.1) (inOffset c x.sel) ppb then e.2 + 1 else 0
      if 10 ≤ k then none else some (e.1, k))
  updDp d (fun s => { s with aside := l }) c

/-- An open conflict is evaluated again. -/
def conflictOpen (d n : Nat) (k : ConfSt) (c : Chip) : Chip :=
  let ppb := dpConflict (dpRec c d)
  if !(qualified c k.r) || !(qualified c k.x) then clearConflict d n c
  else
    let near := if close8 (inOffset c k.r) (inOffset c k.x) ppb then k.near + 1 else 0
    let v := if apart (inOffset c k.r) (inOffset c k.x) ppb then votes c k.r k.x ppb else 0
    if v > 0 then
      let c1 := setAside d k.x (clearConflict d n c)
      if (getDp c1 d).sel = k.r then c1 else dpSwitch d k.r 3 n c1
    else if v < 0 && !k.warn then
      let c1 := setAside d k.r (clearConflict d n c)
      if (getDp c1 d).sel = k.x then c1 else dpSwitch d k.x 3 n c1
    else if 10 ≤ near then clearConflict d n c
    else updDp d (fun s => { s with conf := some { k with near := near } }) c

/-- The selected reference against one other input of its priority. -/
def conflictPair (d n r x : Nat) (c : Chip) : Chip :=
  let s := getDp c d
  let ppb := dpConflict (dpRec c d)
  if s.sel ≠ r || s.conf.isSome || !(apart (inOffset c r) (inOffset c x) ppb) then c
  else
    let v := votes c r x ppb
    if v > 0 then setAside d x c
    else if v < 0 then dpSwitch d x 3 n (setAside d r c)
    else enterHold d n (raiseConflict d r x n false c)

/-- Step 6 of R308 for one DPLL. -/
def conflictStep (d n : Nat) (c : Chip) : Chip :=
  if dpSw c d then c
  else
    let c1 := asideStep d c
    let s := getDp c1 d
    match s.conf with
    | some k => conflictOpen d n k c1
    | none =>
      if (s.state = dpAcq || s.state = dpLocked) && qualified c1 s.sel then
        let l := (qualifiedList c1).filter (fun x => x ≠ s.sel && eligible c1 d x && (s.aside.lookup x).isNone && inPrioOf c1 x = inPrioOf c1 s.sel)
        forEach l (conflictPair d n s.sel) c1
      else c1

/-! ### Selection (R304 to R306) -/

/-- An input may be selected: qualified, eligible, not set aside. -/
def mayTake (c : Chip) (d i : Nat) : Bool := qualified c i && eligible c d i && ((getDp c d).aside.lookup i).isNone

/-- The lowest priority number among the inputs that may be taken, and those that have it, ascending. -/
def bestInputs (c : Chip) (d : Nat) : List Nat :=
  let l := (qualifiedList c).filter (mayTake c d)
  let p := l.foldl (fun m i => min m (inPrioOf c i)) 16
  l.filter (fun i => inPrioOf c i = p)

/-- The conflict rule among equal top candidates (R305, R307): the one that stays with those set aside, or a pair that no
vote decides. -/
def amongEqual (c : Chip) (ppb : Nat) : List Nat → Nat → List Nat → Nat × List Nat × Option (Nat × Nat)
  | [], r, out => (r, out, none)
  | x :: t, r, out =>
    if apart (inOffset c r) (inOffset c x) ppb then
      let v := votes c r x ppb
      if v > 0 then amongEqual c ppb t r (x :: out)
      else if v < 0 then amongEqual c ppb t x (r :: out)
      else (r, out, some (r, x))
    else amongEqual c ppb t r out

/-- The DPLL selects another input under R305, or has none. -/
def fallback (d n : Nat) (c : Chip) : Chip :=
  let x := getDp c d
  let have_ := x.state = dpAcq || x.state = dpLocked
  match bestInputs c d with
  | [] => if have_ then dpNone d n c else c
  | r :: t =>
    let z := amongEqual c (dpConflict (dpRec c d)) t r []
    let c1 := forEach z.2.1 (setAside d) c
    match z.2.2 with
    | some p =>
      let c2 := raiseConflict d p.1 p.2 n false c1
      if (getDp c2 d).state = dpHold || (getDp c2 d).state = dpLost then c2 else enterHold d n c2
    | none =>
      let why : Nat := if z.2.1 ≠ [] then 3 else if z.1 = x.host then 2 else if x.cmd = 2 then 4 else 1
      dpSwitch d z.1 why n c1

/-- The selection command has been carried out. -/
def selectDone (d : Nat) (c : Chip) : Chip := updDp d (fun x => { x with cmd := 0 }) c

/-- The reason that the notice of a switch to the host's choice gives (R319): `REF_SELECT`, a commit, else its return. -/
def selectWhy (x : DpSt) : Nat := if x.cmd = 2 then 4 else if x.cmd = 1 then 0 else 2

/-- The host's choice may be taken (R304, R305). -/
def selectHostOk (c : Chip) (d : Nat) : Bool :=
  let x := getDp c d
  x.host ≠ noInput && qualified c x.host && eligible c d x.host && ((x.aside.lookup x.host).isNone || x.cmd ≠ 0)

/-- The input in use stays, unless the host's choice is due: at once, or as its wait to restore ends (R304). -/
def selectStay (d n : Nat) (hostOk : Bool) (c : Chip) : Chip :=
  let x := getDp c d
  if !hostOk || x.host = x.sel then selectDone d (updDp d (fun x => { x with wtr := none }) c)
  else if x.cmd ≠ 0 then selectDone d (dpSwitch d x.host (selectWhy x) n c)
  else
    let left : Nat := match x.wtr with
      | none => dpWtr (dpRec c d)
      | some w => if n % 8000 = 0 then w - 1 else w
    if left = 0 then selectDone d (dpSwitch d x.host 2 n c) else selectDone d (updDp d (fun x => { x with wtr := some left }) c)

/-- No input in use stays: the host's choice where it may be taken and is due, else the fallback (R304, R305). -/
def selectTake (d n : Nat) (hostOk have_ : Bool) (c : Chip) : Chip :=
  let x := getDp c d
  let wtrUp : Bool := match x.wtr with | some w => w ≤ 1 && n % 8000 = 0 | none => false
  if hostOk && (!have_ || x.cmd ≠ 0 || wtrUp || x.fromSw) then selectDone d (dpSwitch d x.host (selectWhy x) n c)
  else selectDone d (fallback d n c)

/-- Step 8 of R308: selection and wait-to-restore of one DPLL. -/
def selectStep (d n : Nat) (c0 : Chip) : Chip :=
  if dpSw c0 d then selectDone d c0
  else
    let left : Bool := match (getDp c0 d).conf with | some k => !(qualified c0 k.r) || !(qualified c0 k.x) | none => false
    let c := when left (clearConflict d n) c0
    let x := getDp c d
    if (match x.conf with | some k => !k.warn | none => false) then selectDone d c
    else
      let have_ : Bool := x.state = dpAcq || x.state = dpLocked
      let hostOk := selectHostOk c d
      let c1 := when (!hostOk) (updDp d (fun x => { x with wtr := none })) c
      if have_ && mayTake c1 d x.sel then selectStay d n hostOk c1 else selectTake d n hostOk have_ c1

/-! ### REF_SELECT (R304) -/

/-- The command that waits for this boundary. -/
def refWaiting (c : Chip) (n : Nat) : Option (Nat × Nat) :=
  match mbHolds 0x030 c with
  | some k => if k.accept < n && c.mb.held = none then some (bits k.p0 0 2, bits k.p0 16 6) else none
  | none => none

/-- Whether the command is refused, with its result (R304). -/
def refRefused (c : Chip) (d i : Nat) : Option Nat :=
  if dpSw c d then some 3 else if i ≠ noInput && !(eligible c d i) then some 2 else none

/-- Step 7 of R308: the choice is recorded; a choice within an open conflict keeps R as a warning (R307). -/
def refTake (n : Nat) (c : Chip) : Chip :=
  match refWaiting c n with
  | none => c
  | some (d, i) =>
    match refRefused c d i with
    | some _ => c
    | none =>
      if i ≠ noInput && i = (getDp c d).sel then c
      else
        let c1 := updDp d (fun x => { x with wtr := if x.host = i then x.wtr else none, host := i, cmd := if i = noInput then 0 else 1 }) c
        match (getDp c1 d).conf with
        | some k =>
          if k.warn || !(qualified c1 i) then c1
          else
            let c2 := clearConflict d n c1
            if i = k.r then raiseConflict d k.r k.x n true c2
            else if i = k.x then raiseConflict d k.x k.r n true c2 else c2
        | none => c1

/-- The reply after the boundary's selection (R304). -/
def refReply (w : Option (Nat × Nat)) (res : Option Nat) (c : Chip) : Chip :=
  match w with
  | none => c
  | some (d, i) =>
    mbCode (match res with | some r => r | none => if i = noInput || (getDp c d).sel = i then 0 else 1) c

/-! ### Lock (R310, R311) -/

/-- Lock and its loss at a boundary, from the phase error and its rate. -/
def lockStep (d n : Nat) (c : Chip) : Chip :=
  let x := getDp c d
  if dpSw c d || x.span.isSome then c
  else if x.state = dpAcq then
    if x.phaseErr.natAbs ≤ 200 && x.rate.natAbs ≤ 10 then
      let from_ := x.lockFrom.getD n
      let c1 := updDp d (fun x => { x with lockFrom := some from_ }) c
      if from_ + lockTicks (dpBw (dpRec c d)) ≤ n then dpGo d dpLocked n c1 else c1
    else updDp d (fun x => { x with lockFrom := none }) c
  else if x.state = dpLocked then
    if 4000 < x.phaseErr.natAbs then
      let from_ := x.badFrom.getD n
      let c1 := updDp d (fun x => { x with badFrom := some from_ }) c
      if from_ + 8000 ≤ n then dpGo d dpAcq n c1 else c1
    else updDp d (fun x => { x with badFrom := none }) c
  else c

/-- A pull reduces `BUILD_OUT` toward 0 by `SLOPE` in each second (R315). -/
def pullStep (d n : Nat) (c : Chip) : Chip :=
  let x := getDp c d
  if n % 8000 = 0 && x.pulling then
    let k : Int := dpSlope (dpRec c d) * 100
    let b := if x.buildOut.natAbs ≤ k.natAbs then 0 else if x.buildOut > 0 then x.buildOut - k else x.buildOut + k
    updDp d (fun x => { x with buildOut := b, pulling := b ≠ 0 }) c
  else c

/-! ### Records (R322) -/

/-- A DPLL's frequency as reported for the tick that ends: the loop's, or what R310, R325 and R341 fix. -/
def tickFfo (c : Chip) (d : Nat) (rep : Option LoopRep) : Int :=
  let x := getDp c d
  if dpSoft c d then x.ffo
  else if x.state = dpFree then 0
  else if x.state = dpHold || x.state = dpLost then x.ffo
  else if (getIn c x.sel).open_ || x.span.isSome then x.ffo
  else match rep with | some r => r.ffo | none => x.ffo

/-- The tick was one that R322 calls usable. -/
def tickUsable (c : Chip) (d : Nat) : Bool :=
  let x := getDp c d
  (if dpSw c d then c.tim.t1.swLocked && !c.tim.t1.expired else x.state = dpLocked) && !x.pulling && x.span.isNone &&
  !c.tim.osc.fail && !c.tim.osc.tempFail && !(tfBusy c)

/-- What the tick that ends adds to a DPLL's measures. -/
def dpMeasure (loops : List LoopRep) (d : Nat) (c : Chip) : Chip :=
  let rep := loops.find? (fun r => r.dpll = d)
  let f := tickFfo c d rep
  let ok := tickUsable c d
  let closed := !((getIn c (getDp c d).sel).open_) && (getDp c d).span.isNone
  let th := c.tim.osc.temp
  updDp d (fun x => { x with
    ffo := f, phaseErr := match rep with | some r => if closed then r.phaseErr else x.phaseErr | none => x.phaseErr,
    rate := match rep with | some r => if closed then r.rate else x.rate | none => x.rate,
    lastTicks := (f :: x.lastTicks).take 8000, secSum := x.secSum + f, secCnt := x.secCnt + 1, minSum := x.minSum + f, minCnt := x.minCnt + 1,
    minTemp := x.minTemp + th, minOk := x.minOk && ok }) c

/-- A second's mean frequency is put by. -/
def dpSecond (d : Nat) (c : Chip) : Chip :=
  updDp d (fun x => { x with secs := ((if x.secCnt = 0 then x.ffo else x.secSum / x.secCnt) :: x.secs).take 60, secSum := 0, secCnt := 0 }) c

/-- The minute record of a DPLL at boundary n (R322): only for a minute that has ticks. -/
def minuteRecord (n d : Nat) (c : Chip) : Chip :=
  let h := c.tim.osc.hours
  updDp d (fun x =>
    if x.minCnt = 0 then x
    else { x with ring := ({ fin := n, ctl := x.minSum / x.minCnt, temp := x.minTemp / x.minCnt, usable := x.minOk, hours := h, period := x.period } :: x.ring).take 4096, minSum := 0, minCnt := 0, minTemp := 0, minOk := true }) c

/-- Drift ticks of the selected input are kept for the guard (R323). -/
def warnStep (d : Nat) (c : Chip) : Chip :=
  let s := getIn c (getDp c d).sel
  if s.driftWarn then updDp d (fun x => { x with warns := if x.warns.contains s.driftTick then x.warns else (s.driftTick :: x.warns).take 4096 }) c
  else c

/-! ### Predicted error and LOST (R330, R331) -/

/-- The rate of the temperature term of P in fs per second. -/
def predTemp (o : OscSt) (thB : Int) : Nat :=
  let span := (o.hi - o.lo).natAbs
  let k : Nat := if !o.tempValid || span = 0 then 1000 else o.rms * 2 / span
  let out := o.tempValid && (o.temp < o.lo || o.hi < o.temp)
  (if out then 4 else 1) * k * (o.temp - thB).natAbs

/-- P at a second boundary (R330), and the control value recomputed (R325). -/
def holdStep (d n : Nat) (c : Chip) : Chip :=
  let x := getDp c d
  match x.ho with
  | none => c
  | some h =>
    if n % 8000 ≠ 0 || !(x.state = dpHold || x.state = dpLost) || n ≤ h.h then c
    else
      let o := c.tim.osc
      let t := (n - h.h) / 8000
      let ua := if o.ageValid then o.ua else 116
      let ts := h.tsum + predTemp o h.thB
      let h1 : HoSt := { h with tsum := ts, pred := h.p0 + h.ub * t + ua * t * t / 20 + ts }
      updDp d (fun x => { x with ho := some h1, ffo := hoControl c h1 }) c

/-- P lies beyond the bound (R331). -/
def lostOnP (c : Chip) (d n : Nat) (h : HoSt) : Bool :=
  n % 8000 = 0 && dpLostNs (dpRec c d) ≠ 0 && dpLostNs (dpRec c d) * 1000000 < h.pred

/-- The day limit is reached (R331). -/
def lostOnDays (c : Chip) (d n : Nat) (h : HoSt) : Bool := h.h + dpLostDays (dpRec c d) * 691200000 ≤ n

/-- The LOST verdict (R331, R353). -/
def lostStep (d n : Nat) (c : Chip) : Chip :=
  let x := getDp c d
  match x.ho with
  | none => c
  | some h =>
    if x.state ≠ dpHold then c
    else if lostOnP c d n h || lostOnDays c d n h then
      timNotice 0x27 d (if lostOnP c d n h then 1 else 2) (min (h.pred / 1000000) 0xFFFF) n false (dpGo d dpLost n c)
    else c

/-! ### Learning (R326 to R329) -/

/-- Learning records not yet learned at hour boundary n: usable ones of T0, and of T1 for minutes in which T0's is not usable, after the
first 60 minutes (R328); those of an hour whose refit was skipped (R400) are learned at the next. -/
def learnRecords (n : Nat) (c : Chip) : List MinRec :=
  let new (r : MinRec) : Bool := c.tim.osc.learnTo < r.fin && r.fin ≤ n && 28800000 < r.fin && r.usable
  let t0 := (getDp c 0).ring.filter new
  let t1 := (getDp c 1).ring.filter (fun r => new r && !(t0.any (fun q => q.fin = r.fin)))
  (t0 ++ t1).reverse

/-- One learning record. -/
def learn (o : OscSt) (r : MinRec) : OscSt :=
  { o with sums := Config.fitAdd o.sums r.ctl r.temp r.hours r.period, lo := if o.count = 0 then r.temp else min o.lo r.temp, hi := if o.count = 0 then r.temp else max o.hi r.temp, firstH := if o.count = 0 then r.hours else o.firstH, lastH := r.hours, count := o.count + 1 }

/-- The order of the temperature model by the span of the learning data (R326). -/
def fitOrder (span : Int) : Nat := if span < 100 then 0 else if span < 400 then 1 else if span < 1000 then 2 else 3

/-- The models refitted (R326, R327). -/
def refit (o : OscSt) : OscSt :=
  let order := fitOrder (o.hi - o.lo)
  let age : Nat := if o.lastH - o.firstH < 72 then 0 else if o.lastH - o.firstH < 720 then 1 else 2
  let v (k : Nat) : Int := Config.fitTerm o.sums order age o.hours k
  { o with order := order, k1 := if 1 ≤ order then v 0 else 0, k2 := if 2 ≤ order then v 1 else 0, k3 := if 3 ≤ order then v 2 else 0, ageA := if 1 ≤ age then v 3 else 0, ageB := if 2 ≤ age then v 4 else 0, rms := (v 5).natAbs, ua := (v 6).natAbs, tempValid := 1 ≤ order && 360 ≤ o.count, ageValid := 1 ≤ age }

/-- The `HO_MODEL` entry with its sequence (R334). -/
def modelWord (o : OscSt) (seq : Nat) : BitVec 256 :=
  BitVec.ofNat 256 (packN [(16, seq), (32, ofSigned 32 o.k1), (32, ofSigned 32 o.k2), (32, ofSigned 32 o.k3),
    (32, ofSigned 32 o.ageA), (32, ofSigned 32 o.ageB), (24, o.hours), (4, o.order), (1, bnat o.ageValid), (1, bnat o.tempValid),
    (10, min ((o.hi - o.lo).toNat / 10) 1023), (24, 0), (16, seq)])

/-- The refit (R326 to R328) at n. -/
def refitStep (n : Nat) (c : Chip) : Chip :=
  let o := c.tim.osc
  let o1 := refit o
  let c1 := setTim { c.tim with osc := o1, modelPub := modelWord o1 n, refitDue := false } c
  let c2 := when (o1.tempValid && !o.tempValid) (timNotice 0x28 0 0 o1.order n false) c1
  when (o1.ageValid && !o.ageValid) (timNotice 0x28 0 1 o1.order n false) c2

/-- A refit that a throttle has deferred runs when the throttle has ended (R469). -/
def refitLate (n : Nat) (c : Chip) : Chip := when (c.tim.refitDue && c.power.throt = []) (refitStep n) c

/-- An hour boundary (R327, R328, R469): `OSC_HOURS`, the learning records, and the refit unless a throttle defers it. -/
def hourStep (n : Nat) (c : Chip) : Chip :=
  let o := c.tim.osc
  let c1 := setTim { c.tim with osc := (learnRecords n c).foldl learn { o with hours := o.hours + 1, learnTo := n } } c
  if c.power.throt = [] then refitStep n c1 else setTim { c1.tim with refitDue := true } c1

/-- HO_RESET at its boundary (R329): the models, their sums and `OSC_HOURS` are cleared. -/
def hoClear (n : Nat) (c : Chip) : Chip :=
  let o := c.tim.osc
  let o1 : OscSt := { o with sums := 0, lo := 0, hi := 0, count := 0, firstH := 0, lastH := 0, hours := 0, k1 := 0, k2 := 0, k3 := 0, ageA := 0, ageB := 0, order := 0, tempValid := false, ageValid := false, rms := 0, ua := 0 }
  let c1 := setTim { c.tim with osc := o1, modelPub := modelWord o1 n } c
  let c2 := when o.tempValid (timNotice 0x28 0 0 o.order n true) c1
  when o.ageValid (timNotice 0x28 0 1 o.order n true) c2

/-! ### Tables -/

/-- `DPLL_SELd` (R316). -/
def dpllSelWord (c : Chip) (d : Nat) : Word :=
  let x := getDp c d
  reg32 [(3, x.state), (6, x.sel), (6, x.host), (1, bnat (x.host ≠ noInput && x.sel ≠ x.host)), (1, bnat x.conf.isSome),
    (1, bnat x.pulling), (1, bnat x.hoReady), (1, bnat (dpSw c d)), (12, 0)]

/-- A `DPLL_STAT` entry with its sequence (R318). -/
def dpllWord (c : Chip) (d seq : Nat) : BitVec 256 :=
  let x := getDp c d
  let mask := (x.aside.map (·.1)).foldl setAdd 0
  BitVec.ofNat 256 (packN [(16, seq), (64, x.stateTick), (40, ofSigned 40 x.ffo), (32, ofSigned 32 x.buildOut),
    (16, ofSigned 16 (clampInt (-32768) 32767 x.phaseErr)), (16, x.wtr.getD 0), (48, mask), (8, 0), (16, seq)])

/-- A `HO_STAT` entry with its sequence at boundary n (R333). -/
def hoWord (c : Chip) (d n : Nat) : BitVec 256 :=
  let x := getDp c d
  let out := x.state = dpHold || x.state = dpLost
  match x.ho with
  | none => BitVec.ofNat 256 (packN [(16, n), (133, 0), (16, 0), (1, bnat x.hoReady), (74, 0), (16, n)])
  | some h =>
    BitVec.ofNat 256 (packN [(16, n), (64, h.e), (40, ofSigned 40 h.base), (16, if x.state = dpHold then min (h.pred / 1000000) 0xFFFF else 0),
      (16, if out then min ((n - h.h) / 480000) 0xFFFF else 0), (12, h.used), (1, bnat h.ext), (1, bnat x.hoReady), (74, 0), (16, n)])

/-- The QL that T0 sends and the port that times it (R297). -/
def qlSent (c : Chip) : Nat :=
  let x := getDp c 0
  let q := effQl c x.sel
  if (x.state = dpAcq || x.state = dpLocked) && q ≠ 0xA then q else timOscQl c

def loopPort (c : Chip) : Nat := match tapPort c (getDp c 0).sel with | some p => p | none => 0x1FF

/-- The QL sent follows at a boundary, with its notice (R297, R319). -/
def qlStep (n : Nat) (c : Chip) : Chip :=
  let q := qlSent c
  let l := loopPort c
  if q = c.tim.ql && l = c.tim.loop then c
  else timNotice 0x26 0 0 (16 * l + q) n false (setTim { c.tim with ql := q, loop := l } c)

/-- Timing tables updated after a boundary (R317, R318, R333). -/
def timPublish (n : Nat) (c : Chip) : Chip :=
  let refs := (tkeys c.tim.ins).map (fun i => (i, refWord c i n))
  let dps := (tkeys c.tim.dps).map (fun d => (d, dpllWord c d n))
  let hos := (tkeys c.tim.dps).map (fun d => (d, hoWord c d n))
  setTim { c.tim with refPub := refs, dpPub := dps, hoPub := hos } c

/-! ### Commit (R320, R321) -/

/-- DPLLs at the commit at boundary n. -/
def dpllsAtCommit (old : Image) (first : Bool) (n : Nat) (c : Chip) : Chip :=
  let c1 := forEach [0, 1, 2, 3] (fun d c =>
    let c1 := when ((c.tim.dps.lookup d).isNone) (fun c => setTim { c.tim with dps := tput c.tim.dps d { dpDflt with stateTick := n } } c) c
    let o := dpllRec old d
    let r := dpRec c1 d
    let c2 := when (dpInitial r ≠ (if first then noInput else dpInitial o)) (updDp d (fun x => { x with host := dpInitial r, cmd := if dpInitial r = noInput then 0 else 2, wtr := none })) c1
    let c3 := when (dpBw o ≠ dpBw r) (updDp d (fun x => if x.state = dpAcq then { x with lockFrom := none } else x)) c2
    c3) c
  refreshReady n c1

/-! ### Commands -/

/-- REF_SELECT (R304): recorded; judged at the next boundary. -/
def refSelectOk (c : Chip) : Bool := bits c.mb.p0 22 10 = 0 && bits c.mb.p0 2 14 = 0 &&
  (bits c.mb.p0 16 6 < 12 || (16 ≤ bits c.mb.p0 16 6 && bits c.mb.p0 16 6 < 48) || bits c.mb.p0 16 6 = 0x3F)

def execRefSelect (tag : Byte) (s : State) : Host.Outcome State Fault Refusal :=
  .next (onChip (mbSubmit 0x030 tag false refSelectOk id) s)

/-- HO_RESET (R329): carried out at the next boundary. -/
def execHoReset (tag : Byte) (s : State) : Host.Outcome State Fault Refusal :=
  .next (onChip (mbSubmit 0x035 tag false (fun _ => true) id) s)

/-- INPUT_NO_ACTIVITY (R298, R313): every DPLL that has the input selected opens its phase detector and holds the mean
frequency of the last second; the state changes at the next boundary (R308). -/
def inputNoActivity (i : Nat) (c : Chip) : Chip :=
  let c1 := updIn i (fun s => { s with act := false, open_ := true }) c
  forEach (tkeys c.tim.dps) (fun d c =>
    let x := getDp c d
    if x.sel = i && (x.state = dpAcq || x.state = dpLocked) then updDp d (fun x => { x with ffo := meanTicks x }) c else c) c1

def execInputNoActivity (i : Nat) (s : State) : Host.Outcome State Fault Refusal :=
  .next (onChip (fun c => if onImage c && (i < 16 || !(tapActive c i)) then inputNoActivity i c else c) s)

/-- REF_WTR_EXPIRY (R306): at the second boundary at which the wait reaches 0. -/
def execRefWtrExpiry (d : Nat) (s : State) : Host.Outcome State Fault Refusal :=
  .next (onChip (fun c =>
    let x := getDp c d
    if onImage c && (x.wtr = some 0) && x.host ≠ noInput && mayTake c d x.host then dpSwitch d x.host 2 (now c) c else c) s)

/-- MINUTE_RECORD (R322): at a minute boundary, for a DPLL whose minute is not yet written. -/
def execMinuteRecord (d : Nat) (s : State) : Host.Outcome State Fault Refusal :=
  .next (onChip (fun c =>
    if awake c && now c % 480000 = 0 && now c ≠ 0 then minuteRecord (now c) d c else c) s)

/-- MODEL_REFIT (R328): at an hour boundary, unless it ran at that boundary. -/
def execModelRefit (s : State) : Host.Outcome State Fault Refusal :=
  .next (onChip (fun c =>
    if awake c && now c % 28800000 = 0 && now c ≠ 0 && !(isDone 5 c) then markDone 5 (hourStep (now c) c) else c) s)

/-- OSC_FAIL (R303): every DPLL takes XTALIN as its base at once and `HO_READY` clears; it lasts until COLD. -/
def oscFails (c : Chip) : Chip :=
  if c.tim.osc.fail then c
  else
    let c1 := setOsc { c.tim.osc with fail := true } c
    let c2 := forEach (tkeys c1.tim.dps) (fun d => updDp d (fun x => { x with hoReady := false })) c1
    timNotice 0x25 0 0 0 (now c + 1) false c2

def execOscFail (s : State) : Host.Outcome State Fault Refusal := .next (onChip (fun c => when (awake c) oscFails c) s)

/-- DPLL_LOCK (R311). -/
def execDpllLock (d : Nat) (s : State) : Host.Outcome State Fault Refusal :=
  .next (onChip (fun c =>
    let x := getDp c d
    match x.lockFrom with
    | some f => if awake c && x.state = dpAcq && x.span.isNone && f + lockTicks (dpBw (dpRec c d)) ≤ now c then dpGo d dpLocked (now c) c else c
    | none => c) s)

/-- DPLL_LOCK_LOSS (R310). -/
def execDpllLockLoss (d : Nat) (s : State) : Host.Outcome State Fault Refusal :=
  .next (onChip (fun c =>
    let x := getDp c d
    match x.badFrom with
    | some f => if awake c && x.state = dpLocked && f + 8000 ≤ now c then dpGo d dpAcq (now c) c else c
    | none => c) s)

/-- SWITCH_SPAN_END (R314, R315): the difference joins `BUILD_OUT`, the loop closes, and a pull starts on a time reference. -/
def switchSpanEnd (d : Nat) (diff : Int) (c : Chip) : Chip :=
  match (getDp c d).span with
  | some e =>
    if now c < e then c
    else updDp d (fun x => { x with span := none, buildOut := x.buildOut + diff, pulling := x.pullNext && x.buildOut + diff ≠ 0, pullNext := false }) c
  | none => c

def execSwitchSpanEnd (d : Nat) (diff : Int) (s : State) : Host.Outcome State Fault Refusal :=
  .next (onChip (fun c => when (awake c) (switchSpanEnd d diff) c) s)

/-- HOLDOVER_LOST (R331). -/
def execHoldoverLost (d : Nat) (s : State) : Host.Outcome State Fault Refusal :=
  .next (onChip (fun c => when (awake c) (lostStep d (now c)) c) s)

end Sys2Proof.Machine
end

