-- ==== Sys2Proof/Machine/Contexts.lean ====
section
/-!
DEFINITION. Tributary contexts (R173 to R177), replacement signals (R50, R107, R177), ring slips (R528).
-/
namespace Sys2Proof.Machine
open Sys2Proof

/-- The type and function of a tributary; a counterpart's are those of the tributary it stands for (R282). -/
def tribOf (c : Chip) (t : Nat) : Rec := (tribRec (theImage c) (t % 0x20000)).getD 0

/-- A pointer function (R181). -/
def isPointer (f : Nat) : Bool := f = 0x005 || f = 0x030

/-- The bits of `FUNC_STATE` that a completed item writes (R175), as a mask of 96 bits: those of GMP and AMP. The calendar bits and the
pointers are kept by what receives and generates them. -/
def funcMask (f : Nat) : Nat := if f = 0x010 || f = 0x011 || f = 0x020 then (2 ^ 56 - 1) <<< 40 else 0

/-- Whether a function's items count adjustments (R175); pointer adjustments are counted as they are received. -/
def funcAdjusts (f : Nat) : Bool := !(f = 0x001 || f = 0x002 || f = 0x004 || isPointer f)

/-- Half the ring of a tributary with n berths, in 32-byte words (R100, R528). -/
def ringHalf (n : Nat) : Nat := 4 * (1 + ceilDiv n 8)

/-- A tributary emits its replacement signal in the present tick after an overrun or a death (R49, R107): marked once. -/
def markUnfinished (t : Nat) (c : Chip) : Chip :=
  updCtx t (fun x => if x.unf then x else { x with unf := true, repl := true, unfinished := BitVec.ofNat 32 (satInc 0xFFFFFFFF x.unfinished.toNat) }) c

/-- A tributary's data of the tick is errored (R20, R216, R219). -/
def markErrored (t : Nat) (c : Chip) : Chip := updCtx t (fun x => { x with errored := true }) c

/-- The VCs a carrier holds (R195): `vcs` lists each with its units. -/
def carrierVcs (k : Carrier) : List Nat := k.vcs.map (·.1)

/-- The tributaries an item's owner stands for: itself, or the VCs of a carrier (R195). -/
def ownerTribs (pl : Placement) (owner : Nat) : List Nat :=
  if owner < 0x40000 then [owner]
  else match pl.carriers.lookup (owner - 0x40000) with
    | some k => (carrierVcs k).filter (fun t => (pl.tribs.lookup t).isSome)
    | none => []

/-- A list of numbers without repeats, ascending. -/
def distinct (l : List Nat) : List Nat := l.foldl insAsc []

/-- The tributaries of some items. -/
def itemsTribs (pl : Placement) (l : List Item) : List Nat := distinct ((l.map (fun i => ownerTribs pl i.owner)).flatten)

/-! ### Signals in place of data -/

/-- The replacement signal of a type (R50). -/
def replSignal (ty : Nat) : Signal :=
  if isOdu ty then .oduAis else if isHoVc ty then .auAis else if isLoVc ty then .tuAis
  else if isCpri ty then .cpriIdle else .localFault

/-- The open-connection signal of a type (R203). -/
def openSignal (ty : Nat) : Signal :=
  if isOdu ty then .oduOci else if isHoVc ty || isLoVc ty then .unequipped
  else if isCpri ty then .cpriIdle else .localFault

/-- A hub causeway of an island's quadrant has failed (R21). -/
def cwyDown (c : Chip) (isl : Nat) : Bool := match c.cwy.lookup (isl / 16) with | some x => x.failed | none => false

/-- The tributary takes its egress data from the junction, in berths of its own or in carriers (R201). -/
def crossesJunction (c : Chip) (t : Nat) (p : Plc) : Bool := p.egr ≠ [] || isLoVc (tribType (tribOf c t))

/-- Replacement signals of the tick that starts, before any verdict of its boundary (R21, R177, R187). -/
def ctxReplNow (c : Chip) (n t : Nat) (x : CtxSt) : Bool :=
  n < x.until_ || x.calRx || x.calTx || !((chainPorts (theImage c) (t % 0x20000)).all (portReceives c)) ||
    (match c.img.place.tribs.lookup t with | some p => cwyDown c p.island && crossesJunction c t p | none => false)

/-- The tributary emits its replacement signal in the present tick (R49, R107, R177, R227). -/
def replacedNow (c : Chip) (t : Nat) : Bool := (getCtx c t).repl || c.dfx.repl.contains t

/-- What a tributary's source berths carry, in the present tick or the last (R49, R50). -/
def berthSignal (c : Chip) (t : Nat) (last : Bool) : Signal :=
  if (if last then (getCtx c t).replLast else replacedNow c t) then replSignal (tribType (tribOf c t)) else .data

/-- The mapping-range defect of a tributary (R225). -/
def rangeKey (t : Nat) : Nat := dkey 3 t 0 3

/-- The frequency offset a mapping absorbs, in 0.01 ppm (R191); none where the function never slips. -/
def rangeLimit (f ty : Nat) : Option Nat :=
  if f = 0x001 then none
  else if f = 0x010 || f = 0x020 then some 15000
  else if f = 0x011 then some 6500
  else if f = 0x021 then some 10000
  else if f = 0x005 then some (if ty = 0x14 then 32700 else 31900)
  else if f = 0x030 then some (if ty = 0x16 then 178600 else if ty = 0x17 then 240400 else 32700)
  else if f = 0x002 || f = 0x004 then some 12000
  else some 20000

/-- An offset beyond what the mapping absorbs (R191, R528). -/
def beyondRange (f ty : Nat) (offset : Int) : Bool := match rangeLimit f ty with | some l => l < offset.natAbs | none => false

/-- `OOR` clears after 8,000 whole ticks without a slip (R528). -/
def oorDue (x : CtxSt) (n : Nat) : Bool := x.oor && x.slip + 8001 ≤ n

/-- `OOR` of a context clears; the defect goes with the last of a tributary and its counterpart (R225, R282). -/
def oorClear (t : Nat) (c : Chip) : Chip :=
  let c1 := updCtx t (fun x => { x with oor := false }) c
  let b := t % 0x20000
  if (getCtx c1 b).oor || (getCtx c1 (b + 0x20000)).oor then c1 else setDefect (rangeKey b) false c1

/-- Every `OOR` due at a boundary. -/
def oorBoundary (n : Nat) (c : Chip) : Chip :=
  forEach ((c.ctx.filter (fun e => oorDue e.2 n)).map (·.1)) oorClear c

/-- A ring slips (R528): counted once in a tick. The defect is detected only in frame (R525). -/
def slipEffect (t n : Nat) (c : Chip) : Chip :=
  let c1 := updCtx t (fun x => { x with range := if x.oor && x.slip = now c then x.range else BitVec.ofNat 32 (satInc 0xFFFFFFFF x.range.toNat), oor := true, slip := now c, repl := true, fill := BitVec.ofNat 16 (ringHalf n) }) c
  if (chainPorts (theImage c) (t % 0x20000)).all (portReceives c) then setDefect (rangeKey (t % 0x20000)) true c1 else c1

/-- A ring within its limit never slips (R528). -/
def ringSlip (t : Nat) (offset : Int) (c : Chip) : Chip :=
  match c.img.place.tribs.lookup t with
  | none => c
  | some p => if beyondRange (tribFunc (tribOf c t)) (tribType (tribOf c t)) offset then slipEffect t p.n c else c

/-- `SEG_CODE` of a segment count (R174). -/
def segCode (s : Nat) : Nat := match s with | 1 => 0 | 3 => 1 | 15 => 2 | 30 => 3 | 60 => 4 | _ => 5

/-- A `TRIB_CTX` entry (R174). -/
def ctxWord (c : Chip) (t : Nat) (p : Plc) : BitVec 512 :=
  let x := getCtx c t
  let r := tribOf c t
  BitVec.ofNat 512 (packN [(16, x.seq.toNat), (96, x.func.toNat), (32, x.neg.toNat), (32, x.pos.toNat), (32, x.unfinished.toNat),
    (32, x.range.toNat), (16, x.fill.toNat), (64, 0), (17, t), (8, tribType r), (12, tribFunc r), (1, 1), (3, segCode p.seg),
    (3, p.lists.length - 1), (1, bnat x.oor), (1, bnat x.replLast), (130, 0), (16, x.seq.toNat)])

/-- The index of a tributary's entry of `TRIB_CTX` (R174). -/
def ctxIndex (p : Plc) : Nat := 2048 * p.island + p.ctx

/-- A tributary's entry of `TRIB_CTX` is written (R176). -/
def ctxPublish (t : Nat) (c : Chip) : Chip :=
  match c.img.place.tribs.lookup t with
  | some p => { c with dep := { c.dep with ctxPub := tput c.dep.ctxPub (ctxIndex p) (ctxWord c t p) } }
  | none => c

/-- The entry of a tributary for which no completion was reported in the tick is written as the tick ends (R176): its function
state stands as the last completed item wrote it (R49), its counts are the sequencer's. -/
def ctxClose (t : Nat) (c : Chip) : Chip :=
  ctxPublish t (updCtx t (fun x => { x with seq := x.seq + 1 }) c)

/-- The tick that ends is closed: errored and interrupted ticks are counted (R254), `REPL` shows it (R174), and every entry
not yet updated in the tick is (R176). -/
def ctxTick (n : Nat) (c : Chip) : Chip :=
  let c1 := forEach (c.ctx.filter (fun e => e.2.errored || e.2.unf)) (fun e c => pmExtras (e.1 % 0x20000) 0 0 1 c) c
  let c2 := { c1 with ctx := c1.ctx.map (fun e => (e.1, { e.2 with replLast := e.2.repl || c.dfx.repl.contains e.1, repl := ctxReplNow c n e.1 e.2, errored := false, unf := false, upd := false })) }
  forEach (if onImage c then (tkeys c.img.place.tribs).filter (fun t => !(getCtx c t).upd) else []) ctxClose c2

/-- From C+1 the slots without a tributary read `VALID` 0 (R177). -/
def ctxRelease (c : Chip) : Chip :=
  let used := c.img.place.tribs.map (fun e => ctxIndex e.2)
  { c with dep := { c.dep with ctxPub := c.dep.ctxPub.filter (fun e => used.contains e.1) } }

/-! ### Pointer generators -/

/-- Pointer values of a type: the AU pointer has 783, the TU-3 765, the TU-12 140, the TU-11 104. PRESUMED (log 49): G.707. -/
def ptrRange (ty : Nat) : Nat := if isHoVc ty then 783 else if ty = 0x15 then 765 else if ty = 0x16 then 140 else 104

/-- Ticks from one generated adjustment to the next: the 4th frame, or the 4th TU multiframe of 4 frames (R191, R192). -/
def ptrPause (ty : Nat) : Nat := if ty = 0x16 || ty = 0x17 then 16 else 4

/-- The pointer a generator sends (R192): anywhere on a new alignment; else one step toward half the ring by the fill averaged over 64
ticks, never faster than R191 lets it. `want` is what the function asks. DEDUCED: a ring above half is emptied by a decrement. -/
def ptrNext (ty half n want : Nat) (x : CtxSt) : Nat :=
  let cur := bits x.func 76 10
  let m := ptrRange ty
  let sum := x.fills.foldl (· + ·) 0
  if x.fresh then want
  else if n < x.adjAt + ptrPause ty then cur
  else if want = (cur + 1) % m && sum < half * x.fills.length then want
  else if want = (cur + m - 1) % m && half * x.fills.length < sum then want
  else cur

/-- A tributary's last item of the tick completes (R175, R176, R192). -/
def itemEffect (f ty half func pos neg fill n : Nat) (x : CtxSt) : CtxSt :=
  let y := { x with fills := (fill :: x.fills).take 64 }
  let ptr := ptrNext ty half n (bits (BitVec.ofNat 96 func) 76 10) y
  let fs : BitVec 96 := if f = 0x006 then x.func else if isPointer f then setBits x.func 76 10 ptr else BitVec.ofNat 96 (func &&& funcMask f)
  { y with func := fs, adjAt := if isPointer f && ptr ≠ bits x.func 76 10 then n else x.adjAt, fresh := false, pos := x.pos + BitVec.ofNat 32 pos, neg := x.neg + BitVec.ofNat 32 neg, fill := BitVec.ofNat 16 fill, upd := true, seq := x.seq + 1 }

/-- A tributary's last item of the tick completes: its entry is written (R176). -/
def itemComplete (t : Nat) (func : BitVec 96) (pos neg fill : Nat) (c : Chip) : Chip :=
  let r := tribOf c t
  let f := tribFunc r
  let x := getCtx c t
  match c.img.place.tribs.lookup t with
  | none => c
  | some q =>
    if x.unf || x.upd then c
    else
      let p := if funcAdjusts f then pos else 0
      let g := if funcAdjusts f then neg else 0
      ctxPublish t (pmExtras (t % 0x20000) p g 0 (updCtx t (itemEffect f (tribType r) (ringHalf q.n) func.toNat p g fill (now c)) c))

/-! ### FlexE calendars -/

def calDflt : CalSt := { inUse := false, rx := false, due := false, a := [], b := [] }
def getCal (c : Chip) (g : Nat) : CalSt := tget calDflt c.line.cal g
def updCal (g : Nat) (f : CalSt → CalSt) (c : Chip) : Chip := { c with line := { c.line with cal := tupd calDflt c.line.cal g f } }

/-- The FlexE group of a client of an image; none where the tributary is none. -/
def clientGroup (im : Image) (t : Nat) : Option Nat :=
  match tribRec im t with
  | some r => if tribFunc r = 0x006 then (rootPort im t).bind (fun p => (im.getRec 2 p).map stackGroup) else none
  | none => none

/-- The client ID of each slot of a group (R183, R187). -/
def calMap (im : Image) (g : Nat) : FMap Nat :=
  ((tkeys (im.sec 3)).filter (fun t => clientGroup im t = some g)).foldl (fun m t => match tribRec im t with | some r => (tribSlots r).foldl (fun m k => tput m k (tribParam r % 65536)) m | none => m) []

/-- The calendar of a group in use on transmit. -/
def calTxMap (x : CalSt) : FMap Nat := if x.inUse then x.b else x.a

/-- The groups of an image. -/
def flexeGroups (im : Image) : List Nat :=
  distinct ((imagePorts im).filterMap (fun p => (im.getRec 2 p).bind (fun r => if stackType r = 0x20 then some (stackGroup r) else none)))

/-- At a commit a group's new calendar is written into the inactive one (R187). -/
def calAtCommit (c : Chip) : Chip :=
  let im := theImage c
  let gs := flexeGroups im
  forEach gs (fun g c =>
    let m := calMap im g
    if m = calTxMap (getCal c g) then c
    else updCal g (fun x => if x.inUse then { x with a := m, due := true } else { x with b := m, due := true }) c)
    { c with line := { c.line with cal := c.line.cal.filter (fun e => gs.contains e.1) } }

/-- A FlexE client whose context the part holds. -/
def flexeClient (c : Chip) (t : Nat) : Bool := t < 0x20000 && tribFunc (tribOf c t) = 0x006 && (c.img.place.tribs.lookup t).isSome

/-- The clients of a group. -/
def groupClients (c : Chip) (g : Nat) : List Nat := (tkeys c.img.place.tribs).filter (fun t => flexeClient c t && clientGroup (theImage c) t = some g)

/-- The far end's calendar in use for a group (R175, R187): followed on receive by all its clients. -/
def calReceived (g : Nat) (b : Bool) (c : Chip) : Chip :=
  let stays : Bool := (getCal c g).rx = b
  forEach (groupClients c g) (fun t => updCtx t (fun x => { x with func := setBits x.func 95 1 (bnat b), calRx := x.calRx && stays })) (updCal g (fun x => { x with rx := b }) c)

/-- A group's transmit calendar switches at an overhead multiframe boundary (R187). -/
def calSwitch (g : Nat) (c : Chip) : Chip :=
  if (getCal c g).due then
    let b := !(getCal c g).inUse
    forEach (groupClients c g) (fun t => updCtx t (fun x => { x with func := setBits x.func 94 1 (bnat b), calTx := false })) (updCal g (fun x => { x with inUse := b, due := false }) c)
  else c

/-! ### Commit -/

/-- The slots of a FlexE client of an image. -/
def clientSlots (im : Image) (t : Nat) : List Nat := match tribRec im t with | some r => if tribFunc r = 0x006 then tribSlots r else [] | none => []

/-- The calendar bits a FlexE client's context starts with: its group's (R175). -/
def calBits (c : Chip) (t : Nat) : BitVec 96 :=
  match (if t < 0x20000 then clientGroup (theImage c) t else none) with
  | some g => setBits (setBits 0 95 1 (bnat (getCal c g).rx)) 94 1 (bnat (getCal c g).inUse)
  | none => 0

/-- Contexts at the commit at boundary n (R177): kept and moved ones go on; where the own record was added or changed the
context starts afresh and its function reacquires within 4 ticks; a FlexE client whose slots change waits for its calendars (R187). -/
def ctxAtCommit (old : Image) (n : Nat) (cl : Chip) : Chip :=
  let c := calAtCommit cl
  let new := theImage c
  let stale := (c.img.place.tribs.filter (fun e => (c.dep.ctxPub.lookup (ctxIndex e.2)).isNone || tribRec old (e.1 % 0x20000) ≠ tribRec new (e.1 % 0x20000))).map (·.1)
  let keep := c.ctx.filter (fun e => (c.img.place.tribs.lookup e.1).isSome && tribRec old (e.1 % 0x20000) = tribRec new (e.1 % 0x20000))
  let begin_ := (tkeys c.img.place.tribs).filter (fun t => tribRec old (t % 0x20000) ≠ tribRec new (t % 0x20000))
  forEach stale ctxPublish (forEach begin_ (fun t c0 =>
    let f := takeFree c0
    let cal : Bool := t < 0x20000 && clientSlots old t ≠ clientSlots new t
    let x : CtxSt := { ctxDflt with until_ := n + f.1 % 5, calRx := cal, calTx := cal, func := calBits c0 t, fresh := true }
    updCtx t (fun _ => { x with repl := ctxReplNow c0 n t x }) f.2) { c with ctx := keep })

/-! ### Commands -/

/-- ENGINE_ITEM_COMPLETE (R176). -/
def execEngineItemComplete (t : Nat) (func : BitVec 96) (pos neg fill : Nat) (s : State) : Host.Outcome State Fault Refusal :=
  .next (onChip (fun c => when (onImage c) (itemComplete t func pos neg fill) c) s)

/-- RING_SLIP (R528). -/
def execRingSlip (t : Nat) (offset : Int) (s : State) : Host.Outcome State Fault Refusal :=
  .next (onChip (fun c => when (onImage c) (ringSlip t offset) c) s)

/-- OOR_CLEAR (R528). -/
def execOorClear (t : Nat) (s : State) : Host.Outcome State Fault Refusal :=
  .next (onChip (fun c => when (oorDue (getCtx c t) (now c)) (oorClear t) c) s)

end Sys2Proof.Machine
end

