-- ==== Sys2Proof/Machine/Engines.lean ====
section
/-!
DEFINITION. Engines, their lists and sidings (R46 to R52, R99, R105 to R115, R518): verdicts on a tick, death and
reassignment, the binding of lists at a commit.
-/
namespace Sys2Proof.Machine
open Sys2Proof

def engDflt : EngSt := { tag := 0, list := 0, role := 2, cause := 0, stale := 0, total := 0, recent := [], peak := 0, winPeak := 0, seen := 0, halted := false, flush := 0, pad := [], padWrites := 0 }
def islDflt : IslSt := { epochs := [], bind := [], starts := [], orphans := [], nlists := 0, engOut := 0, twinOut := 0, regions := [], twinRegions := [], twinMerged := false }

/-- Engine e is 16 × island + k (R115). -/
def getEng (c : Chip) (e : Nat) : EngSt := tget engDflt c.eng e
def updEng (e : Nat) (f : EngSt → EngSt) (c : Chip) : Chip := { c with eng := tupd engDflt c.eng e f }
def getIsl (c : Chip) (i : Nat) : IslSt := tget islDflt c.isl i
def updIsl (i : Nat) (f : IslSt → IslSt) (c : Chip) : Chip := { c with isl := tupd islDflt c.isl i f }

/-- `ROLE` codes (R115). -/
def roleWork : Nat := 0
def roleSiding : Nat := 1
def roleIdle : Nat := 2
def roleDead : Nat := 3
def roleOut : Nat := 4

/-- The engine is in service. -/
def engAlive (x : EngSt) : Bool := x.role ≤ 2

/-- The items of a list of an island in the placement in force. -/
def listItems (c : Chip) (isl l : Nat) : List Item := tget [] c.img.place.items (16 * isl + l)

/-- The items the engine runs in the present tick: none before its list starts (R107), none when it has no list. -/
def engItems (c : Chip) (e : Nat) : List Item :=
  let x := getEng c e
  if x.role = roleWork && ((getIsl c (e / 16)).starts.lookup x.list).isNone && onImage c then listItems c (e / 16) x.list else []

/-- Engines of an island in a role. -/
def enginesIn (c : Chip) (isl role : Nat) : List Nat := ((upto 16).map (16 * isl + ·)).filter (fun e => (getEng c e).role = role)

/-- `SIDINGS_FREE` (R105). -/
def sidingsFree (c : Chip) (isl : Nat) : Nat := (enginesIn c isl roleSiding).length

/-- Engines out in the union of the fault maps (R105). -/
def unionOut (x : IslSt) : BitVec 16 := x.engOut ||| x.twinOut

/-- Regions out in the union. -/
def unionRegions (x : IslSt) : List Nat := x.twinRegions.foldl insAsc x.regions

/-- The fault map as a placement takes it (R93, R105). -/
def outMap (c : Chip) : FMap Nat := (c.isl.filter (fun e => unionOut e.2 ≠ 0)).map (fun e => (e.1, (unionOut e.2).toNat))
def regionMap (c : Chip) : FMap (List Nat) := (c.isl.filter (fun e => unionRegions e.2 ≠ [])).map (fun e => (e.1, unionRegions e.2))

/-! ### Troubles within a tick -/

/-- A cause of death seen in the tick; the lowest code is kept (R106). -/
def engSeen (e code : Nat) (c : Chip) : Chip := updEng e (fun x => { x with seen := if x.seen = 0 then code else min x.seen code }) c

/-- An uncorrectable scratchpad read (R106, R443): the engine halts, its remaining items are abandoned. -/
def scratchpad (e done : Nat) (c : Chip) : Chip :=
  let c1 := if (getEng c e).halted then c else forEach (itemsTribs c.img.place ((engItems c e).drop done)) markUnfinished c
  updEng e (fun x => { x with halted := true }) (engSeen e 1 c1)

/-- No heartbeat by cycle 63 (R106). -/
def heartbeatLost (e : Nat) (c : Chip) : Chip :=
  engSeen e 2 (forEach (itemsTribs c.img.place (engItems c e)) markUnfinished c)

/-! ### Verdicts on the tick that ends -/

/-- How one engine fared in the tick that ends: tributaries abandoned by an overrun, none without one,
the finish, and the items completed. -/
structure EngVerdict where
  engine : Nat
  past   : Option Nat
  finish : Nat
  items  : Nat

/-- Planned finish of a list that starts behind a flush (R46, R49). -/
def planFrom (f : Nat) (its : List Item) : Nat := its.foldl (fun f i => max i.nb f + i.allot) f

/-- The verdict on one engine (R49): an engine not reported finished as planned, later by its flush; a halted one has abandoned
its items already. -/
def engVerdict (c : Chip) (reps : List EngineRep) (e : Nat) : EngVerdict × List Nat :=
  let its := engItems c e
  match reps.find? (fun r => r.engine = e) with
  | some r =>
    if r.done < its.length && !(getEng c e).halted then
      let l := itemsTribs c.img.place (its.drop r.done)
      ({ engine := e, past := some l.length, finish := 0x7FFFF, items := r.done }, l)
    else ({ engine := e, past := none, finish := if its = [] then 0 else r.finish, items := min r.done its.length }, [])
  | none => ({ engine := e, past := none, finish := if its = [] then 0 else planFrom (getEng c e).flush its, items := its.length }, [])

/-- The engines that ran in the tick that ends. -/
def enginesRan (c : Chip) : List Nat := (c.eng.filter (fun x => x.2.role = roleWork)).map (·.1)

/-- All verdicts, under the placement that ran the tick (R61). -/
def engVerdicts (reps : List EngineRep) (c : Chip) : List (EngVerdict × List Nat) := (enginesRan c).map (engVerdict c reps)

/-- The work abandoned is marked before the placement changes (R49, R61). -/
def engMarks (vs : List (EngVerdict × List Nat)) (c : Chip) : Chip := forEach vs (fun v c => forEach v.2 markUnfinished c) c

/-- Ticks of the window of R51 and R52. -/
def overWindow : Nat := 8000

/-- The cycles an engine's flush takes, at most 256 (R49): the manual gives the limit only. -/
def flushCycles (v : Nat) : Nat := v % 257

/-- Counts of one engine at boundary n (R49, R51, R52): overruns with their flush, the third within the window, the latest
finish. -/
def engCount (n : Nat) (v : EngVerdict) (c : Chip) : Chip :=
  let c1 := countEvent 0x011 (v.engine / 16) v.items (updEng v.engine (fun x => { x with winPeak := BitVec.ofNat 19 (max x.winPeak.toNat v.finish) }) c)
  match v.past with
  | none => c1
  | some k =>
    let fr := takeFree c1
    let c2 := updEng v.engine (fun x => { x with total := BitVec.ofNat 24 (satInc 0xFFFFFF x.total.toNat), recent := n :: x.recent.filter (fun b => n < b + overWindow), flush := flushCycles fr.1 }) fr.2
    let c3 := countEvent 0x012 (v.engine / 16) 1 (notify (event 0x10 6 12 0 v.engine k n false) c2)
    if 3 ≤ (getEng c3 v.engine).recent.length then engSeen v.engine 3 c3 else c3

/-- A new tick: no engine is halted or flushed (R49). -/
def engOpen (c : Chip) : Chip := { c with eng := tmap engDflt c.eng (fun _ x => { x with halted := false, flush := 0 }) }

/-- The windows of `PEAK_FINISH` close (R52), and overruns older than the window are forgotten. -/
def engWindow (n : Nat) (c : Chip) : Chip :=
  let c1 := { c with eng := tmap engDflt c.eng (fun _ x => { x with recent := x.recent.filter (fun b => n < b + overWindow) }) }
  if n % overWindow = 0 then { c1 with eng := tmap engDflt c1.eng (fun _ x => { x with peak := x.winPeak, winPeak := 0 }) } else c1

/-! ### Death and reassignment -/

/-- The epoch of a list advances (R110). -/
def nextEpoch (b : Byte) : Byte := if b = 0xFF then 1 else b + 1

/-- Bind a list to an engine: its epoch advances, the engine's tag holds it, or 0 where the list is empty (R110). A siding leaves its gated
state with its scratchpad cleared (R107, R453). -/
def bindList (isl l e : Nat) (c : Chip) : Chip :=
  let c1 := updIsl isl (fun x => { x with epochs := tput x.epochs l (nextEpoch (tget 0 x.epochs l)), bind := tput x.bind l e, orphans := x.orphans.filter (· ≠ l) }) c
  let works := listItems c1 isl l ≠ []
  updEng e (fun x => { x with pad := if x.role = roleSiding then [] else x.pad, list := l, role := if works then roleWork else roleIdle, tag := if works then tget 0 (getIsl c1 isl).epochs l else 0 }) c1

/-- The tributaries of a list. -/
def listTribs (c : Chip) (isl l : Nat) : List Nat := itemsTribs c.img.place (listItems c isl l)

/-- A list whose engine is gone takes the lowest free siding at boundary n and starts at n+1, or is orphaned (R107, R108).
An empty list takes no siding. -/
def reassign (isl n l : Nat) (c : Chip) : Chip :=
  let ts := listTribs c isl l
  if listItems c isl l = [] then updIsl isl (fun x => { x with bind := tdel x.bind l, starts := tdel x.starts l, orphans := insAsc x.orphans l }) c
  else
    let c1 := match (enginesIn c isl roleSiding).head? with
      | some e => updIsl isl (fun x => { x with starts := tput x.starts l (n + 1) }) (bindList isl l e c)
      | none =>
        notify (event 0x12 6 12 0 isl ts.length n false)
          (updIsl isl (fun x => { x with bind := tdel x.bind l, starts := tdel x.starts l, orphans := insAsc x.orphans l }) c)
    forEach (if onImage c then ts else []) markUnfinished c1

/-- An engine is declared dead (R106, R107, R109): tag 0, its bit in the fault map, its notice. -/
def killEngine (n e : Nat) (c : Chip) : Chip :=
  let x := getEng c e
  let k := if x.role = roleWork then (listTribs c (e / 16) x.list).length else 0
  notify (event 0x11 6 12 x.seen e k n false)
    (updEng e (fun x => { x with tag := 0, role := roleDead, cause := x.seen, seen := 0 })
      (updIsl (e / 16) (fun y => { y with engOut := y.engOut ||| BitVec.ofNat 16 (1 <<< (e % 16)) }) c))

/-- The lists of an island bound to engines that are dead, ascending. -/
def deadLists (c : Chip) (isl : Nat) : List Nat :=
  ((getIsl c isl).bind.filter (fun b => (getEng c b.2).role = roleDead)).map (·.1)

/-- Every engine with a cause seen is declared dead; the lists of each island are reassigned in ascending order (R108). -/
def declareDead (l : List Nat) (n : Nat) (c : Chip) : Chip :=
  let es := l.filter (fun e => (getEng c e).seen ≠ 0 && engAlive (getEng c e))
  let c1 := forEach es (killEngine n) c
  forEach (distinct (es.map (· / 16))) (fun isl c => forEach (deadLists c isl) (reassign isl n) c) c1

/-- Lists whose siding engine starts at boundary n (R107, step 4 of R60). -/
def startLists (isls : List Nat) (n : Nat) (c : Chip) : Chip :=
  forEach isls (fun i c => updIsl i (fun x => { x with starts := x.starts.filter (fun s => n < s.2) }) c) c

/-- Step 6 of R60: counts, deaths, reassignments; orphaned lists go on emitting replacement signals (R108). -/
def engBoundary (vs : List (EngVerdict × List Nat)) (n : Nat) (c : Chip) : Chip :=
  let c1 := engWindow n (forEach vs (fun v c => engCount n v.1 c) (engOpen c))
  let c2 := declareDead (tkeys c1.eng) n c1
  if onImage c2 then
    forEach (tkeys c2.isl) (fun i c => forEach (getIsl c i).orphans (fun l c => forEach (listTribs c i l) markUnfinished c) c) c2
  else c2

/-- The datapath's work of the tick is lost for every engine, as for an overrun: T0's synthesiser was unlocked (R303). -/
def allUnfinished (c : Chip) : Chip := forEach (tkeys c.img.place.tribs) markUnfinished c

/-! ### Binding at a commit -/

/-- The engines of an island an engine mask leaves, ascending. -/
def healthyIn (mask isl : Nat) : List Nat := ((upto 16).filter (fun k => !(mask.testBit k))).map (16 * isl + ·)

/-- Bind one list of a fresh binding: the epoch advances where its engine changes (R110). -/
def bindFresh (old : FMap Nat) (isl l e : Nat) (c : Chip) : Chip :=
  if old.lookup l = some e then updIsl isl (fun x => { x with bind := tput x.bind l e }) c else bindList isl l e c

/-- Role and tag of every engine of an island follow its bindings and lists (R110, R115). -/
def refreshRoles (isl : Nat) (c : Chip) : Chip :=
  forEach (getIsl c isl).bind (fun b c =>
    if engAlive (getEng c b.2) then
      let works := listItems c isl b.1 ≠ []
      updEng b.2 (fun x => { x with list := b.1, role := if works then roleWork else roleIdle, tag := if works then tget 0 (getIsl c isl).epochs b.1 else 0 }) c
    else c) c

/-- An engine becomes a free siding, unless it is dead or out. -/
def toSiding (e : Nat) (c : Chip) : Chip := updEng e (fun x => if engAlive x then { x with role := roleSiding, tag := 0 } else x) c

/-- First image or `REPACK` (R99): list k to the (k+1)-th healthy engine of the map the placement saw, the rest sidings. -/
def rebindIsland (out : FMap Nat) (isl n : Nat) (c : Chip) : Chip :=
  let hs := healthyIn (tget 0 out isl) isl
  let l := tget 0 c.img.place.nlists isl
  let old := (getIsl c isl).bind
  let c1 := forEach ((upto 16).map (16 * isl + ·)) (fun e c => updEng e (fun x => if engAlive x then { x with role := roleIdle, tag := 0 } else x) c)
    (updIsl isl (fun x => { x with bind := [], starts := [], orphans := [], nlists := l }) c)
  let c2 := forEach ((upto l).zip hs) (fun b c =>
    if engAlive (getEng c b.2) then bindFresh old isl b.1 b.2 c else updIsl isl (fun x => { x with bind := tput x.bind b.1 b.2 }) c) c1
  let c3 := refreshRoles isl (forEach (hs.drop l) toSiding c2)
  forEach (deadLists c3 isl) (reassign isl n) c3

/-- Any other placement (R518): lists withdrawn at the top give their engines to the sidings, lists added take free sidings. -/
def adjustIsland (isl n : Nat) (c : Chip) : Chip :=
  let x := getIsl c isl
  let l := tget 0 c.img.place.nlists isl
  let c1 := forEach ((upto 16).filter (fun k => l ≤ k && k < x.nlists)) (fun k c =>
    let c' := match (getIsl c isl).bind.lookup k with | some e => toSiding e c | none => c
    updIsl isl (fun x => { x with bind := tdel x.bind k, orphans := x.orphans.filter (· ≠ k), starts := tdel x.starts k }) c') c
  let c2 := forEach ((upto 16).filter (fun k => x.nlists ≤ k && k < l)) (fun k c =>
    match (enginesIn c isl roleSiding).head? with
    | some e => bindList isl k e c
    | none => if listItems c isl k = [] then updIsl isl (fun x => { x with orphans := insAsc x.orphans k }) c else reassign isl n k c)
    (updIsl isl (fun x => { x with nlists := l }) c1)
  refreshRoles isl c2

/-- Bindings at the commit at boundary n; `fresh` the first image or `REPACK`, `out` the fault map the placement saw. -/
def bindAtCommit (fresh : Bool) (out : FMap Nat) (n : Nat) (c : Chip) : Chip :=
  forEach (upto 64) (fun i c => if fresh then rebindIsland out i n c else adjustIsland i n c) c

/-! ### Tables -/

/-- An `ENGINE_STATE` entry (R115). -/
def engineStateWord (x : EngSt) : Word := reg32 [(8, x.tag.toNat), (4, x.list), (4, x.role), (4, x.cause), (12, x.stale.toNat)]

/-- An `ENGINE_RUN` entry (R52). -/
def engineRunWord (c : Chip) (e : Nat) : BitVec 64 :=
  let x := getEng c e
  BitVec.ofNat 64 (packN [(19, if x.role = roleWork then planEnd (listItems c (e / 16) x.list) else 0), (19, x.peak.toNat), (2, min 3 x.recent.length), (24, x.total.toNat)])

/-- A `FAULT_MAP` entry (R105). -/
def faultMapWord (c : Chip) (i : Nat) : BitVec 64 :=
  let x := getIsl c i
  BitVec.ofNat 64 (packN [(16, 0), (1, bnat x.twinMerged), (11, (unionRegions x).length), (4, sidingsFree c i), (16, x.twinOut.toNat), (16, x.engOut.toNat)])

/-! ### Commands -/

/-- HEARTBEAT_TIMEOUT (R106). -/
def execHeartbeatTimeout (e : Nat) (s : State) : Host.Outcome State Fault Refusal :=
  .next (onChip (fun c => when (awake c && e < 1024 && engAlive (getEng c e)) (heartbeatLost e) c) s)

/-- SCRATCHPAD_UNCORRECTABLE (R443). -/
def execScratchpadUncorrectable (e done : Nat) (s : State) : Host.Outcome State Fault Refusal :=
  .next (onChip (fun c => when (awake c && e < 1024 && engAlive (getEng c e)) (scratchpad e done) c) s)

/-- ENGINE_DEATH (R107): an engine with a cause seen is declared dead. -/
def execEngineDeath (e : Nat) (s : State) : Host.Outcome State Fault Refusal :=
  .next (onChip (fun c => when (awake c && e < 1024) (declareDead [e] (now c)) c) s)

/-- The siding engine's list starts (R107), if it is due at boundary n. -/
def startOne (e n : Nat) (c : Chip) : Chip :=
  updIsl (e / 16) (fun x => { x with starts := x.starts.filter (fun s => n < s.2 || !(x.bind.lookup s.1 = some e)) }) c

/-- SIDING_REASSIGNMENT (R107). -/
def execSidingReassignment (e : Nat) (s : State) : Host.Outcome State Fault Refusal :=
  .next (onChip (fun c => when (awake c && e < 1024) (startOne e (now c)) c) s)

end Sys2Proof.Machine
end

