-- ==== Sys2Proof/Machine/Junction.lean ====
section
/-!
DEFINITION. The junction (R197 to R220) and the causeways (R18 to R21).
-/
namespace Sys2Proof.Machine
open Sys2Proof

def jctDflt : JctSt := { corr := 0, subst := 0, lost := 0, bufUncorr := 0 }

def setJct (j : JunctionSt) (c : Chip) : Chip := { c with jct := j }

/-- Change the counters of an egress island (R220). -/
def updJct (i : Nat) (f : JctSt → JctSt) (c : Chip) : Chip := setJct { c.jct with stat := tupd jctDflt c.jct.stat i f } c

/-- Entries per bank and windows per port (R42, R53). -/
def bankSize : Nat := 960000
def windows : Nat := 15000

/-- Fields of a timetable entry (R198). -/
def entValid (e : BitVec 40) : Bool := bitAt e 39
def entSel (e : BitVec 40) : Nat := bits e 21 17
def entIsl (e : BitVec 40) : Nat := bits e 14 6
def entBerth (e : BitVec 40) : Nat := bits e 0 14

/-- The entry of an egress window in a placement's bank. -/
def entAt (p : Placement) (isl w : Nat) : BitVec 40 := tget ttNone p.tt (windows * isl + w)

/-- The source of a valid entry (R210, R218): island and berth; none where the selected member's place cannot be read. -/
def entSource (c : Chip) (p : Placement) (e : BitVec 40) : Option (Nat × Nat) :=
  if entSel e = 0x1FFFF then some (entIsl e, entBerth e)
  else
    let x := getSel c (entSel e)
    if !x.select || x.badSel then some (entIsl e, entBerth e)
    else if x.badAlt then none
    else match p.alt.lookup (entSel e) with
      | some a => some (a.1, (entBerth e + a.2) % windows)
      | none => none

/-- The tributaries whose egress berth a window is, a carrier's VCs among them (R204). -/
def egressOwners (p : Placement) (isl w : Nat) : List Nat :=
  ((p.tribs.filter (fun e => e.2.island = isl && e.2.egr.contains w)).map (·.1)) ++
  ((p.carriers.filter (fun e => e.2.egrIsl = isl && e.2.egrB = w)).map (fun e => carrierVcs e.2)).flatten

/-- The tributaries whose source berth a window is, a carrier's VCs among them (R204). -/
def sourceOwners (p : Placement) (isl w : Nat) : List Nat :=
  ((p.tribs.filter (fun e => e.2.island = isl && e.2.src.contains w)).map (·.1)) ++
  ((p.carriers.filter (fun e => e.2.srcIsl = isl && e.2.srcB = w)).map (fun e => carrierVcs e.2)).flatten

/-- Whether an entry wraps (R200): its data was carried in the tick before. -/
def wraps (s e : Nat) : Bool := e ≤ s

/-- An undeliverable entry (R216): counted, its owner's data errored, a notice in its first such tick. -/
def undeliverable (isl w : Nat) (c : Chip) : Chip :=
  let idx := windows * isl + w
  let c1 := forEach (egressOwners c.img.place isl w) markErrored (updJct isl (fun x => { x with lost := x.lost + 1 }) c)
  let c2 := if c1.jct.lostNow.contains idx then c1 else notify (event 0x13 7 12 0 isl w (now c) false) c1
  setJct { c2.jct with lostNow := insAsc c2.jct.lostNow idx, lostTick := some (now c) } c2

/-- A bank holds a hard fault at an index (R217). -/
def hardAt (c : Chip) (active : Bool) (idx : Nat) : Bool :=
  c.jct.hard.contains (bankSize * bnat (c.cm.activeBank == active) + idx)

/-- The commit that is due at the next boundary, with its placement (R56). -/
def commitNext (c : Chip) : Option Placement :=
  match c.cm.change with
  | some k => if k.commitAt = some (now c + 1) then k.place else none
  | none => none

/-- A source window's entries in a placement wrap: some egress window no later names it (R200). -/
def feedsWrapping (c : Chip) (p : Placement) (isl w : Nat) : Bool :=
  p.tt.any (fun e => entValid e.2 && entSource c p e.2 = some (isl, w) && wraps w (e.1 % windows))

/-- The tributaries whose bytes a source window carries in the present tick (R42, R213): those it belongs to, and in the tick
before a commit those that are moved to it by the commit where its new entry wraps, which fill it early with their next ring
bytes. -/
def windowFill (c : Chip) (isl w : Nat) : List Nat :=
  let have_ := sourceOwners c.img.place isl w
  match have_, commitNext c with
  | [], some p => if feedsWrapping c p isl w then (sourceOwners p isl w).filter (fun t => (c.img.place.tribs.lookup t).isSome) else []
  | l, _ => l

/-- The owner of egress window w in placement `p` goes on across the commit with its feed (R213, R214); `q` the placement on the
other side of the commit. A carrier goes on where one of its VCs was and is carried to that island. -/
def goesOn (c : Chip) (p q : Placement) (isl w : Nat) : Bool :=
  p.tribs.any (fun e => e.2.island = isl && e.2.egr.contains w && (c.img.place.tribs.lookup e.1).isSome && !(c.cm.newFed.contains e.1)) ||
  p.carriers.any (fun e => e.2.egrIsl = isl && e.2.egrB = w &&
    q.carriers.any (fun k => k.2.egrIsl = isl && (carrierVcs e.2).any (fun v => (carrierVcs k.2).contains v)))

/-- What window w of an island takes in the tick of a commit (R213, R214): the entry, the placement whose fields it uses and
whether it stands in the old bank. An old wrapping entry of a moved tributary still delivers while its feed goes on; a new
wrapping entry of a tributary added, or newly fed, does not. -/
def commitEntry (c : Chip) (isl w : Nat) : BitVec 40 × Placement × Bool :=
  let e := entAt c.img.place isl w
  let o := entAt c.img.shadow isl w
  if c.cm.lastC ≠ some (now c) then (e, c.img.place, false)
  else if entValid e then
    match entSource c c.img.place e with
    | some s => if wraps s.2 w && !(goesOn c c.img.place c.img.shadow isl w) then (ttNone, c.img.place, false) else (e, c.img.place, false)
    | none => (e, c.img.place, false)
  else
    match entSource c c.img.shadow o with
    | some s =>
      if entValid o && wraps s.2 w && goesOn c c.img.shadow c.img.place isl w && egressOwners c.img.place isl w = [] then (o, c.img.shadow, true)
      else (ttNone, c.img.place, false)
    | none => (ttNone, c.img.place, false)

/-- A hub causeway of a quadrant has failed (R21). -/
def quadDown (c : Chip) (isl : Nat) : Bool := cwyDown c isl

/-- The bytes of source window (si, s) in tick t, due in egress window (ei, e), were lost on a causeway (R20). -/
def flitGone (c : Chip) (si s t ei e : Nat) : Bool :=
  c.jct.lostSrc.contains (windows * si + s, t) || c.jct.lostEgr.contains (windows * ei + e, now c)

/-- What a source window delivers (R49, R50, R200): the bytes it carried in tick t, or its tributary's replacement signal. -/
def sourceBytes (c : Chip) (p : Placement) (s : Nat × Nat) (t : Nat) : BerthData :=
  match (sourceOwners p s.1 s.2).map (fun x => berthSignal c x (t ≠ now c)) with
  | [g] => if g = .data then .source s.1 s.2 t else .replaced g
  | _ => .source s.1 s.2 t

/-- The window is served from an entry of a placement's bank (R20, R200, R218, R219). -/
def serveEntry (isl w eccData : Nat) (e : BitVec 40) (p : Placement) (c : Chip) : Chip :=
  if !(entValid e) then emit (.berth isl w .nothing 0) c
  else
    let c1 := if entSel e ≠ 0x1FFFF && (getSel c (entSel e)).badSel then updJct isl (fun x => { x with lost := x.lost + 1 }) c else c
    match entSource c1 p e with
    | none => emit (.berth isl w .nothing 0) (undeliverable isl w c1)
    | some s =>
      let t := if wraps s.2 w then now c - 1 else now c
      let d := 25 * berthDist s.2 w + 120
      if quadDown c1 isl || quadDown c1 s.1 then emit (.berth isl w .nothing 0) c1
      else if eccData = 2 then
        emit (.berth isl w .zeros d) (countEvent 0x035 isl 1 (forEach (egressOwners p isl w) markErrored (updJct isl (fun x => { x with bufUncorr := x.bufUncorr + 1 }) c1)))
      else if flitGone c1 s.1 s.2 t isl w then emit (.berth isl w .zeros d) c1
      else
        countEvent 0x030 s.1 1 (countEvent 0x031 isl 1 (countEvent 0x032 isl (bnat (bitAt e 38)) (emit (.berth isl w (sourceBytes c1 p s t) d) c1)))

/-- A stored entry was read as uncorrectable, or as sound (R199). -/
def noteEcc (bank idx ecc : Nat) (c : Chip) : Chip :=
  let k := bankSize * bank + idx
  if ecc = 2 then setJct { c.jct with unc := insAsc c.jct.unc k } c
  else if c.jct.unc.contains k then setJct { c.jct with unc := c.jct.unc.filter (· ≠ k) } c
  else c

/-- A selector entry the window's entry names reads in error (R218): 1 its `SELECT`, 2 its `ALT` field. -/
def noteSel (eccSel : Nat) (e : BitVec 40) (c : Chip) : Chip :=
  if !(entValid e) || entSel e = 0x1FFFF then c
  else if eccSel = 1 then updSel (entSel e) (fun x => { x with badSel := true }) c
  else if eccSel = 2 then updSel (entSel e) (fun x => { x with badAlt := true }) c
  else c

/-- EGRESS_WINDOW_SERVE's effect: the entry is read and checked (R215 to R218), then served. In the tick of a commit a window
may take its entry from the old bank, with that bank's code. -/
def egressServe (isl w eccActive eccOther eccData eccSel : Nat) (c : Chip) : Chip :=
  let idx := windows * isl + w
  let x := commitEntry c isl w
  let old := x.2.2
  let b := bnat c.cm.activeBank
  let ecc := if old then eccOther else eccActive
  let c0 := noteSel eccSel x.1 (noteEcc (if old then 1 - b else b) idx ecc c)
  let found (c : Chip) : Chip := setJct { c.jct with lostNow := c.jct.lostNow.filter (· ≠ idx) } c
  if ecc ≠ 2 && !(hardAt c0 (!old) idx) then
    let c1 := if ecc = 1 then countEvent 0x033 isl 1 (updJct isl (fun x => { x with corr := x.corr + 1 }) c0) else c0
    serveEntry isl w eccData x.1 x.2.1 (found c1)
  else if !old && !(c0.jct.diff.contains idx) && eccOther ≠ 2 && !(hardAt c0 false idx) then
    serveEntry isl w eccData (entAt c0.img.shadow isl w) c0.img.place (found (countEvent 0x034 isl 1 (updJct isl (fun x => { x with subst := x.subst + 1 }) c0)))
  else
    let c1 := if !old && !(c0.jct.diff.contains idx) then noteEcc (1 - b) idx eccOther c0 else c0
    emit (.berth isl w .nothing 0) (undeliverable isl w c1)

/-- The shadow is scrubbed between commits (R217): the indexes that still read in error become hard faults of that bank. -/
def shadowScrub (l : List Nat) (c : Chip) : Chip :=
  let bank := bankSize * bnat (!c.cm.activeBank)
  let bad := (l.filter (· < bankSize)).map (bank + ·)
  let c0 := setJct { c.jct with unc := c.jct.unc.filter (fun k => k / bankSize * bankSize ≠ bank || bad.contains k) } c
  forEach (l.filter (· < bankSize)) (fun i c =>
    if c.jct.hard.contains (bank + i) then c
    else notify (event 0x13 7 12 1 (i / windows) (i % windows) (now c) false) (setJct { c.jct with hard := insAsc c.jct.hard (bank + i) } c)) c0

/-- The indexes at which two placements' timetables differ (R215). -/
def ttDiff (a b : Placement) : List Nat :=
  (distinct (tkeys a.tt ++ tkeys b.tt)).filter (fun i => tget ttNone a.tt i ≠ tget ttNone b.tt i)

/-- `SELECT` or the `ALT` field in force is restored (R218): from the protection function's state, or from the copy of the
placement. -/
def selRestore (g field : Nat) (c : Chip) : Chip :=
  match c.prot.groups.lookup g with
  | none => c
  | some x =>
    if field = 0 then updSel g (fun s => if s.badSel then { s with badSel := false, select := if x.decided.isSome then s.select else x.select } else s) c
    else updSel g (fun s => { s with badAlt := false }) c

/-- Every selector field found uncorrectable is restored at the boundary (R218). -/
def selRestoreAll (c : Chip) : Chip :=
  forEach (tkeys (c.jct.sel.filter (fun e => e.2.badSel || e.2.badAlt))) (fun g c => selRestore g 1 (selRestore g 0 c)) c

/-- Lost flits of ticks whose data no window delivers any more are forgotten (R20). -/
def flitsAge (n : Nat) (c : Chip) : Chip :=
  setJct { c.jct with lostSrc := c.jct.lostSrc.filter (fun e => n ≤ e.2 + 1), lostEgr := c.jct.lostEgr.filter (fun e => n ≤ e.2) } c

/-- Source berths, egress berths and express entries an island holds (R220). -/
def jctUse (p : Placement) (isl : Nat) : Nat × Nat × Nat :=
  let ts := p.tribs.filter (fun e => e.2.island = isl)
  let s := (ts.map (fun e => e.2.src.length)).foldl (· + ·) 0 + (p.carriers.filter (fun e => e.2.srcIsl = isl)).length
  let g := (ts.map (fun e => e.2.egr.length)).foldl (· + ·) 0 + (p.carriers.filter (fun e => e.2.egrIsl = isl)).length
  let x := (p.tt.filter (fun e => e.1 / windows = isl && bitAt e.2 38)).length
  (s, g, x)

/-- `JCT_STAT` takes the values of the tick that ends (R220). -/
def jctPublish (old : Placement) (c : Chip) : Chip :=
  let use := if old.tribs = [] && old.carriers = [] then [] else ((upto 64).map (fun i => (i, jctUse old i))).filter (fun e => e.2 ≠ (0, 0, 0))
  setJct { c.jct with pubStat := c.jct.stat, pubUse := use } c

/-- A `JCT_STAT` entry (R220). -/
def jctWord (c : Chip) (i : Nat) : BitVec 256 :=
  let x := tget jctDflt c.jct.pubStat i
  let u := tget (0, 0, 0) c.jct.pubUse i
  let seq := now c % 65536
  BitVec.ofNat 256 (packN [(16, seq), (48, x.corr.toNat), (48, x.subst.toNat), (32, x.lost.toNat), (48, x.bufUncorr.toNat), (14, u.1), (14, u.2.1), (11, u.2.2), (9, 0), (16, seq)])

/-- A `TIMETABLE` entry (R199). -/
def ttWord (c : Chip) (bank idx : Nat) : BitVec 64 :=
  let active := bank = bnat c.cm.activeBank
  if c.jct.hard.contains (bankSize * bank + idx) || c.jct.unc.contains (bankSize * bank + idx) then BitVec.ofNat 64 (2 ^ 40)
  else BitVec.ofNat 64 (tget ttNone (if active then c.img.place.tt else c.img.shadow.tt) idx).toNat

/-- A `PROT_SEL` entry (R209). -/
def selWord (c : Chip) (g : Nat) : BitVec 64 :=
  let x := getSel c g
  let alt (p : Placement) : List (Nat × Nat) := match p.alt.lookup g with | some a => [(1, 1), (6, a.1), (14, a.2)] | none => [(21, 0)]
  let b0 := if c.cm.activeBank then c.img.shadow else c.img.place
  let b1 := if c.cm.activeBank then c.img.place else c.img.shadow
  BitVec.ofNat 64 (packN ([(16, x.switches.toNat), (4, 0), (1, bnat x.select)] ++ alt b1 ++ alt b0 ++ [(1, 0)]))

/-- A `BERTH_OWNER` entry (R204). -/
def berthOwnerWord (p : Placement) (isl w dir : Nat) : Word :=
  match p.tribs.find? (fun e => e.2.island = isl && (if dir = 0 then e.2.src else e.2.egr).contains w) with
  | some e => reg32 [(1, 1), (1, 0), (13, 0), (17, e.1 % 0x20000)]
  | none => match p.carriers.find? (fun e => if dir = 0 then e.2.srcIsl = isl && e.2.srcB = w else e.2.egrIsl = isl && e.2.egrB = w) with
    | some e => reg32 [(1, 1), (1, 1), (13, 0), (17, e.1)]
    | none => 0

/-! ### Causeways -/

def cwyDflt : CwySt := { used := 0, badNow := 0, failed := false, uncorr := 0, retrans := 0 }
def getCwy (c : Chip) (q : Nat) : CwySt := tget cwyDflt c.cwy q
def updCwy (q : Nat) (f : CwySt → CwySt) (c : Chip) : Chip := { c with cwy := tupd cwyDflt c.cwy q f }

/-- The egress windows whose data a source window of the active bank feeds. -/
def readersOf (c : Chip) (isl w : Nat) : List (Nat × Nat) :=
  (c.img.place.tt.filter (fun e => entValid e.2 && entSource c c.img.place e.2 = some (isl, w))).map (fun e => (e.1 / windows, e.1 % windows))

/-- A berth flit that cannot be corrected (R20): counted, the berth of its window delivered as zeros, and the data of the
tributaries it carried errored. -/
def flitLost (q dir isl w : Nat) (c : Chip) : Chip :=
  let hit := if dir = 0 then ((readersOf c isl w).map (fun e => egressOwners c.img.place e.1 e.2)).flatten else egressOwners c.img.place isl w
  let k := (windows * isl + w, now c)
  let j := if dir = 0 then { c.jct with lostSrc := k :: c.jct.lostSrc } else { c.jct with lostEgr := k :: c.jct.lostEgr }
  forEach hit markErrored (countEvent 0x041 q 1 (updCwy q (fun x => { x with uncorr := x.uncorr + 1 }) (setJct j c)))

/-- The tributaries whose egress a failed hub causeway cuts off emit their replacement signal at once (R21). -/
def cwyReplace (q : Nat) (c : Chip) : Chip :=
  forEach ((c.img.place.tribs.filter (fun e => e.2.island / 16 = q && crossesJunction c e.1 e.2)).map (·.1)) (fun t => updCtx t (fun x => { x with repl := true })) c

/-- A causeway fails or is restored, at boundary or tick n (R21). -/
def cwyFail (q n : Nat) (c : Chip) : Chip := cwyReplace q (causewayRoot q n true (updCwy q (fun x => { x with failed := true }) c))

/-- A lane is declared bad (R21): beyond the spares the causeway fails. -/
def laneBad (q : Nat) (c : Chip) : Chip :=
  let c1 := updCwy q (fun x => { x with badNow := x.badNow + 1 }) c
  let x := getCwy c1 q
  if 2 < x.used + x.badNow && !x.failed then cwyFail q (now c) c1 else c1

/-- Spares replace the lanes declared bad, while there are any (R21, step 5 of R60). -/
def substituteLanes (q : Nat) (c : Chip) : Chip :=
  updCwy q (fun x => { x with used := min 2 (x.used + x.badNow), badNow := x.used + x.badNow - 2 }) c

/-- Step 5 of R60. -/
def cwyBoundary (c : Chip) : Chip := forEach (tkeys c.cwy) substituteLanes c

/-- A failed causeway carries traffic again (R21). -/
def cwyRestore (q n : Nat) (c : Chip) : Chip := causewayRoot q n false (updCwy q (fun x => { x with failed := false, badNow := 0 }) c)

/-! ### Commands -/

/-- EGRESS_WINDOW_SERVE (R200). -/
def execEgressWindowServe (isl w eccActive eccOther eccData eccSel : Nat) (s : State) : Host.Outcome State Fault Refusal :=
  .next (onChip (fun c => when (onImage c && isl < 64 && w < windows) (egressServe isl w eccActive eccOther eccData eccSel) c) s)

/-- TIMETABLE_SHADOW_SCRUB (R217). -/
def execTimetableShadowScrub (hard : List Nat) (s : State) : Host.Outcome State Fault Refusal :=
  .next (onChip (fun c => when (onImage c && !c.cm.pending) (shadowScrub hard) c) s)

/-- PROT_SEL_RESTORE (R218). -/
def execProtSelRestore (g field : Nat) (s : State) : Host.Outcome State Fault Refusal :=
  .next (onChip (fun c => when (onImage c) (selRestore g field) c) s)

/-- CAUSEWAY_FLIT_UNCORRECTABLE (R20). -/
def execCausewayFlitUncorrectable (q dir isl w : Nat) (s : State) : Host.Outcome State Fault Refusal :=
  .next (onChip (fun c => when (awake c && q < 4 && isl / 16 = q && w < windows) (flitLost q dir isl w) c) s)

/-- CAUSEWAY_RETRANSMISSION (R20). -/
def execCausewayRetransmission (q : Nat) (s : State) : Host.Outcome State Fault Refusal :=
  .next (onChip (fun c => when (awake c && q < 8) (fun c => countEvent 0x042 q 1 (updCwy q (fun x => { x with retrans := x.retrans + 1 }) c)) c) s)

/-- CAUSEWAY_LANE_BAD (R21). -/
def execCausewayLaneBad (q : Nat) (s : State) : Host.Outcome State Fault Refusal :=
  .next (onChip (fun c => when (awake c && q < 8) (laneBad q) c) s)

/-- SPARE_LANE_SUBSTITUTION (R21). -/
def execSpareLaneSubstitution (q : Nat) (s : State) : Host.Outcome State Fault Refusal :=
  .next (onChip (fun c => when (awake c && q < 8) (substituteLanes q) c) s)

/-- CAUSEWAY_RESTORED (R21). -/
def execCausewayRestored (q : Nat) (s : State) : Host.Outcome State Fault Refusal :=
  .next (onChip (fun c => when (awake c && q < 8 && (getCwy c q).failed) (cwyRestore q (now c)) c) s)

end Sys2Proof.Machine
end

