-- ==== Sys2Proof/Machine/Settings.lean ====
section
/-!
DEFINITION. Boot records, slots and settings of the boot flash (R392 to R394, R410 to R414), keys and their commands.
-/
namespace Sys2Proof.Machine
open Sys2Proof

def setUpd (u : UpdSt) (c : Chip) : Chip := { c with upd := u }

/-- `BUNDLE_STAGE` (R395). -/
def bundleStage : Nat := 0x0B280000
def bundleStageSize : Nat := 131072

/-- Bytes of `BUNDLE_STAGE`. -/
def staged (mem : List Host.Cell) (n : Nat) : List Byte := readBytes 0 mem bundleStage (min n bundleStageSize)

/-- Bytes written into `BUNDLE_STAGE` by the part. -/
def stageWrite (l : List Byte) (mem : List Host.Cell) : List Host.Cell := writeBytes 0 mem bundleStage (l.take bundleStageSize)

/-! ### Boot record -/

/-- The boot record in force (R394). -/
def recInForce (u : UpdSt) : Option BootRec :=
  match u.rec0, u.rec1 with
  | some a, some b => if a.seq < b.seq then some b else some a
  | some a, none => some a
  | none, b => b

/-- Write a boot record into the copy that is not in force, its sequence one greater (R394). -/
def writeRec (r : BootRec) (u : UpdSt) : UpdSt :=
  let r1 := { r with seq := ((recInForce u).map (·.seq + 1)).getD 1 }
  let zero : Bool := match u.rec0, u.rec1 with
    | some a, some b => a.seq < b.seq
    | some _, none => false
    | none, _ => true
  if zero then { u with rec0 := some r1 } else { u with rec1 := some r1 }

/-- `BOOT_SLOT` of the record in force: true for slot B. -/
def bootSlot (u : UpdSt) : Bool := match recInForce u with | some r => r.slot | none => false

def slotOf (u : UpdSt) (b : Bool) : SlotSt := if b then u.slotB else u.slotA
def setSlot (b : Bool) (x : SlotSt) (u : UpdSt) : UpdSt := if b then { u with slotB := x } else { u with slotA := x }

/-- The inactive slot; slot A where no boot record names one. -/
def otherSlot (u : UpdSt) : Bool := match recInForce u with | some r => !r.slot | none => false

def inactive (u : UpdSt) : SlotSt := slotOf u (otherSlot u)

/-! ### Header and manifest -/

def hdrTarget (h : List Byte) : Nat := leAt h 4 2
def hdrId (h : List Byte) : Nat := leAt h 8 4
def hdrEpoch (h : List Byte) : Nat := leAt h 12 4
def hdrBody (h : List Byte) : Nat := leAt h 16 4
def hdrChunks (h : List Byte) : Nat := leAt h 20 2
def hdrWraps (h : List Byte) : Nat := leAt h 22 1
def hdrCosigned (h : List Byte) : Bool := leAt h 23 1 % 2 = 1

/-- The header is one R385 allows. -/
def hdrOk (h : List Byte) : Bool :=
  leAt h 0 3 = 0x424B53 && leAt h 3 1 = 1 && hdrTarget h = 0x2304 && 1 ≤ hdrWraps h && hdrWraps h ≤ 64 && 1 ≤ hdrChunks h &&
  hdrChunks h ≤ 960 && ceilDiv (hdrBody h) 65536 = hdrChunks h

/-- Bytes of header, wrap records and signature block (R384). -/
def headBytes (h : List Byte) : Nat := 128 + 160 * hdrWraps h + 192

/-- Plaintext bytes of chunk i (R384). -/
def chunkLen (h : List Byte) (i : Nat) : Nat := if i + 1 < hdrChunks h then 65536 else hdrBody h - 65536 * (hdrChunks h - 1)

/-- The part's fingerprint (R386). -/
def devicePub : List Byte := (upto 96).map Config.devicePubByte
def fingerprint : List Byte := (upto 8).map (Config.sha384Byte devicePub)

/-- The content key of a slot, from the wrap record with the part's fingerprint (R387). -/
def slotKey (x : SlotSt) : Option Nat :=
  match ((upto (hdrWraps x.header)).map (fun i => sub x.head2 (160 * i) 160)).find? (fun w => w.take 8 = fingerprint) with
  | some w => Config.contentKey w
  | none => none

/-- The chunk's tag checks under the slot's key (R388). -/
def chunkGood (x : SlotSt) (i : Nat) (l : List Byte) : Bool :=
  match slotKey x with | some k => Config.chunkOk k x.header i l | none => false

/-- The plaintext body. -/
def plainBody (k : Nat) (x : SlotSt) : List Byte :=
  ((upto (hdrChunks x.header)).map (fun i => (upto (chunkLen x.header i)).map (Config.chunkPlain k x.header i (tget [] x.chunks i)))).flatten

/-- A manifest entry of 64 bytes (R390). -/
def manifOf (l : List Byte) : Manif :=
  { comp := leAt l 0 1, ver := leAt l 2 4, offset := leAt l 6 4, length := leAt l 10 4, ranges := (upto 4).map (fun k => (leAt l (14 + 8 * k) 4, leAt l (18 + 8 * k) 4)), imgMinor := leAt l 46 1 }

/-- The entry of a component. -/
def compOf (l : List Manif) (k : Nat) : Manif := (l.find? (fun m => m.comp = k)).getD manifDflt

/-- A version lies in the range an entry states for a component. -/
def inRange (m : Manif) (k v : Nat) : Bool := let r := m.ranges.getD k (0, 0); r.1 ≤ v && v ≤ r.2

/-- A set of four is compatible (R391). -/
def setOk (l : List Manif) : Bool :=
  (upto 4).all (fun a => (upto 4).all (fun b => a = b || inRange (compOf l a) b (compOf l b).ver))

/-- A running set with its first k components replaced. -/
def mixed (run new : List Manif) (k : Nat) : List Manif := (upto 4).map (fun c => if c < k then compOf new c else compOf run c)

/-- The bundle is compatible with what runs (R391); with nothing running only with itself. -/
def bundleCompat (run new : List Manif) : Bool :=
  setOk (mixed new new 4) &&
  (run = [] || ((upto 5).all (fun k => setOk (mixed run new k)) && inRange (compOf run 2) 2 (compOf new 2).ver &&
    inRange (compOf new 2) 2 (compOf run 2).ver))

/-- The four manifest entries hold each component once (R383). -/
def manifOk (l : List Manif) : Bool := (upto 4).all (fun k => (l.filter (fun m => m.comp = k)).length = 1)

/-! ### Settings -/

/-- The part of the oscillator model the flash keeps (R329, R412). -/
def oscSaved (o : OscSt) : OscSt := { o with fail := false, temp := 0, tempFail := false, badReads := 0, goodReads := 0, unlock := none, learnTo := 0 }

/-- The settings copy with the greater sequence (R412). -/
def settingsRead (u : UpdSt) : Option (Nat × SettingsSt) :=
  match u.set0, u.set1 with
  | some a, some b => if a.1 < b.1 then some b else some a
  | some a, none => some a
  | none, b => b

/-- Rewrite the copy with the lower sequence, one greater (R412). -/
def saveSettings (u : UpdSt) : UpdSt :=
  let n := ((settingsRead u).map (·.1 + 1)).getD 1
  let zero : Bool := match u.set0, u.set1 with
    | some a, some b => a.1 < b.1
    | some _, none => false
    | none, _ => true
  if zero then { u with set0 := some (n, u.live) } else { u with set1 := some (n, u.live) }

/-- The items whose `SET_VER` may change; 0x0002, 0x0003 and 0x0006 keep 1 for the life of the part (R412, R413). -/
def verItems : List Nat := [1, 4, 5]

/-- The signal box's version, and whether its bundle is on trial (R402, R404). -/
def sbVersion (u : UpdSt) : Nat := (compOf u.run 3).ver
def onTrial (u : UpdSt) : Bool := u.act.isSome || (match recInForce u with | some r => r.trial | none => false)

/-- An item as it is kept beside another version. -/
def keepItem (id ver : Nat) (s : SettingsSt) : FormerItem :=
  { id := id, ver := ver, osc := s.osc, healthS := s.healthS, sdAuto := s.sdAuto, allowHit := s.allowHit, legacyPm := s.legacyPm }

/-- An item kept comes into use. -/
def restoreItem (f : FormerItem) (s : SettingsSt) : SettingsSt :=
  let t : SettingsSt := { s with vers := tput s.vers f.id f.ver }
  match f.id with
  | 1 => { t with osc := f.osc }
  | 4 => { t with healthS := f.healthS, sdAuto := f.sdAuto, allowHit := f.allowHit }
  | 5 => { t with legacyPm := f.legacyPm }
  | _ => t

/-- An item at its default (R412). -/
def defaultItem (id : Nat) (s : SettingsSt) : SettingsSt :=
  let t : SettingsSt := { s with vers := tdel s.vers id }
  match id with
  | 1 => { t with osc := settingsDflt.osc }
  | 4 => { t with healthS := settingsDflt.healthS, sdAuto := settingsDflt.sdAuto, allowHit := settingsDflt.allowHit }
  | 5 => { t with legacyPm := settingsDflt.legacyPm }
  | _ => t

/-- The signal box reads one item (R413): the highest version present that it knows; the default where it knows none, which the second
component remembers. -/
def readItem (sb id : Nat) (x : SettingsSt × List Nat) : SettingsSt × List Nat :=
  match x.1.vers.lookup id with
  | none => x
  | some v =>
    let others := x.1.former.filter (fun f => f.id = id)
    let known := (v :: others.map (·.ver)).filter (Config.setKnown sb id)
    let best := known.foldl max 0
    if known = [] then (defaultItem id x.1, x.2 ++ [id])
    else if best = v then x
    else match others.find? (fun f => f.ver = best) with
      | some f => (restoreItem f { x.1 with former := x.1.former.filter (· ≠ f) ++ [keepItem id v x.1] }, x.2)
      | none => x

/-- The settings as a signal box reads them, and the items it reset. -/
def readItems (sb : Nat) (s : SettingsSt) : SettingsSt × List Nat := verItems.foldl (fun x id => readItem sb id x) (s, [])

/-- The version an item is written with (R413). -/
def writesVer (u : UpdSt) (id : Nat) : Nat := if verItems.contains id then Config.setWrites (sbVersion u) id else 1

/-- What is kept beside the items once one is written (R413): on trial the former version of the item; nothing once the bundle is
confirmed. -/
def keptItems (u : UpdSt) (id : Nat) : List FormerItem :=
  if !(onTrial u) then []
  else match u.live.vers.lookup id with
    | some v => if v = writesVer u id then u.live.former else u.live.former ++ [keepItem id v u.live]
    | none => u.live.former

/-- Change an item of the settings in use and save them (R412, R413). -/
def changeSettings (id : Nat) (f : SettingsSt → SettingsSt) (c : Chip) : Chip :=
  let u := c.upd
  setUpd (saveSettings { u with live := { f u.live with vers := tput u.live.vers id (writesVer u id), former := keptItems u id } }) c

/-- The oscillator item follows the models as each refit or `HO_RESET` leaves them (R412). -/
def settingsSync (c : Chip) : Chip :=
  if oscSaved c.tim.osc = c.upd.live.osc then c else changeSettings 1 (fun s => { s with osc := oscSaved c.tim.osc }) c

/-- A key's 96 bytes, most significant first, as R82 has them. -/
def keyBytes (k : BitVec 768) : List Byte := (leBytes 96 k.toNat).reverse
def keyOfBytes (l : List Byte) : BitVec 768 := BitVec.ofNat 768 (beNat l)

/-- The bytes of a settings item (R412); none for one that is unknown or absent. Their layout within an item is the model's
(log 30). -/
def itemBytes (s : SettingsSt) (id : Nat) : Option (List Byte) :=
  match id with
  | 1 => some ((upto 512).map (Config.oscItemByte s.osc.sums s.osc.hours s.osc.order))
  | 2 => some (((upto 4).map (fun k => keyBytes (tget 0 s.imgKeys k))).flatten ++ leBytes 4 (bnat s.imgSig))
  | 3 => some (((upto 2).map (fun k => keyBytes (tget 0 s.opKeys k))).flatten ++ leBytes 4 (bnat s.cosign))
  | 4 => some (leBytes 2 s.healthS ++ leBytes 1 (bnat s.sdAuto) ++ leBytes 1 (bnat s.allowHit) ++ leBytes 4 0)
  | 5 => if s.legacyPm = [] then none else some s.legacyPm
  | 6 => some (leBytes 4 s.wipeFloor)
  | _ => none

/-- `KEY_SET`'s material in `BUNDLE_STAGE`: key, flag word, signature (the model's layout, log 30). -/
def keyMaterial : Nat := 196

/-- Whether R410 accepts a `KEY_SET`: the slot free or the request signed by its key, the flag not taken from 1 unless an
occupied key of the kind signed. -/
def keySetOk (keys : FMap (BitVec 768)) (flag : Bool) (slot : Nat) (key : BitVec 768) (newFlag : Bool) (msg sig : List Byte) : Bool :=
  let old := tget 0 keys slot
  (old = 0 || old = key || Config.ecdsaOk old msg sig) &&
  (!flag || newFlag || keys.any (fun e => Config.ecdsaOk e.2 msg sig))

/-- The reply of an update command; the last reason code follows what was done (R408, R427). -/
def updDone (r1 : Nat) (c : Chip) : Chip := mbReply 0 0 r1 (setUpd { c.upd with lastCode := 0 } c)

/-- `KEY_SET` (R410). -/
def keySet (mem : List Host.Cell) (c : Chip) : Chip :=
  let p0 := mbParam c 0
  let kind := p0 / 16 % 16
  let slot := p0 % 4
  let l := staged mem keyMaterial
  let key := keyOfBytes (l.take 96)
  let newFlag := leAt l 96 4 % 2 = 1
  let msg := leBytes 4 p0 ++ l.take 100
  let sig := sub l 100 96
  let s := c.upd.live
  let keys := if kind = 0 then s.imgKeys else s.opKeys
  let flag := if kind = 0 then s.imgSig else s.cosign
  if keySetOk keys flag slot key newFlag msg sig then
    updDone 0 (changeSettings (if kind = 0 then 2 else 3) (fun s => if kind = 0 then { s with imgKeys := tset 0 s.imgKeys slot key, imgSig := newFlag } else { s with opKeys := tset 0 s.opKeys slot key, cosign := newFlag }) c)
  else mbCode 0x0610 c

/-- Slots of `KEY_SET` (R410): 0 to 3 image, 0 to 1 operator. -/
def keySetParams (c : Chip) : Bool := mbParam c 0 / 16 % 16 = 0 || mbParam c 0 % 4 < 2

/-- An update notice (R409). -/
def updNotice (ty ref bit conseq n : Nat) (c : Chip) : Chip := notify (event ty 0 0 bit ref conseq n false) c

/-- The oscillator models in use are those of item 0x0001 (R329, R412). -/
def oscLoad (c : Chip) : Chip :=
  { c with tim := { c.tim with osc := { c.upd.live.osc with fail := c.tim.osc.fail, temp := c.tim.osc.temp, tempFail := c.tim.osc.tempFail, badReads := c.tim.osc.badReads, goodReads := c.tim.osc.goodReads, unlock := c.tim.osc.unlock, learnTo := c.tim.osc.learnTo } } }

/-- The running signal box reads the settings (R413): an item of which it knows no version is reset, with notice 0x3B. -/
def boxReads (n : Nat) (c : Chip) : Chip :=
  let r := readItems (sbVersion c.upd) c.upd.live
  oscLoad (forEach r.2 (fun id => updNotice 0x3B id 0 0 n) (setUpd { c.upd with live := r.1 } c))

/-- Whether the part accepts a wipe file (R411). -/
def wipeOk (floor : Nat) (l : List Byte) : Bool :=
  l.length = 128 && leAt l 0 3 = 0x574B53 && leAt l 3 1 = 1 && leAt l 4 2 = 0x2304 && sub l 8 8 = fingerprint &&
  floor < leAt l 16 4 && Config.ecdsaOk Config.rootKey (l.take 32) (sub l 32 96)

/-- `KEY_WIPE` (R411). Both settings copies are written. -/
def keyWipe (file : Option (List Byte)) (c : Chip) : Chip :=
  match file with
  | none => mbCode 0x060F c
  | some l =>
    if wipeOk c.upd.live.wipeFloor l then
      let f (s : SettingsSt) : SettingsSt := { s with imgKeys := [], opKeys := [], imgSig := false, cosign := false, wipeFloor := leAt l 16 4 }
      let c1 := changeSettings 6 f c
      let c2 := setUpd (saveSettings c1.upd) c1
      updDone 0 (updNotice 0x3B 3 0 0 (now c) (updNotice 0x3B 2 0 0 (now c) c2))
    else mbCode 0x0610 c

/-- `SETTINGS_WRITE` (R412): item 0x0004 alone is written by it. -/
def settingsWrite (mem : List Host.Cell) (c : Chip) : Chip :=
  let l := staged mem 8
  let h := leAt l 0 2
  if mbParam c 0 = 4 && mbParam c 1 = 8 && 10 ≤ h && h ≤ 600 then
    updDone 0 (changeSettings 4 (fun s => { s with healthS := h, sdAuto := leAt l 2 1 % 2 = 1, allowHit := leAt l 3 1 % 2 = 1 }) c)
  else mbCode 0x0611 c

/-- Whether a mailbox command would be taken up to its own judgement (R427). -/
def mbTaken (code : Nat) (bootFail : Bool) (ok : Chip → Bool) (c : Chip) : Bool :=
  awake c && c.mb.cur.isNone && mbCodes.contains code && mbLegal code c.dev.state bootFail && mbParamsOk code c.dev.state c && ok c

/-- `BOOT_FAIL` is set (R403). -/
def inBootFail (c : Chip) : Bool := c.upd.bootFail ≠ 0

/-- `SETTINGS_READ` (R412), the bytes going to `BUNDLE_STAGE`. -/
def settingsReadOut (c : Chip) : Option (List Byte) := itemBytes c.upd.live (mbParam c 0)

/-- Bytes of the certificate (R386): with the key and the fingerprint it lies whole in `BUNDLE_STAGE` (log 8). -/
def certLen : Nat := min Config.deviceCertLen (bundleStageSize - 104)

/-- The bytes of `DEVICE_KEY` (R386). -/
def deviceKeyBytes : List Byte := devicePub ++ fingerprint ++ (upto certLen).map Config.deviceCertByte

/-- DEVICE_KEY (R386). -/
def deviceKeyCmd (tag : Byte) (s : State) : State :=
  let mem := if mbTaken 0x050 (inBootFail s.c) (fun _ => true) s.c then stageWrite deviceKeyBytes s.mem else s.mem
  { s with c := mbSubmit 0x050 tag (inBootFail s.c) (fun _ => true) (updDone deviceKeyBytes.length) s.c, mem := mem }

/-- SETTINGS_READ (R412). -/
def settingsReadCmd (tag : Byte) (s : State) : State :=
  match settingsReadOut s.c with
  | some l =>
    let mem := if mbTaken 0x058 (inBootFail s.c) (fun _ => true) s.c then stageWrite l s.mem else s.mem
    { s with c := mbSubmit 0x058 tag (inBootFail s.c) (fun _ => true) (updDone l.length) s.c, mem := mem }
  | none => { s with c := mbSubmit 0x058 tag (inBootFail s.c) (fun _ => true) (mbCode 0x0611) s.c }

/-- KEY_SET (R410). -/
def keySetCmd (tag : Byte) (s : State) : State := onChip (mbSubmit 0x057 tag (inBootFail s.c) keySetParams (keySet s.mem)) s

/-- KEY_WIPE (R411). -/
def keyWipeCmd (tag : Byte) (file : Option (List Byte)) (s : State) : State :=
  onChip (mbSubmit 0x05A tag (inBootFail s.c) (fun _ => true) (keyWipe file)) s

/-- SETTINGS_WRITE (R412). -/
def settingsWriteCmd (tag : Byte) (s : State) : State :=
  onChip (mbSubmit 0x059 tag (inBootFail s.c) (fun _ => true) (settingsWrite s.mem)) s

/-! ### Commands -/

/-- DEVICE_KEY (R386). -/
def execDeviceKey (tag : Byte) (s : State) : Host.Outcome State Fault Refusal := .next (deviceKeyCmd tag s)

/-- KEY_SET (R410). -/
def execKeySet (tag : Byte) (s : State) : Host.Outcome State Fault Refusal := .next (keySetCmd tag s)

/-- KEY_WIPE (R411): what the card holds is remembered. -/
def execKeyWipe (tag : Byte) (file : Option (List Byte)) (s : State) : Host.Outcome State Fault Refusal :=
  .next (keyWipeCmd tag file (onChip (fun c => setUpd { c.upd with wipe := file } c) s))

/-- SETTINGS_READ (R395). -/
def execSettingsRead (tag : Byte) (s : State) : Host.Outcome State Fault Refusal := .next (settingsReadCmd tag s)

/-- SETTINGS_WRITE (R412). -/
def execSettingsWrite (tag : Byte) (s : State) : Host.Outcome State Fault Refusal := .next (settingsWriteCmd tag s)

end Sys2Proof.Machine
end

