-- ==== Sys2Proof/Machine/Update.lean ====
section
/-!
DEFINITION. Firmware update (R383 to R409): download, verification, activation, confirmation and fallback.
-/
namespace Sys2Proof.Machine
open Sys2Proof

/-! ### Download and verification -/

/-- `BUNDLE_BEGIN` on given bytes (R396): the reason code and the update state after it. -/
def bundleBegin (l : List Byte) (u : UpdSt) : Nat × UpdSt :=
  let x := inactive u
  if l.length < 128 || !(hdrOk l) || l.length ≠ headBytes l then (0x0601, u)
  else if (x.state = 1 || x.state = 2) && hdrId x.header = hdrId l then
    (0, { u with nextChunk := ((upto (hdrChunks x.header)).find? (fun i => !(chunkGood x i (tget [] x.chunks i)) || tget [] x.chunks i = [])).getD (hdrChunks x.header) })
  else
    (0, { setSlot (otherSlot u) { slotEmpty with state := 1, header := l.take 128, head2 := l.drop 128 } u with nextChunk := 0 })

/-- `BUNDLE_CHUNK` (R396). -/
def bundleChunk (i : Nat) (l : List Byte) (u : UpdSt) : Nat × UpdSt :=
  let x := inactive u
  if x.state ≠ 1 then (0x0601, u)
  else if i ≠ u.nextChunk then (0x0602, u)
  else if !(chunkGood x i l) then (0x0603, u)
  else
    let chunks := tput x.chunks i l
    let state := if i + 1 = hdrChunks x.header then 2 else 1
    (0, { setSlot (otherSlot u) { x with chunks := chunks, state := state } u with nextChunk := i + 1 })

/-- The operator co-signature over the bundle (R389): none needed, one that holds under an operator key, or a failure. -/
def cosignOk (s : SettingsSt) (x : SlotSt) (msg : List Byte) : Bool :=
  let sig := sub x.head2 (160 * hdrWraps x.header + 96) 96
  if hdrCosigned x.header then s.opKeys.any (fun e => Config.ecdsaOk e.2 msg sig) else !s.cosign

/-- Verification of the inactive slot (R398): the first failure, and the manifest. -/
def verifySlot (u : UpdSt) : Nat × List Manif :=
  let x := inactive u
  match slotKey x with
  | none => (0x0604, [])
  | some k =>
    if !((upto (hdrChunks x.header)).all (fun i => chunkGood x i (tget [] x.chunks i))) then (0x0603, [])
    else
      let body := plainBody k x
      let msg := x.header ++ body
      let mf := (upto 4).map (fun i => manifOf (sub body (64 * i) 64))
      if !(Config.ecdsaOk Config.rootKey msg (sub x.head2 (160 * hdrWraps x.header) 96)) then (0x0605, [])
      else if !(cosignOk u.live x msg) then (0x0606, [])
      else if !(manifOk mf) || !(bundleCompat u.run mf) then (0x0607, [])
      else if hdrEpoch x.header < ((recInForce u).map (·.floor)).getD 0 then (0x0608, [])
      else (0, mf)

/-- Verification with what it writes (R398); while `BOOT_FAIL` is set the slot goes into the boot record in trial and BOOT
restarts (R403). -/
def bundleVerify (c : Chip) : Nat × Chip :=
  let u := c.upd
  let x := inactive u
  if !([2, 3, 5].contains x.state) then (0x0601, c)
  else
    let r := verifySlot u
    if r.1 ≠ 0 then (r.1, c)
    else
      let u1 := setSlot (otherSlot u) { x with state := if x.state = 5 then 5 else 3, verified := true, manifest := r.2 } u
      if inBootFail c then
        let b := otherSlot u
        let old := recInForce u
        let u2 := writeRec { slot := b, trial := true, confirmed := 0, bootId := hdrId x.header, fallbackId := 0, floor := (old.map (·.floor)).getD 0, seq := 0 } u1
        (0, setUpd { setSlot b { slotOf u2 b with state := 4 } u2 with bootFail := 0 } c)
      else (0, setUpd u1 c)

/-- The chunks of a file after its head (R397), in order, up to a failure. -/
def fileChunks (l : List Byte) (h : List Byte) : Nat → Nat → UpdSt → Nat × UpdSt
  | 0, _, u => (0, u)
  | f + 1, i, u =>
    if hdrChunks h ≤ i then (0, u)
    else if i < u.nextChunk then fileChunks l h f (i + 1) u
    else
      let r := bundleChunk i (sub l (headBytes h + 65552 * i) (chunkLen h i + 16)) u
      if r.1 ≠ 0 then r else fileChunks l h f (i + 1) r.2

/-- `SD_LOAD` of a file found on the card (R397): download, then verification. -/
def sdLoad (l : List Byte) (c : Chip) : Nat × Chip :=
  let b := bundleBegin (l.take (headBytes l)) c.upd
  if b.1 ≠ 0 then (b.1, c)
  else
    let r := if (inactive b.2).state = 1 then fileChunks l (inactive b.2).header 961 0 b.2 else b
    if r.1 ≠ 0 then (r.1, setUpd r.2 c) else bundleVerify (setUpd r.2 c)

/-- The last reason code (R408). -/
def setCode (k : Nat) (c : Chip) : Chip := setUpd { c.upd with lastCode := k } c

/-- The final result of an update command, with the last reason code (R428). -/
def updEnd (k : Nat) (c : Chip) : Chip := updFinal k (setCode k c)

/-- An activation or a D command of the group is under way (R407, R428). -/
def updBusy (c : Chip) : Bool := c.upd.act.isSome || c.mb.finalUpd.pending

/-- A judged command on the update state alone: refused while an activation runs, else its code. -/
def updJudge (f : UpdSt → Nat × UpdSt) (c : Chip) : Chip :=
  if updBusy c then mbCode 0x060A c
  else
    let r := f c.upd
    if r.1 ≠ 0 then mbCode r.1 c else updDone 0 (setUpd r.2 c)

/-- `BUNDLE_ABORT` (R395). -/
def bundleAbort (u : UpdSt) : Nat × UpdSt := (0, { setSlot (otherSlot u) slotEmpty u with nextChunk := 0 })

/-! ### Activation -/

/-- Free 4 KiB depot regions of an island in the placement in force (R399). -/
def freeRegions (c : Chip) (isl : Nat) : Nat :=
  let bad := unionRegions (getIsl c isl)
  let ts := c.img.place.tribs.filter (fun e => e.2.island = isl)
  let ends : List (Nat × Nat) := (c.img.place.carriers.map (fun (e : Nat × Carrier) => [(e.2.srcIsl, e.2.base0), (e.2.egrIsl, e.2.base1)])).flatten.filter (fun e => e.1 = isl)
  let used : List (Nat × Nat) := (ts.map (fun e => (e.2.base, e.2.units))) ++ (ends.map (fun e => (e.2, 4)))
  let units := used.foldl (fun m e => m ||| ((2 ^ e.2 - 1) <<< e.1))
    (depotFixed bad ||| badUnits bad)
  let recs := (ts.map (fun e => e.2.pm)).flatten
  ((upto 1024).filter (fun r => (units >>> (16 * r)) % 65536 = 0 && !(recs.any (fun a => a / 4096 = r || (a + 159) / 4096 = r)))).length

/-- Islands that carry traffic: a list of theirs holds work. -/
def busyIslands (c : Chip) : List Nat := distinct ((c.img.place.items.filter (fun e => e.2 ≠ [])).map (fun e => e.1 / 16))

/-- Why `BUNDLE_ACTIVATE` is refused (R399), 0 where it is taken on. -/
def activateRefused (c : Chip) : Nat :=
  let x := inactive c.upd
  if updBusy c then 0x060A
  else if !(x.verified && (x.state = 3 || x.state = 5)) then 0x0601
  else if c.cm.pending then 0x060A
  else if (match c.img.image with
      | some im => (compOf x.manifest 3).imgMinor < im.minor || (im.sec 3).any (fun e => !(Config.mcHas (compOf x.manifest 2).ver (tribFunc e.2)))
      | none => false) then 0x0609
  else if !c.upd.live.allowHit && (busyIslands c).any (fun i => sidingsFree c i = 0) then 0x060B
  else if ((upto 64).map (freeRegions c)).foldl (· + ·) 0 < 8192 then 0x060C
  else 0

/-- DPLL states and selections, lanes locked, transmit powers (R402). -/
def dpStates (c : Chip) : List (Nat × Nat) := c.tim.dps.map (fun e => (e.2.state, e.2.sel))
def lockedLanes (c : Chip) : List Nat := (c.line.lanes.filter (fun e => e.2.rx = .locked)).map (·.1)
def lanePowers (c : Chip) : FMap Nat := (c.line.lanes.filter (fun e => e.2.txPower ≠ 0)).map (fun e => (e.1, e.2.txPower.toNat))

/-- Overruns and heartbeat deaths counted so far (R402). -/
def engineTrouble (c : Chip) : Nat := c.eng.foldl (fun a e => a + e.2.total.toNat + (if e.2.cause = 2 then 1 else 0)) 0

/-- Engines of an island that load new microcode in the tick a migration starts (R401). -/
def idleMask (c : Chip) (isl : Nat) : BitVec 16 :=
  BitVec.ofNat 16 (((upto 16).filter (fun k => let r := (getEng c (16 * isl + k)).role; r = roleSiding || r = roleIdle)).foldl setAdd 0)

/-- Change the activation under way. -/
def updAct (f : ActSt → ActSt) (c : Chip) : Chip := setUpd { c.upd with act := c.upd.act.map f } c

/-- A component's hand-over starts at n (R400, R401). -/
def beginHand (comp n : Nat) (c : Chip) : Chip :=
  let c1 := updAct (fun a => { a with comp := comp, phase := 0, since := n, goodFrom := none }) c
  if comp = 2 then updAct (fun a => { a with mcNew := (upto 64).map (fun i => (i, idleMask c1 i)), mcDone := [], mcHits := [], mcStart := n, mcAt := n }) c1
  else if comp = 3 then { c1 with dev := { c1.dev with sbDown := true }, upd := { c1.upd with blob := 8192 } }
  else c1

/-- `BUNDLE_ACTIVATE` taken on (R399). -/
def activate (tag : Byte) (c : Chip) : Chip :=
  let u := c.upd
  let b := otherSlot u
  let x := slotOf u b
  let old := recInForce u
  let r : BootRec := { slot := b, trial := true, confirmed := 0, bootId := hdrId x.header, fallbackId := (old.map (·.bootId)).getD 0, floor := (old.map (·.floor)).getD 0, seq := 0 }
  let u1 := writeRec r u
  let u2 := setSlot (!b) { slotOf u1 (!b) with state := if (slotOf u1 (!b)).state = 4 then 3 else (slotOf u1 (!b)).state } (setSlot b { x with state := 4 } u1)
  let a : ActSt := { fallback := false, trial := false, comp := 0, phase := 0, handed := 0, confirmed := 0, since := now c, goodFrom := none, dps := dpStates c, lanes := lockedLanes c, power := lanePowers c, trouble := 0, mcNew := [], mcDone := [], mcHits := [], mcStart := 0, mcAt := 0, old := u.run }
  mbCode 0 (updTake tag (beginHand 0 (now c) (setUpd { u2 with act := some a } c)))

/-- A lit lane's transmit power lies within 1 dB of another (R402): the ratios 10 to the ± 0.1, to six places. -/
def withinDb (base v : Nat) : Bool := base * 794328 ≤ v * 1000000 && v * 1000000 ≤ base * 1258925

/-- The component's criterion holds at a boundary (R402). -/
def criterion (a : ActSt) (c : Chip) : Bool :=
  match a.comp with
  | 0 => c.line.lasers.all (fun e => !e.2.recal) && a.lanes.all (fun l => let x := tget laneDflt c.line.lanes l; x.rx = .locked || x.los) &&
      a.power.all (fun e => let v := (tget laneDflt c.line.lanes e.1).txPower.toNat; v = 0 || withinDb e.2 v)
  | 1 => (a.dps.zip (dpStates c)).all (fun e => e.1.1 = e.2.1 || e.1.2 ≠ e.2.2 || e.2.1 = 4)
  | 2 => engineTrouble c = a.trouble
  | _ => !c.dev.sbDown && (c.img.image.isNone || placeDigest c.img.place = c.cm.digest)

/-- The criterion is watched at each boundary (R402): unbroken since `goodFrom`. -/
def watchAct (n : Nat) (c : Chip) : Chip :=
  updAct (fun a => if a.phase = 1 then { a with goodFrom := if criterion a c then some (a.goodFrom.getD n) else none, lanes := if a.comp = 0 then lockedLanes c else a.lanes } else a) c

/-- The versions running change in one component. -/
def runComp (m : Manif) (run : List Manif) : List Manif := (run.filter (fun x => x.comp ≠ m.comp)) ++ [m]

/-- The signal box is back after its hand-over: the reply that waited goes out, notices are formed (R431, R243). -/
def boxUp (c : Chip) : Chip :=
  let c1 := { c with dev := { c.dev with sbDown := false } }
  drainNotices (match c1.mb.held with | some r => mbDeliver r c1 | none => c1)

/-- Fallback is complete (R403). -/
def fallbackEnd (n : Nat) (c : Chip) : Chip :=
  let u := c.upd
  let b := otherSlot u
  let x := slotOf u b
  updEnd 0x060D (updNotice 0x3A (hdrId x.header % 131072) 1 0x060D n (setUpd { setSlot b { x with state := 5 } u with act := none, blob := 0 } c))

/-- A component's hand-over ends (R400): it is on probation, or in a fallback the one before it follows. -/
def handEnd (n : Nat) (c : Chip) : Chip :=
  match c.upd.act with
  | none => c
  | some a =>
    let c0 := if a.comp = 3 then boxUp c else c
    let new := (slotOf c.upd (bootSlot c.upd)).manifest
    let m := if a.fallback then compOf a.old a.comp else compOf new a.comp
    let c1 := setUpd { c0.upd with run := runComp m c0.upd.run } c0
    let c2 := if a.comp = 3 then boxReads n { c1 with cm := { c1.cm with placeRev := Config.placeRev m.ver } } else c1
    if a.fallback then
      let c3 := updAct (fun a => { a with handed := a.handed &&& (15 - 2 ^ a.comp) }) c2
      if a.comp = 0 then fallbackEnd n c3 else beginHand (a.comp - 1) n c3
    else updAct (fun a => { a with handed := a.handed ||| 2 ^ a.comp, phase := 1, since := n, goodFrom := some n, trouble := engineTrouble c2 }) c2

/-- All islands have migrated (R401). -/
def mcDoneAll (a : ActSt) : Bool := (upto 64).all a.mcDone.contains

/-- One island's migration step at boundary n (R401): a free siding with the new microcode takes the lowest list still on the
old; with no siding at all the list is rebound with a hit. -/
def migrateIsland (n isl : Nat) (c : Chip) : Chip :=
  match c.upd.act with
  | none => c
  | some a =>
    let new := tget 0 a.mcNew isl
    let isNew (e : Nat) : Bool := bitAt new (e % 16)
    let left := (getIsl c isl).bind.filter (fun b => (getEng c b.2).role = roleWork && !(isNew b.2))
    let mark (e : Nat) (c : Chip) : Chip := updAct (fun a => { a with mcNew := tput a.mcNew isl (tget 0 a.mcNew isl ||| BitVec.ofNat 16 (1 <<< (e % 16))) }) c
    match left with
    | [] =>
      if a.mcDone.contains isl then c
      else
        let h := tget 0 a.mcHits isl
        let c1 := updAct (fun a => { a with mcDone := insAsc a.mcDone isl }) c
        if h = 0 then c1 else updNotice 0x39 isl 0 h n c1
    | (l, e) :: _ =>
      let sid := enginesIn c isl roleSiding
      match sid.find? isNew with
      | some s => mark e (toSiding e (bindList isl l s c))
      | none =>
        if sid ≠ [] then forEach sid mark c
        else
          let c1 := updIsl isl (fun x => { x with starts := tput x.starts l (n + 1) }) (bindList isl l e c)
          let c2 := forEach (if onImage c then listTribs c isl l else []) markUnfinished c1
          updAct (fun a => { a with mcHits := tput a.mcHits isl (tget 0 a.mcHits isl + 1) }) (mark e c2)

/-- A migration step is due at boundary n. -/
def mcDue (n : Nat) (c : Chip) : Bool :=
  match c.upd.act with | some a => a.comp = 2 && a.phase = 0 && a.mcAt < n | none => false

/-- The migration steps of boundary n, withheld in islands where a death is found (R401, R405); then its end. -/
def mcStep (withheld : List Nat) (n : Nat) (c : Chip) : Chip :=
  if !(mcDue n c) then c
  else
    let c1 := updAct (fun a => { a with mcAt := n }) c
    let c2 := forEach ((upto 64).filter (fun i => !(withheld.contains i))) (migrateIsland n) c1
    match c2.upd.act with
    | some a => if mcDoneAll a then handEnd n c2 else c2
    | none => c2

/-- The activation is complete (R399 step 3). -/
def activated (n : Nat) (c : Chip) : Chip :=
  let u := c.upd
  match recInForce u with
  | none => c
  | some r =>
    let x := slotOf u r.slot
    let u1 := writeRec { r with trial := false, confirmed := 15, floor := max r.floor (hdrEpoch x.header) } u
    updEnd 0 (updNotice 0x3A (hdrId x.header % 131072) 0 0 n (setUpd { u1 with act := none, blob := 0 } c))

/-- The component on probation has held its criterion for 80,000 ticks (R402). -/
def confirmDue (n : Nat) (c : Chip) : Bool :=
  match c.upd.act with
  | some a => a.phase = 1 && !a.fallback && (match a.goodFrom with | some g => g + 80000 ≤ n | none => false)
  | none => false

/-- It confirms (R402, R409). -/
def confirm (n : Nat) (c : Chip) : Chip :=
  match c.upd.act with
  | none => c
  | some a =>
    let c1 := updNotice 0x38 a.comp 0 ((compOf c.upd.run a.comp).ver % 65536) n (updAct (fun a => { a with confirmed := a.confirmed ||| 2 ^ a.comp }) c)
    if a.comp = 3 then activated n c1 else beginHand (a.comp + 1) n c1

/-- The health window has run out (R402, R403). -/
def healthDue (n : Nat) (c : Chip) : Bool :=
  match c.upd.act with
  | some a => a.phase = 1 && !a.fallback && a.since + c.upd.live.healthS * 8000 ≤ n && !(confirmDue n c)
  | none => false

/-- The record that names the former slot again (R403). -/
def formerRec (u : UpdSt) : UpdSt :=
  match recInForce u with
  | none => u
  | some r =>
    let u1 := writeRec { r with slot := !r.slot, trial := false, confirmed := 15, bootId := hdrId (slotOf u (!r.slot)).header, fallbackId := r.bootId } u
    setSlot r.slot { slotOf u1 r.slot with state := 3 } (setSlot (!r.slot) { slotOf u1 (!r.slot) with state := 4 } u1)

/-- Fallback starts: the record first, then the components in reverse order (R403). -/
def fallBack (n : Nat) (c : Chip) : Chip :=
  match c.upd.act with
  | none => c
  | some a => beginHand a.comp n (updAct (fun a => { a with fallback := true }) (setUpd (formerRec c.upd) c))

/-- What a boundary does to an activation after its migration step. -/
def actBoundary (n : Nat) (c : Chip) : Chip :=
  if c.upd.act.isNone then c
  else
    let c1 := watchAct n c
    if confirmDue n c1 then confirm n c1 else if healthDue n c1 then fallBack n c1 else c1

/-! ### Registers -/

/-- `UPD_STATUS` (R408). -/
def updStatusWord (c : Chip) : Word :=
  let u := c.upd
  let r := recInForce u
  let trial : Nat := match r with | some x => bnat x.trial | none => 0
  let conf : Nat := match u.act, r with | some a, _ => a.confirmed | none, some x => x.confirmed | none, none => 0
  reg32 [(3, (inactive u).state), (1, bnat (bootSlot u)), (1, trial), (1, bnat u.act.isSome),
    (4, match u.act with | some a => a.handed | none => 0), (4, conf), (2, match u.act with | some a => a.comp | none => 0), (16, u.lastCode)]

/-- `UPD_PROGRESS` (R408). -/
def updProgressWord (c : Chip) : Word :=
  let x := inactive c.upd
  reg32 [(12, 0), (10, c.upd.nextChunk), (10, if x.state = 1 || x.state = 2 then hdrChunks x.header else 0)]

/-! ### Mailbox commands -/

def anyOk (_ : Chip) : Bool := true

/-- BUNDLE_BEGIN (R396). -/
def bundleBeginCmd (tag : Byte) (s : State) : State :=
  onChip (mbSubmit 0x051 tag (inBootFail s.c) anyOk (fun c => updJudge (bundleBegin (staged s.mem (mbParam c 0))) c)) s

/-- BUNDLE_CHUNK (R396). -/
def bundleChunkCmd (tag : Byte) (s : State) : State :=
  onChip (mbSubmit 0x052 tag (inBootFail s.c) anyOk (fun c =>
    updJudge (fun u => bundleChunk (mbParam c 0) (staged s.mem (chunkLen (inactive u).header (mbParam c 0) + 16)) u) c)) s

/-- BUNDLE_ABORT (R395). -/
def bundleAbortCmd (tag : Byte) (s : State) : State := onChip (mbSubmit 0x056 tag (inBootFail s.c) anyOk (updJudge bundleAbort)) s

/-- SD_LOAD (R397): taken on where the file is found; its final result follows in the same step (log 31). -/
def sdLoadCmd (tag : Byte) (file : Option (List Byte)) (s : State) : State :=
  onChip (mbSubmit 0x053 tag (inBootFail s.c) anyOk (fun c =>
    if updBusy c then mbCode 0x060A c
    else match file with
      | none => mbCode 0x060F c
      | some l => let r := sdLoad l (mbCode 0 (updTake tag c)); updEnd r.1 r.2)) s

/-- BUNDLE_VERIFY (R398). -/
def bundleVerifyCmd (tag : Byte) (s : State) : State :=
  onChip (mbSubmit 0x054 tag (inBootFail s.c) anyOk (fun c =>
    if updBusy c then mbCode 0x060A c
    else if !([2, 3, 5].contains (inactive c.upd).state) then mbCode 0x0601 c
    else let r := bundleVerify (mbCode 0 (updTake tag c)); updEnd r.1 r.2)) s

/-- BUNDLE_ACTIVATE (R399). -/
def bundleActivateCmd (tag : Byte) (s : State) : State :=
  onChip (mbSubmit 0x055 tag (inBootFail s.c) anyOk (fun c =>
    let k := activateRefused c
    if k ≠ 0 then mbCode k c else activate tag c)) s

/-- The part loads from the card by itself (R397). -/
def sdAuto (c : Chip) : Chip :=
  if c.upd.live.sdAuto && !(updBusy c) then
    match c.upd.file with
    | some l => let r := sdLoad l c; setCode r.1 r.2
    | none => setCode 0x060F c
  else c

/-! ### Commands -/

/-- BUNDLE_BEGIN (R396). -/
def execBundleBegin (tag : Byte) (s : State) : Host.Outcome State Fault Refusal := .next (bundleBeginCmd tag s)

/-- BUNDLE_CHUNK (R396). -/
def execBundleChunk (tag : Byte) (s : State) : Host.Outcome State Fault Refusal := .next (bundleChunkCmd tag s)

/-- SD_LOAD (R397): what the card holds is remembered. -/
def execSdLoad (tag : Byte) (file : Option (List Byte)) (s : State) : Host.Outcome State Fault Refusal :=
  .next (sdLoadCmd tag file (onChip (fun c => setUpd { c.upd with file := file } c) s))

/-- SD_CARD_INSERTED (R397). -/
def execSdCardInserted (file : Option (List Byte)) (s : State) : Host.Outcome State Fault Refusal :=
  .next (onChip (fun c =>
    let c1 := setUpd { c.upd with cardIn := true, file := file } c
    when (awake c && (c.dev.state != .boot || inBootFail c)) sdAuto c1) s)

/-- BUNDLE_VERIFY (R398). -/
def execBundleVerify (tag : Byte) (s : State) : Host.Outcome State Fault Refusal := .next (bundleVerifyCmd tag s)

/-- BUNDLE_ACTIVATE (R399). -/
def execBundleActivate (tag : Byte) (s : State) : Host.Outcome State Fault Refusal := .next (bundleActivateCmd tag s)

/-- BUNDLE_ABORT (R395). -/
def execBundleAbort (tag : Byte) (s : State) : Host.Outcome State Fault Refusal := .next (bundleAbortCmd tag s)

/-- COMPONENT_HANDOVER_END (R400): the microcode's ends by migration alone. -/
def execComponentHandoverEnd (s : State) : Host.Outcome State Fault Refusal :=
  .next (onChip (fun c => match c.upd.act with
    | some a => when (a.phase = 0 && (a.comp ≠ 2 || mcDoneAll a)) (handEnd (now c)) c
    | none => c) s)

/-- MC_MIGRATION_STEP (R401). -/
def execMcMigrationStep (s : State) : Host.Outcome State Fault Refusal := .next (onChip (fun c => mcStep [] (now c) c) s)

/-- COMPONENT_CONFIRMED (R402). -/
def execComponentConfirmed (s : State) : Host.Outcome State Fault Refusal :=
  .next (onChip (fun c => when (confirmDue (now c) c) (confirm (now c)) c) s)

/-- HEALTH_WINDOW_EXPIRY (R403). -/
def execHealthWindowExpiry (s : State) : Host.Outcome State Fault Refusal :=
  .next (onChip (fun c => when (healthDue (now c) c) (fallBack (now c)) c) s)

end Sys2Proof.Machine
end

