-- ==== Sys2Proof/Machine/Pair.lean ====
section
/-!
DEFINITION. Twin parts (R354 to R382): tablet, lease, interlock, Hokua, release, takeover, mirror, drill.
-/
namespace Sys2Proof.Machine
open Sys2Proof

def setPair (p : PairSt) (c : Chip) : Chip := { c with pair := p }
def setMirror (m : MirrorSt) (c : Chip) : Chip := setPair { c.pair with mirror := m } c

/-- The pairing record of the committed image (R77). -/
def pairRec (c : Chip) : Rec := ((theImage c).getRec 5 0x10000).getD 0

/-- The pairing record of the image in hand: the committed one, or before the first commit that of the image that passed
validation, which R371 compares between twins in STARTING (DEDUCED, log 35). -/
def handRec (c : Chip) : Rec :=
  match c.img.image with
  | some _ => pairRec c
  | none => match c.cm.change with
    | some k => (match k.image with | some im => (im.getRec 5 0x10000).getD 0 | none => 0)
    | none => 0

/-- The PAIR_ID strap (R474). -/
def pairStrap (c : Chip) : Bool := bitAt c.power.straps 0

/-- The fingerprint as an unsigned number, byte 0 most significant (R355). -/
def ownFp : Nat := beNat fingerprint

/-- The effective PAIR_ID (R355): where the straps are equal, high on the part with the greater fingerprint. -/
def pairHigh (c : Chip) : Bool :=
  if c.pair.strapMis then (match c.pair.twin.fp with | some f => f.toNat < ownFp | none => pairStrap c) else pairStrap c

/-- The committed image's sequence. -/
def imgSeq (c : Chip) : Nat := (theImage c).seq

/-- This part drives INTLK_OUT (R361). -/
def drives (c : Chip) : Bool := c.pair.holder && !c.pair.hubBad

/-- A mirror with no region held (R374); the journalled writes stay held for a takeover (R373). -/
def mirrorReset (c : Chip) : Chip :=
  let m := c.pair.mirror
  setMirror { m with regions := [], full := false, lastRec := none, stale := false, seq := imgSeq c, digest := c.cm.digest } c

/-- A pairing notice (R382). -/
def pairNotice (ty bit n : Nat) (clear : Bool) (c : Chip) : Chip := notify (event ty 0 0 bit 0 (c.pair.epoch % 262144) n clear) c

/-! ### Hokua -/

/-- The header's fields as sent (R365). -/
def hokuaHead (n : Nat) (c : Chip) : List Nat := [n, c.pair.epoch, c.pair.msgSeq, imgSeq c, devCode c.dev.state, bnat c.pair.holder, bnat (pairStrap c)]

/-- The bit of `TYPE_MASK` for a message type (R483). -/
def typeBit (kind : Nat) : Nat := if kind < 0x10 then kind - 1 else kind - 0x10 + 9

/-- A running strait slot looks at a message: every n-th one it selects is hit (R483). -/
def straitSlot (kind : Nat) (x : InjSlot) : Bool × InjSlot :=
  if !(x.running && injKind x = 3 && bitAt x.param (typeBit kind)) then (false, x)
  else
    let x1 := { x with seen := x.seen + 1 }
    let hit := 0 < bits x.param 16 8 && x1.seen % bits x.param 16 8 = 0
    (hit, if hit then injEvents 1 x1 else x1)

/-- A further message has gone out: the late ones come nearer, and those due follow it (R488). -/
def lateStep (c : Chip) : Chip :=
  forEach (tkeys c.dep.inj) (fun k c =>
    let l := (tget injDflt c.dep.inj k).late.map (fun m => (m.1, m.2.1 - 1, m.2.2))
    let out := l.filter (fun m => m.2.1 = 0)
    forEach out (fun m => emit (.hokua m.1 m.2.2)) (updInj k (fun x => { x with late := l.filter (fun m => m.2.1 ≠ 0) }) c)) c

/-- A message passes the strait injections (R480, R486): dropped, held back, sent with a bad FCS, or sent. -/
def straitSend (kind : Nat) (words : List Nat) (c : Chip) : Chip :=
  let hits := (c.dep.inj.filter (fun e => (straitSlot kind e.2).1)).map (fun e => (e.1, injAction e.2))
  let c1 := forEach (tkeys c.dep.inj) (fun k => updInj k (fun x => (straitSlot kind x).2)) c
  if hits.any (fun h => h.2 = 0) then c1
  else match hits.find? (fun h => h.2 = 2) with
    | some h => updInj h.1 (fun x => { x with late := x.late ++ [(kind, bits x.param 24 4, words)] }) c1
    | none => lateStep (emit (if hits.any (fun h => h.2 = 1) then .hokuaBad kind words else .hokua kind words) c1)

/-- Send a message (R364, R366) at tick n. -/
def hokua (kind : Nat) (body : List Nat) (n : Nat) (c : Chip) : Chip :=
  let c1 := countEvent 0x070 0x1FF 1 (straitSend kind (hokuaHead n c ++ body) c)
  setPair { c1.pair with msgSeq := (c.pair.msgSeq + 1) % 4294967296 } c1

/-- The release conditions that stand (R363): 3 an orphaned list, 4 an undeliverable entry, 5 loss of T0, 6 a hub causeway. -/
def ownConds (c : Chip) : List Nat :=
  (if c.isl.any (fun e => e.2.orphans.any (fun l => listItems c e.1 l ≠ [])) then [3] else []) ++
  (if c.jct.lostTick.isSome then [4] else []) ++
  (if c.tim.osc.fail || c.tim.osc.unlock.isSome then [5] else []) ++
  (if (upto 4).any (fun q => (getCwy c q).failed) then [6] else [])

/-- `READY` (R363, R366). -/
def ownReady (c : Chip) : Bool := onImage c && ownConds c = [] && !c.pair.hubBad

/-- No mismatch and a whole mirror: a takeover now would be warm (R374, R375). -/
def warmOk (c : Chip) : Bool := c.pair.mirror.full && !c.pair.placeMis

/-- The part's own fault map, of the islands that have something out (R366). -/
def ownMap (c : Chip) : List (Nat × Nat × List Nat) :=
  (upto 64).filterMap (fun i => let x := getIsl c i; if x.engOut = 0 && x.regions = [] then none else some (i, x.engOut.toNat, x.regions))

/-- The fault map as sent (R366): after each `HELLO`, and at each change. -/
def faultMapSend (n : Nat) (c : Chip) : Chip :=
  let c1 := hokua 0x07 ((upto 64).map (fun i => (getIsl c i).engOut.toNat) ++ ((upto 64).map (fun i => (getIsl c i).regions)).flatten) n c
  setPair { c1.pair with mapSent := ownMap c } c1

/-- `HELLO` (R366). -/
def helloSend (n : Nat) (c : Chip) : Chip :=
  let c1 := hokua 0x01 ([c.cm.digest.toNat, c.cm.placeRev.toNat] ++ ((upto 4).map (fun k => (compOf c.upd.run k).ver)) ++
    [(handRec c).toNat % 2 ^ 128, bnat c.pair.unproven + 2 * bnat c.pair.yielded + 4 * bnat (ownReady c), ownFp]) n c
  faultMapSend n (setPair { c1.pair with helloAt := n, lanesUp := true } c1)

/-- `STATUS` (R366). -/
def statusSend (n : Nat) (c : Chip) : Chip :=
  let p := c.pair
  hokua 0x02 [bnat (ownReady c) + 2 * bnat (ownConds c ≠ []) + 4 * bnat p.unproven + 8 * bnat (warmOk c) + 16 * bnat p.intlk.present + 32 * bnat p.echo.present,
    p.mirror.lastGen, p.mirror.lastRec.getD 0] n c

/-- What every valid message shows (R355, R357, R364, R365); a change of the twin's `IMG_SEQ` ends the mirror (R374). -/
def hokuaSeen (h : HokuaHdr) (c0 : Chip) : Chip :=
  let c := if h.imgSeq = c0.pair.twin.imgSeq then c0 else mirrorReset c0
  let p := c.pair
  let strap := some h.pairId
  countEvent 0x071 0x1FF 1 <| setPair { p with lastMsg := now c, seen := max p.seen h.epoch, strapMis := p.strapMis || h.pairId == pairStrap c, twin := { p.twin with state := h.devState, holder := h.holder, epoch := h.epoch, imgSeq := h.imgSeq, strap := strap } } c

/-- The twin tick offset, from a message sent at `tx` that has travelled for `late` ticks. -/
def twinOffset (tx late : Nat) (c : Chip) : Int := (tx : Int) + late - (now c : Int)

/-- Where a change of the image or digest on either part ends the mirror (R374). -/
def mirrorCheck (c : Chip) : Chip :=
  if c.pair.placeMis || c.pair.mirror.seq ≠ imgSeq c || c.pair.mirror.digest ≠ c.cm.digest then mirrorReset c else c

/-- `HELLO` received (R355, R364, R366, R367, R406): the link is up, straps, digests and records are compared. -/
def helloReceived (h : HokuaHdr) (b : HelloBody) (c0 : Chip) : Chip :=
  let c := hokuaSeen h c0
  let p := c.pair
  let sbDiff := b.vers.getD 3 0 ≠ BitVec.ofNat 32 (compOf c.upd.run 3).ver
  let place := b.rev ≠ c.cm.placeRev.toNat || b.digest ≠ c.cm.digest || h.imgSeq ≠ imgSeq c || sbDiff
  let cfg := b.pairRec ≠ BitVec.ofNat 128 (handRec c).toNat
  let role := bits b.pairRec 56 2
  let proven := p.twin.unproven && !b.unproven
  let c1 := setPair { p with linkUp := true, lanesUp := true, gaveOnce := if p.linkUp then p.gaveOnce else false, yielded := if p.linkUp then p.yielded else false, strapMis := h.pairId = pairStrap c, placeMis := place, cfgMis := cfg && handRec c ≠ 0, twin := { p.twin with fp := some b.fp, role := role, unproven := b.unproven, ready := b.ready }, twinTick := twinOffset h.txTick 0 c } c
  let c2 := when proven (pairNotice 0x35 1 (now c) false) c1
  mirrorCheck c2

/-- A holder reads in the standby's `STATUS` that its last complete journal record is the one it showed before: a record was missing or
incomplete, and a new generation starts at the next boundary (R374). -/
def journalStuck (b : StatusBody) (c : Chip) : Bool :=
  c.pair.holder && c.pair.twin.state = 7 && b.lastJournal ≠ 0 && b.lastJournal = c.pair.mirror.twinRec && c.pair.twin.statTick ≠ some (now c)

/-- `STATUS` received (R363, R374). -/
def statusReceived (h : HokuaHdr) (b : StatusBody) (c0 : Chip) : Chip :=
  let c := hokuaSeen h c0
  let proven := c.pair.twin.unproven && !b.unproven
  let m := c.pair.mirror
  let c1 := setPair { c.pair with mirror := { m with twinRec := b.lastJournal, again := m.again || journalStuck b c }, twin := { c.pair.twin with ready := b.ready, unproven := b.unproven, warm := b.warm, statTick := some (now c) } } c
  when proven (pairNotice 0x35 1 (now c) false) c1

/-- The twin is ready to take (R363). -/
def twinReady (c : Chip) : Bool :=
  let t := c.pair.twin
  t.state = 7 && t.ready && t.imgSeq = imgSeq c &&
  (match t.statTick with | some k => now c ≤ k + pairLease (pairRec c) | none => false)

/-! ### Lease -/

/-- The holder's lease end (R358). -/
def holderEnd (c : Chip) : Nat := c.pair.acked + pairLease (pairRec c)

/-- The standby's view of it. -/
def standbyEnd (c : Chip) : Nat := (c.pair.renewed.getD c.pair.entered) + pairLease (pairRec c)

/-- A renewal is due at boundary n and not yet sent (R358). -/
def renewDue (n : Nat) (c : Chip) : Bool :=
  c.pair.holder && paired c && c.pair.acq ≤ n && (n - c.pair.acq) % pairRenew (pairRec c) = 0 && c.pair.renewAt < n

/-- `LEASE_RENEW` is sent. -/
def renewSend (n : Nat) (c : Chip) : Chip :=
  let c1 := hokua 0x03 [] n c
  setPair { c1.pair with renewAt := n, sends := ((c.pair.msgSeq, n) :: c1.pair.sends).take 4096 } c1

/-- `LEASE_RENEW` received: recorded by a standby, answered (R358). -/
def renewReceived (h : HokuaHdr) (c0 : Chip) : Chip :=
  let c := hokuaSeen h c0
  let c1 := if c.dev.state = .standby then setPair { c.pair with renewed := some (now c), released := none } c else c
  hokua 0x04 [h.seq] (now c) c1

/-- `LEASE_ACK` received: the lease follows the latest acknowledged renewal, and the twin tick offset is measured. -/
def ackReceived (h : HokuaHdr) (seq : Nat) (c0 : Chip) : Chip :=
  let c := hokuaSeen h c0
  match c.pair.sends.lookup seq with
  | none => c
  | some t => setPair { c.pair with acked := max c.pair.acked t, sends := c.pair.sends.filter (fun e => t < e.2), twinTick := twinOffset h.txTick ((now c - t) / 2) c } c

/-! ### Giving up and taking the tablet -/

/-- The part gives the tablet up and goes dark (R357, R363, R378): code of `LAST_RELEASE`. From RUNNING it becomes standby; R33 has no such
move from HANDOVER, where the installation goes on (log 15). -/
def giveUp (code n : Nat) (c : Chip) : Chip :=
  let c1 := hokua 0x05 [code] n c
  let c2 := setPair { c1.pair with holder := false, lastRel := code, renewed := none, entered := n, released := none, tieRun := 0, run := 0, retAt := none, withheld := [] } { c1 with dev := { c1.dev with lit := false } }
  pairNotice 0x31 code n false (when (c2.dev.state = .running) (setDev .standby) (when c.pair.holder (setInt 5) c2))

/-- The tablet is acquired at n with a `TAKEN` mode (R357, R359): the epoch passes every epoch seen. -/
def acquire (mode n : Nat) (c : Chip) : Chip :=
  let p := c.pair
  let c1 := setPair { p with holder := true, epoch := (max p.epoch p.seen + 1) % 4294967296, acq := n, acked := n, renewAt := 0, sends := [], mode := mode, run := 0, withheld := [] } c
  pairNotice 0x30 mode n false (when (paired c1) (hokua 0x06 [mode] n) (when (!p.holder) (setInt 5) c1))

/-- Twice holding was seen: on the interlock (0) or by epoch (1) (R370). -/
def dualSeen (how n : Nat) (c : Chip) : Chip :=
  if c.pair.dualTold then setPair { c.pair with dual := true } c
  else pairNotice 0x34 how n false (setPair { c.pair with dual := true, dualTold := true } c)

/-- INTLK_IN was present throughout the tick that ends; released throughout; ECHO_IN present throughout. -/
def inThroughout (x : LoopIn) : Bool := x.present && !x.sawOff
def outThroughout (x : LoopIn) : Bool := !x.present && !x.sawOn

/-- A tie lost on the interlock (R355, R357): `YIELDED` on the second while the link is down. -/
def tieLost (n : Nat) (c : Chip) : Chip :=
  let again := c.pair.gaveOnce && !c.pair.linkUp
  let c1 := giveUp 0xA n c
  setPair { c1.pair with gaveOnce := !c.pair.linkUp || c.pair.gaveOnce, yielded := c1.pair.yielded || again } c1

/-- The twin holds at an equal epoch. -/
def equalHolder (c : Chip) : Bool := c.pair.twin.holder && c.pair.twin.epoch = c.pair.epoch

/-- The holder's lease ends at boundary n without an echo, and the policy is to yield (R360). -/
def yieldDue (n : Nat) (c : Chip) : Bool :=
  c.pair.holder && paired c && holderEnd c ≤ n && !(inThroughout c.pair.echo) && pairYield (pairRec c)

/-- The holder yields. -/
def yieldNow (n : Nat) (c : Chip) : Chip := let c1 := giveUp 9 n c; setPair { c1.pair with yielded := true } c1

/-- Withheld releases begin and end (R363, R382). -/
def withhold (conds : List Nat) (n : Nat) (c : Chip) : Chip :=
  let c1 := forEach (conds.filter (fun k => !(c.pair.withheld.contains k))) (fun k c => pairNotice 0x33 k n false (setPair { c.pair with withheld := insAsc c.pair.withheld k } c)) c
  forEach (c1.pair.withheld.filter (fun k => !(conds.contains k))) (fun k c => pairNotice 0x33 k n true (setPair { c.pair with withheld := c.pair.withheld.filter (· ≠ k) } c)) c1

/-- Self-diagnosed release at boundary n (R363). -/
def selfRelease (n : Nat) (c : Chip) : Chip :=
  if !(c.pair.holder && paired c && c.dev.state = .running) then c
  else
    match ownConds c with
    | [] => withhold [] n c
    | k :: t => if twinReady c then giveUp k n c else withhold (k :: t) n c

/-- Hub health is lost (R362): INTLK_OUT drops and every transmitter goes dark at once. -/
def hubLost (c : Chip) : Chip := setPair { c.pair with hubBad := true, run := 0 } { c with dev := { c.dev with lit := false } }

/-- A boundary with the synthesiser locked restores hub health (R362); a paired holder that lost it has given up the tablet,
an unpaired one lights again. -/
def hubBoundary (n : Nat) (c : Chip) : Chip :=
  let c1 := if c.tim.osc.unlock.isSome && !c.pair.hubBad then hubLost c else c
  let c2 := if c1.pair.hubBad && c1.pair.holder && paired c1 && inState [.running, .handover] c1 then giveUp 8 n c1 else c1
  if c2.pair.hubBad && c2.tim.osc.unlock.isNone then
    setPair { c2.pair with hubBad := false } (if c2.dev.state = .running then { c2 with dev := { c2.dev with lit := true } } else c2)
  else c2

/-! ### Takeover -/

/-- Fields of a mirrored PM record (R257 to R261). -/
def bin15Of (v : Nat) : PmBin := { part := v.testBit 63, late := v.testBit 62, uas := v / 2 ^ 52 % 1024, ses := v / 2 ^ 42 % 1024, es := v / 2 ^ 32 % 1024, bbe := v % 2 ^ 32 }
def bin24Of (v : Nat) : PmBin := { part := v.testBit 95, late := v.testBit 94, uas := v / 2 ^ 66 % 131072, ses := v / 2 ^ 49 % 131072, es := v / 2 ^ 32 % 131072, bbe := v % 2 ^ 32 }
def exOf (v : Nat) : PmEx := { pos := v / 2 ^ 40 % 2 ^ 24, neg := v / 2 ^ 16 % 2 ^ 24, int := v % 65536 }

/-- A PM record as its bytes give it; what `WORK` holds starts afresh. -/
def pmRecOf (r : BitVec 1280) : PmRecSt :=
  let at_ (byte w : Nat) : Nat := bits r (8 * byte) w
  let slots (n base step w : Nat) (f : Nat → PmBin) : FMap PmBin := ((upto n).map (fun j => (j, f (at_ (base + step * j) w)))).filter (fun e => e.2 ≠ binDflt)
  { recDflt with
    ne := { endDflt with avail := bitAt r (1152 + 127), run := bits r (1152 + 122) 4, b15 := slots 5 0 16 64 bin15Of, b24 := slots 2 80 24 96 bin24Of },
    fe := { endDflt with avail := bitAt r (1152 + 126), run := bits r (1152 + 118) 4, b15 := slots 5 8 16 64 bin15Of, b24 := slots 2 92 24 96 bin24Of },
    ex0 := exOf (at_ 128 64), ex1 := exOf (at_ 136 64) }

/-- The current bins of both ends become PARTIAL (R375). -/
def partBins (c : Chip) (r : PmRecSt) : PmRecSt :=
  let f (e : PmEndSt) : PmEndSt := { e with b15 := tupd binDflt e.b15 (c.pm.quarter % 5) (fun b => { b with part := true }), b24 := tupd binDflt e.b24 (c.pm.day % 2) (fun b => { b with part := true }) }
  { r with ne := f r.ne, fe := f r.fe }

/-- Thresholds a taken record already stands at are not notified again. -/
def toldBins (c : Chip) (k : Nat) (r : PmRecSt) : PmRecSt :=
  match profileOf c k with
  | some p => { r with ne := { r.ne with told := crossed c p r.ne }, fe := { r.fe with told := crossed c p r.fe } }
  | none => r

/-- One mirrored item is installed (R372). -/
def installItem (i : MirrorItem) (c : Chip) : Chip :=
  match i with
  | .prot g state standing wtr hold remote =>
    updGrp g (fun x => { x with state := state, loc := if remote then x.loc else state, standing := standing, wtr := wtr, remote := remote, w := { x.w with hold := hold }, p := { x.p with hold := hold } }) c
  | .pm k rec => updRec k (fun _ => toldBins c k (pmRecOf rec)) c
  | .trace e tx exp format tim =>
    { c with line := { c.line with trace := match c.line.trace.lookup e with
        | some x => tput c.line.trace e { x with tx := tx, exp := exp, format := format, timMode := tim }
        | none => tput c.line.trace e { tx := tx, exp := exp, acc := 0, accValid := false, format := format, timMode := tim, txEff := 0, cand := 0, run := 0 } } }
  | .ctx t pos neg unf range => updCtx t (fun x => { x with pos := pos, neg := neg, unfinished := unf, range := range }) c

/-- The complete journal records that follow a capture, up to the first gap (R375). -/
def jnlRun (records : List JnlRec) : Nat → Nat → List JnlRec
  | 0, _ => []
  | f + 1, t => match records.find? (fun r => r.tick = t) with
    | some r => r :: jnlRun records f (t + 1)
    | none => []

/-- The items of a region as a takeover finds them: its copy, then the journalled changes that follow its capture. -/
def regionItems (m : MirrorSt) (key : Nat) (r : RegionSt) : List MirrorItem :=
  r.items ++ ((jnlRun m.records m.records.length r.capture).map (fun j => (j.changes.filter (fun ch => ch.1 * 16777216 + ch.2.1 = key)).map (·.2.2))).flatten

/-- The journalled register writes, with `PM_ORIGIN` translated by the twin tick offset (R375). -/
def installWrite (off : Nat) (v : Word) (c : Chip) : Chip :=
  match off with
  | 0x3080 => { c with dfx := { c.dfx with ctrl := { c.dfx.ctrl with wr := v } } }
  | 0x3084 => { c with dfx := { c.dfx with corr := { c.dfx.corr with wr := v } } }
  | 0x30A4 => setPm { c.pm with ctrl := { c.pm.ctrl with wr := v } } c
  | 0x3090 => setPm { c.pm with originLo := v } c
  | 0x3094 =>
    let own := ((v.toNat * 4294967296 + c.pm.originLo.toNat : Nat) : Int) - c.pair.twinTick
    let o := (own % (2 ^ 64 : Nat)).toNat
    setPm { c.pm with originLo := BitVec.ofNat 32 o, originHi := BitVec.ofNat 32 (o / 4294967296), armed := some o } c
  | _ => c

/-- A journalled `PROT_CMD` (R375). -/
def installCmd (v : Word) (c : Chip) : Chip :=
  let g := bits v 0 16
  match c.prot.groups.lookup g, protRec c g with
  | some x, some r => if judgeCmd x (bits v 16 3) = 0 then updGrp g (fun x => applyCmd r x (bits v 16 3)) c else c
  | _, _ => c

/-- A group's selector follows its adopted state (R375). -/
def adoptSel (n g : Nat) (c : Chip) : Chip :=
  match c.prot.groups.lookup g with
  | none => c
  | some x =>
    let sel := selectsP x.state
    updGrp g (fun x => { x with select := sel, decided := some n }) c

/-- The capture of the region that holds a group's state (R372). -/
def groupCapture (m : MirrorSt) (g : Nat) : Nat :=
  match m.regions.find? (fun e => e.2.items.any (fun i => match i with | .prot k _ _ _ _ _ => k = g | _ => false)) with
  | some e => e.2.capture
  | none => 0

/-- A journalled command of a tick follows the capture of its group's region, with no gap between (R375). -/
def cmdFollows (m : MirrorSt) (t : Nat) (v : Word) : Bool :=
  (jnlRun m.records m.records.length (groupCapture m (bits v 0 16))).any (fun j => j.tick = t)

/-- The journal records whose register writes a takeover makes (R373, R375): every one held up to the first gap that follows the oldest
capture. -/
def heldRecords (m : MirrorSt) : List JnlRec :=
  match m.regions with
  | [] => []
  | (_, r) :: l =>
    let first := l.foldl (fun a e => min a e.2.capture) r.capture
    m.records.filter (fun j => j.tick < first + (jnlRun m.records m.records.length first).length)

/-- The warm state of a takeover (R375). -/
def installWarm (c : Chip) : Chip :=
  let m := c.pair.mirror
  let c1 := forEach ((m.regions.map (fun e => regionItems m e.1 e.2)).flatten) installItem c
  let c2 := setPm { c1.pm with recs := c1.pm.recs.map (fun e => (e.1, partBins c1 e.2)) } c1
  forEach (heldRecords m) (fun j c => forEach (j.cmds.filter (cmdFollows m j.tick)) installCmd (forEach j.writes (fun w => installWrite w.1 w.2) c)) c2

/-- The cold state (R375): points as if added at n, groups in NR-W. -/
def installCold (n : Nat) (c : Chip) : Chip :=
  let c1 := setPm { c.pm with recs := c.pm.recs.map (fun e => (e.1, freshRec c n)) } c
  forEach (tkeys c1.prot.groups) (fun g c => match protRec c g with
    | some r => updSel g (fun s => { s with select := false }) (updGrp g (fun _ => grpNew r n) c)
    | none => c) c1

/-- A standby or claimant takes the tablet at boundary n (R359, R376, R379). -/
def takeOver (mode n : Nat) (c : Chip) : Chip :=
  let warm := warmOk c
  let c1 := acquire (if mode = 0 then (if warm then 1 else 2) else mode) n c
  let c2 := setPair { c1.pair with handAt := n, warm := warm, released := none } c1
  setDev .handover (if warm then c2 else installCold n c2)

/-- A standby may take the tablet at boundary n (R359, R363). A RELEASE that arrived in an earlier tick stands until INTLK_IN
has been released for a whole tick (R378; DEDUCED, log 35). -/
def takeDue (n : Nat) (c : Chip) : Bool :=
  c.dev.state = .standby && paired c && !c.pair.yielded && ownConds c = [] && !c.pair.hubBad && outThroughout c.pair.intlk &&
  (standbyEnd c + pairGuard (pairRec c) ≤ n || (match c.pair.released with | some t => t < n | none => false))

/-- The mode of a takeover that is due: 5 where a drill released the tablet (R366). -/
def takeMode (c : Chip) : Nat := if c.pair.released.isSome && c.pair.relCode = 2 then 5 else 0

/-- A takeover ends at boundary T+2 (R33, R376): warm state in place, ports lit, renewals and mirroring begin. A part that gave the tablet up in
HANDOVER is RUNNING with the tablet released, so it goes on to STANDBY at once, dark. -/
def handoverDue (n : Nat) (c : Chip) : Bool := c.dev.state = .handover && c.pair.handAt + 2 ≤ n

def handoverComplete (n : Nat) (c : Chip) : Chip :=
  let c1 := if c.pair.warm then
      let c0 := installWarm c
      forEach (tkeys c0.prot.groups) (adoptSel n) c0
    else c
  let c2 := if c1.pair.holder then setDev .running { c1 with dev := { c1.dev with lit := !c1.pair.hubBad } } else setDev .standby (setDev .running c1)
  let ret := if c2.pair.mode = 5 && c2.pair.drillRet ≠ 0 then some (n + 8000 * c2.pair.drillRet) else none
  let c3 := mirrorReset c2
  setPair { c3.pair with retAt := ret, drillIn := none, run := 0, mirror := { c3.pair.mirror with records := [] } } c3

/-- TABLET_CLAIM at its boundary (R379): a part that has taken the tablet since acceptance takes nothing again. -/
def claimStep (n : Nat) (c : Chip) : Chip :=
  match cmdWaiting 0x041 n c with
  | none => c
  | some _ =>
    if c.pair.intlk.present || c.pair.intlk.sawOn then mbReply 0 1 0 c
    else
      let c1 := setPair { c.pair with yielded := false } c
      mbReply 0 0 0 (if c.dev.state = .standby then takeOver 4 n c1 else c1)
where
  /-- A mailbox command of a code that waits for boundary n. -/
  cmdWaiting (code n : Nat) (c : Chip) : Option MbCur := (mbHolds code c).filter (fun k => k.accept < n && c.mb.held = none)

/-! ### Start-up -/

/-- The outcome at the commit tick of a first image (R33, R371): true where the part holds the tablet. -/
def startHolds (c : Chip) : Bool :=
  if !(paired c) then true
  else if !c.pair.linkUp || c.pair.twin.holder then false
  else if c.pair.twin.state ≠ 5 then true
  else
    let rank (r : Nat) : Nat := if r = 1 then 2 else if r = 2 then 0 else 1
    let own := rank (pairRole (pairRec c))
    let other := rank c.pair.twin.role
    if own = other then !(pairHigh c) else other < own

/-! ### Drill -/

/-- Why `DRILL` is refused (R378), 0 where it starts. -/
def drillRefused (c : Chip) : Nat :=
  let s := now c + 16
  if !(paired c) then 1
  else if c.pair.drill.isSome then 3
  else if c.cm.pending && s ≤ c.cm.cTick + 16 && c.cm.cTick ≤ s + 16 then 4
  else if !(twinReady c && c.pair.twin.warm) then 2
  else 0

/-- A drill starts in tick A: `DRILL_REQ` names S = A + 16 in the twin's ticks. -/
def drillStart (mailbox : Bool) (ret : Nat) (c : Chip) : Chip :=
  let s := now c + 16
  let c1 := hokua 0x08 [(((s : Int) + c.pair.twinTick) % (2 ^ 64 : Nat)).toNat, ret] (now c) c
  setPair { c1.pair with drill := some { swap := s, ret := ret, acked := false, mailbox := mailbox } } c1

/-- The drill is abandoned (R378): the command's reply is 0x02. -/
def drillAbandon (c : Chip) : Chip :=
  match c.pair.drill with
  | none => c
  | some d =>
    let c1 := setPair { c.pair with drill := none } c
    if d.mailbox && (mbHolds 0x040 c).isSome then mbReply 0 2 0 c1 else c1

/-- The twin's answer, or its absence by S−8. -/
def drillAnswer (ack : Option Bool) (c : Chip) : Chip :=
  match c.pair.drill, ack with
  | some d, some true => setPair { c.pair with drill := some { d with acked := true } } c
  | some _, _ => drillAbandon c
  | none, _ => c

/-- The swap at boundary S. -/
def drillSwap (n : Nat) (c : Chip) : Chip :=
  match c.pair.drill with
  | none => c
  | some d =>
    if n < d.swap then c
    else
      let c1 := setPair { c.pair with drill := none } c
      let c2 := if c1.pair.holder && c1.dev.state = .running then giveUp 2 n c1 else c1
      if d.mailbox && (mbHolds 0x040 c).isSome then mbReply 0 0 0 c2 else c2

/-- At S−8 a drill without an accepting answer is abandoned. -/
def drillDeadline (n : Nat) (c : Chip) : Chip :=
  match c.pair.drill with
  | some d => if !d.acked && d.swap ≤ n + 8 then drillAbandon c else c
  | none => c

/-- `DRILL_REQ` received: a ready standby with a warm mirror accepts. -/
def drillReq (h : HokuaHdr) (swap ret : Nat) (c0 : Chip) : Chip :=
  let c := hokuaSeen h c0
  let ok := c.dev.state = .standby && ownReady c && warmOk c
  hokua 0x09 [bnat (!ok)] (now c) (if ok then setPair { c.pair with drillIn := some (swap, ret), drillRet := ret } c else c)

/-- The swap back is due (R378). -/
def returnDue (n : Nat) (c : Chip) : Bool := match c.pair.retAt with | some t => t ≤ n && c.dev.state = .running && c.pair.holder | none => false

/-- The swap back starts, or is skipped with a release-withheld notice. -/
def drillReturn (n : Nat) (c : Chip) : Chip :=
  let c1 := setPair { c.pair with retAt := none, drillRet := 0 } c
  if twinReady c1 && c1.pair.twin.warm then drillStart false 0 c1 else pairNotice 0x33 2 n false c1

/-! ### Mirroring -/

/-- Regions of a generation (R372): as many as are in use, at most the full configuration. -/
def genRegions (c : Chip) : Nat := min 755712 (Config.genRegions c.cm.digest)

/-- Regions the holder may send in a tick (R372, R469). -/
def genPace (c : Chip) : Nat := if c.power.throt ≠ [] then 340 else 1357

/-- The holder mirrors (R367, R372). -/
def mirrors (c : Chip) : Bool := c.pair.holder && paired c && c.dev.state = .running && c.pair.linkUp && !c.pair.placeMis

/-- A generation starts at boundary n. -/
def genStart (n : Nat) (c : Chip) : Chip :=
  let m := c.pair.mirror
  if !(mirrors c) || (m.active && !m.again) then c
  else
    let k := genRegions c
    hokua 0x10 [m.gen + 1, k, k * 4144, n] n (setMirror { m with gen := m.gen + 1, active := true, sent := 0, sentTick := 0, startAt := n, again := false } c)

/-- The generation ends once its last region is sent. -/
def genEnd (c : Chip) : Chip :=
  let m := c.pair.mirror
  if m.active && genRegions c ≤ m.sent then hokua 0x12 [m.gen, m.sent, now c] (now c) (setMirror { m with active := false, lastGen := m.gen } c) else c

/-- The next `k` regions are captured and sent, within the tick's pace. -/
def genSend (k : Nat) (c : Chip) : Chip :=
  let m := c.pair.mirror
  let j := min k (min (genRegions c - m.sent) (genPace c - m.sentTick))
  if !(mirrors c) || !m.active then c
  else genEnd (when (j ≠ 0) (fun c => hokua 0x11 [m.gen, m.sent, j, now c] (now c) (setMirror { c.pair.mirror with sent := m.sent + j, sentTick := m.sentTick + j } (countEvent 0x072 0x1FF j c))) c)

/-- The journal record of the last tick is sent (R373). -/
def jnlSend (c : Chip) : Chip :=
  let m := c.pair.mirror
  if mirrors c then hokua 0x13 ([now c - 1] ++ (m.lastWrites.map (fun w => [w.1, w.2.toNat])).flatten ++ m.lastCmds.map (·.toNat)) (now c) c else c

/-- A region arrives whole (R374). -/
def genReceived (h : HokuaHdr) (gen cls region capture : Nat) (items : List MirrorItem) (c0 : Chip) : Chip :=
  let c := hokuaSeen h c0
  let m := c.pair.mirror
  if c.dev.state ≠ .standby || c.pair.placeMis || h.imgSeq ≠ imgSeq c then c
  else setMirror { m with active := true, gen := gen, regions := tput m.regions (cls * 16777216 + region) { gen := gen, capture := capture, items := items } } c

/-- A generation has arrived whole (R374): every region of it is held. -/
def genDone (h : HokuaHdr) (gen regions : Nat) (c0 : Chip) : Chip :=
  let c := hokuaSeen h c0
  let m := c.pair.mirror
  if c.dev.state ≠ .standby || c.pair.placeMis then c
  else
    let got := (m.regions.filter (fun e => e.2.gen = gen)).length
    if regions ≤ got then setMirror { m with active := false, full := true, lastGen := gen, stale := false } c else setMirror { m with active := false } c

/-- A journal record arrives (R374): kept when complete and next in order, a gap sets `STALE`. -/
def jnlReceived (h : HokuaHdr) (r : JnlRec) (complete : Bool) (c0 : Chip) : Chip :=
  let c := hokuaSeen h c0
  let m := c.pair.mirror
  if c.dev.state ≠ .standby || c.pair.placeMis then c
  else
    let gap : Bool := match m.lastRec with | some t => r.tick ≠ t + 1 | none => false
    if !complete then setMirror { m with stale := true } c
    else setMirror { m with records := m.records ++ [r], lastRec := some r.tick, stale := m.stale || gap } c

/-- Ticks since the last complete record (R381), on this part's clock. -/
def jnlLag (c : Chip) : Nat :=
  match c.pair.mirror.lastRec with
  | some t => (((now c : Int) + c.pair.twinTick) - t).toNat
  | none => now c - c.pair.entered

/-- The mirror is stale at a boundary (R374). -/
def staleDue (c : Chip) : Bool := c.dev.state = .standby && paired c && 64 < jnlLag c && !c.pair.mirror.stale

def setStale (c : Chip) : Chip := setMirror { c.pair.mirror with stale := true } c

/-! ### The link and the boundary -/

/-- The strait link goes down (R364). -/
def linkDown (lanes : Bool) (c : Chip) : Chip := setPair { c.pair with linkUp := false, lanesUp := c.pair.lanesUp && !lanes } c

/-- No valid message in 4 consecutive ticks (R364). -/
def linkTimeout (n : Nat) (c : Chip) : Bool := c.pair.linkUp && c.pair.lastMsg + 4 < n

/-- The degrade causes that stand (R380), as bits 0 mismatch, 1 mirror stale, 2 echo path, 3 interlock path, 4 link down. -/
def degradeCauses (n : Nat) (c : Chip) : Nat :=
  let p := c.pair
  if !(paired c) || !(onImage c) then bnat p.strapMis
  else
    bnat (p.strapMis || p.placeMis || p.cfgMis) + 2 * bnat (p.mirror.stale && c.dev.state = .standby) +
    4 * bnat (p.holder && drives c && p.linkUp && !p.echo.present) +
    8 * bnat (c.dev.state = .standby && !p.intlk.present && p.renewed.isSome && n < standbyEnd c) + 16 * bnat (!p.linkUp)

/-- Protection degraded is notified as its causes come and go (R380, R382). -/
def degradeStep (n : Nat) (c : Chip) : Chip :=
  let d := degradeCauses n c
  let was := c.pair.causes
  forEach (upto 5) (fun k c => if d.testBit k = was.testBit k then c else pairNotice 0x32 k n (was.testBit k) c) (setPair { c.pair with causes := d } c)

/-- Ports that must be lit for a proof (R377). -/
def allLit (c : Chip) : Bool := (imagePorts (theImage c)).all (fun p => portLit c p || !(match (theImage c).getRec 1 p with | some r => portAdmin r | none => false))

/-- The transmit path is proven after 8,000 such ticks (R377). -/
def provenDue (c : Chip) : Bool := c.pair.unproven && 8000 ≤ c.pair.run

def proven (n : Nat) (c : Chip) : Chip := pairNotice 0x35 0 n false (setPair { c.pair with unproven := false } c)

/-- The tie on the interlock, counted for R355. -/
def tieStep (n : Nat) (c : Chip) : Chip :=
  let both := drives c && paired c && inThroughout c.pair.intlk
  let c1 := setPair { c.pair with tieRun := if both then c.pair.tieRun + 1 else 0 } c
  let c2 := if both then dualSeen 0 n c1 else if c1.pair.holder && equalHolder c1 && paired c1 then dualSeen 1 n c1 else setPair { c1.pair with dualTold := false } c1
  if !(c2.pair.holder && paired c2) then c2
  else if (both || equalHolder c2) && pairHigh c2 then tieLost n c2
  else if 8000 ≤ c2.pair.tieRun then tieLost n c2
  else c2

/-- A holder superseded by a higher epoch gives up (R357). -/
def superseded (n : Nat) (c : Chip) : Chip :=
  if c.pair.holder && paired c && c.pair.epoch < c.pair.seen then
    giveUp 1 n (if c.pair.twin.holder then dualSeen 1 n c else c)
  else c

/-- Link, hub, tie-breaks and yield at boundary n (R364, R362, R370, R360). -/
def pairLinks (n : Nat) (c : Chip) : Chip :=
  let c1 := if linkTimeout n c then linkDown false c else c
  let c2 := hubBoundary n c1
  let c3 := tieStep n (superseded n c2)
  if yieldDue n c3 then yieldNow n c3 else c3

/-- The drill's swap, a release of the part's own and a claim at boundary n (R378, R363, R379). -/
def pairReleases (n : Nat) (c : Chip) : Chip := claimStep n (selfRelease n (drillSwap n (drillDeadline n c)))

/-- A takeover and the end of HANDOVER at boundary n (R359, R376). -/
def pairTakes (n : Nat) (c : Chip) : Chip :=
  let c1 := if takeDue n c then takeOver (takeMode c) n c else c
  if handoverDue n c1 then handoverComplete n c1 else c1

/-- The count of lit ticks (R377), and what the interlock lines showed over a whole tick starts anew (R359). -/
def pairMarks (n : Nat) (c : Chip) : Chip :=
  let run := if c.pair.holder && c.dev.state = .running && c.dev.lit && allLit c then c.pair.run + 1 else 0
  let c1 := setPair { c.pair with run := run, intlk := { c.pair.intlk with sawOn := c.pair.intlk.present, sawOff := !c.pair.intlk.present }, echo := { c.pair.echo with sawOn := c.pair.echo.present, sawOff := !c.pair.echo.present } } c
  if provenDue c1 then proven n c1 else c1

/-- The device state changes of boundary n that the pair causes, step 1 of R60. -/
def pairBoundary (n : Nat) (c : Chip) : Chip := pairMarks n (pairTakes n (pairReleases n (pairLinks n c)))

/-- What the part sends at a boundary and after it: renewals, the mirror, HELLO (R358, R366, R372). -/
def pairAfter (n : Nat) (c : Chip) : Chip :=
  let c1 := if returnDue n c then drillReturn n c else c
  let c2 := if staleDue c1 then setStale c1 else c1
  let c3 := setMirror { c2.pair.mirror with sentTick := 0, lastWrites := c2.pair.mirror.writes, lastCmds := c2.pair.mirror.cmds, writes := [], cmds := [] } c2
  let c4 := if renewDue n c3 then renewSend n c3 else c3
  let c5 := genStart n c4
  let c6 := if c5.pair.lanesUp && c5.pair.helloAt + 8000 ≤ n then helloSend n c5 else c5
  let c7 := if c6.pair.lanesUp && ownMap c6 ≠ c6.pair.mapSent then faultMapSend n c6 else c6
  degradeStep n (mirrorCheck c7)

/-! ### Registers -/

/-- `PAIR_STATUS` (R380). -/
def pairStatusWord (c : Chip) : Word :=
  let p := c.pair
  reg32 [(4, p.twin.state), (1, bnat p.holder), (1, bnat p.linkUp), (1, bnat p.intlk.present), (1, bnat p.echo.present), (1, bnat (p.causes ≠ 0)),
    (1, bnat p.yielded), (1, bnat p.unproven), (1, bnat p.twin.unproven), (1, bnat (warmOk c)), (1, bnat p.cfgMis), (1, bnat p.placeMis), (1, bnat p.dual),
    (4, p.lastRel), (5, p.causes), (4, 0), (1, bnat p.strapMis), (1, bnat (pairStrap c)), (1, bnat (paired c))]

/-- `MIRROR_STATUS` (R381). -/
def mirrorStatusWord (c : Chip) : Word :=
  let m := c.pair.mirror
  reg32 [(1, bnat m.active), (1, bnat m.stale), (2, 0), (12, if paired c then ceilDiv (genRegions c * 4096) 1048576 else 0), (16, if paired c then min (jnlLag c) 0xFFFF else 0)]

/-! ### Commands -/

/-- HELLO_SEND (R366): the strait lanes are locked. -/
def execHelloSend (s : State) : Host.Outcome State Fault Refusal := .next (onChip (fun c => when (awake c) (helloSend (now c)) c) s)

/-- HELLO_RECEIVED (R355). -/
def execHelloReceived (h : HokuaHdr) (b : HelloBody) (s : State) : Host.Outcome State Fault Refusal :=
  .next (onChip (when (awake s.c) (helloReceived h b)) s)

/-- STATUS_SEND (R366): once in a tick. -/
def execStatusSend (s : State) : Host.Outcome State Fault Refusal :=
  .next (onChip (fun c => if awake c && c.pair.lanesUp && !(isDone 7 c) then markDone 7 (statusSend (now c) c) else c) s)

/-- STATUS_RECEIVED (R363). -/
def execStatusReceived (h : HokuaHdr) (b : StatusBody) (s : State) : Host.Outcome State Fault Refusal :=
  .next (onChip (when (awake s.c) (statusReceived h b)) s)

/-- LEASE_RENEW_SEND (R358). -/
def execLeaseRenewSend (s : State) : Host.Outcome State Fault Refusal :=
  .next (onChip (fun c => when (renewDue (now c) c) (renewSend (now c)) c) s)

/-- LEASE_RENEW_RECEIVED (R358). -/
def execLeaseRenewReceived (h : HokuaHdr) (s : State) : Host.Outcome State Fault Refusal :=
  .next (onChip (when (awake s.c) (renewReceived h)) s)

/-- LEASE_ACK_RECEIVED (R358). -/
def execLeaseAckReceived (h : HokuaHdr) (seq : Nat) (s : State) : Host.Outcome State Fault Refusal :=
  .next (onChip (when (awake s.c) (ackReceived h seq)) s)

/-- RELEASE_RECEIVED (R359): one that carries the holder's current epoch. -/
def releaseReceived (h : HokuaHdr) (code : Nat) (c0 : Chip) : Chip :=
  let cur := c0.pair.seen
  let c := hokuaSeen h c0
  if cur ≤ h.epoch then setPair { c.pair with released := some (now c), relCode := code, twin := { c.pair.twin with holder := false } } c else c

def execReleaseReceived (h : HokuaHdr) (code : Nat) (s : State) : Host.Outcome State Fault Refusal :=
  .next (onChip (when (awake s.c) (releaseReceived h code)) s)

/-- TAKEN_RECEIVED (R357): the header's epoch is what supersedes a holder at the next boundary. -/
def execTakenReceived (h : HokuaHdr) (_mode : Nat) (s : State) : Host.Outcome State Fault Refusal :=
  .next (onChip (when (awake s.c) (hokuaSeen h)) s)

/-- FAULT_MAP_RECEIVED (R367). -/
def faultMapReceived (h : HokuaHdr) (engines : List (Nat × BitVec 16)) (regions : List (Nat × Nat)) (c0 : Chip) : Chip :=
  let c := hokuaSeen h c0
  forEach (upto 64) (fun i c => updIsl i (fun x => { x with twinOut := tget 0 engines i, twinRegions := ((regions.filter (fun r => r.1 = i)).map (·.2)).foldl insAsc [], twinMerged := true }) c) c

def execFaultMapReceived (h : HokuaHdr) (engines : List (Nat × BitVec 16)) (regions : List (Nat × Nat)) (s : State) :
    Host.Outcome State Fault Refusal :=
  .next (onChip (when (awake s.c) (faultMapReceived h engines regions)) s)

/-- STRAIT_LINK_DOWN (R364). -/
def execStraitLinkDown (lanes : Bool) (s : State) : Host.Outcome State Fault Refusal :=
  .next (onChip (fun c => when (awake c && (lanes || linkTimeout (now c) c)) (linkDown lanes) c) s)

/-- An input of the interlock changes. -/
def loopSet (present : Bool) (x : LoopIn) : LoopIn := { present := present, sawOn := x.sawOn || present, sawOff := x.sawOff || !present }

/-- INTLK_IN_PRESENT (R361). -/
def execIntlkInPresent (s : State) : Host.Outcome State Fault Refusal :=
  .next (onChip (fun c => when (awake c) (setPair { c.pair with intlk := loopSet true c.pair.intlk }) c) s)

/-- INTLK_IN_RELEASED (R361). -/
def execIntlkInReleased (s : State) : Host.Outcome State Fault Refusal :=
  .next (onChip (fun c => when (awake c) (setPair { c.pair with intlk := loopSet false c.pair.intlk }) c) s)

/-- ECHO_IN_CHANGE (R361). -/
def execEchoInChange (present : Bool) (s : State) : Host.Outcome State Fault Refusal :=
  .next (onChip (fun c => when (awake c) (setPair { c.pair with echo := loopSet present c.pair.echo }) c) s)

/-- STRAP_INTERLOCK_TIMEOUT (R355): a holder that has seen INTLK_IN for 8,000 ticks while it drives. -/
def execStrapInterlockTimeout (s : State) : Host.Outcome State Fault Refusal :=
  .next (onChip (fun c => when (c.pair.holder && paired c && 8000 ≤ c.pair.tieRun) (tieLost (now c)) c) s)

/-- HUB_HEALTH_LOST (R362). -/
def execHubHealthLost (s : State) : Host.Outcome State Fault Refusal := .next (onChip (fun c => when (awake c) hubLost c) s)

/-- HOLDER_LEASE_END (R360): kept under HOLD or with the echo, yielded otherwise. -/
def execHolderLeaseEnd (s : State) : Host.Outcome State Fault Refusal :=
  .next (onChip (fun c => when (yieldDue (now c) c) (yieldNow (now c)) c) s)

/-- STANDBY_TAKEOVER (R359). -/
def execStandbyTakeover (s : State) : Host.Outcome State Fault Refusal :=
  .next (onChip (fun c => when (takeDue (now c) c) (takeOver (takeMode c) (now c)) c) s)

/-- SELF_DIAGNOSED_RELEASE (R363). -/
def execSelfDiagnosedRelease (s : State) : Host.Outcome State Fault Refusal :=
  .next (onChip (fun c => selfRelease (now c) c) s)

/-- HANDOVER_COMPLETE (R376). -/
def execHandoverComplete (s : State) : Host.Outcome State Fault Refusal :=
  .next (onChip (fun c => when (handoverDue (now c) c) (handoverComplete (now c)) c) s)

/-- GENERATION_START (R372). -/
def execGenerationStart (s : State) : Host.Outcome State Fault Refusal := .next (onChip (fun c => genStart (now c) c) s)

/-- GEN_DATA_SEND (R372): one region. -/
def execGenDataSend (s : State) : Host.Outcome State Fault Refusal := .next (onChip (genSend 1) s)

/-- GEN_DATA_RECEIVED (R374). -/
def execGenDataReceived (h : HokuaHdr) (gen cls region capture : Nat) (items : List MirrorItem) (s : State) :
    Host.Outcome State Fault Refusal :=
  .next (onChip (when (awake s.c) (genReceived h gen cls region capture items)) s)

/-- GEN_END_RECEIVED (R374). -/
def execGenEndReceived (h : HokuaHdr) (gen regions : Nat) (s : State) : Host.Outcome State Fault Refusal :=
  .next (onChip (when (awake s.c) (genDone h gen regions)) s)

/-- JOURNAL_SEND (R373): once in a tick. -/
def execJournalSend (s : State) : Host.Outcome State Fault Refusal :=
  .next (onChip (fun c => if awake c && !(isDone 8 c) then markDone 8 (jnlSend c) else c) s)

/-- JOURNAL_RECEIVED (R374). -/
def execJournalReceived (h : HokuaHdr) (tick : Nat) (complete : Bool) (changes : List (Nat × Nat × MirrorItem))
    (writes : List (Nat × Word)) (cmds : List Word) (s : State) : Host.Outcome State Fault Refusal :=
  .next (onChip (when (awake s.c) (jnlReceived h { tick := tick, changes := changes, writes := writes, cmds := cmds } complete)) s)

/-- MIRROR_STALE (R374). -/
def execMirrorStale (s : State) : Host.Outcome State Fault Refusal := .next (onChip (fun c => when (staleDue c) setStale c) s)

/-- TX_PATH_PROVEN (R377). -/
def execTxPathProven (s : State) : Host.Outcome State Fault Refusal :=
  .next (onChip (fun c => when (provenDue c) (proven (now c)) c) s)

/-- DRILL through the mailbox (R378). -/
def drillCmd (tag : Byte) (s : State) : State :=
  onChip (mbSubmit 0x040 tag false anyOk (fun c =>
    let k := drillRefused c
    if k ≠ 0 then mbCode k c else drillStart true (mbParam c 0) c)) s

def execDrill (tag : Byte) (s : State) : Host.Outcome State Fault Refusal := .next (drillCmd tag s)

/-- DRILL_REQ_RECEIVED (R378). -/
def execDrillReqReceived (h : HokuaHdr) (swap ret : Nat) (s : State) : Host.Outcome State Fault Refusal :=
  .next (onChip (when (awake s.c) (drillReq h swap ret)) s)

/-- DRILL_ACK_DEADLINE (R378): the answer that has arrived by S−8. -/
def execDrillAckDeadline (ack : Option Bool) (s : State) : Host.Outcome State Fault Refusal := .next (onChip (drillAnswer ack) s)

/-- DRILL_SWAP (R378). -/
def execDrillSwap (s : State) : Host.Outcome State Fault Refusal := .next (onChip (fun c => drillSwap (now c) c) s)

/-- DRILL_RETURN (R378). -/
def execDrillReturn (s : State) : Host.Outcome State Fault Refusal :=
  .next (onChip (fun c => when (returnDue (now c) c) (drillReturn (now c)) c) s)

/-- TABLET_CLAIM through the mailbox (R379): carried out at the next boundary. -/
def tabletClaimCmd (tag : Byte) (s : State) : State := onChip (mbSubmit 0x041 tag false anyOk id) s

def execTabletClaim (tag : Byte) (s : State) : Host.Outcome State Fault Refusal := .next (tabletClaimCmd tag s)

end Sys2Proof.Machine
end

