-- ==== Sys2Proof/Machine/Power.lean ====
section
/-!
DEFINITION. Power groups (R464 to R467), temperature (R468 to R471), reset, straps and sideband (R472 to R475), BOOT (R32,
R33, R403, R404, R414, R477) and the signal box (R36, R37).
-/
namespace Sys2Proof.Machine
open Sys2Proof

def setPower (p : PowerSt) (c : Chip) : Chip := { c with power := p }

/-! ### Use of groups -/

/-- The groups in use for an image under a placement, with why (R465, R467): 1 placement, 2 port, 3 bond. -/
def usedGroups (im : Image) (pl : Placement) : FMap Nat :=
  let ports := (im.sec 1).map (·.1)
  let lanes := (ports.map (portLanes im)).flatten
  let m1 := ports.foldl (fun m p => if 1 < (portIslands im p).length then (portIslands im p).foldl (fun m i => tput m i 3) m else m) ([] : FMap Nat)
  let m2 := lanes.foldl (fun m l => tput (tput m (laneIsland l) 2) (laneGroup l) 2) m1
  let m3 := pl.tribs.foldl (fun m e => tput m e.2.island 1) m2
  pl.carriers.foldl (fun m e => tput (tput m e.2.srcIsl 1) e.2.egrIsl 1) m3

/-- The deepest state a group not in use takes for its `WAKE_US` (R464, R465). -/
def sleepState (g wake : Nat) : Nat :=
  if g < 0x40 then (if 2000 ≤ wake then 3 else if 150 ≤ wake then 2 else if 2 ≤ wake then 1 else 0)
  else if g < 0x50 then (if 800000 ≤ wake then 4 else 0)
  else (if 100000 ≤ wake then 4 else 0)

/-- The most a group draws in a state, in mW (R464), and what the hub takes beside the groups at most (R503). -/
def drawMw (g state : Nat) : Nat :=
  if g < 0x40 then (match state with | 0 => 6000 | 1 => 900 | 2 => 350 | _ => 20)
  else if g < 0x50 then (if state = 0 then 23100 else 500)
  else if g < 0x60 then (if state = 0 then 4700 else 100)
  else 71200

/-- `WAKE_US` of a group's POWER record, 0 without one. -/
def wakeUs (im : Image) (g : Nat) : Nat := match im.getRec 7 g with | some r => powWake r | none => 0

/-- The state R465 gives a group under an image, and `HOLD` (R467). -/
def wantState (im : Image) (used : FMap Nat) (g : Nat) : Nat × Nat :=
  match used.lookup g with
  | some h => (0, h)
  | none => let s := sleepState g (wakeUs im g); (s, if s = 0 then 4 else 0)

/-- The groups with states that change: island, optical engine and electrical quad groups. -/
def allGroups : List Nat := upto 0x60

/-- Ticks a wake takes from a state (R464). -/
def wakeTicks (g state : Nat) : Nat :=
  if g < 0x40 then (match state with | 1 => 1 | 2 => 2 | 3 => 16 | _ => 0) else if g < 0x50 then 6400 else 800

/-- What the pending change would commit: its image once validated, else what its bytes state (R466). -/
def changeImage (c : Chip) (k : Change) : Option Image :=
  match k.image with
  | some im => some im
  | none =>
    let e : SigEnv := { required := false, keys := [], minor := 255 }
    if k.kind = 3 then
      (match amendIntegrity e k.bytes with
       | some _ => none
       | none => let r := amendApply (theImage c) k.bytes; if r.1.isSome then none else some r.2)
    else
      (match imageIntegrity e 0 k.bytes with
       | some _ => none
       | none => let r := imageSchema k.bytes; if r.1.isSome then none else some r.2)

/-- The groups the pending change needs in S0: for a first image every group it holds there (R59, R466). -/
def neededGroups (c : Chip) : List Nat :=
  match c.cm.change with
  | none => []
  | some k =>
    if k.kind = 1 && c.dev.state != .starting then []
    else match changeImage c k with
      | none => []
      | some im =>
        let used := usedGroups im (k.place.getD placeReset)
        if k.kind = 1 then allGroups.filter (fun g => (wantState im used g).1 = 0) else tkeys used

/-- The state R465 gives each group now: under the committed image, or the first image in STARTING; as after BOOT without one. -/
def wantNow (c : Chip) (used : FMap Nat) (im : Option Image) (g : Nat) : Nat :=
  match im with
  | some i => (wantState i used g).1
  | none => if c.dev.state = .boot then (getGroup c g).state else groupState0 g

/-- The image the groups follow. -/
def powerImage (c : Chip) : Option Image :=
  match c.img.image with
  | some im => some im
  | none => if c.dev.state = .starting then c.cm.change.bind (·.image) else none

/-- Its groups in use. -/
def powerUsed (c : Chip) : FMap Nat :=
  match c.img.image with
  | some im => usedGroups im c.img.place
  | none => match c.cm.change with
    | some k => if c.dev.state = .starting then usedGroups (k.image.getD imageEmpty) (k.place.getD placeReset) else []
    | none => []

/-! ### State changes -/

/-- A group's `STATE` changes at boundary n, with notice 0x19 (R467). -/
def setGroupState (g st n : Nat) (c : Chip) : Chip :=
  let old := (getGroup c g).state
  if old = st then c
  else notify (event 0x19 6 12 st g old n false) (updGroup g (fun x => { x with state := st }) c)

/-- An island's scratchpads are cleared as its engines wake from S2 or S3 (R453). -/
def clearPads (g : Nat) (c : Chip) : Chip :=
  { c with eng := tmap engDflt c.eng (fun e x => if e / 16 = g then { x with pad := [] } else x) }

/-- An island wakes from S3: its depot, context store and scratchpads are cleared and its patrol starts afresh (R453). -/
def clearIsland (g : Nat) (c : Chip) : Chip :=
  let c1 := clearPads g c
  { c1 with dep := { c1.dep with isl := tupd depotDflt c1.dep.isl g (fun x => { x with borrowed := none, back := false, held := none, next := 0, queue := [], lastStart := none, bytes := [], slots := [], bad := [] }) } }

/-- A group starts to wake at boundary n toward a state (R139, R466). -/
def startWake (g n : Nat) (c : Chip) : Chip :=
  let x := getGroup c g
  if x.waking.isSome || x.state = 0 then c
  else
    let c1 := updGroup g (fun x => { x with waking := some n, former := some x.state, wakes := BitVec.ofNat 16 (satInc 0xFFFF x.wakes.toNat), faulty := false, phase := 1 }) c
    if 0x50 ≤ g then enableLanes (groupLanes g) c1 else c1

/-- Every lane of an optical engine group is settled: LOCKED, or no signal found (R139, R527). -/
def ogSettled (c : Chip) (g : Nat) : Bool := (groupLanes g).all (fun l => let s := (getLane c l).rx; s = .locked || s = .noSignal)

/-- A wake ends at boundary n (R464, R527): an optical engine group's as soon as the transmitters are calibrated, the receivers have had
a tick to find a signal (DEDUCED, log 37) and every lane is settled. -/
def wakeDue (c : Chip) (g n : Nat) : Bool :=
  let x := getGroup c g
  match x.waking with
  | some w => w + wakeTicks g x.state ≤ n || (0x40 ≤ g && g < 0x50 && 3 ≤ x.phase && w + 1760 < n && ogSettled c g)
  | none => false

/-- A wake completes at boundary n toward `st`: the group is ready (R466). -/
def wakeDone (g st n : Nat) (c : Chip) : Chip :=
  let x := getGroup c g
  let c1 := if g < 0x40 && x.state = 3 then clearIsland g c else if g < 0x40 && x.state = 2 then clearPads g c else c
  setGroupState g st n (updGroup g (fun x => { x with waking := none, phase := 0 }) c1)

/-- The state a completed wake leads to: the one wanted, or S0 where the change that caused the wake is gone, from which the
group returns at the next boundary (R479). -/
def wakeTarget (x : GroupSt) (want : Nat) : Nat := if x.state ≤ want then 0 else want

/-- A group enters a deeper state at boundary n; its lanes go to OFF (R138, R466). -/
def sleepGroup (g st n : Nat) (c : Chip) : Chip :=
  let c1 := setGroupState g st n (updGroup g (fun x => { x with former := none }) c)
  if 0x40 ≤ g && st = 4 then disableLanes (groupLanes g) c1 else c1

/-- The phases of an optical engine group's wake (R139, R527) at boundary n. -/
def ogPhase (g n : Nat) (c : Chip) : Chip :=
  let x := getGroup c g
  match x.waking with
  | none => c
  | some w =>
    if g < 0x40 || 0x50 ≤ g then c
    else if w + 5760 ≤ n && x.phase < 4 then updGroup g (fun x => { x with phase := 4 }) (if x.phase < 3 then enableLanes (groupLanes g) c else c)
    else if w + 1760 ≤ n && x.phase < 3 then updGroup g (fun x => { x with phase := 3 }) (enableLanes (groupLanes g) c)
    else if w + 160 ≤ n && x.phase < 2 then updGroup g (fun x => { x with phase := 2 }) c
    else c

/-- One group at boundary n: its phase, the end of its wake, or its sleep (R466). `need` the groups a pending change needs. -/
def groupStep (need : List Nat) (used : FMap Nat) (im : Option Image) (n g : Nat) (c : Chip) : Chip :=
  let c1 := ogPhase g n c
  let want := if need.contains g then 0 else wantNow c1 used im g
  let x := getGroup c1 g
  if x.waking.isSome then (if wakeDue c1 g n then wakeDone g (wakeTarget x want) n c1 else c1)
  else if x.state < want then sleepGroup g want n c1
  else c1

/-- The wakes a pending change needs, at the boundary after its acceptance (R466). -/
def changeWakes (need : List Nat) (n : Nat) (c : Chip) : Chip :=
  match c.cm.change with
  | some k =>
    if k.kind = 1 || k.woken || n ≤ k.accept then c
    else { (forEach need (fun g => startWake g n) c) with cm := { c.cm with change := some { k with woken := true } } }
  | none => c

/-- Power groups at boundary n, before the commit of that boundary. -/
def powerBoundary (n : Nat) (c : Chip) : Chip :=
  if !awake c || c.dev.state = .boot then c
  else
    let need := neededGroups c
    let used := powerUsed c
    let im := powerImage c
    changeWakes need n (forEach allGroups (groupStep need used im n) c)

/-- At a commit: groups the new image holds in a shallower state start to wake (R466). -/
def powerAtCommit (n : Nat) (c : Chip) : Chip :=
  let used := powerUsed c
  match c.img.image with
  | none => c
  | some im => forEach allGroups (fun g c => if (wantState im used g).1 < (getGroup c g).state then startWake g n c else updGroup g (fun x => { x with former := none }) c) c

/-- The wakes of a first image whose validation has passed (R59, R466). -/
def startingWakes (n : Nat) (c : Chip) : Chip :=
  let used := powerUsed c
  match powerImage c with
  | none => c
  | some im => forEach allGroups (fun g c => if (wantState im used g).1 < (getGroup c g).state then startWake g n c else c) c

/-- Every group a pending change needs is ready. -/
def groupsReady (c : Chip) : Bool := (neededGroups c).all (fun g => (getGroup c g).state = 0 && !(getGroup c g).faulty)

/-- A `PWR_GROUP` entry (R467). -/
def pwrGroupWord (c : Chip) (g : Nat) : BitVec 64 :=
  let x := getGroup c g
  let hold : Nat := match powerImage c with | some im => if g < 0x60 && x.state = 0 then (wantState im (powerUsed c) g).2 else 0 | none => 0
  BitVec.ofNat 64 (packN [(24, if g < 0x60 then wakeUs (theImage c) g else 0), (16, x.wakes.toNat), (16, 0), (3, hold), (1, bnat x.waking.isSome), (1, 0), (3, x.state)])

/-! ### Entering COLD -/

/-- What the flash and the craft slot keep through COLD. -/
def coldUpd (u : UpdSt) : UpdSt :=
  { updReset with rec0 := u.rec0, rec1 := u.rec1, slotA := u.slotA, slotB := u.slotB, set0 := u.set0, set1 := u.set1, cardIn := u.cardIn, file := u.file, wipe := u.wipe }

/-- What the hub keeps through COLD: the record of the entry, straps, alerts, the pin, and the last readings (R470, R475). -/
def coldPower (cause sensor : Nat) (temp : Int) (sup : BitVec 4) (n : Nat) (p : PowerSt) : PowerSt :=
  { powerReset with temps := p.temps, causeReg := p.causeReg, cause := cause, tripSensor := sensor, tripTemp := temp, supplies := sup, coldTick := n, straps := p.straps, alert := if cause = 3 then p.alert ||| 4 else p.alert, suppliesOk := cause ≠ 4, resetLow := p.resetLow || cause = 2 }

/-- An interlock input keeps its level. -/
def coldLoop (l : LoopIn) : LoopIn := { loopReset with present := l.present }

/-- The chip as COLD leaves it (R33, R478): nothing else survives. -/
def coldChip (cause sensor : Nat) (temp : Int) (sup : BitVec 4) (c : Chip) : Chip :=
  { chipReset with power := coldPower cause sensor temp sup (now c) c.power, upd := coldUpd c.upd, pair := { pairReset with intlk := coldLoop c.pair.intlk, echo := coldLoop c.pair.echo }, host := { hostReset with out := c.host.out }, free := c.free }

/-- The part enters COLD (R33, R472): staged memory is lost too. -/
def enterCold (cause sensor : Nat) (temp : Int) (sup : BitVec 4) (s : State) : State :=
  { s with c := coldChip cause sensor temp sup s.c, mem := [] }

/-! ### BOOT -/

/-- `RESET_CAUSE` of the hub's record (R473). -/
def causeWord (p : PowerSt) : Word :=
  reg32 [(4, p.cause), (5, if p.cause = 3 then p.tripSensor else 0), (4, if p.cause = 4 then p.supplies.toNat else 0), (19, 0)]

/-- COLD to BOOT (R32, R33, R473, R477): T0 starts in FREE_RUN and the tick counter at 0. -/
def startBoot (c : Chip) : Chip :=
  { c with dev := { devReset with state := .boot, done := [1, 3, 4, 5] }, power := { c.power with causeReg := causeWord c.power, alert := c.power.alert &&& 3, hold := false }, tim := { c.tim with dps := [(0, dpDflt)] } }

/-- A BOOT that fails (R33, R403). -/
def bootFails (code : Nat) (c : Chip) : Chip := setUpd { c.upd with bootFail := code } c

/-- The settings a BOOT starts with (R412): the newer copy, else defaults. -/
def bootSettings (u : UpdSt) : SettingsSt := ((settingsRead u).map (·.2)).getD settingsDflt

/-- The oscillator item an SKV-0960 area gives (R414): coefficients and hours, with empty fit sums. -/
def legacyOsc (l : List Int) : OscSt :=
  let v (k : Nat) : Int := l.getD k 0
  { oscEmpty with k1 := v 0, k2 := v 1, k3 := v 2, ageA := v 3, ageB := v 4, order := (v 5).toNat, hours := (v 6).toNat, tempValid := v 7 = 1, ageValid := v 8 = 1 }

/-- The settings an SKV-0960 area gives (R414). -/
def legacySettings (rep : BootRep) : SettingsSt :=
  { settingsDflt with osc := legacyOsc rep.legacyOsc, imgKeys := rep.legacyKeys.foldl (fun m e => if e.1 < 4 then tset 0 m e.1 e.2 else m) [], legacyPm := rep.legacyPm }

/-- Settings at BOOT, migrated once from an SKV-0960 area where the flash holds no copy (R412, R414). -/
def bootSettle (rep : BootRep) (c : Chip) : Chip :=
  if rep.legacy && (settingsRead c.upd).isNone then
    let u := { c.upd with live := { legacySettings rep with vers := [1, 2, 5].map (fun id => (id, writesVer c.upd id)) } }
    updNotice 0x3B 5 1 0 0 (updNotice 0x3B 2 1 0 0 (updNotice 0x3B 1 1 0 0 (setUpd (saveSettings (saveSettings u)) c)))
  else setUpd { c.upd with live := bootSettings c.upd } c

/-- The fault map BOOT builds (R105, R444), and the spare columns left (R445). -/
def bootMap (rep : BootRep) (c : Chip) : Chip :=
  let c1 := forEach rep.enginesOut (fun e c => if e < 1024 then updIsl (e / 16) (fun x => { x with engOut := x.engOut ||| BitVec.ofNat 16 (1 <<< (e % 16)) }) (updEng e (fun x => { x with role := roleOut }) c) else c) c
  let c2 := forEach rep.regionsOut (fun r c => if r.1 < 64 && r.2 < 1024 then updIsl r.1 (fun x => { x with regions := insAsc x.regions r.2 }) c else c) c1
  { c2 with dep := { c2.dep with memStat := BitVec.ofNat 6 (packN [(3, min rep.depotSpare 4), (3, min rep.hubSpare 4)]) } }

/-- The boot record in force under its confirmation by a trial boot (R404). -/
def trialOk (u : UpdSt) : UpdSt :=
  match recInForce u with
  | some r => if r.trial then writeRec { r with trial := false, confirmed := 15, floor := max r.floor (hdrEpoch (slotOf u r.slot).header) } u else u
  | none => u

/-- A trial boot that fails writes the record naming the former slot (R404). -/
def trialFails (u : UpdSt) : UpdSt :=
  let u1 := formerRec u
  match recInForce u with
  | some r => setSlot r.slot { slotOf u1 r.slot with state := 5 } u1
  | none => u1

/-- BOOT ends well: firmware of the slot runs, map and settings stand, AWAIT_IMAGE (R33, R477). -/
def bootEnds (rep : BootRep) (c : Chip) : Chip :=
  let u := trialOk c.upd
  let c1 := bootMap rep (bootSettle rep (setUpd { u with run := (slotOf u (bootSlot u)).manifest, cardIn := rep.sdCard } c))
  let cb := boxReads 0 c1
  let c2 := { cb with cm := { cb.cm with placeRev := Config.placeRev (sbVersion cb.upd) } }
  let c3 := setDev .awaitImage c2
  when rep.sdCard sdAuto c3

/-- BOOT runs to its end (R33, R403, R404). A trial whose self-test fails restarts BOOT from the former slot. -/
def bootRuns (rep : BootRep) (c : Chip) : Chip :=
  let u := c.upd
  if bitAt c.power.straps 1 then bootFails 2 c
  else match recInForce u with
    | none => bootFails 1 c
    | some r =>
      if !(slotOf u r.slot).verified then bootFails 2 c
      else if !rep.selfTestOk then (if r.trial then setUpd (trialFails u) c else bootFails 3 c)
      else bootEnds rep c

/-! ### Temperature -/

/-- Warning, throttle and trip levels of a sensor (R468). -/
def warnLevel (c : Chip) (s : Nat) : Int := if s < 5 then (bits c.power.therm.eff 24 8 : Nat) else (bits c.power.therm.eff 16 8 : Nat)
def throtLevel (s : Nat) : Int := if s < 5 then 105 else 75
def tripLevel (s : Nat) : Int := if s < 5 then 115 else 85

/-- Whether a level stands after a reading: reached from below, or not yet 3 degrees below it (R468). -/
def levelStands (was : Bool) (level t : Int) : Bool := if was then level - 3 < t else level ≤ t

/-- The thermal notice of a level (R471). -/
def thermNotice (s bit n : Nat) (t : Int) (clear : Bool) (c : Chip) : Chip := notify (event 0x18 6 12 bit s (ofSigned 18 t) n clear) c

/-- A warning stands or falls (R471). -/
def judgeWarn (s : Nat) (t : Int) (c : Chip) : Chip :=
  let was := c.power.warn.contains s
  let is := levelStands was (warnLevel c s) t
  if is = was then c
  else if is then
    setInt 7 (thermNotice s 0 (now c) t false (setPower { c.power with warn := insAsc c.power.warn s, warnSeen := true, alert := c.power.alert ||| 1 } c))
  else thermNotice s 0 (now c) t true (setPower { c.power with warn := c.power.warn.filter (· ≠ s) } c)

/-- A throttle stands or falls (R471). -/
def judgeThrot (s : Nat) (t : Int) (c : Chip) : Chip :=
  let was := c.power.throt.contains s
  let is := levelStands was (throtLevel s) t
  if is = was then c
  else if is then
    setInt 7 (thermNotice s 1 (now c) t false (setPower { c.power with throt := insAsc c.power.throt s, throtSeen := true, alert := c.power.alert ||| 2 } c))
  else thermNotice s 1 (now c) t true (setPower { c.power with throt := c.power.throt.filter (· ≠ s) } c)

/-- One reading (R468). -/
def sensorRead (r : Nat × Int) (c : Chip) : Chip :=
  if 21 ≤ r.1 then c
  else judgeThrot r.1 r.2 (judgeWarn r.1 r.2 (setPower { c.power with temps := tput c.power.temps r.1 r.2 } c))

/-- A sensor's last reading; 0 before one. -/
def tempOf (p : PowerSt) (s : Nat) : Int := tget 0 p.temps s

/-- The hottest of some sensors, as an 8-bit signed field. -/
def maxTemp (p : PowerSt) (l : List Nat) : Nat :=
  let l := l.filter (fun s => (tkeys p.temps).contains s)
  match l with
  | [] => 0
  | s :: t => ofSigned 8 (clampInt (-128) 127 (t.foldl (fun m s => max m (tempOf p s)) (tempOf p s)))

/-- The sensor nearest its own throttle level; 0 before a reading. -/
def hotSensor (p : PowerSt) : Nat :=
  match tkeys p.temps with
  | [] => 0
  | s :: t => t.foldl (fun m s => if throtLevel s - tempOf p s < throtLevel m - tempOf p m then s else m) s

/-- `MAX_J` and `MAX_OE` (R471). -/
def maxJ (p : PowerSt) : Nat := maxTemp p (upto 5)
def maxOe (p : PowerSt) : Nat := maxTemp p ((upto 16).map (· + 5))

/-- `THERM_STATUS` (R471). -/
def thermStatusWord (p : PowerSt) : Word :=
  reg32 [(1, bnat (p.warn ≠ [])), (1, bnat (p.throt ≠ [])), (1, bnat p.warnSeen), (1, bnat p.throtSeen), (7, 0), (5, hotSensor p), (8, maxJ p), (8, maxOe p)]

/-- A `THERM_CTRL` value within its ranges (R471). -/
def thermCtrlOk (v : Word) : Bool := 60 ≤ bits v 24 8 && bits v 24 8 ≤ 105 && 40 ≤ bits v 16 8 && bits v 16 8 ≤ 75 && bits v 0 16 = 0

/-- Every sensor that has been read stands below its warning level (R470). -/
def coolEnough (c : Chip) : Bool := c.power.temps.all (fun e => e.2 < warnLevel c e.1)

/-- A trip (R470): a holder releases with code 7 first. -/
def thermalTrip (sensor : Nat) (temp : Int) (s : State) : State :=
  enterCold 3 sensor temp 0 (onChip (fun c => let c1 := setPower { c.power with temps := tput c.power.temps sensor temp } c
    when (c1.pair.holder && paired c1) (giveUp 7 (now c)) c1) s)

/-! ### Sideband -/

/-- A byte of the sideband map (R475). -/
def sbByte (c : Chip) (a : Nat) : Nat :=
  let p := c.power
  match a with
  | 0x00 => 0x23
  | 0x01 => 0x04
  | 0x02 => 0x01
  | 0x03 => devCode c.dev.state
  | 0x04 => maxJ p
  | 0x05 => maxOe p
  | 0x06 => p.alert.toNat
  | 0x20 => p.cause
  | 0x21 => if p.cause = 3 then p.tripSensor else 0
  | 0x22 => if p.cause = 3 then ofSigned 8 p.tripTemp else 0
  | 0x23 => if p.cause = 4 then p.supplies.toNat else 0
  | _ => if 0x24 ≤ a && a < 0x2C then p.coldTick / 256 ^ (a - 0x24) % 256 else 0

/-- Bytes read from the sideband in one transaction: the pointer advances by 1 after each (R475). -/
def sbRead (c : Chip) (pointer n : Nat) : List Byte := (upto n).map (fun j => BitVec.ofNat 8 (sbByte c ((pointer + j) % 256)))

/-- The ceiling of the part's draw in its present group states, in mW (R464, R503). -/
def ceilingMw (c : Chip) : Nat := ((upto 0x61).map (fun g => drawMw g (getGroup c g).state)).foldl (· + ·) 0

/-- ALERT_N is driven low (R475). -/
def alertLow (c : Chip) : Bool := c.power.alert ≠ 0

/-- A write of `SB_RESET` (R475). -/
def sbReset (v : Byte) (within : Bool) (s : State) : State :=
  if v ≠ 0x5A then onChip (fun c => setPower { c.power with armed := false } c) s
  else if s.c.power.armed && within then
    (if awake s.c then enterCold 5 0 0 0 s else onChip (fun c => setPower { c.power with armed := false } c) s)
  else onChip (fun c => setPower { c.power with armed := true } c) s

/-! ### Commands -/

/-- POWER_ON (R472): the hub's record is lost with VIN18. -/
def execPowerOn (s : State) : Host.Outcome State Fault Refusal :=
  let s1 := enterCold 1 0 0 0 s
  .next (onChip (fun c => setPower { powerReset with resetLow := s.c.power.resetLow } c) s1)

/-- RESET_ASSERTED (R472): in COLD the record of the entry stands. -/
def execResetAsserted (s : State) : Host.Outcome State Fault Refusal :=
  .next (if awake s.c then enterCold 2 0 0 0 s else onChip (fun c => setPower { c.power with resetLow := true, suppliesOk := true } c) s)

/-- SUPPLY_FAULT (R472): recognised while RESET_N is high. -/
def execSupplyFault (sup : BitVec 4) (s : State) : Host.Outcome State Fault Refusal :=
  .next (if s.c.power.resetLow || sup = 0 then s else enterCold 4 0 0 sup s)

/-- RESET_RELEASED (R33, R474, R477): the straps are sampled; after a trip BOOT waits for the sensors (R470). -/
def execResetReleased (straps : BitVec 6) (s : State) : Host.Outcome State Fault Refusal :=
  .next (onChip (fun c =>
    if awake c || !c.power.suppliesOk || !(c.power.resetLow || c.power.cause = 5) then c
    else
      let c1 := setPower { c.power with straps := straps, resetLow := false } c
      if bitAt c1.power.alert 2 && !(coolEnough c1) then setPower { c1.power with hold := true } c1 else startBoot c1) s)

/-- BOOT_COMPLETES (R33, R477). -/
def execBootCompletes (rep : BootRep) (s : State) : Host.Outcome State Fault Refusal :=
  .next (onChip (fun c => when (c.dev.state = .boot && !(inBootFail c)) (bootRuns rep) c) s)

/-- SENSOR_READ (R468). -/
def execSensorRead (temps : List (Nat × Int)) (s : State) : Host.Outcome State Fault Refusal :=
  .next (onChip (fun c => when (awake c) (forEach temps sensorRead) c) s)

/-- THERMAL_TRIP (R470). -/
def execThermalTrip (sensor : Nat) (temp : Int) (s : State) : Host.Outcome State Fault Refusal :=
  .next (if awake s.c && sensor < 21 && tripLevel sensor ≤ temp then thermalTrip sensor temp s else s)

/-- COLD_SENSOR_READ (R470): BOOT starts once every sensor stands below its warning level. -/
def execColdSensorRead (temps : List (Nat × Int)) (s : State) : Host.Outcome State Fault Refusal :=
  .next (onChip (fun c =>
    if awake c then c
    else
      let c1 := forEach temps (fun r c => if r.1 < 21 then setPower { c.power with temps := tput c.power.temps r.1 r.2 } c else c) c
      when (c1.power.hold && coolEnough c1) startBoot c1) s)

/-- SB_RESET_WRITE (R475). -/
def execSbResetWrite (v : Byte) (within : Bool) (s : State) : Host.Outcome State Fault Refusal := .next (sbReset v within s)

/-- SB_ALERT_CLEAR (R475): bits 0 and 1 are cleared by writing 1. -/
def execSbAlertClear (v : Byte) (s : State) : Host.Outcome State Fault Refusal :=
  .next (onChip (fun c => setPower { c.power with alert := c.power.alert &&& ~~~(BitVec.ofNat 3 (v.toNat % 4)) } c) s)

/-- SIGNAL_BOX_RESTART (R37): notices, placement and replies wait. -/
def execSignalBoxRestart (s : State) : Host.Outcome State Fault Refusal :=
  .next (onChip (fun c => when (awake c && c.dev.state != .boot) (fun c => { c with dev := { c.dev with sbDown := true } }) c) s)

/-- The state a group is to be in now: S0 where a pending change needs it, else what R465 gives it (R466). -/
def wantState0 (c : Chip) (g : Nat) : Nat := if (neededGroups c).contains g then 0 else wantNow c (powerUsed c) (powerImage c) g

/-- A group whose wake is due to start: the pending change or R465 needs it in a shallower state. -/
def wakeWanted (c : Chip) (g : Nat) : Bool := wantState0 c g < (getGroup c g).state

/-- OG_WAKE_START (R139). -/
def execOgWakeStart (g : Nat) (s : State) : Host.Outcome State Fault Refusal :=
  .next (onChip (fun c => when (awake c && 0x40 ≤ g && g < 0x50 && wakeWanted c g) (startWake g (now c)) c) s)

/-- OG_CALIBRATION_START (R139): the group's phase follows the boundary. -/
def execOgCalibrationStart (g : Nat) (s : State) : Host.Outcome State Fault Refusal :=
  .next (onChip (fun c => when (awake c && (getGroup c g).phase = 1) (ogPhase g (now c)) c) s)

/-- OG_RECEIVERS_ENABLE (R527). -/
def execOgReceiversEnable (g : Nat) (s : State) : Host.Outcome State Fault Refusal :=
  .next (onChip (fun c => when (awake c && (getGroup c g).phase = 2) (ogPhase g (now c)) c) s)

/-- OG_QIC_HUNT_PHASE (R139). -/
def execOgQicHuntPhase (g : Nat) (s : State) : Host.Outcome State Fault Refusal :=
  .next (onChip (fun c => when (awake c && (getGroup c g).phase = 3) (ogPhase g (now c)) c) s)

/-- GROUP_STATE_CHANGE (R466): a group that neither R465 nor a pending change holds awake enters its state. -/
def execGroupStateChange (g : Nat) (s : State) : Host.Outcome State Fault Refusal :=
  .next (onChip (fun c => when (awake c && g < 0x60 && (getGroup c g).waking.isNone && (getGroup c g).state < wantState0 c g) (sleepGroup g (wantState0 c g) (now c)) c) s)

end Sys2Proof.Machine
end

