-- ==== Sys2Proof/Machine/Depots.lean ====
section
/-!
DEFINITION. Depots: engine writes and collisions (R111, R437 to R441), errors (R442, R443), the patrol (R446 to R453); the
check values of the scan unit (R454); performance counters, snapshots and bandwidth (R457 to R462).
-/
namespace Sys2Proof.Machine
open Sys2Proof

def setDep (d : DepSt) (c : Chip) : Chip := { c with dep := d }
def setCounters (t : CountSt) (c : Chip) : Chip := setDep { c.dep with count := t } c
def getDepot (c : Chip) (i : Nat) : DepotSt := tget depotDflt c.dep.isl i
def updDepot (i : Nat) (f : DepotSt → DepotSt) (c : Chip) : Chip := setDep { c.dep with isl := tupd depotDflt c.dep.isl i f } c

/-! ### Places (R437) -/

def depotWord (a : Nat) : Nat := a / 32
def depotBank (a : Nat) : Nat := depotWord a % 16
def depotRow (a : Nat) : Nat := depotWord a / 16
def depotRegion (a : Nat) : Nat := a / 4096

/-! ### Writes -/

/-- The key of a context slot (target 1) or of a junction port buffer window (target 2). -/
def memKey (target a : Nat) : Nat := target * 4194304 + a

/-- Whether a write of `n` bytes (0 counts for none) to a target lies within it: depot bytes, context slots, junction port buffer
windows, scratchpad words. -/
def targetOk (target a n : Nat) : Bool :=
  match target with
  | 0 => 1 ≤ n && n ≤ 32 && a + n ≤ 4194304
  | 1 => a < 2048
  | 2 => a < 15000
  | _ => a < 16384

/-- The depot words that an access of `n` bytes from address `a` reaches: one, or two where it crosses (R439). -/
def accessWords (a n : Nat) : List Nat := if a / 32 = (a + n - 1) / 32 then [a / 32] else [a / 32, a / 32 + 1]

/-- The part of an access of `n` bytes from `a` that lies in word `w`: its first byte, how many, and the lane of the first, lane 0
being byte `a` (R439). -/
def wordPart (a n w : Nat) : Nat × Nat × Nat :=
  let lo := max a (32 * w)
  (lo, min (a + n) (32 * w + 32) - lo, lo - a)

/-- `n` bytes from `a` take the lanes from `lane` on of write `k`. -/
def putBytes (k lane a n : Nat) (m : FMap DepByte) : FMap DepByte := (upto n).foldl (fun m j => tput m (a + j) (k, lane + j)) m

/-- One depot word is stored to by write `k` with a part of 32 byte lanes; with all 32 enabled it is whole again (R442). -/
def storePart (k w : Nat) (p : Nat × Nat × Nat) (d : DepotSt) : DepotSt :=
  { d with bytes := putBytes k p.2.2 p.1 p.2.1 d.bytes, bad := if p.2.1 = 32 then d.bad.filter (· ≠ w) else d.bad }

/-- Port A's write `k` at one of its words, with what port B does there in the cycle (R441): `ok` whether port A's write stands,
`partialRead` whether it is the read cycle of a partial write. -/
def meetPorts (i k w : Nat) (p : Nat × Nat × Nat) (b : PortBRep) (ok partialRead : Bool) (c : Chip) : Chip :=
  let storeA (c : Chip) : Chip := if ok then updDepot i (storePart k w p) c else c
  let storeB (c : Chip) : Chip := updDepot i (fun d => { storePart d.writes w (32 * w + b.off, min b.len (32 - b.off), b.off) d with writes := d.writes + 1 }) c
  let readB (c : Chip) : Chip :=
    let d := getDepot c i
    emit (.depotRead i w ((upto 32).map (fun j => if d.bad.contains w then none else d.bytes.lookup (32 * w + j)))) c
  let early := partialRead && p.2.1 < 32
  match b.kind with
  | 1 => if early then storeA (readB c) else readB (storeA c)
  | 2 =>
    if !ok then storeB c
    else if early then storeA (storeB c)
    else storeA (countEvent 0x022 i 1 (updDepot i (fun d => { d with bLost := d.bLost + 1 }) c))
  | _ => storeA c

/-- A depot write of `n` bytes from address `a`, in the words it reaches (R438, R439, R441). -/
def depotWrite (i a n : Nat) (b : PortBRep) (ok partialRead : Bool) (c : Chip) : Chip :=
  let ws := accessWords a n
  let k := (getDepot c i).writes
  let c1 := if ok then updDepot i (fun d => { d with writes := d.writes + 1 }) c else c
  let c2 := if ws.length = 2 then countEvent 0x026 i 1 c1 else c1
  let none_ : PortBRep := { kind := 0, second := false, off := 0, len := 0 }
  forEach ws (fun w c => meetPorts i k w (wordPart a n w) (if b.second = decide (w ≠ a / 32) then b else none_) ok partialRead c) c2

/-- A write arrives (R111): dropped and counted where its tag is 0 or not the engine's. A write to the engine's own scratchpad
leaves the engine's reach and is not compared (R111, R112). -/
def engineWrite (e : Nat) (tag : Byte) (target addr len : Nat) (portB : PortBRep) (partialRead : Bool) (c : Chip) : Chip :=
  let i := e / 16
  if target = 3 then updEng e (fun x => { x with pad := tput x.pad addr x.padWrites, padWrites := x.padWrites + 1 }) c
  else
    let ok := tag ≠ 0 && tag = (getEng c e).tag
    let c1 := if ok then c else countEvent 0x014 i 1 (updEng e (fun x => { x with stale := BitVec.ofNat 12 (satInc 0xFFF x.stale.toNat) }) c)
    if target = 0 then depotWrite i addr len portB ok partialRead c1
    else if ok then updDepot i (fun d => { d with slots := tput d.slots (memKey target addr) d.writes, writes := d.writes + 1 }) c1
    else c1

/-! ### Uncorrectable reads -/

/-- A bin of a record word found uncorrectable (R442): `w` the word, `start` the bin's first byte. -/
def poison15 (w start : Nat) (b : PmBin) : PmBin := if start / 32 = w then { binDflt with part := true } else b

/-- A 24-hour bin, of which a word may hold the low 4 bytes or the rest. -/
def poison24 (w start : Nat) (b : PmBin) : PmBin :=
  let lo := start / 32 = w
  let hi := (start + 4) / 32 = w
  if lo && hi then { binDflt with part := true }
  else if lo then { b with bbe := 0, part := true }
  else if hi then { b with uas := 0, ses := 0, es := 0, late := false, part := true }
  else b

/-- The bins of one end; `o15` and `o24` where its bins stand within a slot. -/
def poisonEnd (w o15 o24 : Nat) (e : PmEndSt) : PmEndSt :=
  let f15 (e : PmEndSt) (j : Nat) : PmEndSt := { e with b15 := tupd binDflt e.b15 j (poison15 w (16 * j + o15)) }
  let f24 (e : PmEndSt) (j : Nat) : PmEndSt := { e with b24 := tupd binDflt e.b24 j (poison24 w (80 + 24 * j + o24)) }
  [0, 1].foldl f24 ([0, 1, 2, 3, 4].foldl f15 e)

/-- A PM record with one word uncorrectable (R442, R257). -/
def poisonRec (w : Nat) (r : PmRecSt) : PmRecSt :=
  let r1 := { r with ne := poisonEnd w 0 0 r.ne, fe := poisonEnd w 8 12 r.fe }
  if w = 4 then { r1 with ex0 := exDflt, ex1 := exDflt, acc := accDflt, ne := { r1.ne with run := 0, hist := [] }, fe := { r1.fe with run := 0, hist := [] } } else r1

/-- The depot memory notice (R452). -/
def depotNotice (i bit region n : Nat) (c : Chip) : Chip := notify (event 0x17 6 12 bit i region n false) c

/-- A region is put out at run time (R445): it enters the fault map. -/
def regionOut (i r : Nat) (c : Chip) : Chip :=
  if (getIsl c i).regions.contains r then c
  else updDepot i (fun d => { d with newOut := d.newOut + 1 }) (updIsl i (fun x => { x with regions := insAsc x.regions r }) c)

/-- The region of the borrow buffer (R100, R446). -/
def reserveRegion (c : Chip) (i : Nat) : Nat := ((upto 1024).find? (fun r => !((getIsl c i).regions.contains r))).getD 0

/-- A region's turn for early patrol (R442, R446): a full queue takes no more. -/
def queueRegion (r : Nat) (d : DepotSt) : DepotSt :=
  if d.queue.contains r || 16 ≤ d.queue.length then d else { d with queue := d.queue ++ [r] }

/-- A corrected read of a depot word (R442): counted, and its region's turn for early patrol comes. -/
def depotCorrected (i w : Nat) (c : Chip) : Chip :=
  if i < 64 && w < 131072 then countEvent 0x023 i 1 (updDepot i (fun d => queueRegion (w / 128) { d with corr := d.corr + 1 }) c) else c

/-- An uncorrectable read of a depot word (R442, R448, R452); `part` is the word of a PM record. -/
def depotUncorrectable (i w reader ref part : Nat) (c : Chip) : Chip :=
  let n := now c
  let r := w / 128
  let c1 := countEvent 0x024 i 1 (updDepot i (fun d => queueRegion r { d with uncorr := BitVec.ofNat 32 (satInc 0xFFFFFFFF d.uncorr.toNat), bad := insAsc d.bad w }) c)
  let due : Bool := match (getDepot c i).lastNote with | some t => t + 8000 ≤ n + 1 | none => true
  let c2 := if due then updDepot i (fun d => { d with lastNote := some (n + 1) }) (depotNotice i 2 r (n + 1) c1) else c1
  let c3 := if (getDepot c i).held.isSome && !((getIsl c i).regions.contains r) then depotNotice i 1 r (n + 1) (regionOut i r c2) else c2
  if reader = 2 then (if (c3.pm.recs.lookup ref).isSome then updRec ref (poisonRec part) c3 else c3) else markErrored ref c3

/-! ### Patrol -/

/-- Regions the patrol tests in turn (R446): all but the reserve and those out. -/
def patrolled (c : Chip) (i r : Nat) : Bool := r < 1024 && r ≠ reserveRegion c i && !((getIsl c i).regions.contains r)

/-- The region whose turn it is from `k` on, in ascending order; from the first again at the end. -/
def nextRegion (c : Chip) (i k : Nat) : Option Nat :=
  match (upto 1024).find? (fun r => k ≤ r && patrolled c i r) with
  | some r => some r
  | none => (upto 1024).find? (patrolled c i)

/-- A mirror capture of the island is due at boundary n (R449). -/
def captureDue (c : Chip) (i n : Nat) : Bool := c.pair.mirror.active && mirrors c && Config.captureAt c.pair.mirror.gen n i

/-- The patrol of an island may start a region at boundary n (R446, R448 to R450, R469). -/
def patrolDue (c : Chip) (i n : Nat) : Bool :=
  let d := getDepot c i
  let g := getGroup c i
  bitAt c.dep.patrol.eff 31 && g.state ≤ 2 && g.waking.isNone && d.held.isNone && d.borrowed.isNone && c.power.throt = [] &&
  (match d.lastStart with | some t => t + bits c.dep.patrol.eff 0 8 ≤ n | none => true) && !(captureDue c i n)

/-- A region's test starts at boundary n (R446): a queued region first. -/
def patrolStart (i n : Nat) (c : Chip) : Chip :=
  if !(patrolDue c i n) then c
  else
    let d := getDepot c i
    let q := d.queue.filter (patrolled c i)
    match q with
    | r :: t => updDepot i (fun d => { d with queue := t, borrowed := some r, back := false, lastStart := some n }) c
    | [] => match nextRegion c i d.next with
      | some r => updDepot i (fun d => { d with queue := [], borrowed := some r, back := false, lastStart := some n, next := (nextRegion c i (r + 1)).getD 0 }) c
      | none => c

/-- The guard of the tick (R446, R448): the write-back, or with a failed test the region is out and the buffer held. -/
def patrolBack (i : Nat) (matched : Bool) (c : Chip) : Chip :=
  match (getDepot c i).borrowed with
  | none => c
  | some r =>
    if (getDepot c i).back then c
    else if matched then updDepot i (fun d => { d with back := true, bad := d.bad.filter (fun w => w / 128 ≠ r) }) c
    else depotNotice i 0 r (now c + 1) (regionOut i r (updDepot i (fun d => { d with borrowed := none, held := some r }) c))

/-- Redirection ends at the boundary after a test (R446); a pass is complete when the last region's test ends. -/
def patrolEnd (i : Nat) (c : Chip) : Chip :=
  match (getDepot c i).borrowed with
  | none => c
  | some r =>
    let lastOne := nextRegion c i (r + 1) = nextRegion c i 0 && nextRegion c i 0 = some (getDepot c i).next
    updDepot i (fun d => { d with borrowed := none, back := false, passes := if lastOne then BitVec.ofNat 16 (satInc 0xFFFF d.passes.toNat) else d.passes }) c

/-- A tributary, carrier or PM record of the placement in force uses a region of an island (R448). -/
def regionUsed (c : Chip) (i r : Nat) : Bool :=
  c.img.place.carriers.any (fun e => (e.2.srcIsl = i && (e.2.base0 / 16 = r || (e.2.base0 + 3) / 16 = r)) || (e.2.egrIsl = i && (e.2.base1 / 16 = r || (e.2.base1 + 3) / 16 = r))) ||
  c.img.place.tribs.any (fun e => e.2.island = i && ((e.2.base / 16 ≤ r && r ≤ (e.2.base + e.2.units - 1) / 16) || e.2.pm.any (fun a => a / 4096 = r)))

/-- Held buffers whose regions no tributary uses any more are released at boundary C+1 (R448). -/
def patrolRelease (c : Chip) : Chip :=
  forEach (tkeys c.dep.isl) (fun i c => match (getDepot c i).held with
    | some r => if regionUsed c i r then c else updDepot i (fun d => { d with held := none }) c
    | none => c) c

/-- The patrol at boundary n: tests end, the next regions start. -/
def patrolBoundary (n : Nat) (c : Chip) : Chip :=
  if !awake c || c.dev.state = .boot then c
  else forEach (upto 64) (fun i c => patrolStart i n (patrolEnd i c)) c

/-- A `DEPOT_STAT` entry with its sequence (R451). -/
def depotStatWord (c : Chip) (i seq : Nat) : BitVec 512 :=
  let d := getDepot c i
  BitVec.ofNat 512 (packN [(16, seq), (48, d.corr.toNat), (48, d.bLost.toNat), (32, d.uncorr.toNat), (32, d.sCorr.toNat), (16, d.passes.toNat),
    (10, d.borrowed.getD 0), (1, bnat d.borrowed.isSome), (1, bnat d.held.isSome), (10, d.held.getD 0), (10, d.next), (11, d.newOut), (261, 0), (16, seq)])

/-- `MEM_STATUS` (R445). -/
def memStatusWord (c : Chip) : Word :=
  reg32 [(6, c.dep.memStat.toNat), (9, 0), (17, c.isl.foldl (fun a e => a + e.2.regions.length) 0)]

/-- A `PATROL_CTRL` value within its ranges (R450). -/
def patrolCtrlOk (v : Word) : Bool := bits v 8 23 = 0 && 1 ≤ bits v 0 8

/-! ### Scan unit -/

/-- A scan's register over bytes (R454), and what a run starts from. -/
def scanInit (poly : Nat) : Nat := match poly with | 0 => 0xFFFFFFFF | 1 => 0xFFFFFFFF | 2 => 0 | _ => 0xFFFF
def scanRun (poly init : Nat) (l : List Byte) : Nat :=
  match poly with
  | 0 => crcRefl 0x82F63B78 init l
  | 1 => crcRefl 0xEDB88320 init l
  | 2 => crcDirect 64 0x42F0E1EBA9EA3693 init l
  | _ => crcDirect 16 0x1021 init l
/-- The result of a register: the final exclusive-or. -/
def scanOut (poly reg : Nat) : Nat := match poly with | 0 => reg ^^^ 0xFFFFFFFF | 1 => reg ^^^ 0xFFFFFFFF | _ => reg

def getScan (c : Chip) (k : Nat) : ScanSt := tget scanDflt c.dep.scan k
def updScan (k : Nat) (f : ScanSt → ScanSt) (c : Chip) : Chip := setDep { c.dep with scan := tupd scanDflt c.dep.scan k f } c

/-- `SCAN_CTRL` as it reads, and `SCAN_STATUS` (R455). -/
def scanCtrlWord (x : ScanSt) : Word := reg32 [(1, 0), (1, bnat x.cont), (2, x.source), (2, x.poly), (20, 0), (6, x.island)]
def scanStatusWord (x : ScanSt) : Word := reg32 [(1, bnat x.busy), (1, bnat x.done), (1, bnat x.overrun), (1, bnat x.poison), (28, 0)]

/-- Bytes of a scan's source (R392, R437, R455). -/
def sourceSize (source windowB : Nat) : Nat := match source with | 0 => 4194304 | 1 => windowB | _ => 134217728

/-- A write of `SCAN_CTRL` that R455 allows: reserved bits 0, a source that exists, no change of `POLY` with `CONTINUE`, the scan
within its source; while `BUSY`, only `START` again. -/
def scanCtrlOk (x : ScanSt) (v : Word) (windowB : Nat) : Bool :=
  if x.busy then setBits v 31 1 0 = scanCtrlWord x
  else
    bits v 6 20 = 0 && bits v 28 2 ≠ 3 && !(bitAt v 30 && bits v 26 2 ≠ x.poly) &&
    (!bitAt v 31 || (1 ≤ x.len.toNat && x.len.toNat ≤ 268435456 && x.addr.toNat + x.len.toNat ≤ sourceSize (bits v 28 2) windowB))

/-- The write of `SCAN_CTRL` (R455). -/
def scanCtrl (k : Nat) (v : Word) (c : Chip) : Chip :=
  updScan k (fun x =>
    if x.busy then { x with overrun := x.overrun || bitAt v 31 }
    else { x with cont := bitAt v 30, source := bits v 28 2, poly := bits v 26 2, island := bits v 0 6, busy := bitAt v 31 }) c

/-- A scan's result is written (R454, R455): `content` the bytes read, none where the manual does not give them. -/
def scanDone (k : Nat) (poison : Bool) (content : Option (List Byte)) (c : Chip) : Chip :=
  let x := getScan c k
  let init := if x.cont then x.crc else scanInit x.poly
  let r : Nat × Chip := match content with
    | some l => if poison then takeFree c else (scanRun x.poly init l, c)
    | none => takeFree c
  let reg := r.1 % 2 ^ 64
  let out := scanOut x.poly reg
  updScan k (fun x => { x with busy := false, done := true, poison := x.poison || poison, crc := reg, resLo := BitVec.ofNat 32 (if x.poly = 3 then out % 65536 else out), resHi := if x.poly = 2 then BitVec.ofNat 32 (out / 2 ^ 32) else 0 }) r.2

/-! ### Counters -/

/-- `PCNT_SEL` as it reads (R457). -/
def pcntSelWord (x : PcntSt) : Word := reg32 [(1, bnat x.enable), (1, bnat x.chain), (1, 0), (1, bnat x.ovf), (9, x.scope), (9, 0), (10, x.ev)]

/-- A write of `PCNT_SEL` with the events of its cycle (R457, R460): `CLEAR` first, then the events under the new selection. -/
def pcntSel (k : Nat) (v : Word) (same : Nat) (c : Chip) : Chip :=
  let t := c.dep.count
  let c1 := setCounters { t with cnt := tupd pcntDflt t.cnt k (fun x => { x with enable := bitAt v 31, chain := bitAt v 30, ovf := x.ovf && !bitAt v 28, val := if bitAt v 29 then 0 else x.val, scope := bits v 19 9, ev := bits v 0 10 }) } c
  if bitAt v 31 && !c1.dep.count.freeze && same ≠ 0 then pcntAdd k same c1 else c1

/-- `PCNT_CTRL` as it reads (R461). -/
def pcntCtrlWord (t : CountSt) : Word := reg32 [(1, bnat t.freeze), (1, bnat t.userEn), (1, bnat t.snapDone), (1, bnat t.armed.isSome), (4, 0), (24, t.every)]

/-- A write of `PCNT_CTRL`. -/
def pcntCtrl (v : Word) (t : CountSt) : CountSt :=
  { t with freeze := bitAt v 31, userEn := bitAt v 30, snapDone := t.snapDone && !bitAt v 29, every := bits v 0 24 }

/-- `SNAP_TICK_HI` arms the snapshot (R461). -/
def snapArm (hi : Word) (c : Chip) : Chip :=
  let t := c.dep.count
  let at_ := hi.toNat * 4294967296 + t.tickLo.toNat
  setCounters { t with tickHi := hi, armed := some (max at_ (now c + 1)) } c

/-- The snapshot due at boundary n (R461): `vals` the counters as at the end of the tick before. -/
def snapTake (vals : FMap (BitVec 48)) (n : Nat) (c : Chip) : Chip :=
  let t := c.dep.count
  match t.armed with
  | none => c
  | some a =>
    if n < a then c
    else if t.every = 0 then setCounters { t with snap := vals, last := n, snapDone := true, armed := none } c
    else setCounters { t with snap := vals, last := n, snapDone := true, armed := some (n + t.every), tickLo := BitVec.ofNat 32 (n + t.every), tickHi := BitVec.ofNat 32 ((n + t.every) / 4294967296) } c

/-- The counters' present values. -/
def pcntVals (c : Chip) : FMap (BitVec 48) := (c.dep.count.cnt.filter (fun e => e.2.val ≠ 0)).map (fun e => (e.1, e.2.val))

/-! ### Bandwidth -/

/-- The bytes of the tick that ends (R462). -/
def bwCount (ps : List PortRep) (c : Chip) : Chip :=
  forEach ps (fun r c =>
    let t := c.dep.count
    let c1 := setCounters { t with bwAcc := tupd (0, 0) t.bwAcc r.port (fun x => (x.1 + r.rxBytes, x.2 + r.txBytes)) } c
    countEvent 0x051 r.port r.txBytes (countEvent 0x050 r.port r.rxBytes c1)) c

/-- The ticks of a window in force (R462). -/
def bwTicks (c : Chip) : Nat := bits c.dep.count.bw.eff 0 19

/-- The window that ends at boundary n (R462): reported where it is whole. -/
def bwEnds (n : Nat) (c : Chip) : Chip :=
  let t := c.dep.count
  if n % bwTicks c ≠ 0 || (t.bwLive && t.bwEnd = n && n ≠ 0) then c
  else
    let t1 := if t.bwLive then { t with bwPub := t.bwAcc.map (fun e => (e.1, BitVec.ofNat 128 (packN [(32, 0), (48, e.2.2), (48, e.2.1)]))), bwEnd := n } else t
    setCounters { t1 with bwLive := true, bwAcc := [] } c

/-- A `BW_CTRL` value within its range, and its write (R462). -/
def bwCtrlOk (v : Word) : Bool := 8 ≤ v.toNat && v.toNat ≤ 480000
def bwCtrl (v : Word) (c : Chip) : Chip := setCounters { c.dep.count with bw := { c.dep.count.bw with wr := v }, bwLive := false } c

/-- What lanes and other happenings of the tick that ends add to the counters (R458). -/
def tickEvents (rep : TickRep) (c : Chip) : Chip :=
  let c1 := forEach rep.lanes (fun r c => match portOfLane (lineImage c) r.lane with
    | some p => countEvent 0x054 p r.qicCorr (countEvent 0x053 p r.rsCorr (if p = r.lane then countEvent 0x052 p r.rsCw c else c))
    | none => c) c
  let c2 := forEach rep.events (fun e c =>
    let c1 := countEvent e.1 e.2.1 e.2.2 c
    if e.1 = 0x027 then updDepot e.2.1 (fun d => { d with sCorr := BitVec.ofNat 32 (satAdd 0xFFFFFFFF d.sCorr.toNat e.2.2) }) c1
    else c1) c1
  countEvent 0x002 0x1FF 1 (countEvent 0x001 0x1FF 375000 (forEach rep.corrected (fun r => depotCorrected r.1 r.2) c2))

/-! ### Commands -/

/-- ENGINE_WRITE_ARRIVAL (R111, R441). -/
def execEngineWriteArrival (e : Nat) (tag : Byte) (target addr len : Nat) (portB : PortBRep) (partialRead : Bool) (s : State) : Host.Outcome State Fault Refusal :=
  .next (onChip (fun c => when (awake c && e < 1024 && target < 4 && targetOk target addr len) (engineWrite e tag target addr len portB partialRead) c) s)

/-- DEPOT_UNCORRECTABLE_READ (R442). -/
def execDepotUncorrectableRead (i w reader ref part : Nat) (s : State) : Host.Outcome State Fault Refusal :=
  .next (onChip (fun c => when (awake c && i < 64 && w < 131072) (depotUncorrectable i w reader ref part) c) s)

/-- PATROL_REGION_START (R446). -/
def execPatrolRegionStart (i : Nat) (s : State) : Host.Outcome State Fault Refusal :=
  .next (onChip (fun c => when (awake c && i < 64) (patrolStart i (now c)) c) s)

/-- PATROL_WRITE_BACK (R446, R448). -/
def execPatrolWriteBack (i : Nat) (matched : Bool) (s : State) : Host.Outcome State Fault Refusal :=
  .next (onChip (fun c => when (awake c && i < 64) (patrolBack i matched) c) s)

/-- PCNT_SEL_WRITE (R460): reserved bits are written 0 (R11). -/
def execPcntSelWrite (k : Nat) (v : Word) (same : Nat) (s : State) : Host.Outcome State Fault Refusal :=
  if awake s.c && k < 256 then
    if bits v 10 9 = 0 then .next (onChip (pcntSel k v same) s) else misuse 0 (0xA008 + 16 * k)
  else .next s

/-- SNAP_ARM (R461). -/
def execSnapArm (hi : Word) (s : State) : Host.Outcome State Fault Refusal := .next (onChip (fun c => when (awake c) (snapArm hi) c) s)

/-- COUNTER_SNAPSHOT (R461). -/
def execCounterSnapshot (s : State) : Host.Outcome State Fault Refusal :=
  .next (onChip (fun c => when (awake c) (snapTake (pcntVals c) (now c)) c) s)

/-- BW_WINDOW_END (R462). -/
def execBwWindowEnd (s : State) : Host.Outcome State Fault Refusal := .next (onChip (fun c => when (awake c) (bwEnds (now c)) c) s)

/-- SCAN_START (R455): the write of `SCAN_CTRL`. Window B is 256 MiB (R416). -/
def execScanStart (k : Nat) (v : Word) (s : State) : Host.Outcome State Fault Refusal :=
  if awake s.c && k < 4 then
    if scanCtrlOk (getScan s.c k) v 268435456 then .next (onChip (scanCtrl k v) s) else misuse 0 (0x9000 + 0x20 * k)
  else .next s

end Sys2Proof.Machine
end

