-- ==== Sys2Proof/Machine/Inject.lean ====
section
/-!
DEFINITION. Fault injection (R480 to R488): slots, arming, what an injection does at its point while it runs, its end.
-/
namespace Sys2Proof.Machine
open Sys2Proof

def getInj (c : Chip) (k : Nat) : InjSlot := tget injDflt c.dep.inj k

/-- A slot's start tick and duration (R482). -/
def injStartTick (x : InjSlot) : Nat := x.startHi.toNat * 4294967296 + x.startLo.toNat
def injTicks (x : InjSlot) : Nat := bits x.duration 0 24

/-- A value of `INJ_TARGET` with no reserved bit or code (R482). -/
def injTargetOk (v : Word) : Bool := bits v 28 4 ≤ 4 && bits v 26 2 ≤ 2 && bits v 24 2 ≤ 1 && bits v 12 11 = 0

/-- `RATE` of a random corruption (R483): a BER of R143's format from 10 to the minus 12 to 10 to the minus 3. -/
def injRateOk (v : Nat) : Bool :=
  let m := v % 1024
  let e := v / 1024 + 2
  100 ≤ m && m ≤ 999 && m * 1000 ≤ 10 ^ e && 10 ^ e ≤ m * 10 ^ 12

/-- `INJ_PARAM` is one R483 gives the target and action. -/
def injParamOk (x : InjSlot) : Bool :=
  let v := x.param
  match injKind x, injAction x with
  | 1, 0 | 2, 0 => v = 0
  | 1, 1 | 2, 1 => if bits v 0 16 = 0 then injRateOk (bits v 16 16) else 1 ≤ bits v 16 16
  | 2, 2 => if injPoint x = 0 then v = 0 else bits v 10 22 = 0
  | 3, 2 => bits v 13 3 = 0 && 1 ≤ bits v 16 8 && 1 ≤ bits v 24 4 && bits v 28 4 = 0
  | 3, _ => bits v 13 3 = 0 && 1 ≤ bits v 16 8 && bits v 24 8 = 0
  | 4, _ => bits v 0 16 = 0 && 1 ≤ bits v 16 8 && bits v 24 4 = 0 && bits v 29 3 = 0
  | _, _ => false

/-- `LANE_B` is a lane of the port (R482); a port that is not of the image has none to compare with. -/
def injLaneOk (c : Chip) (x : InjSlot) : Bool :=
  let ls := portLanes (lineImage c) (injIndex x)
  !(injKind x = 2 && injAction x = 2) || ls = [] || injLaneB x < ls.length

/-- A slot R480, R482 and R483 let run. -/
def injSlotOk (x : InjSlot) : Bool :=
  let k := injKind x
  let a := injAction x
  1 ≤ injTicks x && injParamOk x &&
  (match k with
   | 1 => a ≤ 1 && injIndex x < 320
   | 2 => a ≤ 2 && injIndex x < 320
   | 3 => a ≤ 2 && injIndex x = 0
   | 4 => a ≤ 1 && injIndex x < 8
   | _ => false) &&
  (injPoint x = 0 || ((k = 1 || k = 4) && a = 1) || (k = 2 && a = 2)) && (injDir x = 0 || k = 4)

/-- Arming the slot is not a misuse (R12): it would be ignored, or its fields are such as R480, R482 and R483 give. -/
def injArmOk (c : Chip) (x : InjSlot) : Bool :=
  !c.dep.injEn || injKind x = 0 || x.armed || x.running || (injSlotOk x && injLaneOk c x)

/-- The slot fails its hub causeway while it runs (R488): every berth flit dropped or made uncorrectable. -/
def injFailsCwy (x : InjSlot) : Bool :=
  injKind x = 4 && injIndex x < 4 && !bitAt x.param 28 && bits x.param 16 8 = 1 && (injAction x = 0 || injPoint x = 1)

/-! ### Effects at the point -/

/-- The lanes of a port exchange logical lanes 0 and k (R487). -/
def swapLanes (p k : Nat) (c : Chip) : Chip :=
  let ls := portLanes (lineImage c) p
  match ls.head?, ls[k]? with
  | some a, some b =>
    let x := (getLane c a).logical
    let y := (getLane c b).logical
    updLane b (fun s => { s with logical := x }) (updLane a (fun s => { s with logical := y }) c)
  | _, _ => c

/-- A port's skew is measured afresh with one lane later or no longer later (R487). -/
def shiftSkew (p : Nat) (d : Int) (c : Chip) : Chip := portDefects p (measureSkew p (((getSkew c p).ns.toNat : Int) + d).toNat c)

/-- What an injection does as it starts (R487, R488). -/
def injBegin (x : InjSlot) (n : Nat) (c : Chip) : Chip :=
  let i := injIndex x
  match injKind x, injAction x with
  | 1, 0 => signalAbsent i c
  | 2, 0 => when (onImage c) (unitsToHunt i) c
  | 2, 2 =>
    if injPoint x = 0 then when (onImage c) (unitsToHunt i) (swapLanes i (injLaneB x) c)
    else when (onImage c) (unitsToHunt i) (shiftSkew i (bits x.param 0 10) c)
  | 4, _ => if injFailsCwy x && !(getCwy c i).failed then cwyFail i n c else c
  | _, _ => c

/-- Messages a reorder still holds go out. -/
def flushLate (k : Nat) (c : Chip) : Chip :=
  forEach (getInj c k).late (fun m => emit (.hokua m.1 m.2.2)) (updInj k (fun x => { x with late := [] }) c)

/-- What stops with an injection (R485, R487, R488). -/
def injFinish (k n : Nat) (c : Chip) : Chip :=
  let x := getInj c k
  let i := injIndex x
  match injKind x, injAction x with
  | 2, 2 =>
    if injPoint x = 0 then when (onImage c) (unitsToHunt i) (swapLanes i (injLaneB x) c)
    else when (onImage c) (unitsToHunt i) (shiftSkew i (-(bits x.param 0 10 : Int)) c)
  | 3, _ => flushLate k c
  | 4, _ =>
    if injFailsCwy x && !(c.dep.inj.any (fun e => e.1 ≠ k && e.2.running && injFailsCwy e.2 && injIndex e.2 = i)) && (getCwy c i).badNow = 0 then cwyRestore i n c else c
  | _, _ => c

/-! ### Slots -/

/-- `ARM` written (R485). -/
def injArm (k : Nat) (c : Chip) : Chip :=
  let x := getInj c k
  if x.armed || x.running || !c.dep.injEn || injKind x = 0 then c
  else
    let t := max (injStartTick x) (now c + 1)
    updInj k (fun x => { x with armed := true, events := 0, seen := 0, startLo := BitVec.ofNat 32 t, startHi := BitVec.ofNat 32 (t / 4294967296) }) c

/-- The slot starts at boundary n, if it is due (R485). -/
def injStart (k n : Nat) (c : Chip) : Chip :=
  let x := getInj c k
  if x.armed && injStartTick x ≤ n then injBegin x n (updInj k (fun x => { x with armed := false, running := true }) c) else c

/-- The slot stops at boundary n, if it has run its course (R485). -/
def injEnd (k n : Nat) (c : Chip) : Chip :=
  let x := getInj c k
  if x.running && injStartTick x + injTicks x ≤ n then updInj k (fun x => { x with running := false, done := true }) (injFinish k n c) else c

/-- The slot ends early (R485). -/
def injCut (k n : Nat) (c : Chip) : Chip :=
  let x := getInj c k
  if x.running then updInj k (fun x => { x with armed := false, running := false, cut := true }) (injFinish k n c)
  else if x.armed then updInj k (fun x => { x with armed := false, cut := true }) c
  else c

/-- `INJ_CTRL` written (R481, R485): clearing `INJECT_EN` stops every slot. -/
def injCtrl (v : Word) (c : Chip) : Chip :=
  if bitAt v 31 then setDep { c.dep with injEn := true } c
  else
    let c1 := forEach (tkeys c.dep.inj) (fun k => injCut k (now c)) c
    setDep { c1.dep with injEn := false } c1

/-- `INJ_CTRL` as it reads (R481). -/
def injCtrlWord (c : Chip) : Word :=
  reg32 [(1, bnat c.dep.injEn), (15, 0), (16, c.dep.inj.foldl (fun a e => if e.2.running then a + 2 ^ e.1 else a) 0)]

/-- `INJ_STATUS` as it reads (R482). -/
def injStatusWord (x : InjSlot) : Word := reg32 [(1, 0), (1, bnat x.armed), (1, bnat x.running), (1, bnat x.done), (1, bnat x.cut), (27, 0)]

/-- The events of the tick that ends, tick d from T (R483, R484). -/
def injEventsOf (x : InjSlot) (d : Nat) : Nat :=
  match injKind x, injAction x with
  | 1, 1 | 2, 1 =>
    if bits x.param 0 16 = 0 then Config.injBits x.seed x.target x.param (BitVec.ofNat 32 d)
    else if d % (max 1 (bits x.param 16 16)) = 0 then bits x.param 0 16 else 0
  | 1, _ | 2, _ => 1
  | 4, _ => Config.injFlits x.seed x.target x.param (BitVec.ofNat 32 d)
  | _, _ => 0

/-- A receive path runs at the slot's point (R244, R485, R486): a drop overrides a corruption there. -/
def injCounts (c : Chip) (x : InjSlot) : Bool :=
  match injKind x with
  | 1 => (getLane c (injIndex x)).rx != .off && (injAction x = 0 || !(injDrops 1 (injIndex x) c))
  | 2 => onImage c && (injAction x = 0 || !(injDrops 2 (injIndex x) c))
  | 4 => true
  | _ => false

/-- Running slots count the tick n − 1 that ends. -/
def injTick (n : Nat) (c : Chip) : Chip :=
  forEach (tkeys c.dep.inj) (fun k c =>
    let x := getInj c k
    if x.running && injCounts c x then updInj k (injEvents (injEventsOf x (n - 1 - injStartTick x))) c else c) c

/-- Slots at boundary n: those done stop, those due start (R485). -/
def injBoundary (n : Nat) (c : Chip) : Chip :=
  let ks := tkeys c.dep.inj
  forEach ks (fun k => injStart k n) (forEach ks (fun k => injEnd k n) c)

/-- A commit at n ends the injections on ports it removes (R485). -/
def injAtCommit (old : Image) (n : Nat) (c : Chip) : Chip :=
  let im := theImage c
  forEach (tkeys c.dep.inj) (fun k c =>
    let x := getInj c k
    let i := injIndex x
    let gone := match injKind x with
      | 1 => (portOfLane old i).isSome && (portOfLane im i).isNone
      | 2 => (old.getRec 1 i).isSome && (im.getRec 1 i).isNone
      | _ => false
    if gone then injCut k n c else c) c

/-! ### Commands -/

/-- INJECT_EN_WRITE (R485): the write of `INJ_CTRL`. -/
def execInjectEnWrite (v : Word) (s : State) : Host.Outcome State Fault Refusal :=
  if awake s.c then (if bits v 16 15 = 0 then .next (onChip (injCtrl v) s) else misuse 0 0xC000) else .next s

/-- INJECTION_ARM (R485): arming a slot whose fields lie outside R482 and R483 is misuse (R12). -/
def execInjectionArm (k : Nat) (s : State) : Host.Outcome State Fault Refusal :=
  let x := getInj s.c k
  if awake s.c && k < 16 then
    if injArmOk s.c x then .next (onChip (injArm k) s) else misuse 0 (0xC118 + 0x20 * k)
  else .next s

/-- INJECTION_START (R485). -/
def execInjectionStart (k : Nat) (s : State) : Host.Outcome State Fault Refusal :=
  .next (onChip (fun c => when (awake c) (injStart k (now c)) c) s)

/-- INJECTION_END (R485). -/
def execInjectionEnd (k : Nat) (s : State) : Host.Outcome State Fault Refusal :=
  .next (onChip (fun c => when (awake c) (injEnd k (now c)) c) s)

end Sys2Proof.Machine
end

