-- ==== Sys2Proof/Machine/Time.lean ====
section
/-!
DEFINITION. T1's time and SOFTWARE mode (R335 to R343), frame and pulse outputs and the tick's phase (R344 to R351), and the
timing steps of a boundary (R308, R353).
-/
namespace Sys2Proof.Machine
open Sys2Proof

def secQ : Nat := 4000000000
def tickQ : Nat := 500000

def setT1 (t : T1St) (c : Chip) : Chip := setTim { c.tim with t1 := t } c

/-! ### Outputs -/

def outDflt : OutSt := { off := 0, shown := 0, last := 0, move := 0, step := 0 }

/-- The record of an output by its `TARGET` code (R347). -/
def outRec (im : Image) (t : Nat) : Option Rec := (im.getRec 6 (0x300 + (if 0x20 ≤ t then t - 0x20 else t))).filter outEnable

/-- Target codes of outputs (R347). -/
def outTargets : List Nat := [0x10, 0x11, 0x12, 0x13, 0x18, 0x20, 0x21, 0x22, 0x23, 0x24, 0x25, 0x26, 0x27, 0x28, 0x29, 0x2A, 0x2B]

/-- A frame and pulse output of the plan (R344). -/
def framePulse (im : Image) (t : Nat) : Bool :=
  match outRec im t with | some r => t < 0x20 || outFreq r ≤ 8000 | none => false

/-- The period of a frame and pulse output in 0.25 ns. -/
def outPeriod (im : Image) (t : Nat) : Nat :=
  if t < 0x20 then secQ else match outRec im t with | some r => secQ / max 1 (outFreq r) | none => secQ

/-- `PHASE_PS` in 0.25 ns. -/
def outPhaseQ (im : Image) (t : Nat) : Int := match outRec im t with | some r => outPhase r / 250 | none => 0

/-- An offset brought into half a period either way. -/
def normOff (v : Int) (p : Nat) : Int := let r := v % (p : Int); if 2 * r > p then r - p else r

/-- The output is held low (R349). -/
def outLow (c : Chip) (t : Nat) : Bool :=
  match outRec (theImage c) t with
  | none => true
  | some r =>
    let d := if t < 0x20 then 1 else outSource r
    outSquelch r && ((getDp c d).state = dpFree || (getDp c d).state = dpLost)

def getOut (c : Chip) (t : Nat) : OutSt := tget outDflt c.tim.outs t
def setOut (t : Nat) (o : OutSt) (c : Chip) : Chip := setTim { c.tim with outs := tset outDflt c.tim.outs t o } c

/-- The first time at or after `a` that has a phase modulo a period. -/
def firstAt (a ph : Int) (p : Nat) : Int := a + (ph - a) % (p : Int)

/-- One output over a tick of T1 time from `a` to `b` (R344, R346, R347): its last edge, and the end of a realignment. -/
def outAdvance (a b : Int) (n t : Nat) (c : Chip) : Chip :=
  let im := theImage c
  let o := getOut c t
  let p := outPeriod im t
  let ph := outPhaseQ im t
  if o.move = 0 then
    let e := firstAt a (ph + o.off) p
    if e < b then
      let c1 := setOut t { o with last := (b - 1 - (b - 1 - (ph + o.off)) % (p : Int)).toNat, shown := normOff o.off p } c
      if t = 0x18 then setTim { c1.tim with todDue := some (n - 1 + 80) } c1 else c1
    else c
  else
    let e : Int := if o.move = 1 then firstAt ((o.last : Int) + p / 2) ph p + o.step else (o.last : Int) + p + o.step
    let off := if o.move = 1 then o.step else o.off + o.step
    if e < b then
      let c1 := setOut t { off := normOff off p, shown := normOff off p, last := e.toNat, move := 0, step := 0 } c
      let c2 := if t = 0x18 then setTim { c1.tim with todDue := some (n - 1 + 80) } c1 else c1
      emit (.edge t n) (timNotice 0x29 t o.move 0 n false c2)
    else c

/-- A tick move of one tick (R345): at most 0.625 ns. -/
def moveStep (left : Int) : Int := if left.natAbs ≤ 5 then left else if left > 0 then 5 else -5

/-- T1's clock over the tick that ends at boundary n (R335, R345): the outputs' edges, the tick's phase. -/
def t1Advance (step n : Nat) (c : Chip) : Chip :=
  let a : Int := c.tim.t1.time
  let mv := if c.tim.tickMoving then moveStep c.tim.tickLeft else 0
  let left1 := c.tim.tickLeft - mv
  let b : Int := a + step + (c.tim.tickLeft / 2 - left1 / 2)
  let c1 := forEach (outTargets.filter (framePulse (theImage c))) (outAdvance a b n) c
  let left2 := if c.tim.tickMoving then left1 - 2 * ((step : Int) - tickQ) else 0
  setTim { c1.tim with t1 := { c1.tim.t1 with time := b.toNat }, tickLeft := left2, tickPhase := b.toNat % tickQ } c1

/-- A step of T1's time (R336, R353): pulses, edges and ticks keep their place. -/
def timeStep (a : Int) (c : Chip) : Chip :=
  let im := theImage c
  let c1 := setT1 { c.tim.t1 with time := ((c.tim.t1.time : Int) + a).toNat } c
  let c2 := forEach (outTargets.filter (framePulse im)) (fun t c =>
    let o := getOut c t
    setOut t { o with off := normOff (o.off + a) (outPeriod im t), last := ((o.last : Int) + a).toNat } c) c1
  let c3 := setTim { c2.tim with tickLeft := if c2.tim.tickMoving then normOff (c2.tim.tickLeft - 2 * a) (2 * tickQ) else 0, tickPhase := c2.tim.t1.time % tickQ } c2
  forEach (tkeys c3.tim.ins) (fun i => updIn i (fun s => { s with timePrev := none })) c3

/-! ### Commands that wait for the boundary -/

/-- A 64-bit parameter of `TIME_ADJUST` or `PHASE_STEP` (R429). -/
def param64 (lo hi : Word) : Nat := lo.toNat + hi.toNat * 4294967296

def timeAdjustOk (c : Chip) : Bool :=
  let v : Word64 := BitVec.ofNat 64 (param64 c.mb.p0 c.mb.p1)
  bits v 62 2 ≤ 1 && bits v 48 14 = 0 && (bits v 62 2 = 1 || bits v 40 8 = 0)

/-- The command held for boundary n, of one code. -/
def cmdWaiting (code n : Nat) (c : Chip) : Option MbCur := (mbHolds code c).filter (fun k => k.accept < n && c.mb.held = none)

/-- TIME_ADJUST at its boundary (R336). -/
def timeAdjustStep (n : Nat) (c : Chip) : Chip :=
  match cmdWaiting 0x031 n c with
  | none => c
  | some k =>
    let v : Word64 := BitVec.ofNat 64 (param64 k.p0 k.p1)
    if !(dpSw c 1) && timeRef c 1 (getDp c 1).sel then mbCode 1 c
    else
      let a : Int := if bits v 62 2 = 0 then toSigned 40 (bits v 0 40)
        else ((bits v 0 48 * secQ + c.tim.t1.time % secQ : Nat) : Int) - c.tim.t1.time
      mbCode 0 (timeStep a c)

/-- A tick move ends once the phase lies within 2 ns of its target (R345). -/
def tickMoveEnd (n : Nat) (c : Chip) : Chip :=
  if c.tim.tickMoving && c.tim.tickLeft.natAbs ≤ 16 then
    timNotice 0x29 0 c.tim.tickKind 0 n false (setTim { c.tim with tickMoving := false, tickLeft := 0 } c)
  else c

def tickAlignOk (c : Chip) : Bool := c.mb.p0.toNat ≤ 124999

/-- The bits of `PPS_ALIGN`'s parameter as target codes (R346). -/
def ppsTargets (v : Word) : List Nat :=
  (upto 17).filterMap (fun k => if bitAt v k then some (if k < 4 then 0x10 + k else if k = 4 then 0x18 else 0x20 + (k - 5)) else none)

def ppsAlignOk (c : Chip) : Bool := bits c.mb.p0 17 15 = 0 && (ppsTargets c.mb.p0).all (framePulse (theImage c))

def phaseStepOk (c : Chip) : Bool :=
  let t := bits c.mb.p0 0 8
  let a := (toSigned 32 c.mb.p1.toNat).natAbs
  bits c.mb.p0 8 24 = 0 &&
  (if t = 0 then a ≤ 250000 else outTargets.contains t && framePulse (theImage c) t && 2 * a < outPeriod (theImage c) t)

/-- TICK_ALIGN at its boundary (R345): the shorter way to the target. -/
def tickAlignStep (n : Nat) (c : Chip) : Chip :=
  match cmdWaiting 0x032 n c with
  | none => c
  | some k =>
    let d := normOff ((k.p0.toNat * 4 : Nat) - ((c.tim.t1.time % tickQ : Nat) : Int)) tickQ
    mbCode 0 (setTim { c.tim with tickMoving := true, tickLeft := 2 * d, tickKind := 0 } c)

/-- PPS_ALIGN at its boundary (R346). -/
def ppsAlignStep (n : Nat) (c : Chip) : Chip :=
  match cmdWaiting 0x033 n c with
  | none => c
  | some k => mbCode 0 (forEach (ppsTargets k.p0) (fun t c => setOut t { getOut c t with move := 1, step := 0 } c) c)

/-- PHASE_STEP at its boundary (R347). -/
def phaseStepStep (n : Nat) (c : Chip) : Chip :=
  match cmdWaiting 0x034 n c with
  | none => c
  | some k =>
    let t := bits k.p0 0 8
    let a := toSigned 32 k.p1.toNat
    let c1 :=
      if t = 0 then
        (if c.tim.tickMoving then setTim { c.tim with tickLeft := c.tim.tickLeft + 2 * a } c
         else setTim { c.tim with tickMoving := true, tickLeft := 2 * a, tickKind := 2 } c)
      else
        let o := getOut c t
        setOut t { o with move := if o.move = 0 then 2 else o.move, step := o.step + a } c
    mbCode 0 c1

/-- HO_RESET at its boundary (R329). -/
def hoResetStep (n : Nat) (c : Chip) : Chip :=
  match cmdWaiting 0x035 n c with
  | none => c
  | some _ => mbCode 0 (hoClear n c)

/-! ### SOFTWARE mode (R340 to R343) -/

def swOwner (c : Chip) : Bool := bitAt c.tim.t1.ctrl.eff 29
def swTimeout (c : Chip) : Nat := bits c.tim.t1.ctrl.eff 0 16

/-- T1 enters or leaves SOFTWARE mode at a commit (R340, R321). -/
def swAtCommit (n : Nat) (c : Chip) : Chip :=
  let on : Bool := dpMode (dpRec c 1) = 1
  if on = c.tim.t1.swMode then c
  else if on then
    let x := getDp c 1
    let c1 := setT1 { c.tim.t1 with swMode := true, swLocked := false, ffoWr := BitVec.ofNat 32 (ofSigned 32 x.ffo), ffoNew := false, sample := none, goodFrom := none, badFrom := none, ownTick := n - 1, ownNew := false, expired := false, stepTo := none } (clearConflict 1 n c)
    let c2 := updDp 1 (fun x => { x with sel := noInput, span := none, pulling := false, pullNext := false, wtr := none, aside := [] }) c1
    dpGo 1 dpAcq n c2
  else
    let c1 := setT1 { c.tim.t1 with swMode := false, swLocked := false, expired := false, sample := none } c
    updDp 1 (fun x => { x with fromSw := true }) c1

/-- One run of the signal box servo (R342). -/
def servoRun (c : Chip) : Chip :=
  let t := c.tim.t1
  if !(dpSoft c 1) || swOwner c || c.dev.sbDown then c
  else
    match t.sample with
    | none => c
    | some v =>
      let n := now c
      if !t.swLocked && 4000 ≤ v.natAbs then setT1 { (timeStep (-v) c).tim.t1 with sample := none, goodFrom := none } (timeStep (-v) c)
      else
        let f := clampInt (-2147483648) 2147483647 (toSigned 32 t.ffoWr.toNat + Config.servoStep (dpBw (dpRec c 1)) (toSigned 32 t.ffoWr.toNat) v)
        let good : Option Nat := if v.natAbs ≤ 200 then some (t.goodFrom.getD n) else none
        let bad : Option Nat := if 4000 < v.natAbs then some (t.badFrom.getD n) else none
        let lock : Bool := match good with | some g => g + lockTicks (dpBw (dpRec c 1)) ≤ n | none => false
        let lose : Bool := match bad with | some b => b + 8000 ≤ n | none => false
        setT1 { t with ffoWr := BitVec.ofNat 32 (ofSigned 32 f), ffoNew := true, goodFrom := good, badFrom := bad, swLocked := if lock then true else if lose then false else t.swLocked } c

/-- SOFTWARE writes, the watchdog and T1's state at a boundary (R341, R343, R353). -/
def swBoundary (n : Nat) (c : Chip) : Chip :=
  if !c.tim.t1.swMode then setT1 { c.tim.t1 with ownNew := false } c
  else
    let t := c.tim.t1
    let resumed := t.expired && t.ownNew
    let c1 := when resumed (timNotice 0x2A 1 0 0 n true) (setT1 { t with expired := t.expired && !t.ownNew, ownNew := false, swLocked := if swOwner c then bits t.ctrl.eff 30 2 = 1 else t.swLocked } c)
    let c2 := when (resumed && !(swOwner c1)) (fun c => setT1 { c.tim.t1 with swLocked := false } c) c1
    if !c2.tim.t1.expired && swTimeout c2 ≠ 0 && c2.tim.t1.ownTick + swTimeout c2 < n then
      let c3 := timNotice 0x2A 1 0 0 n false (setT1 { c2.tim.t1 with expired := true } c2)
      dpNone 1 n c3
    else if c2.tim.t1.expired then c2
    else
      let c3 := updDp 1 (fun x => { x with ffo := toSigned 32 c2.tim.t1.ffoWr.toNat }) c2
      dpGo 1 (if resumed then dpAcq else if c3.tim.t1.swLocked then dpLocked else dpAcq) n c3

/-! ### TODOUT (R350) -/

/-- The reference whose messages supply T1's UTC fields (R351). -/
def todSource (c : Chip) : Option Nat := let s := (getDp c 1).sel; if 8 ≤ s && s ≤ 11 then some s else none

/-- `TOD_INFO` (R351). -/
def todInfoWord (c : Chip) : Word :=
  match todSource c with
  | some i => reg32 [(16, (getIn c i).utc.toNat), (13, 0), (1, 1), (2, (getIn c i).leap.toNat)]
  | none => reg32 [(16, bits c.tim.todInfo 16 16), (14, 0), (2, bits c.tim.todInfo 0 2)]

/-- The QL T1 has (R350). -/
def t1Ql (c : Chip) : Nat :=
  let x := getDp c 1
  if (x.state = dpAcq || x.state = dpLocked) && (inRec c x.sel).isSome then effQl c x.sel else timOscQl c

/-- The bytes of the message that names the next pulse. -/
def todBytes (c : Chip) : List Byte :=
  let x := getDp c 1
  let o := getOut c 0x18
  let info := todInfoWord c
  let leap := bits info 0 2
  let next : Int := (o.last : Int) + secQ - outPhaseQ (theImage c) 0x18
  let sec := (next + secQ / 2) / (secQ : Int)
  let flags := packN [(3, 0), (1, bnat (o.shown.natAbs ≤ 400)), (1, bnat (leap ≥ 2)), (1, leap % 2),
    (1, bnat (x.state = dpHold)), (1, bnat (x.state = dpLocked || x.state = dpHold))]
  let be (k v : Nat) : List Byte := (leBytes k v).reverse
  let l : List Byte := [0x53, 0x4B, 1, BitVec.ofNat 8 flags] ++ be 6 sec.toNat ++ be 2 (bits info 16 16) ++
    [BitVec.ofNat 8 (t1Ql c)] ++ be 2 (ofSigned 16 (clampInt (-32767) 32767 (o.shown / 4)))
  l ++ [l.foldl (fun a b => a ^^^ b) 0]

/-- The message is sent once it is due (R349). -/
def todSend (n : Nat) (c : Chip) : Chip :=
  match c.tim.todDue with
  | some d =>
    if n < d then c
    else
      let c1 := setTim { c.tim with todDue := none } c
      if outLow c 0x18 then c1 else emit (.todout (todBytes c)) c1
  | none => c

/-! ### Boundary -/

/-- Outputs at the commit at boundary n (R321). -/
def outputsAtCommit (old : Image) (c : Chip) : Chip :=
  let im := theImage c
  forEach outTargets (fun t c =>
    match outRec im t, outRec old t with
    | none, _ => setTim { c.tim with outs := tdel c.tim.outs t } c
    | some r, some o =>
      if outSource r = outSource o && outFreq r = outFreq o then
        (if outPhase r = outPhase o || !(framePulse im t) then c
         else let s := getOut c t; setOut t { s with off := normOff (s.off + outPhaseQ old t - outPhaseQ im t) (outPeriod im t) } c)
      else setOut t { outDflt with last := c.tim.t1.time } c
    | some _, none => setOut t { outDflt with last := c.tim.t1.time } c) c

/-- Timing-plan changes of a commit at boundary n (step 1 of R308). -/
def timingAtCommit (old : Image) (first : Bool) (n : Nat) (c : Chip) : Chip :=
  outputsAtCommit old (swAtCommit n (dpllsAtCommit old first n (inputsAtCommit old n c)))

/-- What the tick that ends measured (R311, R335). -/
def timingTick (rep : TickRep) (n : Nat) (c : Chip) : Chip :=
  t1Advance rep.t1Step n (forEach (tkeys c.tim.dps) (dpMeasure rep.loops) c)

/-- The second's and minute's records of every DPLL. -/
def timingRecords (n : Nat) (c : Chip) : Chip :=
  let ds := tkeys c.tim.dps
  let c1 := when (n % 8000 = 0) (forEach ds dpSecond) c
  when (n % 480000 = 0 && n ≠ 0) (fun c => refreshReady n (forEach ds (fun d c => minuteRecord n d (warnStep d c)) c)) c1

/-- Verdicts and selection wait while the timing firmware restarts (R400): 1 a second's, 2 a minute's are due. -/
def timingDefer (n : Nat) (c : Chip) : Chip :=
  let due : Nat := if n % 480000 = 0 && n ≠ 0 then 2 else if n % 8000 = 0 then 1 else 0
  timingRecords n (setTim { c.tim with deferred := max c.tim.deferred due } c)

/-- Steps 2 to 8 of R308 with the second's and minute's records. -/
def timingSelect (refs : List RefRep) (n : Nat) (c0 : Chip) : Chip :=
  let ds := tkeys c0.tim.dps
  let sec := n % 8000 = 0 || 1 ≤ c0.tim.deferred
  let min_ := (n % 480000 = 0 && n ≠ 0) || 2 ≤ c0.tim.deferred
  let c := setTim { c0.tim with deferred := 0 } c0
  let c1 := inputsBoundary sec min_ n refs c
  let c3 := timingRecords n c1
  let c4 := when sec (forEach ds (fun d => conflictStep d n)) c3
  let w := refWaiting c4 n
  let res := match w with | some (d, i) => refRefused c4 d i | none => none
  let c5 := refTake n c4
  let c6 := forEach ds (fun d => selectStep d n) c5
  let c7 := forEach ds (fun d c => pullStep d n (lockStep d n c)) c6
  refReply w res c7

/-- The steps of R353 and what follows them. -/
def timingAfter (n : Nat) (c : Chip) : Chip :=
  let ds := tkeys c.tim.dps
  let c1 := timeAdjustStep n c
  let c2 := phaseStepStep n (ppsAlignStep n (tickAlignStep n c1))
  let c3 := if tfBusy c2 then c2 else swBoundary n c2
  let c4 := forEach ds (fun d c => lostStep d n (holdStep d n c)) c3
  let c5 := tickMoveEnd n c4
  let c6 := when (n % 28800000 = 0 && n ≠ 0) (fun c => if tfBusy c then setOsc { c.tim.osc with hours := c.tim.osc.hours + 1 } c else hourStep n c) c5
  let c7 := if tfBusy c6 then c6 else hoResetStep n (refitLate n c6)
  let c8 := todSend n (qlStep n c7)
  forEach (tkeys c8.tim.ins) (fun i => updIn i (fun s => { s with open_ := false })) c8

/-- The timing block at boundary n. -/
def timingBoundary (rep : TickRep) (n : Nat) (c : Chip) : Chip :=
  timingAfter n (if tfBusy c then timingDefer n c else timingSelect rep.refs n c)

/-! ### Commands -/

/-- TIMING_SECOND_BOUNDARY (R308): the steps of a second boundary, unless they ran at it. -/
def execTimingSecondBoundary (refs : List RefRep) (s : State) : Host.Outcome State Fault Refusal :=
  .next (onChip (fun c =>
    if awake c && now c % 8000 = 0 && !(isDone 3 c) then markDone 3 (timingAfter (now c) (if tfBusy c then timingDefer (now c) c else timingSelect refs (now c) c)) else c) s)

/-- TIME_ADJUST (R336): carried out at the next boundary. -/
def execTimeAdjust (tag : Byte) (s : State) : Host.Outcome State Fault Refusal :=
  .next (onChip (mbSubmit 0x031 tag false timeAdjustOk id) s)

/-- TICK_ALIGN (R345). -/
def execTickAlign (tag : Byte) (s : State) : Host.Outcome State Fault Refusal :=
  .next (onChip (mbSubmit 0x032 tag false tickAlignOk id) s)

/-- PPS_ALIGN (R346). -/
def execPpsAlign (tag : Byte) (s : State) : Host.Outcome State Fault Refusal :=
  .next (onChip (mbSubmit 0x033 tag false ppsAlignOk id) s)

/-- PHASE_STEP (R347). -/
def execPhaseStep (tag : Byte) (s : State) : Host.Outcome State Fault Refusal :=
  .next (onChip (mbSubmit 0x034 tag false phaseStepOk id) s)

/-- `T1_SW_CTRL` values R341 allows. -/
def t1SwCtrlOk (v : Word) : Bool := bits v 30 2 ≤ 1 && bits v 16 13 = 0

/-- T1_SW_CTRL_WRITE (R341): in force from the next boundary. -/
def execT1SwCtrlWrite (v : Word) (s : State) : Host.Outcome State Fault Refusal :=
  if awake s.c && !(t1SwCtrlOk v) then misuse 0 0x4060
  else .next (onChip (when (awake s.c) (fun c => setT1 { c.tim.t1 with ctrl := { c.tim.t1.ctrl with wr := v } } c)) s)

/-- T1_SW_FFO_WRITE (R341): ignored while the servo owns the register. -/
def t1SwFfoWrite (v : Word) (c : Chip) : Chip :=
  if swOwner c then setT1 { c.tim.t1 with ffoWr := v, ffoNew := true, ownTick := now c, ownNew := true } c else c

def execT1SwFfoWrite (v : Word) (s : State) : Host.Outcome State Fault Refusal :=
  .next (onChip (when (awake s.c) (t1SwFfoWrite v)) s)

/-- T1_SW_OFFSET_WRITE (R341): one sample, ignored while the host owns the frequency. -/
def t1SwOffsetWrite (v : Word) (c : Chip) : Chip :=
  if swOwner c then c else setT1 { c.tim.t1 with sample := some (toSigned 32 v.toNat), ownTick := now c, ownNew := true } c

def execT1SwOffsetWrite (v : Word) (s : State) : Host.Outcome State Fault Refusal :=
  .next (onChip (when (awake s.c) (t1SwOffsetWrite v)) s)

/-- SW_SERVO_RUN (R342): once in a tick. -/
def execSwServoRun (s : State) : Host.Outcome State Fault Refusal :=
  .next (onChip (fun c => if onImage c && !(isDone 6 c) then markDone 6 (servoRun c) else c) s)

/-- SW_WATCHDOG_EXPIRY (R343). -/
def execSwWatchdogExpiry (s : State) : Host.Outcome State Fault Refusal :=
  .next (onChip (fun c =>
    if onImage c && c.tim.t1.swMode && !c.tim.t1.expired && swTimeout c ≠ 0 && c.tim.t1.ownTick + swTimeout c < now c then
      dpNone 1 (now c) (timNotice 0x2A 1 0 0 (now c) false (setT1 { c.tim.t1 with expired := true } c))
    else c) s)

/-- TICK_MOVE_END (R345). -/
def execTickMoveEnd (s : State) : Host.Outcome State Fault Refusal :=
  .next (onChip (fun c => when (awake c) (tickMoveEnd (now c)) c) s)

/-- OUTPUT_ALIGN_END (R346, R347): the realigned output's edge, when its time has come. -/
def execOutputAlignEnd (t : Nat) (s : State) : Host.Outcome State Fault Refusal :=
  .next (onChip (fun c =>
    if onImage c && framePulse (theImage c) t && (getOut c t).move ≠ 0 then
      outAdvance c.tim.t1.time (c.tim.t1.time + 1) (now c) t c else c) s)

/-- TODOUT_MESSAGE (R350). -/
def execTodoutMessage (s : State) : Host.Outcome State Fault Refusal :=
  .next (onChip (fun c => when (onImage c) (todSend (now c)) c) s)

/-- REFIN_PULSE (R293, R315): the pulse marks the second last named; T1 steps to it when it came from FREE_RUN or LOST. -/
def refinPulse (i : Nat) (c : Chip) : Chip :=
  let x := getIn c i
  let c1 := updIn i (fun s => { s with todPulses := s.todPulses + 1, todFresh := false }) c
  match x.todLast with
  | some sec =>
    if x.todFresh && c.tim.t1.stepTo = some i then
      let a : Int := ((sec * secQ : Nat) : Int) - c1.tim.t1.time
      let c2 := timeStep a c1
      updDp 1 (fun d => { d with buildOut := 0 }) (setT1 { c2.tim.t1 with stepTo := none } c2)
    else c1
  | none => c1

def execRefinPulse (i : Nat) (s : State) : Host.Outcome State Fault Refusal :=
  .next (onChip (fun c => if onImage c && 8 ≤ i && i ≤ 11 then refinPulse i c else c) s)

end Sys2Proof.Machine
end

