-- ==== Sys2Proof/Machine/Trace.lean ====
section
/-!
DEFINITION. Trail traces (R164, R165).
-/
namespace Sys2Proof.Machine
open Sys2Proof

/-- A trace entry at reset (R164). -/
def traceDflt : TraceSt := { tx := 0, exp := 0, acc := 0, accValid := false, format := false, timMode := 0, txEff := 0, cand := 0, run := 0 }
def getTrace (c : Chip) (e : Nat) : TraceSt := tget traceDflt c.line.trace e
def updTrace (e : Nat) (f : TraceSt → TraceSt) (c : Chip) : Chip := { c with line := { c.line with trace := tupd traceDflt c.line.trace e f } }

/-- The entry of a point (R164): ports by number, monitored points from 320. -/
def traceEntry (c : Chip) (layer ref level : Nat) : Option Nat :=
  if layer = 2 then some ref
  else if layer = 4 || layer = 5 then (pointOf c ref (if layer = 4 then 0 else level)).map (320 + ·)
  else none

/-- The point of an entry. -/
def tracePoint (c : Chip) (e : Nat) : Option (Nat × Nat × Nat) :=
  if e < 320 then (if portStack (theImage c) e = 0 then none else some (2, e, 0))
  else match c.pm.points.lookup (e - 320) with
    | some (t, 0) => some (4, t, 0)
    | some (t, l) => some (5, t, l)
    | none => none

/-- The bits of a trace that `TIM_MODE` compares (R164): byte 0 stands highest. -/
def timMask (mode : Nat) : Nat :=
  match mode with
  | 1 => (2 ^ 128 - 1) <<< 384
  | 2 => (2 ^ 128 - 1) <<< 256
  | 3 => (2 ^ 256 - 1) <<< 256
  | 4 => 2 ^ 512 - 1
  | _ => 0

/-- The bits of a trace of a format: the 16-byte format has bytes 0 to 15. -/
def formatMask (short : Bool) : Nat := if short then (2 ^ 128 - 1) <<< 384 else 2 ^ 512 - 1

/-- dTIM of an entry (R165): the accepted trace differs from the expected one. -/
def timDiffers (x : TraceSt) : Bool :=
  x.accValid && ((x.acc.toNat ^^^ x.exp.toNat) &&& timMask x.timMode.toNat &&& formatMask x.format) ≠ 0

/-- Every unit of every port a point rests on is in IF (R525). -/
def pointFramed (c : Chip) (layer ref : Nat) : Bool :=
  if layer = 2 then portFramed c ref else let ps := chainPorts (theImage c) ref; ps ≠ [] && ps.all (portFramed c)

/-- dTIM is judged again. -/
def traceJudge (e : Nat) (c : Chip) : Chip :=
  match tracePoint c e with
  | none => c
  | some p =>
    let k := dkey p.1 p.2.1 p.2.2 4
    let is := timDiffers (getTrace c e)
    if detects c && pointFramed c p.1 p.2.1 && (dget c k).present ≠ is then setDefect k is c else c

/-- One bit of a CRC-7. PRESUMED (log 49): G.707's polynomial, x to the 7 plus x to the 3 plus 1. -/
def crc7Step (r : Nat) (b : Bool) : Nat :=
  let x := 2 * r % 128 + bnat b
  if 64 ≤ r then x ^^^ 9 else x

/-- CRC-7 of bytes, from the highest bit of the first. -/
def crc7 (l : List Byte) : Nat :=
  ((l.map (fun b => (upto 8).map (fun k => bitAt b (7 - k)))).flatten ++ List.replicate 7 false).foldl crc7Step 0

/-- Bytes 0 to 15 of a trace. -/
def shortBytes (v : BitVec 512) : List Byte := (upto 16).map (fun i => BitVec.ofNat 8 (v.toNat >>> (504 - 8 * i)))

/-- Byte 0 of a 16-byte trace (R164): 1, then the CRC-7 of the trace with that byte's other bits 0. -/
def shortHead (v : BitVec 512) : Nat := 128 + crc7 (0x80 :: (shortBytes v).drop 1)

/-- The CRC-7 of a received 16-byte trace is right (R165). -/
def shortOk (v : BitVec 512) : Bool := ((shortBytes v).headD 0).toNat = shortHead v

/-- The trace sent (R164): in the 16-byte format bytes 0 to 15, with byte 0 computed. -/
def traceSent (x : TraceSt) : BitVec 512 :=
  if x.format then BitVec.ofNat 512 (shortHead x.txEff * 2 ^ 504 + (x.txEff.toNat % 2 ^ 504) / 2 ^ 384 * 2 ^ 384) else x.txEff

/-- A trace multiframe received (R165): accepted when the same value comes 3 times in a row. -/
def traceReceived (e : Nat) (v : BitVec 512) (c : Chip) : Chip :=
  let x := getTrace c e
  if x.format && !(shortOk v) then updTrace e (fun x => { x with run := 0 }) c
  else
    let run := if x.run ≠ 0 && x.cand = v then min 3 (x.run + 1) else 1
    let c1 := updTrace e (fun x => { x with cand := v, run := run, acc := if run = 3 then v else x.acc, accValid := x.accValid || run = 3 }) c
    if run = 3 then traceJudge e c1 else c1

/-- A `TRACE` entry as it reads (R164). -/
def traceWord (x : TraceSt) : Nat :=
  packN [(512, x.tx.toNat), (512, x.exp.toNat), (512, x.acc.toNat), (504, 0), (1, bnat x.accValid), (1, bnat x.format), (3, 0), (3, x.timMode.toNat)]

/-- A `TRACE` entry after bytes are written to it (R164): read-only and reserved fields stay. -/
def traceSet (off : Nat) (l : List Byte) (x : TraceSt) : TraceSt :=
  let old := leBytes 256 (traceWord x)
  let v := leNat (old.take off ++ l ++ old.drop (off + l.length))
  { x with tx := BitVec.ofNat 512 (v >>> 1536), exp := BitVec.ofNat 512 (v >>> 1024), format := v.testBit 6, timMode := BitVec.ofNat 3 v }

/-- Bytes R164 lets a host write at a place of an entry: whole words, reserved bits 0, a `TIM_MODE` that exists (R11, R12). -/
def traceWriteOk (off : Nat) (l : List Byte) : Bool :=
  off % 4 = 0 && l.length % 4 = 0 && l ≠ [] && off + l.length ≤ 256 &&
  (upto (min l.length (64 - off))).all (fun k => let b := l.getD k 0
    if off + k = 0 then bits b 3 3 = 0 && bits b 0 3 ≤ 4 else b = 0)

/-- Bytes are written to an entry (R165): the trace sent changes after the next boundary. -/
def traceWrite (e off : Nat) (l : List Byte) (c : Chip) : Chip := traceJudge e (updTrace e (traceSet off l) c)

/-- Frame periods in ns, by stack of a section and by type and rate in kbit/s of a tributary. PRESUMED (log 49): G.709 and G.707; the
OTUC slice's is R160's. -/
def sectionFrameNs (st : Nat) : Nat := match st with | 1 => 1163 | 2 => 1168 | 3 => 12191 | 4 => 11767 | _ => 125000
def tribFrameNs (ty kbps : Nat) : Nat :=
  match ty with
  | 1 => 98354 | 2 => 48971 | 3 => 12191 | 4 => 11767 | 5 => 3035 | 6 => 1168 | 8 => 1163
  | 7 => 122368000000 / (max 1 kbps)
  | _ => if isLoVc ty && ty ≠ 0x15 then 500000 else 125000

/-- The length of the trace multiframe an entry is sent in, in ns (R165): 64 frames, or 16 as `FORMAT` gives. -/
def tracePeriod (c : Chip) (e : Nat) (short : Bool) : Nat :=
  let im := theImage c
  let frame : Nat := match tracePoint c e with
    | some (2, p, _) => sectionFrameNs (portStack im p)
    | some (_, t, _) => (match tribRec im t with | some r => tribFrameNs (tribType r) (tribKbps im t r) | none => 125000)
    | none => 125000
  frame * (if short then 16 else 64)

/-- A multiframe of a period begins in tick n. DESIGN CHOICE (log 49): multiframes run on from tick 0. -/
def beginsIn (n period : Nat) : Bool := ceilDiv (125000 * n) period * period < 125000 * (n + 1)

/-- At boundary n the traces written before it are those that the next trace multiframe to begin sends (R165). -/
def traceBoundary (n : Nat) (c : Chip) : Chip :=
  { c with line := { c.line with trace := tmap traceDflt c.line.trace (fun e x => if beginsIn n (tracePeriod c e x.format) then { x with txEff := x.tx } else x) } }

/-- A trace entry starts without an accepted trace. -/
def traceAfresh (e : Nat) (c : Chip) : Chip := updTrace e (fun x => { x with acc := 0, accValid := false, cand := 0, run := 0 }) c

/-- Entries of points a commit adds start without an accepted trace (R165): those of monitored points, and of ports whose section is another or
new. -/
def tracesAtCommit (was : FMap (Nat × Nat)) (old : Image) (c : Chip) : Chip :=
  forEach ((imagePorts (theImage c)).filter (fun p => portStack old p ≠ portStack (theImage c) p)) traceAfresh
    (forEach ((c.pm.points.filter (fun e => was.lookup e.1 ≠ some e.2)).map (320 + ·.1)) traceAfresh c)

end Sys2Proof.Machine
end

