-- ==== Sys2Proof/Machine/Commit.lean ====
section
/-!
DEFINITION. Images, their validation and commits (R53 to R61, R83 to R94, R103, R177, R213 to R217).
-/
namespace Sys2Proof.Machine
open Sys2Proof

def setCm (m : CommitSt) (c : Chip) : Chip := { c with cm := m }

/-- The bytes of `IMAGE_STAGE` at the start of Window B; one more than it holds stands for a longer load (R84, R88). -/
def imageStaged (mem : List Host.Cell) (n : Nat) : List Byte := readBytes 0 mem 0 (min n 16777217)

/-! ### Failures -/

/-- `FAIL_SOURCE` of a change (R86): 0 first image, 1 replacement, 2 amendment. -/
def failSource (kind : Nat) : Nat := kind - 1

/-- The failure record (R86). -/
def imgFailSet (source : Nat) (f : ImgFail) (c : Chip) : Chip :=
  setCm { c.cm with failStage := f.stage, failSection := f.sect, failSource := source, failReason := f.reason, failIndex := BitVec.ofNat 32 f.index } c

/-- A change that passes integrity clears it (R86). -/
def imgFailClear (c : Chip) : Chip :=
  setCm { c.cm with failStage := 0, failSection := 0, failSource := 0, failReason := 0, failIndex := 0xFFFFFFFF } c

/-- A failure at the commit stage, tied to no section or record. -/
def commitFail (reason : Nat) : ImgFail := { stage := 5, sect := 0xF, reason := reason, index := noIndex }

/-- The pending change is refused whole (R56, R58, R88, R89): reserved resources go, the shadow is the active bank again, and a
first image leaves the part in HELD. -/
def refuse (f : ImgFail) (c : Chip) : Chip :=
  match c.cm.change with
  | none => c
  | some k =>
    let was := c.cm.pending
    let c1 := imgFailSet (failSource k.kind) f { c with img := { c.img with shadow := c.img.place }, jct := { c.jct with diff := [] } }
    let c2 := setCm { c1.cm with pending := false, shadowReady := false, change := none, named := none, replaceDue := false, cTick := c.cm.lastC.getD 0, lastResult := if was then 2 else c.cm.lastResult, copied := false } c1
    when (k.kind = 1) (setDev .held) (imgFinal f.reason c2)

/-! ### Acceptance -/

/-- The tick C a command names: P2 and P3 (R429). -/
def namedTick (c : Chip) : Nat := param64 c.mb.p2 c.mb.p3

/-- The checks of R58 on C and on a commit pending, 0 where they pass; an activation under way comes first (R405). -/
def acceptCode (C : Nat) (c : Chip) : Nat :=
  if c.upd.act.isSome then 0x060A
  else if C < now c + 10 then 0x0501
  else if now c + 28800000 < C then 0x0502
  else if c.cm.pending then 0x0503
  else 0

/-- A change refused at acceptance (R89): `LAST_RESULT`, the failure record and the reply. -/
def acceptRefused (source code : Nat) (c : Chip) : Chip :=
  let c1 := imgFailSet source (commitFail code) c
  mbCode code (setCm { c1.cm with lastResult := 2 } c1)

/-- A change as received. -/
def changeNew (kind : Nat) (repack : Bool) (n : Nat) (bytes : List Byte) : Change :=
  { kind := kind, accept := n, repack := repack, bytes := bytes, image := none, place := none, outMap := [], commitAt := none, deferred := false, woken := false }

/-- A replacement or an amendment is taken on (R56, R89). -/
def changeTake (kind : Nat) (tag : Byte) (repack : Bool) (bytes : List Byte) (c : Chip) : Chip :=
  let C := namedTick c
  let code := acceptCode C c
  if code ≠ 0 then acceptRefused (failSource kind) code c
  else mbCode 0 (imgTake tag (setCm { c.cm with pending := true, cTick := C, named := some C, change := some (changeNew kind repack (now c) bytes), copied := false } c))

/-- LOAD_IMAGE (R33, R88, R89). -/
def loadImageCmd (tag : Byte) (s : State) : State :=
  onChip (mbSubmit 0x010 tag false anyOk (fun c =>
    let l := imageStaged s.mem (mbParam c 0)
    let repack : Bool := mbParam c 1 % 2 = 1
    if inState [.running, .standby] c then changeTake 2 tag repack l c
    else if c.upd.act.isSome then acceptRefused 0 0x060A c
    else mbCode 0 (setDev .validating (setCm { c.cm with change := some (changeNew 1 repack (now c) l), named := none, pending := false } c)))) s

/-- AMEND_IMAGE (R89, R92). -/
def amendImageCmd (tag : Byte) (s : State) : State :=
  onChip (mbSubmit 0x012 tag false anyOk (fun c => changeTake 3 tag false (imageStaged s.mem (mbParam c 0)) c)) s

/-- READ_IMAGE (R94). -/
def readImageCmd (tag : Byte) (s : State) : State :=
  let l := imageOut (theImage s.c)
  let mem := if mbTaken 0x013 false anyOk s.c then writeBytes 0 s.mem 0 l else s.mem
  { s with c := mbSubmit 0x013 tag false anyOk (mbReply 0 0 l.length) s.c, mem := mem }

/-! ### Deadline -/

/-- The shadow is frozen for a commit at T (R56). -/
def freeze (k : Change) (T : Nat) (late : Bool) (c : Chip) : Chip :=
  setCm { c.cm with shadowReady := true, cTick := T, change := some { k with commitAt := some T, deferred := late } } c

/-- The deadline C−8 (R56, R59), judged at boundary n (`onTime`) or within tick n: a first image waits for its groups, and where
the last of what it waits for comes after boundary C−8 its commit is deferred to the tick 8 ticks after it. -/
def deadlineAt (onTime : Bool) (n : Nat) (c : Chip) : Chip :=
  match c.cm.change, c.cm.named with
  | some k, some C =>
    if k.commitAt.isSome || n + 8 < C then c
    else
      let ok := k.place.isSome && groupsReady c && !c.cm.replaceDue
      if k.kind = 1 then
        if c.dev.state = .starting && ok then (if n + 8 = C && onTime then freeze k C false c else freeze k (n + 8) true c) else c
      else if ok then freeze k C false c
      else refuse (commitFail 0x0504) c
  | _, _ => c

/-- The deadline at boundary n (R56). -/
def commitDeadline (n : Nat) (c : Chip) : Chip := deadlineAt true n c

/-- The last condition of a first image may have come within tick n (R59). -/
def lateDeadline (n : Nat) (c : Chip) : Chip := deadlineAt false n c

/-- COMMIT_IMAGE (R58, R59, R88). -/
def commitImageCmd (tag : Byte) (s : State) : State :=
  onChip (mbSubmit 0x011 tag false anyOk (fun c =>
    let C := namedTick c
    let code := acceptCode C c
    if code = 0x060A then mbCode code c
    else if code ≠ 0 then acceptRefused 0 code c
    else mbCode 0 (imgTake tag (setCm { c.cm with pending := true, cTick := C, named := some C } c)))) s

/-! ### Validation -/

/-- What integrity reads beside the bytes (R82, R83, R516). -/
def sigEnv (c : Chip) : SigEnv := { required := c.upd.live.imgSig, keys := c.upd.live.imgKeys, minor := (compOf c.upd.run 3).imgMinor }

/-- The fault map of a placement (R93, R104): a paired part's union with its twin's, else the part's own. -/
def placeIn (im : Image) (k : Change) (c : Chip) : PlaceIn :=
  let union := paired c || (im.getRec 5 0x10000).isSome
  let own (i : IslSt) : IslSt := if union then i else { i with twinOut := 0, twinRegions := [] }
  let c1 := { c with isl := c.isl.map (fun e => (e.1, own e.2)) }
  { im := im, engOut := outMap c1, badRegions := regionMap c1, old := c.img.image.map (fun o => (o, c.img.place)), repack := k.repack, orphans := (c.isl.filter (fun e => e.2.orphans ≠ [])).map (fun e => (e.1, e.2.orphans)), freeSidings := (upto 64).map (fun i => (i, sidingsFree c i)) }

/-- Integrity of a change (R84). -/
def changeIntegrity (k : Change) (c : Chip) : Option ImgFail :=
  if k.kind = 3 then amendIntegrity (sigEnv c) k.bytes else imageIntegrity (sigEnv c) (imgSeq c) k.bytes

/-- Schema, and an amendment's operations (R84, R92). -/
def changeSchema (k : Change) (c : Chip) : Option ImgFail × Image :=
  if k.kind = 3 then amendApply (theImage c) k.bytes else imageSchema k.bytes

/-- The stages after integrity (R84): the failure, or the image with its placement. -/
def changeJudge (k : Change) (c : Chip) : Option ImgFail × Image × Placement :=
  let r := changeSchema k c
  match firstFail [r.1, if r.1.isNone then imageConsistency (compOf c.upd.run 2).ver r.2 else none] with
  | some f => (some f, r.2, placementEmpty)
  | none =>
    let p := feasible (placeIn r.2 k c)
    match p.1, p.2 with
    | some f, _ => (some f, r.2, placementEmpty)
    | none, some pl => (none, r.2, pl)
    | none, none => (some (commitFail 0x0504), r.2, placementEmpty)

/-- The placement is stored and the shadow written (R33, R56); a first image's groups start to wake (R59). -/
def placeStored (k : Change) (im : Image) (pl : Placement) (c : Chip) : Chip :=
  let c1 := { c with img := { c.img with shadow := pl }, jct := { c.jct with diff := ttDiff c.img.place pl } }
  let k1 := { k with image := some im, place := some pl, outMap := (placeIn im k c).engOut }
  let c2 := setCm { c1.cm with change := some k1 } c1
  if k.kind = 1 then lateDeadline (now c) (startingWakes (now c) (setDev .starting c2)) else c2

/-- Validation ends (R84, R86, R88, R92). -/
def validate (c : Chip) : Chip :=
  match c.cm.change with
  | none => c
  | some k =>
    if k.image.isSome || c.dev.sbDown then c
    else match changeIntegrity k c with
      | some f => refuse f c
      | none =>
        let c1 := imgFailClear c
        let r := changeJudge k c1
        match r.1 with
        | some f => refuse f c1
        | none => placeStored k r.2.1 r.2.2 c1

/-! ### Scrub and faults -/

/-- The frozen shadow is under scrub at n (R56). -/
def scrubbing (n : Nat) (c : Chip) : Bool :=
  c.cm.shadowReady && (match c.cm.change with
    | some k => (match k.commitAt with | some T => T ≤ n + 8 && n < T | none => false)
    | none => false)

/-- A hard fault of the frozen bank (R217). -/
def shadowHard (c : Chip) : Bool := c.jct.hard.any (fun i => i / bankSize = bnat (!c.cm.activeBank))

/-- The scrub of the tick that ends at boundary n (R56, R217). -/
def scrubBoundary (n : Nat) (c : Chip) : Chip :=
  if scrubbing (n - 1) c && shadowHard c then refuse (commitFail 0x0505) c else c

/-- An engine found bad while its island wakes is out (R33, R105); the list it was bound to has no engine and takes no new work
(R518). -/
def engineOut (e : Nat) (c : Chip) : Chip :=
  let lost := ((getIsl c (e / 16)).bind.filter (fun b => b.2 = e)).map (·.1)
  updIsl (e / 16) (fun x => { x with engOut := x.engOut ||| BitVec.ofNat 16 (1 <<< (e % 16)), bind := x.bind.filter (fun b => b.2 ≠ e), orphans := lost.foldl insAsc x.orphans })
    (updEng e (fun x => { x with role := roleOut, tag := 0 }) c)

/-- Faults found while groups wake enter the fault map (R33, R105). -/
def addFaults (engines : List Nat) (regions : List (Nat × Nat)) (c : Chip) : Chip :=
  let c1 := forEach engines (fun e c => if e < 1024 then engineOut e c else c) c
  forEach regions (fun r c => if r.1 < 64 && r.2 < 1024 then updIsl r.1 (fun x => { x with regions := insAsc x.regions r.2 }) c else c) c1

/-- The groups a wake fault spoils: the islands named, or where none is named every waking lane group (R466). -/
def spoiled (engines : List Nat) (regions : List (Nat × Nat)) : List Nat :=
  let l := distinct (engines.map (· / 16) ++ regions.map (·.1))
  if l = [] then allGroups.filter (0x40 ≤ ·) else l

/-- A first image is placed again under the updated fault map (R33); it waits while the signal box is down (R37). -/
def replaceFirst (c : Chip) : Chip :=
  match c.cm.change with
  | none => c
  | some k =>
    if k.kind ≠ 1 || c.dev.state ≠ .starting then setCm { c.cm with replaceDue := false } c
    else if c.dev.sbDown then setCm { c.cm with replaceDue := true } c
    else match k.image with
      | none => c
      | some im => match feasible (placeIn im k c) with
        | (none, some pl) => setCm { c.cm with replaceDue := false, change := some { k with place := some pl, outMap := (placeIn im k c).engOut } } { c with img := { c.img with shadow := pl }, jct := { c.jct with diff := ttDiff c.img.place pl } }
        | _ => refuse (commitFail 0x0506) c

/-- The signal box resumes: a placement that waited for it is made (R37). -/
def replaceResume (c : Chip) : Chip := if c.cm.replaceDue then lateDeadline (now c) (replaceFirst (setCm { c.cm with replaceDue := false } c)) else c

/-- WAKE_FAULT's effect (R33, R466): in STARTING the image is placed again under the updated map. The engines of a running
island are not woken and so are not found bad here. -/
def wakeFault (engines : List Nat) (regions : List (Nat × Nat)) (c : Chip) : Chip :=
  match c.cm.change with
  | none => c
  | some k =>
    if k.kind = 1 then (if c.dev.state = .starting then replaceFirst (addFaults engines regions c) else c)
    else
      let waking (i : Nat) : Bool := (getGroup c i).waking.isSome
      forEach ((spoiled engines regions).filter (fun g => (getGroup c g).waking.isSome)) (fun g => updGroup g (fun x => { x with faulty := true }))
        (addFaults (engines.filter (fun e => waking (e / 16))) (regions.filter (fun r => waking r.1)) c)

/-! ### Commit -/

/-- The commit is due at boundary n. -/
def commitDue (n : Nat) (c : Chip) : Bool :=
  match c.cm.change with | some k => (match k.commitAt with | some T => T ≤ n | none => false) | none => false

/-- The commit waiting is a deferred one (R59). -/
def commitLate (c : Chip) : Bool := match c.cm.change with | some k => k.deferred | none => false

/-- The tributaries a commit moves with their own record unchanged, with their old and new places (R177). -/
def movedTribs (c : Chip) : List (Plc × Plc) :=
  match c.cm.change with
  | some k => (match k.image, k.place with
    | some im, some pl => (pl.tribs.filterMap (fun e => match c.img.place.tribs.lookup e.1 with
        | some o => if (o.island ≠ e.2.island || o.ctx ≠ e.2.ctx) && tribRec (theImage c) (e.1 % 0x20000) = tribRec im (e.1 % 0x20000) then some (o, e.2) else none
        | none => none))
    | _, _ => [])
  | none => []

/-- One context slot takes what another holds. -/
def copySlot (o p : Plc) (c : Chip) : Chip :=
  let w := (getDepot c o.island).slots.lookup (memKey 1 o.ctx)
  updDepot p.island (fun d => { d with slots := match w with | some v => tput d.slots (memKey 1 p.ctx) v | none => tdel d.slots (memKey 1 p.ctx) }) c

/-- CONTEXT_COPY (R56, R177), in the guard of C−1. A context belongs to its tributary here, so it goes on at the new place; what
moves is the content of the slot. -/
def contextCopy (c : Chip) : Chip :=
  match c.cm.change with
  | some k => (match k.commitAt with
    | some T => if now c + 1 = T && !c.cm.copied then setCm { c.cm with copied := true } (forEach (movedTribs c) (fun e => copySlot e.1 e.2) c) else c
    | none => c)
  | none => c

/-- Ports of which the port or stack record changes (R158). -/
def changedPorts (old new : Image) : List Nat :=
  (distinct (imagePorts old ++ imagePorts new)).filter (fun p => !(old.getRec 1 p = new.getRec 1 p && old.getRec 2 p = new.getRec 2 p))

/-- What frames have shown of points that change starts afresh (R158, R244); low-order multiframes, accepted values, pointers, FTFL. -/
def overheadAtCommit (old : Image) (c : Chip) : Chip :=
  let new := theImage c
  let same (kind ref : Nat) : Bool := pointSame old new kind ref
  { c with line := { c.line with h4 := c.line.h4.filter (fun e => tribRec old e.1 = tribRec new e.1), acc := c.line.acc.filter (fun e => same (dkKind e.1) (dkRef e.1)), ptr := c.line.ptr.filter (fun e => same 3 e.1), ftfl := c.line.ftfl.filter (fun e => same 4 e.1) } }

/-- Alignment and port defects at a commit (R158, R244). DESIGN CHOICE (log 50): the lanes of a port whose record changes keep their receiver states, and the
port its skew: R137 and R158 name neither. -/
def linesAtCommit (old : Image) (n : Nat) (c : Chip) : Chip :=
  let new := theImage c
  forEach (imagePorts new) portDefects (overheadAtCommit old (forEach (changedPorts old new) (fun p => unitsRestart p n) c))

/-- The device state at the first commit (R31, R33, R371): a part without pairing holds a standing tablet. -/
def firstState (n : Nat) (c : Chip) : Chip :=
  let lit (c : Chip) : Chip := setDev .running { c with dev := { c.dev with lit := !c.pair.hubBad } }
  if !(paired c) then lit (setPair { c.pair with holder := true, acq := n, acked := n, entered := n } c)
  else if startHolds c then lit (acquire 3 n c)
  else setDev .standby (setPair { c.pair with holder := false, renewed := none, released := none, entered := n } c)

/-- A commit that adds or removes the pairing record (R31, R356): a holder goes on holding from C. A part in STANDBY that is no
longer paired has its standing tablet from C and stays in STANDBY, dark: R33 has no other move (R35; log 15). -/
def pairAtCommit (was : Bool) (n : Nat) (c : Chip) : Chip :=
  if was = paired c then c
  else if paired c then setPair { c.pair with acq := n, acked := n, entered := n } c
  else if c.dev.state = .standby then setPair { c.pair with holder := true, acq := n, acked := n } c
  else c

/-- The PM second that ends where a commit falls due is closed under the placement that ran it, the points the commit removes
among the rest (R60 step 7, R61). -/
def pmBefore (n : Nat) (c : Chip) : Chip :=
  let c1 := pmApply n c
  if pmDue n c1 then pmSecond n c1 else c1

/-- The tributaries of an image whose feed is not the one they had before it (R214). -/
def newFeeds (old new : Image) : List Nat :=
  (tkeys (new.sec 3)).filter (fun t => (old.getRec 3 t).isNone || feedOf old t ≠ feedOf new t)

/-- The commit at boundary n (R56, R60 step 2, R61). -/
def commitNow (n : Nat) (cl : Chip) : Chip :=
  let c := pmBefore n cl
  match c.cm.change with
  | some k => (match k.image, k.place with
    | some im, some pl =>
      let first := c.img.image.isNone
      let old := theImage c
      let was := paired c
      let c1 := { c with img := { image := some im, place := pl, shadow := c.img.place }, jct := { c.jct with diff := ttDiff c.img.place pl, lostNow := [], lostTick := none } }
      let c2 := setCm { c1.cm with activeBank := !c.cm.activeBank, lastResult := if k.deferred then 3 else 1, cTick := n, lastC := some n, change := none, named := none, releaseDue := true, rebuildDue := false, copied := false, newFed := newFeeds old im } c1
      let c3 := if first then firstState n c2 else pairAtCommit was n c2
      let c4 := protAtCommit old n (pmAtCommit old n (bindAtCommit (k.kind = 1 || k.repack) k.outMap n (ctxAtCommit old n c3)))
      let c5 := tracesAtCommit c.pm.points old (linesAtCommit old n (defectsAtCommit old n c4))
      mirrorCheck (imgFinal 0 (injAtCommit old n (powerAtCommit n (timingAtCommit old first n c5))))
    | _, _ => c)
  | none => c

/-- A commit due at boundary n is made: `late` says which kind (R56, R59). -/
def commitStep (late : Bool) (n : Nat) (c : Chip) : Chip := if commitDue n c && commitLate c = late then commitNow n c else c

/-- Boundary C+1 (R56, R246, R448): old resources are released and the rebuild starts. -/
def oldRelease (n : Nat) (c : Chip) : Chip :=
  match c.cm.lastC with
  | some C => if c.cm.releaseDue && C + 1 ≤ n then ctxRelease (patrolRelease (pmRelease (setCm { c.cm with shadowReady := false, releaseDue := false, rebuildDue := true } c))) else c
  | none => c

/-- The shadow bank is rewritten whole: no entry of it is marked or read in error, but for its hard faults (R215, R217). -/
def shadowRewritten (c : Chip) : JunctionSt :=
  { c.jct with diff := [], unc := c.jct.unc.filter (fun k => k / bankSize = bnat c.cm.activeBank) }

/-- Boundary C+2 (R55, R56, R103): the shadow equals the active bank. -/
def rebuildDone (n : Nat) (c : Chip) : Chip :=
  match c.cm.lastC with
  | some C =>
    if c.cm.rebuildDue && C + 2 ≤ n then
      setCm { c.cm with rebuildDue := false, pending := false, digest := placeDigest c.img.place } { c with img := { c.img with shadow := c.img.place }, jct := shadowRewritten c }
    else c
  | none => c

/-- Step 2 of R60 at boundary n. -/
def commitBoundary (n : Nat) (c : Chip) : Chip :=
  let c1 := rebuildDone n (oldRelease n (if c.cm.replaceDue && !c.dev.sbDown then replaceFirst c else c))
  let c2 := commitDeadline n (scrubBoundary n c1)
  commitStep true n (commitStep false n c2)

/-! ### Registers -/

/-- `TT_STATUS` (R55). -/
def ttStatusWord (c : Chip) : Word :=
  reg32 [(1, bnat c.cm.pending), (3, 0), (4, c.cm.lastResult), (22, 0), (1, bnat c.cm.shadowReady), (1, bnat c.cm.activeBank)]

/-- `IMG_STATUS` (R86). -/
def imgStatusWord (c : Chip) : Word :=
  reg32 [(4, c.cm.failStage), (4, c.cm.failSection), (4, c.cm.failSource), (4, 0), (16, c.cm.failReason)]

/-! ### Commands -/

/-- LOAD_IMAGE (R88). -/
def execLoadImage (tag : Byte) (s : State) : Host.Outcome State Fault Refusal := .next (loadImageCmd tag s)

/-- COMMIT_IMAGE (R88). -/
def execCommitImage (tag : Byte) (s : State) : Host.Outcome State Fault Refusal := .next (commitImageCmd tag s)

/-- AMEND_IMAGE (R92). -/
def execAmendImage (tag : Byte) (s : State) : Host.Outcome State Fault Refusal := .next (amendImageCmd tag s)

/-- READ_IMAGE (R94). -/
def execReadImage (tag : Byte) (s : State) : Host.Outcome State Fault Refusal := .next (readImageCmd tag s)

/-- IMAGE_VALIDATED (R84). -/
def execImageValidated (s : State) : Host.Outcome State Fault Refusal := .next (onChip validate s)

/-- COMMIT_DEADLINE (R56). -/
def execCommitDeadline (s : State) : Host.Outcome State Fault Refusal := .next (onChip (fun c => lateDeadline (now c) c) s)

/-- SHADOW_SCRUB_ERROR (R56). -/
def execShadowScrubError (s : State) : Host.Outcome State Fault Refusal :=
  .next (onChip (fun c => when (scrubbing (now c) c) (refuse (commitFail 0x0505)) c) s)

/-- CONTEXT_COPY (R177). -/
def execContextCopy (s : State) : Host.Outcome State Fault Refusal := .next (onChip contextCopy s)

/-- COMMIT (R56). -/
def execCommit (s : State) : Host.Outcome State Fault Refusal := .next (onChip (fun c => commitStep false (now c) c) s)

/-- FIRST_IMAGE_DEFERRED_COMMIT (R59). -/
def execFirstImageDeferredCommit (s : State) : Host.Outcome State Fault Refusal := .next (onChip (fun c => commitStep true (now c) c) s)

/-- OLD_RESOURCE_RELEASE (R56). -/
def execOldResourceRelease (s : State) : Host.Outcome State Fault Refusal := .next (onChip (fun c => oldRelease (now c) c) s)

/-- SHADOW_REBUILD_COMPLETE (R55). -/
def execShadowRebuildComplete (s : State) : Host.Outcome State Fault Refusal := .next (onChip (fun c => rebuildDone (now c) c) s)

/-- GROUP_WAKE_COMPLETE (R466): it may be the last condition of a first image (R59). -/
def execGroupWakeComplete (g : Nat) (s : State) : Host.Outcome State Fault Refusal :=
  .next (onChip (fun c => when (awake c && wakeDue c g (now c)) (fun c => lateDeadline (now c) (wakeDone g (wakeTarget (getGroup c g) (wantState0 c g)) (now c) c)) c) s)

/-- SIGNAL_BOX_RESUME (R36): not while a hand-over of the signal box runs (R400). -/
def execSignalBoxResume (s : State) : Host.Outcome State Fault Refusal :=
  .next (onChip (fun c => when (c.dev.sbDown && !(match c.upd.act with | some a => a.comp = 3 && a.phase = 0 | none => false)) (fun c => replaceResume (boxUp c)) c) s)

/-- WAKE_FAULT (R33). -/
def execWakeFault (engines : List Nat) (regions : List (Nat × Nat)) (s : State) : Host.Outcome State Fault Refusal :=
  .next (onChip (wakeFault engines regions) s)

end Sys2Proof.Machine
end

