-- ==== Sys2Proof/Machine/Frame.lean ====
section
/-!
DEFINITION. Received frames and their overhead (R151 to R165, R173 to R192, R224, R225, R280, R525).
-/
namespace Sys2Proof.Machine
open Sys2Proof

/-- The type by which a point's defects go: a stack type at a SECTION, a tributary type elsewhere. -/
def pointType (c : Chip) (layer ref : Nat) : Nat :=
  if layer = 2 then portStack (theImage c) ref else match tribRec (theImage c) ref with | some r => tribType r | none => 0

/-- The parent of a child ODU accepts any MSI (R181, R185). -/
def msiLax (c : Chip) (t : Nat) : Bool :=
  match tribRec (theImage c) t with
  | some r => tribKind r = 1 && (match tribRec (theImage c) (tribServer r) with | some s => (tribFunc s = 1 || tribFunc s = 2) && tribParam s % 2 = 1 | none => false)
  | none => false

/-- The protection member of a 1:1 group whose accepted far-end bridged signal is 0 (R280). -/
def nullSignal (c : Chip) (t : Nat) : Bool :=
  ((theImage c).sec 5).any (fun e =>
    let r := e.2
    protKind r ≤ 2 && protArch r = 1 && protP r = t &&
    (match c.prot.groups.lookup e.1 with
     | some x => (match x.accepted with | some v => apsBridged r v = 0 | none => true)
     | none => false))

/-- What a field shows, where the frame has the field. -/
def shows {α : Type} (x : Option α) (bit n : Nat) (f : α → Bool) : List FrameInd :=
  match x with
  | some v => [{ bit := bit, nd := n, nc := n, ind := f v }]
  | none => []

/-! ### SECTION -/

/-- The frame is one whose use its CRC-16 gates (R151, R162): that of a FlexO or FlexE instance, not of an OTUC slice. -/
def crcGates (c : Chip) (rep : FrameRep) : Bool :=
  let k := unitKind (theImage c) rep.port rep.unit
  rep.layer = 2 && !rep.slice && (k = 1 || k = 6)

/-- The overhead of the frame may be used. -/
def crcLets (c : Chip) (rep : FrameRep) : Bool := rep.crcOk || !(crcGates c rep)

/-- The frame carries its port's OTU overhead (R160): on OTUCn that of slice 1 only. -/
def firstSlice (c : Chip) (rep : FrameRep) : Bool := portStack (theImage c) rep.port ≠ 1 || (rep.slice && rep.unit = 0)

/-- PHY numbers of a FlexE group as a map (R162). -/
def groupMap (im : Image) (g : Nat) : Nat := mapOf ((flexePhys im g).map (fun p => match im.getRec 2 p with | some r => stackPhy r | none => 0))

/-- Indications of the section overhead (R224). -/
def sectionInds (c : Chip) (rep : FrameRep) : List FrameInd :=
  let st := portStack (theImage c) rep.port
  let r := stackRec c rep.port
  if isSdh st then shows rep.k2 3 3 (fun v => v % 8 = 7) ++ shows rep.k2 5 5 (fun v => v % 8 = 6)
  else if 1 ≤ st && st ≤ 4 then
    (if firstSlice c rep then shows rep.bdi 5 5 id ++ shows rep.iae 8 5 id ++ shows rep.bei 9 3 (fun v => v = 0xB) else [])
  else if st = 0x20 && crcLets c rep then
    shows rep.bdi 5 3 id ++ shows rep.ids 11 3 (fun v => v.1 ≠ stackGroup r) ++
    shows rep.ids 12 3 (fun v => v.2.1 ≠ stackPhy r || v.2.2 ≠ groupMap (theImage c) (stackGroup r))
  else []

/-- The identities the instances of a FlexO port last showed agree (R151): one GID, each PID from 1 to the instance count once, a MAP of them all. -/
def flexoAgrees (c : Chip) (p : Nat) : Bool :=
  let us := (portUnits (theImage c) p).filter (fun u => unitKind (theImage c) p u = 1)
  let l := us.filterMap (fun u => (getUnit c p u).ids)
  let want := mapOf ((upto us.length).map (· + 1))
  l.all (fun x => x.1 = (l.headD (0, 0, 0)).1 && 1 ≤ x.2.1 && x.2.1 ≤ us.length && x.2.2 = want &&
    (l.filter (fun y => y.2.1 = x.2.1)).length = 1)

/-- GID, PID and MAP of a FlexO instance (R135, R151): kept, compared, and the physical lane's logical lane taken from its lowest instance.
DESIGN CHOICE (log 49): the frames of dFLEXOM are those of the port's first instance. -/
def idsSeen (rep : FrameRep) (c : Chip) : Chip :=
  let im := theImage c
  let p := rep.port
  match (if unitKind im p rep.unit = 1 && !rep.slice && rep.crcOk && (getUnit c p rep.unit).state = .inFrame then rep.ids else none) with
  | none => c
  | some x =>
    let ls := portLanes im p
    let per := (portRate im p / 100) / max 1 ls.length
    let c1 := updUnit p rep.unit (fun s => { s with ids := some x }) c
    let c2 := if rep.unit % max 1 per = 0 then setLogical (ls.getD (rep.unit / max 1 per) 0) ((x.2.1 - 1) / max 1 per) c1 else c1
    if rep.unit = 0 && portFramed c2 p then frameInd (dkey 2 p 0 2) 3 3 (!(flexoAgrees c2 p)) c2 else c2

/-! ### Accepted values -/

def acceptDflt : AccSt := { cand := 0, run := 0, acc := none }

/-- A value arrives once more or anew; the same value `need` times in a row is accepted. -/
def accStep (need v : Nat) (x : AccSt) : AccSt :=
  let run := if x.run ≠ 0 && x.cand = v then min need (x.run + 1) else 1
  { cand := v, run := run, acc := if need ≤ run then some v else x.acc }

/-- A defect that an accepted value shows (R225): judged as the value is accepted. -/
def accSeen (k need v : Nat) (bad : Nat → Bool) (c : Chip) : Chip :=
  let x := accStep need v (tget acceptDflt c.line.acc k)
  let c1 := { c with line := { c.line with acc := tset acceptDflt c.line.acc k x } }
  if x.run = need && (dget c k).present ≠ bad v then setDefect k (bad v) c1 else c1

/-- A field that the frame has is taken as an accepted value. -/
def accField (k need : Nat) (v : Option Nat) (bad : Nat → Bool) (c : Chip) : Chip :=
  match v with
  | some v => accSeen k need v bad c
  | none => c

/-! ### Pointers (R192) -/

def ptrDflt : PtrSt := { acc := 1024, state := 0, cand := 0, run := 0, bad := 0, ndf := 0, ones := 0 }

/-- Bits of a pattern that differ. -/
def bitDiff (n a b : Nat) : Nat := ((upto n).filter (fun k => a.testBit k ≠ b.testBit k)).length

/-- The I bits (0) or D bits (1) of a pointer that differ from the accepted one. -/
def idBits (d a b : Nat) : Nat := ((upto 5).filter (fun k => a.testBit (2 * k + 1 - d) ≠ b.testBit (2 * k + 1 - d))).length

/-- The adjustment a pointer with its NDF disabled shows against the accepted one: +1, −1 or none. PRESUMED (log 49): majority of the I or D bits
inverted, as in G.783. -/
def ptrAdjust (acc p : Nat) : Int :=
  if 3 ≤ idBits 0 acc p && idBits 1 acc p ≤ 2 then 1 else if 3 ≤ idBits 1 acc p && idBits 0 acc p ≤ 2 then -1 else 0

/-- An invalid pointer (R192): 8 in a row are a loss of pointer. -/
def ptrBad (x : PtrSt) : PtrSt := { x with run := 0, ndf := 0, ones := 0, bad := min 8 (x.bad + 1), state := if 8 ≤ x.bad + 1 then 2 else x.state }

/-- A pointer of all ones: 3 in a row are AIS. -/
def ptrOnes (x : PtrSt) : PtrSt := { x with run := 0, ndf := 0, bad := 0, ones := min 3 (x.ones + 1), state := if 3 ≤ x.ones + 1 then 1 else x.state }

/-- A valid pointer with NDF: accepted at once in the normal state; 8 in a row are a loss of pointer. -/
def ptrNdf (p : Nat) (x : PtrSt) : PtrSt :=
  { x with run := 0, bad := 0, ones := 0, ndf := min 8 (x.ndf + 1), acc := if x.state = 0 then p else x.acc, state := if 8 ≤ x.ndf + 1 then 2 else x.state }

/-- A valid pointer without NDF: the accepted one, an adjustment of it, or a new one, accepted after 3 equal in a row. -/
def ptrPlain (m p : Nat) (x : PtrSt) : PtrSt × Int :=
  let run := if x.run ≠ 0 && x.cand = p then min 3 (x.run + 1) else 1
  let y : PtrSt := { x with cand := p, run := run, ndf := 0, ones := 0 }
  let d := ptrAdjust x.acc p
  if run = 3 then ({ y with acc := p, state := 0, bad := 0 }, 0)
  else if p = x.acc then ({ y with bad := 0 }, 0)
  else if x.state = 0 && x.acc < 1024 && d ≠ 0 then
    ({ y with run := 0, bad := 0, acc := if d = 1 then (x.acc + 1) % m else (x.acc + m - 1) % m }, d)
  else ({ ptrBad y with cand := p, run := run }, 0)

/-- One pointer received (R192): the interpreter, and the adjustment it shows. The NDF is read from 3 of its 4 bits. -/
def ptrStep (m : Nat) (w : BitVec 16) (x : PtrSt) : PtrSt × Int :=
  let n := w.toNat / 4096
  let p := w.toNat % 1024
  if w.toNat = 0xFFFF then (ptrOnes x, 0)
  else if m ≤ p then (ptrBad x, 0)
  else if bitDiff 4 n 9 ≤ 1 then (ptrNdf p x, 0)
  else if bitDiff 4 n 6 ≤ 1 then ptrPlain m p x
  else (ptrBad x, 0)

/-- A tributary's pointer is received (R175, R192, R225, R254): accepted pointer and state to its context, adjustments counted, dAIS and dLOP. -/
def ptrSeen (t : Nat) (w : BitVec 16) (c : Chip) : Chip :=
  let r := ptrStep (ptrRange (pointType c 3 t)) w (tget ptrDflt c.line.ptr t)
  let x := r.1
  let inc : Nat := bnat (r.2 = 1)
  let dec : Nat := bnat (r.2 = -1)
  let c1 := { c with line := { c.line with ptr := tset ptrDflt c.line.ptr t x } }
  let c2 := pmExtras t inc dec 0 (updCtx t (fun y => { y with func := setBits (setBits y.func 86 10 (x.acc % 1024)) 74 2 x.state, pos := y.pos + BitVec.ofNat 32 inc, neg := y.neg + BitVec.ofNat 32 dec }) c1)
  let put (bit : Nat) (b : Bool) (c : Chip) : Chip := if (dget c (dkey 3 t 0 bit)).present ≠ b then setDefect (dkey 3 t 0 bit) b c else c
  put 1 (x.state = 2) (put 0 (x.state = 1) c2)

/-! ### TRIB, PATH and TCM -/

/-- The payload type an ODU is sent and expected with (R185); none where nothing is mapped into it here. -/
def payloadSent (im : Image) (t : Nat) : Option Nat :=
  match tribRec im t, (tribChildren im t).head? with
  | some r, some k => (tribRec im k).map (fun q =>
      if isOdu (tribType q) then
        (if tribType r = 8 then 0x22 else if tribType r = 3 || tribType r = 5 || tribType r = 6 then 0x21 else Config.payloadType (tribFunc q) (tribType q))
      else Config.payloadType (tribFunc q) (tribType q))
  | _, _ => none

/-- The slots a child's MSI entries name it in (R185), bit k for slot k. -/
def msiSent (im : Image) (t : Nat) : Nat := match tribRec im t with | some r => mapOf (tribSlots r) | none => 0

/-- An ODU that carries a client (R225). -/
def carriesClient (im : Image) (t : Nat) : Bool :=
  (tribChildren im t).any (fun k => match tribRec im k with | some r => tribFunc r = 0x020 || tribFunc r = 0x021 || tribFunc r = 0x022 | none => false)

/-- An accepted payload type or label is another than expected (R225, R280). -/
def labelBad (c : Chip) (t v : Nat) : Bool :=
  let ty := pointType c 4 t
  if isOdu ty then (match payloadSent (theImage c) t with | some e => v ≠ e && !(v = 0xFD && nullSignal c t) | none => false)
  else match Config.vcLabel ty (tribChildren (theImage c) t ≠ []) with | some e => v ≠ e | none => false

/-- Indications of TRIB, PATH and TCM overhead (R225). -/
def tribInds (c : Chip) (rep : FrameRep) : List FrameInd :=
  let im := theImage c
  let ty := pointType c rep.layer rep.ref
  let vc := isHoVc ty || isLoVc ty
  match rep.layer with
  | 4 =>
    (if isOdu ty then shows rep.stat 0 3 (· = 7) ++ shows rep.stat 1 3 (· = 6) ++ shows rep.stat 2 3 (· = 5) else []) ++
    (if vc then shows rep.label 3 5 (· = 0) else []) ++
    (if isOdu ty || vc then shows rep.bdi 6 5 id else []) ++
    (if isOdu ty && carriesClient im rep.ref then shows rep.csf 8 3 id else []) ++
    (if ty = 0x20 || ty = 0x21 then shows rep.fault 9 1 (·.1) ++ shows rep.fault 10 1 (·.2) else [])
  | 5 => shows rep.stat 0 3 (· = 7) ++ shows rep.stat 1 3 (· = 6) ++ shows rep.stat 2 3 (· = 5) ++ shows rep.stat 3 3 (· = 0) ++ shows rep.bdi 5 5 id
  | _ => []

/-- The standing of IAE (bit 7) or BIAE (bit 23) at a TCM point after one frame, as `frameInd` keeps a defect's. -/
def auxInd (k need : Nat) (ind : Bool) (c : Chip) : Chip :=
  let d := tget defDflt c.dfx.aux k
  let d1 : DefSt := if ind = d.present then { d with run := 0 } else if d.run + 1 < need then { d with run := d.run + 1 } else { d with present := ind, run := 0 }
  { c with dfx := { c.dfx with aux := tset defDflt c.dfx.aux k d1 } }

/-- dIAE of a TCM point (R225): IAE in 5 frames or BIAE in 3. -/
def tcmIae (ref level bit : Nat) (ind : Bool) (c : Chip) : Chip :=
  let c1 := auxInd (dkey 5 ref level bit) (if bit = 7 then 5 else 3) ind c
  let is := (tget defDflt c1.dfx.aux (dkey 5 ref level 7)).present || (tget defDflt c1.dfx.aux (dkey 5 ref level 23)).present
  if (dget c1 (dkey 5 ref level 7)).present = is then c1 else setDefect (dkey 5 ref level 7) is c1

/-- IAE and BIAE of a TCM point (R225). -/
def tcmFrame (rep : FrameRep) (c : Chip) : Chip :=
  let c1 := match rep.iae with | some b => tcmIae rep.ref rep.level 7 b c | none => c
  match rep.bei with | some v => tcmIae rep.ref rep.level 23 (v = 0xB) c1 | none => c1

/-- A VC-4 with low-order children (R156, R225). -/
def carriesLo (c : Chip) (t : Nat) : Bool :=
  (match tribRec (theImage c) t with | some r => isHoVc (tribType r) | none => false) &&
  (tribChildren (theImage c) t).any (fun k => match tribRec (theImage c) k with | some r => isLoVc (tribType r) | none => false)

def h4Dflt : H4St := { isIn := false, good := 0, bad := 0, out := 0, pos := 4 }

/-- One frame's H4, its place in the sequence of 4 (R156): 2 correct sequences in a row enter the multiframe, 2 frames that break it leave it. -/
def h4Step (v : Nat) (x : H4St) : H4St :=
  let next := (x.pos + 1) % 4
  let due : Bool := x.pos < 4 && v = next
  if x.isIn then
    if v = next then { x with bad := 0, pos := next }
    else if 2 ≤ x.bad + 1 then { isIn := false, good := 0, bad := 0, out := 0, pos := 4 }
    else { x with bad := x.bad + 1, pos := next }
  else
    let good := if due then x.good + 1 else if v = 0 then 1 else 0
    if good = 8 then { isIn := true, good := 0, bad := 0, out := 0, pos := v }
    else { x with good := good, pos := if good = 0 then 4 else v, out := min 8 (x.out + 1) }

/-- H4 of a VC-4 is received (R156): dLOM after 8 frames out of multiframe. -/
def h4Frame (t v : Nat) (c : Chip) : Chip :=
  let x := h4Step (v % 4) (tget h4Dflt c.line.h4 t)
  let k := dkey 4 t 0 11
  let c1 := { c with line := { c.line with h4 := tset h4Dflt c.line.h4 t x } }
  if x.isIn && (dget c k).present then setDefect k false c1
  else if 8 ≤ x.out && !(dget c k).present then setDefect k true c1 else c1

/-! ### The frame -/

/-- A frame's point exists, rests on the port it came in on, and its layer's overhead is read. The APS channel of SNC/I stands beside the TCM levels (R279). -/
def frameFits (rep : FrameRep) (c : Chip) : Bool :=
  let im := theImage c
  2 ≤ rep.layer && rep.layer ≤ 5 && (rep.layer = 5 || rep.level = 0) &&
  (if rep.layer = 5 && rep.level = 7 then (tribRec im rep.ref).isSome && rep.aps.isSome else pointIn im rep.layer rep.ref rep.level) &&
  (if rep.layer = 2 then rep.ref = rep.port else (chainPorts im rep.ref).contains rep.port)

/-- The multiframe that orders the frame's overhead is held (R156): that of its OTUC slice, of its unit, or none. -/
def mfHeld (c : Chip) (rep : FrameRep) : Bool :=
  let k := unitKind (theImage c) rep.port rep.unit
  let s := getUnit c rep.port rep.unit
  if k = 1 && (rep.slice || 3 ≤ rep.layer) then s.smf.isIn else s.mf.isIn || mfKind k = 0

/-- A channel of an item type is one this frame's layer carries (R159 to R162): GCC0 of the port's OTU, GCC1 and GCC2 of the port's own ODU,
DCC of an SDH section, the FlexE channels, and OSMC of a FlexO instance. -/
def channelFits (c : Chip) (rep : FrameRep) (ty : Nat) : Bool :=
  let st := portStack (theImage c) rep.port
  let otu : Bool := 1 ≤ st && st ≤ 4
  if ty = 0x10 then rep.layer = 2 && otu && firstSlice c rep
  else if ty = 0x11 || ty = 0x12 then
    rep.layer = 4 && otu && (match tribRec (theImage c) rep.ref with | some r => tribKind r = 0 && isOdu (tribType r) | none => false)
  else if ty = 0x14 || ty = 0x15 then rep.layer = 2 && isSdh st
  else if ty = 0x18 || ty = 0x19 then rep.layer = 2 && st = 0x20
  else ty = 0x20 && rep.layer = 2 && st = 1 && !rep.slice

/-- What the frame carries that is used only in multiframe (R156): trace, channels, calendar. -/
def frameMf (rep : FrameRep) (c : Chip) : Chip :=
  let im := theImage c
  let c1 := match (if rep.layer ≠ 2 || firstSlice c rep then rep.trace else none), traceEntry c rep.layer rep.ref rep.level with
    | some v, some e => traceReceived e v c
    | _, _ => c
  let c2 := if crcLets c rep then forEach (rep.chans.filter (fun e => channelFits c rep e.1)) (fun e => ohBytes rep.port e.1 e.2) c1 else c1
  let c3 := match (if crcLets c rep && rep.layer = 2 && portStack im rep.port = 0x20 then rep.calInUse else none) with
    | some b => calReceived (stackGroup (stackRec c rep.port)) b c2
    | none => c2
  match (if rep.layer = 3 && pointType c 3 rep.ref = 0x20 && tribFunc (tribOf c rep.ref) = 0x006 && rep.crcOk then rep.cal else none) with
  | some m => frameInd (dkey 3 rep.ref 0 4) 3 3 (m ≠ msiSent im rep.ref) c3
  | none => c3

/-- Pointer, MSI and H4 (R192, R225, R156). -/
def frameTrib (rep : FrameRep) (c : Chip) : Chip :=
  let ty := pointType c rep.layer rep.ref
  if rep.layer = 3 then
    let c1 := match (if isHoVc ty || isLoVc ty then rep.ptr else none) with | some w => ptrSeen rep.ref w c | none => c
    let child : Bool := isOdu ty && (match tribRec (theImage c) rep.ref with | some r => tribKind r = 1 | none => false)
    accField (dkey 3 rep.ref 0 2) 3 (if child then rep.msi else none) (fun v => v ≠ msiSent (theImage c) rep.ref && !(msiLax c rep.ref)) c1
  else if rep.layer = 4 then
    let c1 := when (carriesLo c rep.ref) (h4Frame rep.ref rep.mf) c
    let need := if isOdu ty then 3 else 5
    let c2 := accField (dkey 4 rep.ref 0 5) need (if isOdu ty || isHoVc ty || isLoVc ty then rep.label else none) (labelBad c rep.ref) c1
    match (if isOdu ty then rep.ftfl else none) with
    | some l => { c2 with line := { c2.line with ftfl := tput c2.line.ftfl rep.ref l } }
    | none => c2
  else if rep.layer = 5 && rep.level ≠ 7 then tcmFrame rep c else c

/-- What follows from the frame once every unit of its ports is in frame (R224, R225, R279, R296). -/
def frameRead (rep : FrameRep) (c : Chip) : Chip :=
  let is := if rep.layer = 2 then sectionInds c rep else if rep.level = 7 then [] else tribInds c rep
  let c1 := forEach is (fun i => frameInd (dkey rep.layer rep.ref rep.level i.bit) i.nd i.nc i.ind) (frameTrib rep c)
  let c2 := match rep.aps with | some v => apsFrame rep.layer rep.ref rep.level v c1 | none => c1
  let c3 := match rep.s1 with | some v => if rep.layer = 2 && isSdh (portStack (theImage c) rep.port) then s1Received rep.port v c2 else c2 | none => c2
  if mfHeld c3 rep then frameMf rep c3 else c3

/-- A frame is received (R152, R156, R159 to R165, R224, R225, R525). -/
def frameSeen (rep : FrameRep) (c : Chip) : Chip :=
  let st := portStack (theImage c) rep.port
  let c1 := if rep.layer ≠ 2 then c
    else if rep.slice then sliceFrame rep.port rep.unit rep.mf rep.fas c
    else idsSeen rep (multiframe rep.port rep.unit rep.mf rep.crcOk c)
  let c2 := match (if rep.layer = 2 && (st = 0x10 || st = 0x20) then rep.hiBer else none) with
    | some b => frameInd (dkey 2 rep.port 0 10) 1 1 b c1
    | none => c1
  if pointFramed c2 rep.layer rep.ref then frameRead rep c2 else c2

/-- A frame reaches its framer: the image runs, the port delivers, nothing drops it, its unit is in IF (R480, R486, R525). -/
def frameIn (rep : FrameRep) (c : Chip) : Bool :=
  onImage c && frameFits rep c && delivers c rep.port && !(injDrops 2 rep.port c) && (getUnit c rep.port rep.unit).state = .inFrame

/-! ### Commands -/

/-- FRAME_RECEIVED (R159). -/
def execFrameReceived (rep : FrameRep) (s : State) : Host.Outcome State Fault Refusal :=
  .next (onChip (fun c => when (frameIn rep c) (frameSeen rep) c) s)

/-- An ESMC frame's QL is read and the frame goes to the overhead queue (R162, R163, R296). -/
def esmcArrives (p ql : Nat) (pdu : List Byte) (c : Chip) : Chip :=
  if isEsmc pdu && exported c p 0x20 then emit (.client p true pdu) (ohBytes p 0x20 pdu (esmcReceived p ql c))
  else emit (.client p false pdu) c

/-- ESMC_PDU_RECEIVED (R162, R163, R296): on an Ethernet or FlexE port. -/
def execEsmcPduReceived (p ql : Nat) (pdu : List Byte) (s : State) : Host.Outcome State Fault Refusal :=
  .next (onChip (fun c =>
    let st := portStack (theImage c) p
    when (onImage c && delivers c p && portFramed c p && (st = 0x10 || st = 0x20) && !(injDrops 2 p c)) (esmcArrives p ql pdu) c) s)

/-- TRACE_WRITE (R165). -/
def execTraceWrite (e off : Nat) (l : List Byte) (s : State) : Host.Outcome State Fault Refusal :=
  if awake s.c && e < 262464 then
    if traceWriteOk off l then .next (onChip (traceWrite e off l) s) else misuse 1 (0x02000000 + 256 * e + off)
  else .next s

/-- FLEXE_CALENDAR_SWITCH (R187): of a group. -/
def execFlexeCalendarSwitch (g : Nat) (s : State) : Host.Outcome State Fault Refusal :=
  .next (onChip (fun c => when (onImage c) (calSwitch g) c) s)

end Sys2Proof.Machine
end

