-- ==== Sys2Proof/Machine/Operands.lean ====
section
/-!
DEFINITION. The forms of a host access: window, offset and width (R416, R418, R420, R463). A block has no other operand forms;
every other command's operands stand in its constructor.
-/
namespace Sys2Proof.Machine

/-- The sizes of the windows (R416): 0 is A, 1 is B, 2 is C. -/
def windowSize (window : Nat) : Nat := match window with | 0 => 1048576 | 1 => 268435456 | _ => 65536

/-- A naturally aligned access of 32 or 64 bits (R418, R420). -/
def aligned (a len : Nat) : Bool := (len = 4 && a % 4 = 0) || (len = 8 && a % 8 = 0)

/-- Reads the windows accept (R418, R420, R463): A 32 or 64 bits, B words up to 4,096 bytes, C 32 bits. -/
def readForm (window a len : Nat) : Bool :=
  a + len ≤ windowSize window &&
  (match window with
   | 0 => aligned a len
   | 1 => 1 ≤ len && len ≤ 4096 && a % 4 = 0 && len % 4 = 0
   | 2 => len = 4 && a % 4 = 0
   | _ => false)

/-- Writes the windows accept (R418, R420, R463). -/
def writeForm (window a len : Nat) : Bool := window < 3 && aligned a len && a + len ≤ windowSize window

end Sys2Proof.Machine
end

