-- ==== Sys2Proof/Machine/HostRead.lean ====
section
/-!
DEFINITION. What the host reads: Window A (R493), Window B (R494, R495), Window C (R463), and the captures a read makes.
-/
namespace Sys2Proof.Machine
open Sys2Proof

/-- A field of a 64-bit count as its low or high register. -/
def lo32 (v : Nat) : Word := BitVec.ofNat 32 v
def hi32 (v : Nat) : Word := BitVec.ofNat 32 (v / 4294967296)

/-! ### Registers put together here -/

/-- `MB_STATUS` (R425). -/
def mbStatusWord (m : MbSt) : Word :=
  reg32 [(1, bnat m.cur.isSome), (1, bnat m.done), (1, bnat m.overrun), (1, 0), (12, m.code.toNat), (8, m.tag.toNat), (8, m.result.toNat)]

/-- `MB_FINAL_IMG` and `MB_FINAL_UPD` (R428). -/
def mbFinalWord (f : FinalSt) : Word := reg32 [(1, bnat f.pending), (1, bnat f.done), (6, 0), (8, f.tag.toNat), (16, f.reason.toNat)]

/-- `NOTICE_STAT` (R243). -/
def noticeStatWord (n : NoticeSt) : Word := reg32 [(1, bnat n.rootOvf), (15, 0), (16, n.coalesced.toNat)]

/-- `Q_CTRL` (R435). -/
def qCtrlWord (q : QueueSt) : Word := reg32 [(1, bnat (q.openPkt ≠ [])), (31, 0)]

/-- `Q_ECC` (R434). -/
def qEccWord (c : Chip) : Word := reg32 [(8, c.oq.uncorr.toNat), (8, c.nq.uncorr.toNat), (8, c.oq.corr.toNat), (8, c.nq.corr.toNat)]

/-- `OSC_STATUS` (R303). -/
def oscStatusWord (o : OscSt) : Word := reg32 [(1, bnat o.fail), (1, bnat o.tempFail), (14, 0), (16, ofSigned 16 o.temp)]

/-- `T0_QL_TX` (R297). -/
def qlTxWord (t : TimSt) : Word := reg32 [(19, 0), (9, t.loop), (4, t.ql)]

/-- `ALIGN_STATUS` (R348). -/
def alignStatusWord (t : TimSt) : Word := reg32 [(1, bnat t.tickMoving), (12, 0), (19, t.tickPhase)]

/-- `PPS_PHASE0` to `PPS_PHASE3` and `TOD_PHASE` (R348). -/
def outPhaseWord (c : Chip) (target : Nat) : Word := BitVec.ofNat 32 (ofSigned 32 (getOut c target).shown)

/-- T1's time in a cycle of the tick, in 0.25 ns (R335): its time at the last boundary run on at its nominal rate, 4 units in
3 cycles (assumption log 33). -/
def t1At (c : Chip) (cyc : Nat) : Nat := c.tim.t1.time + cyc * 4 / 3

/-- `T1_TIME_NS` (R335). -/
def t1NsWord (t : Nat) : Word := reg32 [(30, t / 4 % 1000000000), (2, t % 4)]

/-- `STRAPS` (R474). -/
def strapsWord (c : Chip) : Word := BitVec.ofNat 32 c.power.straps.toNat

/-- `OH_TX_INDEX` and `OH_DISCARD` (R171). -/
def ohIndexWord (o : OhPortSt) : Word := reg32 [(16, o.cons.toNat), (16, o.prod.toNat)]
def ohDiscardWord (o : OhPortSt) : Word := reg32 [(16, o.rxDiscard.toNat), (16, o.txDiscard.toNat)]

/-- The reset state of a table access port (R491). -/
def tapDflt : TapSt := { offset := 0, busy := false, done := false, overrun := false, write := false, wordEn := 0xFFFF, data := [] }
def getTap (c : Chip) (k : Nat) : TapSt := tget tapDflt c.taps k
def updTap (k : Nat) (f : TapSt → TapSt) (c : Chip) : Chip := { c with taps := tupd tapDflt c.taps k f }

/-- `TAP_CTRL` (R491). -/
def tapCtrlWord (t : TapSt) : Word :=
  reg32 [(1, 0), (1, bnat t.busy), (1, bnat t.done), (1, bnat t.overrun), (1, bnat t.write), (11, 0), (16, t.wordEn.toNat)]

/-- `TAP_OFFSET` (R491): the byte offset of its block. -/
def tapOffset (t : TapSt) : Nat := t.offset.toNat * 64

/-! ### Window A -/

/-- Identity and global control, 0x0000 to 0x0FFF (R493). -/
def readGlobal (c : Chip) (a : Nat) : Word :=
  match a with
  | 0x00 => 0x23040100
  | 0x04 => c.dev.scratch
  | 0x10 => BitVec.ofNat 32 (devCode c.dev.state)
  | 0x20 => lo32 (now c)
  | 0x24 => c.dev.tickHi
  | 0x28 => BitVec.ofNat 32 c.dev.tickCyc.toNat
  | 0x2C => ttStatusWord c
  | 0x30 => lo32 c.cm.cTick
  | 0x34 => c.cm.cTickHi
  | 0x40 => imgStatusWord c
  | 0x44 => c.cm.failIndex
  | 0x48 => BitVec.ofNat 32 (imgSeq c)
  | 0x50 => c.cm.digest
  | 0x54 => BitVec.ofNat 32 c.cm.placeRev.toNat
  | _ => 0

/-- Mailbox, 0x1000 to 0x1FFF (R493). -/
def readMailbox (c : Chip) (a : Nat) : Word :=
  match a with
  | 0x04 => mbStatusWord c.mb
  | 0x10 => c.mb.p0
  | 0x14 => c.mb.p1
  | 0x18 => c.mb.p2
  | 0x1C => c.mb.p3
  | 0x20 => c.mb.reply0
  | 0x24 => c.mb.reply1
  | 0x28 => lo32 c.mb.accept
  | 0x2C => c.mb.acceptHi
  | 0x30 => mbFinalWord c.mb.finalImg
  | 0x34 => mbFinalWord c.mb.finalUpd
  | _ => 0

/-- A word of an MSI-X entry. -/
def msixWord (e : MsixEnt) (k : Nat) : Word := match k with | 0 => e.addrLo | 1 => e.addrHi | 2 => e.data | _ => e.ctl

/-- Interrupt summary and MSI-X, 0x2000 to 0x2FFF (R493). -/
def readInt (c : Chip) (a : Nat) : Word :=
  match a with
  | 0x00 => BitVec.ofNat 32 c.int.status.toNat
  | 0x04 => BitVec.ofNat 32 c.int.enable.toNat
  | 0x08 => c.int.vec0
  | 0x0C => c.int.vec1
  | 0x10 => BitVec.ofNat 32 c.int.pace.toNat
  | _ =>
    if 0x800 ≤ a && a < 0xC00 then msixWord (tget msixDflt c.int.msix ((a - 0x800) / 16)) (a % 16 / 4)
    else if a = 0xC00 then BitVec.ofNat 32 ((c.int.pba.filter (· < 32)).foldl setAdd 0)
    else if a = 0xC04 then BitVec.ofNat 32 (((c.int.pba.filter (32 ≤ ·)).map (· - 32)).foldl setAdd 0)
    else 0

/-- Notice and overhead queues, defects and the PM clock, 0x3000 to 0x3FFF (R493); the pops themselves are `popRead`. -/
def readQueues (c : Chip) (a : Nat) : Word :=
  match a with
  | 0x04 => c.nq.w2
  | 0x08 => c.nq.w1
  | 0x0C => c.nq.w0
  | 0x10 => BitVec.ofNat 32 (qCount c.nq)
  | 0x24 => c.oq.w2
  | 0x28 => c.oq.w1
  | 0x2C => c.oq.w0
  | 0x30 => BitVec.ofNat 32 (qCount c.oq)
  | 0x40 => qCtrlWord c.oq
  | 0x44 => qEccWord c
  | 0x80 => c.dfx.ctrl.wr
  | 0x84 => c.dfx.corr.wr
  | 0x88 => c.dfx.corrSeq
  | 0x8C => noticeStatWord c.notice
  | 0x90 => c.pm.originLo
  | 0x94 => c.pm.originHi
  | 0x98 => pmClock c
  | 0x9C => c.pm.capQ
  | 0xA0 => c.pm.capD
  | 0xA4 => c.pm.ctrl.wr
  | _ => 0

/-- Timing, 0x4000 to 0x4FFF (R493). -/
def readTiming (c : Chip) (cyc a : Nat) : Word :=
  match a with
  | 0x00 => c.tim.tim.wr
  | 0x04 => c.tim.refin.wr
  | 0x08 => oscStatusWord c.tim.osc
  | 0x10 => qlTxWord c.tim
  | 0x20 => dpllSelWord c 0
  | 0x24 => dpllSelWord c 1
  | 0x28 => dpllSelWord c 2
  | 0x2C => dpllSelWord c 3
  | 0x60 => c.tim.t1.ctrl.wr
  | 0x64 => c.tim.t1.ffoWr
  | 0x70 => t1NsWord (t1At c cyc)
  | 0x74 => lo32 c.tim.t1.secCap
  | 0x78 => BitVec.ofNat 32 (c.tim.t1.secCap / 4294967296 % 65536)
  | 0x80 => alignStatusWord c.tim
  | 0x84 => outPhaseWord c 0x10
  | 0x88 => outPhaseWord c 0x11
  | 0x8C => outPhaseWord c 0x12
  | 0x90 => outPhaseWord c 0x13
  | 0x94 => outPhaseWord c 0x18
  | 0x98 => todInfoWord c
  | _ => 0

/-- Pairing, power, update and boot, 0x6000 to 0x8FFF (R493). -/
def readPair (c : Chip) (a : Nat) : Word :=
  match a with
  | 0x6000 => pairStatusWord c
  | 0x6004 => BitVec.ofNat 32 c.pair.epoch
  | 0x6008 => mirrorStatusWord c
  | 0x600C => BitVec.ofNat 32 c.pair.mirror.lastGen
  | 0x6010 => lo32 (ofSigned 64 c.pair.twinTick)
  | 0x6014 => c.pair.twinHi
  | 0x7000 => c.power.therm.wr
  | 0x7004 => thermStatusWord c.power
  | 0x700C => c.power.causeReg
  | 0x7010 => strapsWord c
  | 0x8000 => updStatusWord c
  | 0x8004 => updProgressWord c
  | 0x8008 => BitVec.ofNat 32 c.upd.bootFail
  | 0x8010 => BitVec.ofNat 32 (compOf c.upd.run 0).ver
  | 0x8014 => BitVec.ofNat 32 (compOf c.upd.run 1).ver
  | 0x8018 => BitVec.ofNat 32 (compOf c.upd.run 2).ver
  | 0x801C => BitVec.ofNat 32 (compOf c.upd.run 3).ver
  | _ => 0

/-- A scan channel's registers (R455). -/
def readScan (x : ScanSt) (a : Nat) : Word :=
  match a with
  | 0x00 => scanCtrlWord x
  | 0x04 => x.addr
  | 0x08 => x.len
  | 0x0C => scanStatusWord x
  | 0x10 => x.resLo
  | 0x14 => x.resHi
  | _ => 0

/-- A counter's registers in Window A (R457); its captured high half as the window's latch has it (R459). -/
def readPcnt (c : Chip) (n a : Nat) : Word :=
  let x := tget pcntDflt c.dep.count.cnt n
  match a with
  | 0x0 => lo32 x.val.toNat
  | 0x4 => BitVec.ofNat 32 c.dep.count.latchA.toNat
  | 0x8 => pcntSelWord x
  | _ => 0

/-- Counter controls, 0xB800 to 0xB81C (R461, R462). -/
def readCount (t : CountSt) (a : Nat) : Word :=
  match a with
  | 0x00 => pcntCtrlWord t
  | 0x04 => t.tickLo
  | 0x08 => t.tickHi
  | 0x0C => t.bw.wr
  | 0x10 => lo32 t.bwEnd
  | 0x14 => t.bwEndHi
  | 0x18 => lo32 t.last
  | 0x1C => t.lastHi
  | _ => 0

/-- The snapshot of a counter (R461). -/
def snapOf (c : Chip) (n : Nat) : Nat := (tget (0 : BitVec 48) c.dep.count.snap n).toNat

/-- An injection slot's registers (R482). -/
def readInj (x : InjSlot) (a : Nat) : Word :=
  match a with
  | 0x00 => x.target
  | 0x04 => x.param
  | 0x08 => x.seed
  | 0x0C => x.startLo
  | 0x10 => x.startHi
  | 0x14 => x.duration
  | 0x18 => injStatusWord x
  | _ => x.events

/-- The IDCODE of the boundary-scan TAP (R13, R514); no command of the table reaches the TAP (log 53). -/
def jtagIdcode : Word := 0x12304BB3

/-- A port's status window (R493); that of a lane a multi-lane port uses under another number reads zero (R140). -/
def readPort (c : Chip) (p a : Nat) : Word :=
  if portUnused c p then 0
  else match a with
  | 0x00 => portLaneStatus c p
  | 0x04 => portAlignWord c p
  | 0x10 => ohIndexWord (getOh c p)
  | 0x14 => ohDiscardWord (getOh c p)
  | _ => 0

/-- A table access port's registers (R491). -/
def readTap (t : TapSt) (a : Nat) : Word :=
  if a = 0 then BitVec.ofNat 32 (tapOffset t)
  else if a = 4 then tapCtrlWord t
  else if 0x40 ≤ a && a < 0x80 then tget 0 t.data ((a - 0x40) / 4)
  else 0

/-- A 32-bit read of Window A (R493); an offset without a register reads 0 (R418). -/
def readA (c : Chip) (cyc a : Nat) : Word :=
  if a < 0x1000 then readGlobal c a
  else if a < 0x2000 then readMailbox c (a - 0x1000)
  else if a < 0x3000 then readInt c (a - 0x2000)
  else if a < 0x4000 then readQueues c (a - 0x3000)
  else if a < 0x5000 then readTiming c cyc (a - 0x4000)
  else if a < 0x9000 then readPair c a
  else if a < 0x9080 then readScan (getScan c ((a - 0x9000) / 0x20)) (a % 0x20)
  else if a < 0xA000 then 0
  else if a < 0xB000 then readPcnt c ((a - 0xA000) / 16) (a % 16)
  else if a < 0xB800 then (if a % 8 = 0 then lo32 (snapOf c ((a - 0xB000) / 8)) else hi32 (snapOf c ((a - 0xB000) / 8)))
  else if a < 0xC000 then readCount c.dep.count (a - 0xB800)
  else if a = 0xC000 then injCtrlWord c
  else if 0xC100 ≤ a && a < 0xC300 then readInj (getInj c ((a - 0xC100) / 0x20)) (a % 0x20)
  else if a = 0xD000 then c.dep.patrol.wr
  else if a = 0xD004 then memStatusWord c
  else if 0x10000 ≤ a && a < 0x24000 then readPort c ((a - 0x10000) / 0x100) (a % 0x100)
  else if 0x40000 ≤ a && a < 0x40400 then readTap (getTap c ((a - 0x40000) / 0x100)) (a % 0x100)
  else 0

/-! ### Window B -/

/-- The read-only tables of Window B and those the host writes word by word (R494): base, entry size, entries; the position in
the list is the table's number below. -/
def tables : List (Nat × Nat × Nat) :=
  [(0x01000000, 8, 1920000), (0x02000000, 256, 262464), (0x07000000, 160, 262144), (0x09800000, 64, 131072),
   (0x0A000000, 4, 1920000), (0x0A800000, 32, 131072), (0x0AC00000, 16, 131072), (0x0AE00000, 32, 65536),
   (0x0B000000, 4, 262144), (0x0B100000, 8, 65536), (0x0B180000, 4, 131072), (0x0B2A0000, 16, 8192),
   (0x0B2C0000, 160, 640), (0x0B2E0000, 64, 320), (0x0B2E8000, 32, 320), (0x0B2F0000, 8, 1024)] ++
  [(0x0B2F2000, 128, 64), (0x0B2F4000, 16, 320), (0x0B2F6000, 4, 1024), (0x0B2F7000, 64, 64), (0x0B2F8000, 8, 320),
   (0x0B2F9000, 8, 320), (0x0B2FA000, 32, 64), (0x0B2FA800, 32, 48), (0x0B2FB000, 8, 97), (0x0B2FB400, 8, 64),
   (0x0B2FB600, 32, 4), (0x0B2FB680, 32, 4), (0x0B2FB700, 32, 1)]

/-- The table a byte offset falls in, counting from `k`: its number, the entry and the byte within the entry. -/
def tableFind (a : Nat) : List (Nat × Nat × Nat) → Nat → Option (Nat × Nat × Nat)
  | [], _ => none
  | (b, sz, n) :: t, k => if b ≤ a && a < b + sz * n then some (k, (a - b) / sz, (a - b) % sz) else tableFind a t (k + 1)

/-- An entry with nothing but its head and tail (R142). -/
def seqOnly (width n : Nat) : Nat := packN [(16, n), (width - 32, 0), (16, n)]

/-- The bits of the defects of one point a table shows (R237): of kind, reference and level, in the width given. -/
def defBits (l : List Nat) (kind ref level : Nat) : Nat :=
  ((l.filter (fun k => dkKind k = kind && dkRef k = ref && dkLevel k = level)).map dkBit).foldl setAdd 0

/-- The LANE defects of a port: bits 2k and 2k+1 for its lane k (R238). -/
def laneBits (l : List Nat) (p : Nat) : Nat :=
  ((l.filter (fun k => dkKind k = 1 && dkRef k = p)).map (fun k => 2 * dkLevel k + dkBit k)).foldl setAdd 0

/-- The TCM defects of a tributary, 8 bits a level (R239). -/
def tcmBits (l : List Nat) (t : Nat) : Nat :=
  ((l.filter (fun k => dkKind k = 5 && dkRef k = t)).map (fun k => 8 * (dkLevel k - 1) + dkBit k)).foldl setAdd 0

/-- An entry of `PORT_DEFECT` (R238). -/
def portDefectWord (c : Chip) (p : Nat) : Nat :=
  let f := c.dfx.failPub
  let r := c.dfx.rawPub
  packN [(16, now c), (16, defBits f 2 p 0), (16, defBits r 2 p 0), (16, laneBits f p), (16, laneBits r p), (4, defBits f 0 p 0), (4, defBits r 0 p 0),
    (152, 0), (16, now c)]

/-- `ROOT_KIND` of a root (R239). -/
def rootKindCode (r : Root) : Nat := match r.kind with | 1 => r.pk + 1 | 2 => 6 | _ => 7

/-- An entry of `TRIB_DEFECT` (R239). -/
def tribDefectWord (c : Chip) (t : Nat) : Nat :=
  let f := c.dfx.failPub
  let r := c.dfx.rawPub
  let h : Nat × Nat := match holderOf c.dfx.roots t with | some q => (rootKindCode q, q.ref) | none => (0, 0)
  packN [(16, now c), (48, tcmBits f t), (48, tcmBits r t), (16, defBits f 4 t 0), (16, defBits r 4 t 0), (8, defBits f 3 t 0), (8, defBits r 3 t 0),
    (3, h.1), (17, h.2), (60, 0), (16, now c)]

/-- An entry of `ROOT_TABLE` (R235). -/
def rootWord (c : Chip) (i : Nat) : Nat :=
  match c.dfx.roots.find? (fun r => r.slot = some i) with
  | some r => packN [(1, 1), (3, r.kind), (5, r.bit), (3, r.pk), (17, r.ref), (18, r.list.length), (17, r.base), (64, r.decl)]
  | none => 0

/-- An entry of `CONSEQ_LIST` (R235). -/
def conseqWord (c : Chip) (i : Nat) : Nat :=
  match c.dfx.roots.find? (fun r => r.slot.isSome && r.base ≤ i && i < r.base + r.list.length) with
  | some r => let t := r.list.getD (i - r.base) 0; packN [(1, bnat (r.prior.contains t)), (14, 0), (17, t)]
  | none => 0

/-- An entry of `PM_POINT` (R247). -/
def pmPointWord (c : Chip) (k : Nat) : Nat :=
  match c.pm.points.lookup k with | some x => packN [(1, 1), (11, 0), (3, x.2), (17, x.1)] | none => 0

/-- A PM record as it stands in its store (R257); a point that does not exist reads 0. -/
def pmRecWord (c : Chip) (k : Nat) : Nat := match c.pm.recs.lookup k with | some r => leNat (pmRecBytes c.free r) | none => 0

/-- An entry of `DEPOT_FAULT` (R105): one bit per region of the union. -/
def depotFaultWord (c : Chip) (i : Nat) : Nat := (unionRegions (getIsl c i)).foldl setAdd 0

/-- An entry of a published table; one never published holds only the sequence of the last boundary. -/
def pubWord {w : Nat} (m : FMap (BitVec w)) (i width n : Nat) : Nat := match m.lookup i with | some v => v.toNat | none => seqOnly width n

/-- An entry of a table by its number in `tables`, as one number. -/
def tableWord (c : Chip) (k i : Nat) : Nat :=
  match k with
  | 0 => (ttWord c (i / 960000) (i % 960000)).toNat
  | 1 => traceWord (getTrace c i)
  | 2 => pmRecWord c i
  | 3 => (tget 0 c.dep.ctxPub i).toNat
  | 4 => (berthOwnerWord c.img.place (i / 2 / 15000) (i / 2 % 15000) (i % 2)).toNat
  | 5 => tribDefectWord c i
  | 6 => match c.img.place.tribs.lookup i with | some p => (plcWord p).toNat | none => 0
  | 7 => (tget 0 c.prot.pub i).toNat
  | 8 => pmPointWord c i
  | 9 => (selWord c i).toNat
  | 10 => conseqWord c i
  | 11 => rootWord c i
  | 12 => pmRecWord c (secKey i)
  | 13 => match c.dep.lanePub.lookup i with | some v => v.toNat | none => (laneStatWord laneDflt 0 (now c)).toNat
  | 14 => portDefectWord c i
  | 15 => (engineRunWord c i).toNat
  | 16 => depotFaultWord c i
  | 17 => (tget 0 c.dep.count.bwPub i).toNat
  | 18 => (engineStateWord (getEng c i)).toNat
  | 19 => pubWord c.dep.depPub i 512 (now c)
  | 20 => (tget laneEqDflt c.line.laneEq i).wr.toNat
  | 21 => (tget tsDflt c.line.tsPort i).wr.toNat
  | 22 => (jctWord c i).toNat
  | 23 => if 12 ≤ i && i < 16 then 0 else pubWord c.tim.refPub i 256 (now c)
  | 24 => (pwrGroupWord c i).toNat
  | 25 => (faultMapWord c i).toNat
  | 26 => pubWord c.tim.dpPub i 256 (now c)
  | 27 => pubWord c.tim.hoPub i 256 (now c)
  | _ => c.tim.modelPub.toNat

/-- Whether a byte offset lies in a region that the state holds byte by byte: `IMAGE_STAGE`, `OH_TX`, `BUNDLE_STAGE`. -/
def inMemory (a : Nat) : Bool :=
  a < 0x01000000 || (0x0B200000 ≤ a && a < 0x0B250000) || (bundleStage ≤ a && a < bundleStage + bundleStageSize)

/-- A byte of Window B (R494); offsets no table occupies read 0 (R495). -/
def byteB (s : State) (a : Nat) : Byte :=
  if inMemory a then tget 0 s.mem a
  else match tableFind a tables 0 with
    | some (k, i, j) => BitVec.ofNat 8 (tableWord s.c k i >>> (8 * j))
    | none => 0

/-- Bytes of Window B from an offset. -/
def bytesB (s : State) (a n : Nat) : List Byte := (upto n).map (fun k => byteB s (a + k))

/-! ### Window C -/

/-- A 32-bit read of Window C (R463). -/
def readC (c : Chip) (a : Nat) : Word :=
  let t := c.dep.count
  if !t.userEn then 0
  else if a < 0x1000 then
    let n := a / 16
    match a % 16 with
    | 0 => lo32 (tget pcntDflt t.cnt n).val.toNat
    | 4 => BitVec.ofNat 32 t.latchC.toNat
    | 8 => lo32 (snapOf c n)
    | _ => hi32 (snapOf c n)
  else if a < 0x2000 then
    match a with
    | 0x1000 => lo32 (now c)
    | 0x1004 => t.tickHiC
    | 0x1008 => lo32 t.last
    | 0x100C => hi32 t.last
    | 0x1010 => lo32 t.bwEnd
    | 0x1014 => hi32 t.bwEnd
    | _ => 0
  else if a < 0x3400 then
    let v := (tget 0 t.bwPub ((a - 0x2000) / 16)).toNat
    match a % 16 with
    | 0 => lo32 v
    | 4 => BitVec.ofNat 32 (v / 2 ^ 32 % 65536)
    | 8 => lo32 (v / 2 ^ 48)
    | _ => BitVec.ofNat 32 (v / 2 ^ 80 % 65536)
  else 0

/-! ### What a read changes -/

/-- The value read, kept for the host. -/
def answer (l : List Byte) (c : Chip) : Chip := { c with host := { c.host with readData := l } }

/-- A pop of the notice queue (R432, R434): `corr` words corrected; with `bad` a word of the item is uncorrectable. -/
def nqPopStep (corr : Nat) (bad : Bool) (c : Chip) : Chip :=
  let r := qPop (now c) corr bad c.nq
  when (bad && qCount c.nq ≠ 0) (setInt 6) (answer (leBytes 4 (bits r.1 96 32)) { c with nq := r.2 })

/-- A pop of the overhead queue (R432 to R434). -/
def oqPopStep (corr : Nat) (bad : Bool) (c : Chip) : Chip :=
  let r := qPop (now c) corr bad c.oq
  when (bad && qCount c.oq ≠ 0) (setInt 6) (answer (leBytes 4 (bits r.1 96 32)) { c with oq := r.2 })

/-- What a read of Window A captures (R41, R55, R250, R335, R381, R426, R459, R461, R462). -/
def captureA (cyc a : Nat) (c : Chip) : Chip :=
  match a with
  | 0x20 => { c with dev := { c.dev with tickHi := hi32 (now c), tickCyc := BitVec.ofNat 19 cyc } }
  | 0x30 => setCm { c.cm with cTickHi := hi32 c.cm.cTick } c
  | 0x1028 => { c with mb := { c.mb with acceptHi := hi32 c.mb.accept } }
  | 0x3098 => setPm { c.pm with capQ := BitVec.ofNat 32 c.pm.quarter, capD := BitVec.ofNat 32 c.pm.day } c
  | 0x4070 => setT1 { c.tim.t1 with secCap := t1At c cyc / secQ % 2 ^ 48 } c
  | 0x6010 => setPair { c.pair with twinHi := hi32 (ofSigned 64 c.pair.twinTick) } c
  | 0xB810 => setCounters { c.dep.count with bwEndHi := hi32 c.dep.count.bwEnd } c
  | 0xB818 => setCounters { c.dep.count with lastHi := hi32 c.dep.count.last } c
  | _ =>
    if 0xA000 ≤ a && a < 0xB000 && a % 16 = 0 then
      setCounters { c.dep.count with latchA := BitVec.ofNat 16 ((tget pcntDflt c.dep.count.cnt ((a - 0xA000) / 16)).val.toNat / 2 ^ 32) } c
    else c

/-- A 32-bit read of Window A: the value and the part after it. Reading a pop register pops (R432). -/
def readStepA (cyc a : Nat) (c : Chip) : List Byte × Chip :=
  if a = 0x3000 then let c1 := nqPopStep 0 false c; (c1.host.readData, c1)
  else if a = 0x3020 then let c1 := oqPopStep 0 false c; (c1.host.readData, c1)
  else (leBytes 4 (readA c cyc a).toNat, captureA cyc a c)

/-- What a read of Window C captures (R463). -/
def captureC (a : Nat) (c : Chip) : Chip :=
  let t := c.dep.count
  if !t.userEn then c
  else if a < 0x1000 && a % 16 = 0 then
    setCounters { t with latchC := BitVec.ofNat 16 ((tget pcntDflt t.cnt (a / 16)).val.toNat / 2 ^ 32) } c
  else if a = 0x1000 then setCounters { t with tickHiC := hi32 (now c) } c
  else c

/-- A read of Window B uses up a free value where it shows PM records, whose working state has no stated layout (R257). -/
def captureB (a n : Nat) (c : Chip) : Chip :=
  if (a < 0x09800000 && 0x07000000 < a + n) || (a < 0x0B2D9000 && 0x0B2C0000 < a + n) then { c with free := c.free + 1 } else c

/-- A read by the host (R418, R420, R463): a 64-bit read of Window A is two of 32 bits, lower address first. -/
def hostRead (window a len cyc : Nat) (s : State) : State :=
  match window with
  | 0 =>
    if len = 4 then onChip (fun c => let r := readStepA cyc a c; answer r.1 r.2) s
    else onChip (fun c => let r := readStepA cyc a c; let r2 := readStepA cyc (a + 4) r.2; answer (r.1 ++ r2.1) r2.2) s
  | 1 => onChip (fun c => answer (bytesB s a len) (captureB a len c)) s
  | _ => onChip (fun c => answer (leBytes 4 (readC c a).toNat) (captureC a c)) s

/-- NQ_POP (R432). -/
def execNqPop (corr : Nat) (bad : Bool) (s : State) : Host.Outcome State Fault Refusal :=
  .next (onChip (fun c => when (awake c) (nqPopStep corr bad) c) s)

/-- OQ_POP (R433). -/
def execOqPop (corr : Nat) (bad : Bool) (s : State) : Host.Outcome State Fault Refusal :=
  .next (onChip (fun c => when (awake c) (oqPopStep corr bad) c) s)

/-- LATCHED_READ (R41): and every other read by the host. -/
def execLatchedRead (window a len cyc : Nat) (s : State) : Host.Outcome State Fault Refusal :=
  if !awake s.c then .next s
  else if readForm window a len then .next (hostRead window a len (cyc % 375000) s)
  else misuse window a

end Sys2Proof.Machine
end

