-- ==== Sys2Proof/Machine/Flags.lean ====
section
/-!
DEFINITION. The flags the host clears by writing 1 (R11, R421), and writes of the interrupt flags (R422, R424).
-/
namespace Sys2Proof.Machine
open Sys2Proof

/-- A W1C bit after a write of 1 where `clr` has it and a setting by hardware in the same cycle where `set` has it (R421). -/
def w1cBit (clr set : Word) (k : Nat) (b : Bool) : Bool := (b && !bitAt clr k) || bitAt set k

/-- The W1C flags of a Window A register after a clearing write (R421). -/
def w1cApply (a : Nat) (clr set : Word) (c : Chip) : Chip :=
  let f (k : Nat) (b : Bool) : Bool := w1cBit clr set k b
  if a = 0x1004 then { c with mb := { c.mb with done := f 30 c.mb.done, overrun := f 29 c.mb.overrun } }
  else if a = 0x1030 then { c with mb := { c.mb with finalImg := { c.mb.finalImg with done := f 30 c.mb.finalImg.done } } }
  else if a = 0x1034 then { c with mb := { c.mb with finalUpd := { c.mb.finalUpd with done := f 30 c.mb.finalUpd.done } } }
  else if a = 0x2000 then
    resend { c with int := { c.int with status := BitVec.ofNat 8 (packN ((upto 8).reverse.map (fun k => (1, bnat (f k (bitAt c.int.status k)))))) } }
  else if a = 0x308C then { c with notice := { c.notice with rootOvf := f 31 c.notice.rootOvf } }
  else if a = 0x6000 then setPair { c.pair with dual := f 16 c.pair.dual } c
  else if a = 0x7004 then setPower { c.power with warnSeen := f 29 c.power.warnSeen, throtSeen := f 28 c.power.throtSeen } c
  else if 0x9000 ≤ a && a < 0x9080 && a % 0x20 = 0x0C then
    updScan ((a - 0x9000) / 0x20) (fun x => { x with done := f 30 x.done, overrun := f 29 x.overrun, poison := f 28 x.poison }) c
  else if 0xA000 ≤ a && a < 0xB000 && a % 16 = 8 then
    setCounters { c.dep.count with cnt := tupd pcntDflt c.dep.count.cnt ((a - 0xA000) / 16) (fun x => { x with ovf := f 28 x.ovf }) } c
  else if a = 0xB800 then setCounters { c.dep.count with snapDone := f 29 c.dep.count.snapDone } c
  else if 0xC100 ≤ a && a < 0xC300 && a % 0x20 = 0x18 then
    updInj ((a - 0xC100) / 0x20) (fun x => { x with done := f 28 x.done, cut := f 27 x.cut }) c
  else if 0x10000 ≤ a && a < 0x24000 && a % 0x100 = 0 then
    let p := (a - 0x10000) / 0x100
    setSkew p { getSkew c p with seen := f 12 (getSkew c p).seen } c
  else if 0x10000 ≤ a && a < 0x24000 && a % 0x100 = 4 then
    updPortAlign ((a - 0x10000) / 0x100) (fun x => { x with lookalike := f 25 x.lookalike, rival := f 24 x.rival }) c
  else if 0x40000 ≤ a && a < 0x40400 && a % 0x100 = 4 then
    updTap ((a - 0x40000) / 0x100) (fun x => { x with done := f 29 x.done, overrun := f 28 x.overrun }) c
  else c

/-! ### Interrupts -/

/-- A write of `INT_STATUS` (R422, R424). -/
def intStatusWrite (v : Word) (c : Chip) : Chip := w1cApply 0x2000 v 0 c

/-- A write of `INT_ENABLE` (R422, R424). -/
def intEnableWrite (v : Word) (c : Chip) : Chip := resend { c with int := { c.int with enable := BitVec.ofNat 8 v.toNat } }

end Sys2Proof.Machine
end

