-- ==== Sys2Proof/Machine/HostWrite.lean ====
section
/-!
DEFINITION. What the host writes: the interrupt registers (R422 to R424), the mailbox's command register (R425), every
register of Window A (R493) and the writable tables of Window B (R420); the table access ports (R491, R492), the scan unit's
results (R456), queue control (R435) and the PCIe reset (R417). An answer of none is a write that R12 calls unpredictable.
-/
namespace Sys2Proof.Machine
open Sys2Proof

/-! ### Interrupts -/

/-- The reserved bits of the vector registers are 0 (R423). -/
def intVecOk (v : Word) : Bool := (upto 4).all (fun k => bits v (8 * k + 6) 2 = 0)

/-- One word of an MSI-X entry (R424). -/
def msixPut (v k : Nat) (w : Word) (c : Chip) : Chip :=
  let e := tget msixDflt c.int.msix v
  msixWrite v (match k with | 0 => { e with addrLo := w } | 1 => { e with addrHi := w } | 2 => { e with data := w } | _ => { e with ctl := w }) c

/-! ### The command register -/

/-- A write of `MB_CMD` (R425 to R429): the command of its code. The files of a craft card are those last found on it. -/
def mbCmd (code : Nat) (tag : Byte) (s : State) : State :=
  let simple (ok : Chip → Bool) : State := onChip (mbSubmit code tag false ok id) s
  match code with
  | 0x010 => loadImageCmd tag s
  | 0x011 => commitImageCmd tag s
  | 0x012 => amendImageCmd tag s
  | 0x013 => readImageCmd tag s
  | 0x020 => simple protCmdOk
  | 0x030 => simple refSelectOk
  | 0x031 => simple timeAdjustOk
  | 0x032 => simple tickAlignOk
  | 0x033 => simple ppsAlignOk
  | 0x034 => simple phaseStepOk
  | 0x035 => simple anyOk
  | 0x040 => drillCmd tag s
  | 0x041 => tabletClaimCmd tag s
  | 0x050 => deviceKeyCmd tag s
  | 0x051 => bundleBeginCmd tag s
  | 0x052 => bundleChunkCmd tag s
  | 0x053 => sdLoadCmd tag (if s.c.upd.cardIn then s.c.upd.file else none) s
  | 0x054 => bundleVerifyCmd tag s
  | 0x055 => bundleActivateCmd tag s
  | 0x056 => bundleAbortCmd tag s
  | 0x057 => keySetCmd tag s
  | 0x058 => settingsReadCmd tag s
  | 0x059 => settingsWriteCmd tag s
  | 0x05A => keyWipeCmd tag (if s.c.upd.cardIn then s.c.upd.wipe else none) s
  | _ => simple anyOk

/-! ### Window A -/

/-- A chip's change where a condition holds, else an unpredictable write. -/
def keepIf (b : Bool) (f : Chip → Chip) (s : State) : Option State := if b then some (onChip f s) else none

/-- A parameter register (R426), which must not be written while `BUSY` is 1. -/
def setParam (k : Nat) (v : Word) (c : Chip) : Chip :=
  { c with mb := match k with | 0 => { c.mb with p0 := v } | 1 => { c.mb with p1 := v } | 2 => { c.mb with p2 := v } | _ => { c.mb with p3 := v } }

/-- Mailbox registers, by offset within the block (R425 to R428). -/
def writeMailbox (a : Nat) (v : Word) (s : State) : Option State :=
  if a = 0 then if bits v 12 12 = 0 then some (mbCmd (bits v 0 12) (BitVec.ofNat 8 (bits v 24 8)) s) else none
  else if a = 4 then keepIf (bits v 28 1 = 0) (w1cApply 0x1004 v 0) s
  else if 0x10 ≤ a && a < 0x20 then keepIf s.c.mb.cur.isNone (setParam ((a - 0x10) / 4) v) s
  else if a = 0x30 || a = 0x34 then keepIf (bits v 24 6 = 0) (w1cApply (0x1000 + a) v 0) s
  else some s

/-- Interrupt registers and the MSI-X table (R422 to R424). -/
def writeInt (a : Nat) (v : Word) (s : State) : Option State :=
  if a = 0x00 then keepIf (bits v 8 24 = 0) (intStatusWrite v) s
  else if a = 0x04 then keepIf (bits v 8 24 = 0) (intEnableWrite v) s
  else if a = 0x08 then keepIf (intVecOk v) (fun c => { c with int := { c.int with vec0 := v } }) s
  else if a = 0x0C then keepIf (intVecOk v) (fun c => { c with int := { c.int with vec1 := v } }) s
  else if a = 0x10 then keepIf (bits v 16 16 = 0) (fun c => { c with int := { c.int with pace := BitVec.ofNat 16 v.toNat } }) s
  else if 0x800 ≤ a && a < 0xC00 then some (onChip (msixPut ((a - 0x800) / 16) (a % 16 / 4) v) s)
  else some s

/-- `DROP_REST` (R435). -/
def dropRestStep (c : Chip) : Chip := { c with oq := { c.oq with openPkt := [] } }

/-- Writes of `DEFECT_CTRL`, `CORR_CTRL`, `PM_CTRL`, `PM_ORIGIN_LO`, `PM_ORIGIN_HI`, which a holder journals (R373). -/
def journalled (a : Nat) (v : Word) (c : Chip) : Chip :=
  jnlWrite a v (match a with
    | 0x3080 => { c with dfx := { c.dfx with ctrl := { c.dfx.ctrl with wr := v } } }
    | 0x3084 => { c with dfx := { c.dfx with corr := { c.dfx.corr with wr := v } } }
    | 0x3090 => setPm { c.pm with originLo := v } c
    | 0x3094 => setPm { c.pm with originHi := v, armed := some (v.toNat * 4294967296 + c.pm.originLo.toNat) } c
    | _ => setPm { c.pm with ctrl := { c.pm.ctrl with wr := v } } c)

/-- Queue, defect and PM clock registers (R231, R234, R243, R250, R435). -/
def writeQueues (a : Nat) (v : Word) (s : State) : Option State :=
  match a with
  | 0x40 => keepIf (bits v 1 30 = 0) (when (bitAt v 0) dropRestStep) s
  | 0x80 => keepIf (defectCtrlOk v) (journalled 0x3080 v) s
  | 0x84 => keepIf (corrCtrlOk v) (journalled 0x3084 v) s
  | 0x8C => keepIf (bits v 16 15 = 0) (w1cApply 0x308C v 0) s
  | 0x90 => some (onChip (journalled 0x3090 v) s)
  | 0x94 => some (onChip (journalled 0x3094 v) s)
  | 0xA4 => keepIf (bits v 1 23 = 0) (journalled 0x30A4 v) s
  | _ => some s

/-- `TOD_INFO` (R351): ignored while a reference gives the fields. -/
def todInfoWrite (v : Word) (c : Chip) : Chip := if (todSource c).isSome then c else setTim { c.tim with todInfo := v } c

/-- Timing registers (R291, R301, R341, R351). -/
def writeTiming (a : Nat) (v : Word) (s : State) : Option State :=
  match a with
  | 0x00 => keepIf (timCtrlOk v) (fun c => setTim { c.tim with tim := { c.tim.tim with wr := v } } c) s
  | 0x04 => keepIf (refinOk v) (fun c => setTim { c.tim with refin := { c.tim.refin with wr := v } } c) s
  | 0x60 => keepIf (t1SwCtrlOk v) (fun c => setT1 { c.tim.t1 with ctrl := { c.tim.t1.ctrl with wr := v } } c) s
  | 0x64 => some (onChip (t1SwFfoWrite v) s)
  | 0x68 => some (onChip (t1SwOffsetWrite v) s)
  | 0x98 => keepIf (bits v 3 13 = 0) (todInfoWrite v) s
  | _ => some s

/-- A scan channel's registers (R455); none may change while the channel is busy. -/
def writeScan (k a : Nat) (v : Word) (s : State) : Option State :=
  let x := getScan s.c k
  match a with
  | 0x00 => keepIf (scanCtrlOk x v 268435456) (scanCtrl k v) s
  | 0x04 => keepIf (!x.busy || v = x.addr) (updScan k (fun x => { x with addr := v })) s
  | 0x08 => keepIf ((!x.busy || v = x.len) && 1 ≤ v.toNat && v.toNat ≤ 268435456) (updScan k (fun x => { x with len := v })) s
  | 0x0C => keepIf (bits v 0 28 = 0) (w1cApply (0x9000 + 0x20 * k + 0x0C) v 0) s
  | _ => some s

/-- Counter controls (R461, R462). -/
def writeCount (a : Nat) (v : Word) (s : State) : Option State :=
  match a with
  | 0x00 => keepIf (bits v 24 4 = 0) (fun c => setCounters (pcntCtrl v c.dep.count) c) s
  | 0x04 => some (onChip (fun c => setCounters { c.dep.count with tickLo := v } c) s)
  | 0x08 => some (onChip (snapArm v) s)
  | 0x0C => keepIf (bwCtrlOk v) (bwCtrl v) s
  | _ => some s

/-- An injection slot's registers (R482, R485): none but `INJ_STATUS` may be written while the slot is armed or runs. -/
def writeInj (k a : Nat) (v : Word) (s : State) : Option State :=
  let x := getInj s.c k
  let idle : Bool := !x.armed && !x.running
  match a with
  | 0x00 => keepIf (idle && injTargetOk v) (updInj k (fun x => { x with target := v })) s
  | 0x04 => keepIf idle (updInj k (fun x => { x with param := v })) s
  | 0x08 => keepIf idle (updInj k (fun x => { x with seed := v })) s
  | 0x0C => keepIf idle (updInj k (fun x => { x with startLo := v })) s
  | 0x10 => keepIf idle (updInj k (fun x => { x with startHi := v })) s
  | 0x14 => keepIf (idle && bits v 24 8 = 0) (updInj k (fun x => { x with duration := v })) s
  | 0x18 =>
    if bits v 0 27 ≠ 0 then none
    else
      let s1 := onChip (w1cApply (0xC100 + 0x20 * k + 0x18) v 0) s
      if bitAt v 31 then keepIf (injArmOk s.c x) (injArm k) s1 else some s1
  | _ => some s

/-- A port's registers (R140, R157, R171). -/
def writePort (p a : Nat) (v : Word) (s : State) : Option State :=
  match a with
  | 0x00 => keepIf (bits v 10 2 = 0) (w1cApply (0x10000 + 0x100 * p) v 0) s
  | 0x04 => keepIf (bits v 16 8 = 0) (w1cApply (0x10000 + 0x100 * p + 4) v 0) s
  | 0x10 => let prod := BitVec.ofNat 16 v.toNat; keepIf ((prod - (getOh s.c p).cons).toNat ≤ 64) (fun c => headTick s.mem p (updOh p (fun o => { o with prod := prod }) c)) s
  | _ => some s

/-- A write of `TAP_CTRL` (R491, R492): a `GO` while the port is busy is ignored and marked. -/
def tapCtrl (k : Nat) (v : Word) (c : Chip) : Chip :=
  updTap k (fun t =>
    let t1 := { t with done := w1cBit v 0 29 t.done, overrun := w1cBit v 0 28 t.overrun, write := bitAt v 27, wordEn := BitVec.ofNat 16 v.toNat }
    if bitAt v 31 then (if t.busy then { t1 with overrun := true } else { t1 with busy := true }) else t1) c

/-- Whether a write of `TAP_CTRL` is one R491 and R492 allow. -/
def tapCtrlOk (t : TapSt) (v : Word) : Bool :=
  bits v 16 11 = 0 && (!t.busy || (bitAt v 27 == t.write && BitVec.ofNat 16 v.toNat = t.wordEn))

/-- A table access port's registers (R491). -/
def writeTap (k a : Nat) (v : Word) (s : State) : Option State :=
  let t := getTap s.c k
  if a = 0 then keepIf (!t.busy && bits v 28 4 = 0 && bits v 0 6 = 0) (updTap k (fun t => { t with offset := BitVec.ofNat 22 (bits v 6 22) })) s
  else if a = 4 then keepIf (tapCtrlOk t v) (tapCtrl k v) s
  else if 0x40 ≤ a && a < 0x80 then keepIf (!t.busy) (updTap k (fun t => { t with data := tset 0 t.data ((a - 0x40) / 4) v })) s
  else some s

/-- A 32-bit write of Window A (R418, R493); an offset without a writable register ignores it. -/
def writeA (a : Nat) (v : Word) (s : State) : Option State :=
  if a < 0x1000 then (if a = 4 then some (onChip (fun c => { c with dev := { c.dev with scratch := v } }) s) else some s)
  else if a < 0x2000 then writeMailbox (a - 0x1000) v s
  else if a < 0x3000 then writeInt (a - 0x2000) v s
  else if a < 0x4000 then writeQueues (a - 0x3000) v s
  else if a < 0x5000 then writeTiming (a - 0x4000) v s
  else if a = 0x6000 then keepIf (bits v 3 4 = 0) (w1cApply 0x6000 v 0) s
  else if a = 0x7000 then keepIf (thermCtrlOk v) (fun c => setPower { c.power with therm := { c.power.therm with wr := v } } c) s
  else if a = 0x7004 then keepIf (bits v 21 7 = 0) (w1cApply 0x7004 v 0) s
  else if a < 0x9000 then some s
  else if a < 0x9080 then writeScan ((a - 0x9000) / 0x20) (a % 0x20) v s
  else if a < 0xA000 then some s
  else if a < 0xB000 then
    if a % 16 = 8 then keepIf (bits v 10 9 = 0) (pcntSel ((a - 0xA000) / 16) v 0) s else some s
  else if a < 0xB800 then some s
  else if a < 0xC000 then writeCount (a - 0xB800) v s
  else if a = 0xC000 then keepIf (bits v 16 15 = 0) (injCtrl v) s
  else if 0xC100 ≤ a && a < 0xC300 then writeInj ((a - 0xC100) / 0x20) (a % 0x20) v s
  else if a = 0xD000 then keepIf (patrolCtrlOk v) (fun c => setDep { c.dep with patrol := { c.dep.patrol with wr := v } } c) s
  else if 0x10000 ≤ a && a < 0x24000 then writePort ((a - 0x10000) / 0x100) (a % 0x100) v s
  else if 0x40000 ≤ a && a < 0x40400 then writeTap ((a - 0x40000) / 0x100) (a % 0x100) v s
  else some s

/-! ### Window B -/

/-- A command that uses `IMAGE_STAGE`, or `BUNDLE_STAGE`, is in progress (R88, R395, R420). -/
def stageBusy (codes : List Nat) (c : Chip) : Bool := match c.mb.cur with | some k => codes.contains k.code | none => false

/-- A 64-bit entry with some of its bytes, from byte `j`, written. -/
def patch64 (v : Word64) (j : Nat) (l : List Byte) : Word64 :=
  let old := leBytes 8 v.toNat
  BitVec.ofNat 64 (leNat (old.take j ++ l ++ old.drop (j + l.length)))

/-- A write of 4 or 8 aligned bytes to Window B (R420); read-only tables and empty space ignore it. -/
def writeB (a : Nat) (l : List Byte) (s : State) : Option State :=
  if inMemory a then
    if (a < 0x01000000 && stageBusy [0x010, 0x012, 0x013] s.c) ||
      (bundleStage ≤ a && stageBusy [0x050, 0x051, 0x052, 0x057, 0x058, 0x059] s.c) then none
    else some { s with mem := writeBytes 0 s.mem a l }
  else match tableFind a tables 0 with
    | some (1, e, j) => keepIf (traceWriteOk j l) (traceWrite e j l) s
    | some (20, i, j) => let v := patch64 (tget laneEqDflt s.c.line.laneEq i).wr j l; keepIf (laneEqOk v) (laneEqWrite i v) s
    | some (21, i, j) =>
      let v := patch64 (tget tsDflt s.c.line.tsPort i).wr j l
      some (onChip (fun c => { c with line := { c.line with tsPort := tupd tsDflt c.line.tsPort i (fun t => { t with wr := v }) } }) s)
    | _ => some s

/-- A write by the host (R418 to R420, R463). -/
def hostWrite (window a : Nat) (l : List Byte) (s : State) : Option State :=
  if !writeForm window a l.length then none
  else match window with
    | 0 =>
      let lo := BitVec.ofNat 32 (leNat (l.take 4))
      if l.length = 4 then writeA a lo s
      else (writeA a lo s).bind (writeA (a + 4) (BitVec.ofNat 32 (leNat (l.drop 4))))
    | 1 => writeB a l s
    | 2 => some s
    | _ => none

/-! ### Table access ports -/

/-- The enabled words of a port written to its block, lowest first (R492). -/
def tapStore (t : TapSt) : Nat → State → Option State
  | 0, s => some s
  | n + 1, s =>
    (tapStore t n s).bind (fun s1 =>
      if bitAt t.wordEn n then writeB (tapOffset t + 4 * n) (leBytes 4 (tget 0 t.data n).toNat) s1 else some s1)

/-- An operation of a table access port ends (R492). -/
def tapEnd (k : Nat) (s : State) : Option State :=
  let t := getTap s.c k
  let ended := updTap k (fun t => { t with busy := false, done := true })
  if t.write then (tapStore t 16 s).map (onChip ended)
  else
    let block := (upto 16).map (fun j => (j, BitVec.ofNat 32 (leNat (bytesB s (tapOffset t + 4 * j) 4))))
    some (onChip (fun c => captureB (tapOffset t) 64 (ended (updTap k (fun t => { t with data := block.filter (fun e => e.2 ≠ (0 : Word)) }) c))) s)

/-! ### The scan unit's sources -/

/-- A boot record as stored (R394). -/
def bootRecBytes (r : BootRec) : List Byte :=
  let low := leBytes 28 (packN [(32, r.seq), (32, r.floor), (32, r.fallbackId), (32, r.bootId), (16, 0x5242), (64, 0), (4, r.confirmed), (3, 0), (1, bnat r.trial), (7, 0), (1, bnat r.slot)])
  low ++ leBytes 4 (crc32c low)

/-- A bundle as stored, up to the first chunk that is missing (R388, R392). -/
def bundleBytes (x : SlotSt) : List Byte :=
  x.header ++ x.head2 ++ ((upto (x.chunks.length)).map (fun i => (x.chunks.lookup i).getD [])).flatten

/-- Flash bytes the manual fixes (R392, R394): the two boot records and the bundle files, each with its offset. The bytes of slot
headers and settings have no stated layout. -/
def flashParts (u : UpdSt) : List (Nat × List Byte) :=
  [(0, match u.rec0 with | some r => bootRecBytes r | none => []), (0x10000, match u.rec1 with | some r => bootRecBytes r | none => []),
    (0x401000, bundleBytes u.slotA), (0x4201000, bundleBytes u.slotB)]

/-- A range of flash, where the manual fixes every byte of it. -/
def flashRange (u : UpdSt) (a n : Nat) : Option (List Byte) :=
  ((flashParts u).find? (fun p => p.1 ≤ a && a + n ≤ p.1 + p.2.length)).map (fun p => (p.2.drop (a - p.1)).take n)

/-- What a channel reads (R455, R456); none where the content has no stated bytes (depot payload, settings). -/
def scanContent (x : ScanSt) (s : State) : Option (List Byte) :=
  match x.source with
  | 1 => some (bytesB s x.addr.toNat x.len.toNat)
  | 2 => flashRange s.c.upd x.addr.toNat x.len.toNat
  | _ => none

/-! ### PCIe -/

/-- A hot reset, a link-down event or a function-level reset (R417). -/
def pcieResetStep (c : Chip) : Chip := { c with int := { c.int with enable := 0, vec0 := 0, vec1 := 0, msix := [], pba := [] } }

/-! ### Commands -/

/-- The outcome of a register write: done, or the misuse R12 and R418 name. -/
def written (window a : Nat) : Option State → Host.Outcome State Fault Refusal
  | some t => .next t
  | none => misuse window a

/-- PCIE_RESET (R417). -/
def execPcieReset (s : State) : Host.Outcome State Fault Refusal := .next (onChip (fun c => when (awake c) pcieResetStep c) s)

/-- REGISTER_WRITE (R419). -/
def execRegisterWrite (window a : Nat) (l : List Byte) (s : State) : Host.Outcome State Fault Refusal :=
  if awake s.c then written window a (hostWrite window a l s) else .next s

/-- W1C_CLEAR (R421): the flags written 1 clear, but for those hardware sets in the same cycle. -/
def execW1cClear (a : Nat) (mask same : Word) (s : State) : Host.Outcome State Fault Refusal :=
  .next (onChip (fun c => when (awake c) (w1cApply a mask same) c) s)

/-- INTERRUPT_WRITE (R424). -/
def execInterruptWrite (enable : Bool) (v : Word) (s : State) : Host.Outcome State Fault Refusal :=
  if !awake s.c then .next s
  else if bits v 8 24 ≠ 0 then misuse 0 (if enable then 0x2004 else 0x2000)
  else .next (onChip (if enable then intEnableWrite v else intStatusWrite v) s)

/-- DROP_REST (R435). -/
def execDropRest (s : State) : Host.Outcome State Fault Refusal := .next (onChip (fun c => when (awake c) dropRestStep c) s)

/-- SCAN_COMPLETE (R456): a busy channel's result; it holds while the part throttles (R469). -/
def execScanComplete (k : Nat) (poison : Bool) (s : State) : Host.Outcome State Fault Refusal :=
  if awake s.c && k < 4 && (getScan s.c k).busy && s.c.power.throt = [] then
    .next (onChip (scanDone k poison (scanContent (getScan s.c k) s)) s)
  else .next s

/-- TABLE_PORT_GO (R492): a write of `TAP_CTRL`. -/
def execTablePortGo (k : Nat) (v : Word) (s : State) : Host.Outcome State Fault Refusal :=
  if awake s.c && k < 4 then
    if tapCtrlOk (getTap s.c k) v then .next (onChip (tapCtrl k v) s) else misuse 0 (0x40004 + 0x100 * k)
  else .next s

/-- TABLE_PORT_DONE (R492). -/
def execTablePortDone (k : Nat) (s : State) : Host.Outcome State Fault Refusal :=
  if awake s.c && k < 4 && (getTap s.c k).busy then written 1 (tapOffset (getTap s.c k)) (tapEnd k s) else .next s

end Sys2Proof.Machine
end

