-- ==== Sys2Proof/Machine/Boundary.lean ====
section
/-!
DEFINITION. The tick boundary (R10, R60, R61): the steps of the tick that ends which no command has taken, what the tick
measured, and the steps of the boundary in the manual's order.
-/
namespace Sys2Proof.Machine
open Sys2Proof

/-! ### The tick that ends -/

/-- What the part does once in every tick and no command of the tick has brought about: the protection evaluation (R274), the
servo (R342), `STATUS` and the journal record (R366, R373), the regions of a generation (R372), the context copy (R177), the
write-back of the regions under test (R446). -/
def finishTick (c : Chip) : Chip :=
  let c1 := if onImage c then protEvaluate c else protNoGroup c
  let c2 := if onImage c1 && !(isDone 6 c1) then servoRun c1 else c1
  let c3 := if c2.pair.lanesUp && !(isDone 7 c2) then statusSend (now c2) c2 else c2
  let c4 := if isDone 8 c3 then c3 else jnlSend c3
  let c5 := contextCopy (genSend (genPace c4) c4)
  forEach (tkeys c5.dep.isl) (fun i c => patrolBack i true c) c5

/-- The B2 violations of the last 80 ticks of every SDH port (R224), latest first. -/
def b2Count (ports : List PortRep) (c : Chip) : Chip :=
  { c with dfx := { c.dfx with b2 := ((imagePorts (theImage c)).filter (fun p => isSdh (portStack (theImage c) p))).map (fun p => (p, (((ports.find? (fun r => r.port = p)).map (·.b2)).getD 0 :: tget [] c.dfx.b2 p).take 80)) } }

/-- What the tick that ends showed (R49, R251, R311, R462): counted and marked under the image that ran it. -/
def measureTick (rep : TickRep) (vs : List (EngVerdict × List Nat)) (n : Nat) (c : Chip) : Chip :=
  let c1 := injTick n (bwCount rep.ports (lanesMeasured rep.lanes rep.feeds n (tickEvents rep c)))
  let c2 := pmTick rep.pm (ctxTick n (engMarks vs c1))
  protGather (timingTick rep n (b2Count rep.ports c2))

/-! ### Registers whose writes take effect at the boundary -/

/-- Every such register (R134, R231, R234, R291, R301, R338, R341, R450, R462, R471) takes the value last written. -/
def latchAll (c : Chip) : Chip :=
  let c1 := setPower { c.power with therm := latch c.power.therm } c
  let c2 := setDep { c1.dep with patrol := latch c1.dep.patrol, count := { c1.dep.count with bw := latch c1.dep.count.bw } } c1
  let c3 := setTim { c2.tim with tim := latch c2.tim.tim, refin := latch c2.tim.refin, t1 := { c2.tim.t1 with ctrl := latch c2.tim.t1.ctrl } } c2
  let c4 := { c3 with dfx := { c3.dfx with ctrl := latch c3.dfx.ctrl, corr := latch c3.dfx.corr } }
  let c5 := if c4.dfx.ctrl = c.dfx.ctrl then c4 else degAgain c4
  traceBoundary (now c) (lasersRelight { c5 with line := { c5.line with laneEq := tmap laneEqDflt c5.line.laneEq (fun _ t => { t with eff := t.wr }), tsPort := tmap tsDflt c5.line.tsPort (fun _ t => { t with eff := t.wr }) } })

/-! ### The steps of R60 -/

/-- Islands in which the verdicts find a death, whose migration step is withheld (R405). -/
def deathIslands (vs : List (EngVerdict × List Nat)) (n : Nat) (c : Chip) : List Nat :=
  let c1 := engBoundary vs n c
  distinct (((tkeys c1.eng).filter (fun e => (getEng c1 e).role = roleDead && (getEng c e).role ≠ roleDead)).map (· / 16))

/-- Step 3 of R60. -/
def selectorStep (n : Nat) (c : Chip) : Chip :=
  forEach (tkeys c.prot.groups) (fun g c => grpBoundary g n (selectorChange g n c)) (selRestoreAll c)

/-- Step 4 of R60, with the migration of mapper microcode (R401). -/
def sidingStep (vs : List (EngVerdict × List Nat)) (n : Nat) (c : Chip) : Chip :=
  let c1 := startLists (tkeys c.isl) n c
  mcStep (deathIslands vs n c1) n c1

/-- What step 7 of R60 captures of the tick that ends: the counters, the lanes and the depots. -/
def lanesShown (n : Nat) (c : Chip) : FMap (BitVec 512) :=
  (distinct (tkeys c.line.lanes ++ ((tkeys c.line.lasers).map (fun i => (upto 8).map (8 * i + ·))).flatten)).map (fun l => (l, laneEntry c n l))
def depotsShown (n : Nat) (c : Chip) : FMap (BitVec 512) := (tkeys c.dep.isl).map (fun i => (i, depotStatWord c i n))

/-- Step 7 of R60; `old` is the part as the tick left it. -/
def snapshotStep (old : Chip) (n : Nat) (c : Chip) : Chip :=
  let c1 := pmApply n c
  let c2 := if pmDue n c1 then pmSecond n c1 else c1
  let c3 := jctPublish old.img.place (bwEnds n (snapTake (pcntVals old) n c2))
  protPublish n (setDep { c3.dep with lanePub := lanesShown n old, depPub := depotsShown n old } c3)

/-- The steps of R60 in its order. -/
def boundarySteps (vs : List (EngVerdict × List Nat)) (old : Chip) (n : Nat) (c : Chip) : Chip :=
  let c1 := pairBoundary n c
  let c2 := commitBoundary n c1
  let c3 := selectorStep n c2
  let c4 := sidingStep vs n c3
  let c5 := flitsAge n (cwyBoundary c4)
  let c6 := engBoundary vs n c5
  snapshotStep old n (defectBoundary n c6)

/-! ### What else happens at a boundary -/

/-- dEXC of every SDH port (R224). -/
def excBoundary (c : Chip) : Chip :=
  if !detects c then c
  else forEach c.dfx.b2 (fun e c =>
    let st := portStack (theImage c) e.1
    let sum := e.2.foldl (· + ·) 0
    if !(portFramed c e.1) then c
    else if Config.b2Reaches st sum 3 then setDefect (dkey 2 e.1 0 7) true c
    else if !(Config.b2Reaches st sum 4) then setDefect (dkey 2 e.1 0 7) false c
    else c) c

/-- Defects judged at a boundary, and the consequent actions that start there (R148, R224, R227, R528). -/
def defectsAfter (n : Nat) (c : Chip) : Chip :=
  let c1 := oorBoundary n (alignBoundary n c)
  let c2 := if detects c1 then forEach (imagePorts (theImage c1)) laneDefects c1 else c1
  let c3 := excBoundary c2
  tickFresh (consequentActions (portReceives c3) (portFramed c3) c3)

/-- `TICK_PACE` (R423). -/
def paceStep (n : Nat) (c : Chip) : Chip := when (c.int.pace ≠ 0 && n % c.int.pace.toNat = 0) (setInt 3) c

/-- What follows the steps of R60 at boundary n. -/
def boundaryAfter (rep : TickRep) (n : Nat) (c : Chip) : Chip :=
  let c1 := injBoundary n (patrolBoundary n c)
  let c2 := timPublish n (settingsSync (timingBoundary rep n (actBoundary n c1)))
  let c3 := defectsAfter n (pairAfter n c2)
  markDone 5 (markDone 4 (markDone 3 (drainNotices (paceStep n c3))))

/-- Tick n − 1 ends and tick n begins. -/
def tickStep (rep : TickRep) (c : Chip) : Chip :=
  let c0 := finishTick c
  let n := now c0 + 1
  let c1 := { c0 with dev := { c0.dev with tick := n, done := [] } }
  let vs := engVerdicts rep.engines c1
  let c2 := measureTick rep vs n c1
  boundaryAfter rep n (boundarySteps vs c2 n (powerBoundary n (latchAll c2)))

/-- TICK_BOUNDARY (R60). -/
def execTickBoundary (rep : TickRep) (s : State) : Host.Outcome State Fault Refusal :=
  .next (onChip (fun c => when (awake c) (tickStep rep) c) s)

end Sys2Proof.Machine
end

