-- ==== Sys2Proof/Machine/Dispatch.lean ====
section
/-!
DEFINITION. One arm per command: the meaning of each (R30 to R495).
-/
namespace Sys2Proof.Machine
open Sys2Proof

def exec (i : Instr) (s : State) : Host.Outcome State Fault Refusal :=
  match i with
  | .powerOn => Sys2Proof.Machine.execPowerOn s
  | .resetAsserted => Sys2Proof.Machine.execResetAsserted s
  | .supplyFault supplies => Sys2Proof.Machine.execSupplyFault supplies s
  | .resetReleased straps => Sys2Proof.Machine.execResetReleased straps s
  | .bootCompletes rep => Sys2Proof.Machine.execBootCompletes rep s
  | .tickBoundary rep => Sys2Proof.Machine.execTickBoundary rep s
  | .heartbeatTimeout engine => Sys2Proof.Machine.execHeartbeatTimeout engine s
  | .scratchpadUncorrectable engine done => Sys2Proof.Machine.execScratchpadUncorrectable engine done s
  | .engineDeath engine => Sys2Proof.Machine.execEngineDeath engine s
  | .sidingReassignment engine => Sys2Proof.Machine.execSidingReassignment engine s
  | .engineWriteArrival engine tag target addr len portB partialRead => Sys2Proof.Machine.execEngineWriteArrival engine tag target addr len portB partialRead s
  | .engineItemComplete trib funcState pos neg fill => Sys2Proof.Machine.execEngineItemComplete trib funcState pos neg fill s
  | .ringSlip trib offset => Sys2Proof.Machine.execRingSlip trib offset s
  | .oorClear trib => Sys2Proof.Machine.execOorClear trib s
  | .causewayFlitUncorrectable causeway dir island window => Sys2Proof.Machine.execCausewayFlitUncorrectable causeway dir island window s
  | .causewayRetransmission causeway => Sys2Proof.Machine.execCausewayRetransmission causeway s
  | .causewayLaneBad causeway => Sys2Proof.Machine.execCausewayLaneBad causeway s
  | .spareLaneSubstitution causeway => Sys2Proof.Machine.execSpareLaneSubstitution causeway s
  | .causewayRestored causeway => Sys2Proof.Machine.execCausewayRestored causeway s
  | .loadImage tag => Sys2Proof.Machine.execLoadImage tag s
  | .commitImage tag => Sys2Proof.Machine.execCommitImage tag s
  | .amendImage tag => Sys2Proof.Machine.execAmendImage tag s
  | .readImage tag => Sys2Proof.Machine.execReadImage tag s
  | .imageValidated => Sys2Proof.Machine.execImageValidated s
  | .commitDeadline => Sys2Proof.Machine.execCommitDeadline s
  | .shadowScrubError => Sys2Proof.Machine.execShadowScrubError s
  | .contextCopy => Sys2Proof.Machine.execContextCopy s
  | .commit => Sys2Proof.Machine.execCommit s
  | .firstImageDeferredCommit => Sys2Proof.Machine.execFirstImageDeferredCommit s
  | .oldResourceRelease => Sys2Proof.Machine.execOldResourceRelease s
  | .shadowRebuildComplete => Sys2Proof.Machine.execShadowRebuildComplete s
  | .wakeFault enginesOut regionsOut => Sys2Proof.Machine.execWakeFault enginesOut regionsOut s
  | .egressWindowServe island window eccActive eccOther eccData eccSel => Sys2Proof.Machine.execEgressWindowServe island window eccActive eccOther eccData eccSel s
  | .timetableShadowScrub hard => Sys2Proof.Machine.execTimetableShadowScrub hard s
  | .protSelRestore group field => Sys2Proof.Machine.execProtSelRestore group field s
  | .laserFeedLoss input => Sys2Proof.Machine.execLaserFeedLoss input s
  | .feedRestoreCountEnd input => Sys2Proof.Machine.execFeedRestoreCountEnd input s
  | .recalibrationComplete input => Sys2Proof.Machine.execRecalibrationComplete input s
  | .signalDetect lane => Sys2Proof.Machine.execSignalDetect lane s
  | .cdrLock lane skewNs => Sys2Proof.Machine.execCdrLock lane skewNs s
  | .cdrLoss lane => Sys2Proof.Machine.execCdrLoss lane s
  | .signalAbsent lane => Sys2Proof.Machine.execSignalAbsent lane s
  | .laneFrameLock lane fills skewNs => Sys2Proof.Machine.execLaneFrameLock lane fills skewNs s
  | .laneFrameLockLoss lane fills => Sys2Proof.Machine.execLaneFrameLockLoss lane fills s
  | .qicWindowEnd lane counts skewNs => Sys2Proof.Machine.execQicWindowEnd lane counts skewNs s
  | .qicHuntTimeout lane => Sys2Proof.Machine.execQicHuntTimeout lane s
  | .laneEqWrite lane value => Sys2Proof.Machine.execLaneEqWrite lane value s
  | .ogWakeStart group => Sys2Proof.Machine.execOgWakeStart group s
  | .ogCalibrationStart group => Sys2Proof.Machine.execOgCalibrationStart group s
  | .ogReceiversEnable group => Sys2Proof.Machine.execOgReceiversEnable group s
  | .ogQicHuntPhase group => Sys2Proof.Machine.execOgQicHuntPhase group s
  | .groupWakeComplete group => Sys2Proof.Machine.execGroupWakeComplete group s
  | .groupStateChange group => Sys2Proof.Machine.execGroupStateChange group s
  | .framePatternHit port unit pos seen => Sys2Proof.Machine.execFramePatternHit port unit pos seen s
  | .candidateExpectedPosition port unit pos seen => Sys2Proof.Machine.execCandidateExpectedPosition port unit pos seen s
  | .settleWindowEnd port unit pos => Sys2Proof.Machine.execSettleWindowEnd port unit pos s
  | .arbitrationEnd port unit => Sys2Proof.Machine.execArbitrationEnd port unit s
  | .lofDeclared port unit => Sys2Proof.Machine.execLofDeclared port unit s
  | .lofCleared port unit => Sys2Proof.Machine.execLofCleared port unit s
  | .frameReceived rep => Sys2Proof.Machine.execFrameReceived rep s
  | .lossOfMultiframe port unit => Sys2Proof.Machine.execLossOfMultiframe port unit s
  | .ptpMessageReceived port flexe stamp frame => Sys2Proof.Machine.execPtpMessageReceived port flexe stamp frame s
  | .esmcPduReceived port ql pdu => Sys2Proof.Machine.execEsmcPduReceived port ql pdu s
  | .esmcTimeout input => Sys2Proof.Machine.execEsmcTimeout input s
  | .ohItemEnqueue island => Sys2Proof.Machine.execOhItemEnqueue island s
  | .ohTxProduce port prod => Sys2Proof.Machine.execOhTxProduce port prod s
  | .ohTxTake port gap stamp => Sys2Proof.Machine.execOhTxTake port gap stamp s
  | .ohTxPacketTimeout port => Sys2Proof.Machine.execOhTxPacketTimeout port s
  | .ptpTxTimestamp port => Sys2Proof.Machine.execPtpTxTimestamp port s
  | .traceWrite entry offset bytes => Sys2Proof.Machine.execTraceWrite entry offset bytes s
  | .flexeCalendarSwitch group => Sys2Proof.Machine.execFlexeCalendarSwitch group s
  | .failureDeclared kind ref level bit => Sys2Proof.Machine.execFailureDeclared kind ref level bit s
  | .failureCleared kind ref level bit => Sys2Proof.Machine.execFailureCleared kind ref level bit s
  | .corrWindowEnd family port => Sys2Proof.Machine.execCorrWindowEnd family port s
  | .defectCtrlWrite value => Sys2Proof.Machine.execDefectCtrlWrite value s
  | .corrCtrlWrite value => Sys2Proof.Machine.execCorrCtrlWrite value s
  | .noticeEnqueue => Sys2Proof.Machine.execNoticeEnqueue s
  | .pmSecondBoundary => Sys2Proof.Machine.execPmSecondBoundary s
  | .pmOriginArm hi => Sys2Proof.Machine.execPmOriginArm hi s
  | .pmOriginApply => Sys2Proof.Machine.execPmOriginApply s
  | .protectionEvaluation => Sys2Proof.Machine.execProtectionEvaluation s
  | .holdoffExpiry group member => Sys2Proof.Machine.execHoldoffExpiry group member s
  | .wtrExpiry group => Sys2Proof.Machine.execWtrExpiry group s
  | .fopNrTimeout group => Sys2Proof.Machine.execFopNrTimeout group s
  | .selectorChange group => Sys2Proof.Machine.execSelectorChange group s
  | .protCmd tag => Sys2Proof.Machine.execProtCmd tag s
  | .refSelect tag => Sys2Proof.Machine.execRefSelect tag s
  | .timeAdjust tag => Sys2Proof.Machine.execTimeAdjust tag s
  | .tickAlign tag => Sys2Proof.Machine.execTickAlign tag s
  | .ppsAlign tag => Sys2Proof.Machine.execPpsAlign tag s
  | .phaseStep tag => Sys2Proof.Machine.execPhaseStep tag s
  | .hoReset tag => Sys2Proof.Machine.execHoReset tag s
  | .todMessageReceived input msg => Sys2Proof.Machine.execTodMessageReceived input msg s
  | .todTimeout input => Sys2Proof.Machine.execTodTimeout input s
  | .inputNoActivity input => Sys2Proof.Machine.execInputNoActivity input s
  | .inputActivity input => Sys2Proof.Machine.execInputActivity input s
  | .timingSecondBoundary refs => Sys2Proof.Machine.execTimingSecondBoundary refs s
  | .refWtrExpiry dpll => Sys2Proof.Machine.execRefWtrExpiry dpll s
  | .driftEvaluation input => Sys2Proof.Machine.execDriftEvaluation input s
  | .minuteRecord dpll => Sys2Proof.Machine.execMinuteRecord dpll s
  | .modelRefit => Sys2Proof.Machine.execModelRefit s
  | .oscFail => Sys2Proof.Machine.execOscFail s
  | .oscTempRead temp => Sys2Proof.Machine.execOscTempRead temp s
  | .t0SynthUnlock => Sys2Proof.Machine.execT0SynthUnlock s
  | .t0SynthRelock => Sys2Proof.Machine.execT0SynthRelock s
  | .dpllLock dpll => Sys2Proof.Machine.execDpllLock dpll s
  | .dpllLockLoss dpll => Sys2Proof.Machine.execDpllLockLoss dpll s
  | .switchSpanEnd dpll diff => Sys2Proof.Machine.execSwitchSpanEnd dpll diff s
  | .holdoverLost dpll => Sys2Proof.Machine.execHoldoverLost dpll s
  | .t1SwCtrlWrite value => Sys2Proof.Machine.execT1SwCtrlWrite value s
  | .t1SwFfoWrite value => Sys2Proof.Machine.execT1SwFfoWrite value s
  | .t1SwOffsetWrite value => Sys2Proof.Machine.execT1SwOffsetWrite value s
  | .swServoRun => Sys2Proof.Machine.execSwServoRun s
  | .swWatchdogExpiry => Sys2Proof.Machine.execSwWatchdogExpiry s
  | .tickMoveEnd => Sys2Proof.Machine.execTickMoveEnd s
  | .outputAlignEnd target => Sys2Proof.Machine.execOutputAlignEnd target s
  | .todoutMessage => Sys2Proof.Machine.execTodoutMessage s
  | .tsPortWrite port value => Sys2Proof.Machine.execTsPortWrite port value s
  | .helloSend => Sys2Proof.Machine.execHelloSend s
  | .helloReceived hdr body => Sys2Proof.Machine.execHelloReceived hdr body s
  | .statusSend => Sys2Proof.Machine.execStatusSend s
  | .statusReceived hdr body => Sys2Proof.Machine.execStatusReceived hdr body s
  | .leaseRenewSend => Sys2Proof.Machine.execLeaseRenewSend s
  | .leaseRenewReceived hdr => Sys2Proof.Machine.execLeaseRenewReceived hdr s
  | .leaseAckReceived hdr renewSeq => Sys2Proof.Machine.execLeaseAckReceived hdr renewSeq s
  | .releaseReceived hdr code => Sys2Proof.Machine.execReleaseReceived hdr code s
  | .takenReceived hdr mode => Sys2Proof.Machine.execTakenReceived hdr mode s
  | .faultMapReceived hdr engines regions => Sys2Proof.Machine.execFaultMapReceived hdr engines regions s
  | .straitLinkDown laneLost => Sys2Proof.Machine.execStraitLinkDown laneLost s
  | .intlkInPresent => Sys2Proof.Machine.execIntlkInPresent s
  | .intlkInReleased => Sys2Proof.Machine.execIntlkInReleased s
  | .echoInChange present => Sys2Proof.Machine.execEchoInChange present s
  | .strapInterlockTimeout => Sys2Proof.Machine.execStrapInterlockTimeout s
  | .hubHealthLost => Sys2Proof.Machine.execHubHealthLost s
  | .holderLeaseEnd => Sys2Proof.Machine.execHolderLeaseEnd s
  | .standbyTakeover => Sys2Proof.Machine.execStandbyTakeover s
  | .selfDiagnosedRelease => Sys2Proof.Machine.execSelfDiagnosedRelease s
  | .handoverComplete => Sys2Proof.Machine.execHandoverComplete s
  | .generationStart => Sys2Proof.Machine.execGenerationStart s
  | .genDataSend => Sys2Proof.Machine.execGenDataSend s
  | .genDataReceived hdr gen cls region capture items => Sys2Proof.Machine.execGenDataReceived hdr gen cls region capture items s
  | .genEndReceived hdr gen regions => Sys2Proof.Machine.execGenEndReceived hdr gen regions s
  | .journalSend => Sys2Proof.Machine.execJournalSend s
  | .journalReceived hdr tick complete changes writes cmds => Sys2Proof.Machine.execJournalReceived hdr tick complete changes writes cmds s
  | .mirrorStale => Sys2Proof.Machine.execMirrorStale s
  | .txPathProven => Sys2Proof.Machine.execTxPathProven s
  | .drill tag => Sys2Proof.Machine.execDrill tag s
  | .drillReqReceived hdr swapTick returnS => Sys2Proof.Machine.execDrillReqReceived hdr swapTick returnS s
  | .drillAckDeadline ack => Sys2Proof.Machine.execDrillAckDeadline ack s
  | .drillSwap => Sys2Proof.Machine.execDrillSwap s
  | .drillReturn => Sys2Proof.Machine.execDrillReturn s
  | .tabletClaim tag => Sys2Proof.Machine.execTabletClaim tag s
  | .deviceKey tag => Sys2Proof.Machine.execDeviceKey tag s
  | .bundleBegin tag => Sys2Proof.Machine.execBundleBegin tag s
  | .bundleChunk tag => Sys2Proof.Machine.execBundleChunk tag s
  | .sdLoad tag file => Sys2Proof.Machine.execSdLoad tag file s
  | .sdCardInserted file => Sys2Proof.Machine.execSdCardInserted file s
  | .bundleVerify tag => Sys2Proof.Machine.execBundleVerify tag s
  | .bundleActivate tag => Sys2Proof.Machine.execBundleActivate tag s
  | .bundleAbort tag => Sys2Proof.Machine.execBundleAbort tag s
  | .componentHandoverEnd => Sys2Proof.Machine.execComponentHandoverEnd s
  | .mcMigrationStep => Sys2Proof.Machine.execMcMigrationStep s
  | .componentConfirmed => Sys2Proof.Machine.execComponentConfirmed s
  | .healthWindowExpiry => Sys2Proof.Machine.execHealthWindowExpiry s
  | .keySet tag => Sys2Proof.Machine.execKeySet tag s
  | .keyWipe tag file => Sys2Proof.Machine.execKeyWipe tag file s
  | .settingsRead tag => Sys2Proof.Machine.execSettingsRead tag s
  | .settingsWrite tag => Sys2Proof.Machine.execSettingsWrite tag s
  | .pcieReset => Sys2Proof.Machine.execPcieReset s
  | .registerWrite window offset bytes => Sys2Proof.Machine.execRegisterWrite window offset bytes s
  | .w1cClear offset mask sameCycle => Sys2Proof.Machine.execW1cClear offset mask sameCycle s
  | .interruptWrite enable value => Sys2Proof.Machine.execInterruptWrite enable value s
  | .nqPop corrected uncorr => Sys2Proof.Machine.execNqPop corrected uncorr s
  | .oqPop corrected uncorr => Sys2Proof.Machine.execOqPop corrected uncorr s
  | .dropRest => Sys2Proof.Machine.execDropRest s
  | .latchedRead window offset len cycle => Sys2Proof.Machine.execLatchedRead window offset len cycle s
  | .depotUncorrectableRead island word reader ref part => Sys2Proof.Machine.execDepotUncorrectableRead island word reader ref part s
  | .patrolRegionStart island => Sys2Proof.Machine.execPatrolRegionStart island s
  | .patrolWriteBack island matched => Sys2Proof.Machine.execPatrolWriteBack island matched s
  | .scanStart channel value => Sys2Proof.Machine.execScanStart channel value s
  | .scanComplete channel poison => Sys2Proof.Machine.execScanComplete channel poison s
  | .pcntSelWrite counter value sameCycle => Sys2Proof.Machine.execPcntSelWrite counter value sameCycle s
  | .snapArm hi => Sys2Proof.Machine.execSnapArm hi s
  | .counterSnapshot => Sys2Proof.Machine.execCounterSnapshot s
  | .bwWindowEnd => Sys2Proof.Machine.execBwWindowEnd s
  | .sensorRead temps => Sys2Proof.Machine.execSensorRead temps s
  | .thermalTrip sensor temp => Sys2Proof.Machine.execThermalTrip sensor temp s
  | .sbResetWrite value within10ms => Sys2Proof.Machine.execSbResetWrite value within10ms s
  | .sbAlertClear value => Sys2Proof.Machine.execSbAlertClear value s
  | .injectEnWrite value => Sys2Proof.Machine.execInjectEnWrite value s
  | .injectionArm slot => Sys2Proof.Machine.execInjectionArm slot s
  | .injectionStart slot => Sys2Proof.Machine.execInjectionStart slot s
  | .injectionEnd slot => Sys2Proof.Machine.execInjectionEnd slot s
  | .tablePortGo port value => Sys2Proof.Machine.execTablePortGo port value s
  | .tablePortDone port => Sys2Proof.Machine.execTablePortDone port s
  | .coldSensorRead temps => Sys2Proof.Machine.execColdSensorRead temps s
  | .signalBoxRestart => Sys2Proof.Machine.execSignalBoxRestart s
  | .signalBoxResume => Sys2Proof.Machine.execSignalBoxResume s
  | .refinPulse input => Sys2Proof.Machine.execRefinPulse input s

end Sys2Proof.Machine
end

