-- ==== Sys2Proof/WellFormed.lean ====
section
/-!
DEFINITION. Which operands a command may have: the ranges the spec gives its islands, engines, lanes, ports, groups, inputs,
channels and slots. A meaning is defined on every operand; a statement that needs a range takes it from here.
-/
namespace Sys2Proof

/-- Islands, engines, lanes and ports (R3 to R5), causeways (R18), windows of an island (R42). -/
def isIsland (n : Nat) : Bool := n < 64
def isEngine (n : Nat) : Bool := n < 1024
def isLane (n : Nat) : Bool := n < 320
def isPort (n : Nat) : Bool := n < 320
def isCauseway (n : Nat) : Bool := n < 8
def isWindow (n : Nat) : Bool := n < 15000
/-- Regions of a depot (R105). -/
def isRegion (n : Nat) : Bool := n < 1024
/-- A tributary, or the counterpart of a working one on a protection port (R67, R282). -/
def isTrib (n : Nat) : Bool := n < 0x40000
/-- Laser inputs (R119), power groups (R79), protection groups (R77), DPLLs (R290), alignment units of a port (R145). -/
def isLaser (n : Nat) : Bool := n < 32
def isGroup (n : Nat) : Bool := n < 0x61
def isProt (n : Nat) : Bool := n < 65536
def isDpll (n : Nat) : Bool := n < 4
def isUnit (n : Nat) : Bool := n < 64
/-- Timing inputs (R290): 12 to 15 do not exist. -/
def isInput (n : Nat) : Bool := n < 48 && !(12 ≤ n && n < 16)
/-- `TARGET` codes of outputs (R347). -/
def isTarget (n : Nat) : Bool := (0x10 ≤ n && n < 0x14) || n = 0x18 || (0x20 ≤ n && n < 0x2C)
/-- A defect's point kind, reference, level and bit (R224, R225). -/
def isDefect (kind ref level bit : Nat) : Bool := kind < 6 && ref < 131072 && level < 16 && bit < 32
/-- Sensors (R468): 5 junction, 16 optical engine cases. -/
def isSensor (n : Nat) : Bool := n < 21
/-- Device states (R365). -/
def isState (n : Nat) : Bool := n < 9
/-- A Hokua header's fields (R365). -/
def HokuaHdr.wf (h : HokuaHdr) : Bool := isState h.devState && h.seq < 4294967296
/-- A tick report (R49, R141, R462, R299, R311). -/
def TickRep.wf (r : TickRep) : Bool :=
  r.engines.all (fun x => isEngine x.engine && x.finish ≤ 375000) && r.lanes.all (fun x => isLane x.lane) &&
  r.ports.all (fun x => isPort x.port) && r.pm.all (fun x => x.point < 0x40280) && r.refs.all (fun x => isInput x.input) &&
  r.loops.all (fun x => isDpll x.dpll)
/-- What BOOT finds (R33, R444). -/
def BootRep.wf (r : BootRep) : Bool :=
  r.enginesOut.all isEngine && r.regionsOut.all (fun x => isIsland x.1 && isRegion x.2) && r.depotSpare ≤ 4 && r.hubSpare ≤ 4
/-- A frame as the framer read it (R159). -/
def FrameRep.wf (r : FrameRep) : Bool := isPort r.port && isUnit r.unit && r.layer < 6 && r.ref < 131072 && r.level < 8

/-- Whether a command's operands are ones the spec gives it. -/
def Instr.wf : Instr → Bool
  | .powerOn => true
  | .resetAsserted => true
  | .supplyFault supplies => supplies ≠ 0
  | .resetReleased _ => true
  | .bootCompletes rep => rep.wf
  | .tickBoundary rep => rep.wf
  | .heartbeatTimeout e => isEngine e
  | .scratchpadUncorrectable e _ => isEngine e
  | .engineDeath e => isEngine e
  | .sidingReassignment e => isEngine e
  | .engineWriteArrival e _ target _ _ portB _ => isEngine e && target < 4 && portB.kind < 3
  | .engineItemComplete t _ _ _ _ => isTrib t
  | .ringSlip t _ => isTrib t
  | .oorClear t => isTrib t
  | .causewayFlitUncorrectable q dir isl w => isCauseway q && dir < 2 && isIsland isl && isWindow w
  | .causewayRetransmission q => isCauseway q
  | .causewayLaneBad q => isCauseway q
  | .spareLaneSubstitution q => isCauseway q
  | .causewayRestored q => isCauseway q
  | .loadImage _ => true
  | .commitImage _ => true
  | .amendImage _ => true
  | .readImage _ => true
  | .imageValidated => true
  | .commitDeadline => true
  | .shadowScrubError => true
  | .contextCopy => true
  | .commit => true
  | .firstImageDeferredCommit => true
  | .oldResourceRelease => true
  | .shadowRebuildComplete => true
  | .wakeFault es rs => es.all isEngine && rs.all (fun x => isIsland x.1 && isRegion x.2)
  | .egressWindowServe isl w a o d x => isIsland isl && isWindow w && a < 3 && o < 3 && d < 3 && x < 3
  | .timetableShadowScrub hard => hard.all (fun i => i < 960000)
  | .protSelRestore g field => isProt g && field < 2
  | .laserFeedLoss i => isLaser i
  | .feedRestoreCountEnd i => isLaser i
  | .recalibrationComplete i => isLaser i
  | .signalDetect l => isLane l
  | .cdrLock l _ => isLane l
  | .cdrLoss l => isLane l
  | .signalAbsent l => isLane l
  | .laneFrameLock l fills _ => isLane l && fills.all (· ≤ 46)
  | .laneFrameLockLoss l fills => isLane l && fills.all (· ≤ 46)
  | .qicWindowEnd l counts _ => isLane l && counts.all (fun x => x.1 < 1024 && x.2 ≤ 512)
  | .qicHuntTimeout l => isLane l
  | .laneEqWrite l _ => isLane l
  | .ogWakeStart g => 0x40 ≤ g && g < 0x50
  | .ogCalibrationStart g => 0x40 ≤ g && g < 0x50
  | .ogReceiversEnable g => 0x40 ≤ g && g < 0x50
  | .ogQicHuntPhase g => 0x40 ≤ g && g < 0x50
  | .groupWakeComplete g => isGroup g
  | .groupStateChange g => isGroup g
  | .framePatternHit p u _ _ => isPort p && isUnit u
  | .candidateExpectedPosition p u _ _ => isPort p && isUnit u
  | .settleWindowEnd p u _ => isPort p && isUnit u
  | .arbitrationEnd p u => isPort p && isUnit u
  | .lofDeclared p u => isPort p && isUnit u
  | .lofCleared p u => isPort p && isUnit u
  | .frameReceived rep => rep.wf
  | .lossOfMultiframe p u => isPort p && isUnit u
  | .ptpMessageReceived p _ _ _ => isPort p
  | .esmcPduReceived p ql _ => isPort p && ql < 16
  | .esmcTimeout i => isInput i && 16 ≤ i
  | .ohItemEnqueue isl => isIsland isl
  | .ohTxProduce p _ => isPort p
  | .ohTxTake p _ _ => isPort p
  | .ohTxPacketTimeout p => isPort p
  | .ptpTxTimestamp p => isPort p
  | .traceWrite e off l => e < 262464 && off + l.length ≤ 256
  | .flexeCalendarSwitch g => g < 0x100000
  | .failureDeclared k r l b => isDefect k r l b
  | .failureCleared k r l b => isDefect k r l b
  | .corrWindowEnd family p => family < 16 && isPort p
  | .defectCtrlWrite _ => true
  | .corrCtrlWrite _ => true
  | .noticeEnqueue => true
  | .pmSecondBoundary => true
  | .pmOriginArm _ => true
  | .pmOriginApply => true
  | .protectionEvaluation => true
  | .holdoffExpiry g m => isProt g && m < 2
  | .wtrExpiry g => isProt g
  | .fopNrTimeout g => isProt g
  | .selectorChange g => isProt g
  | .protCmd _ => true
  | .refSelect _ => true
  | .timeAdjust _ => true
  | .tickAlign _ => true
  | .ppsAlign _ => true
  | .phaseStep _ => true
  | .hoReset _ => true
  | .todMessageReceived i m => 8 ≤ i && i < 12 && m.length = 16
  | .todTimeout i => 8 ≤ i && i < 12
  | .inputNoActivity i => isInput i
  | .inputActivity i => isInput i
  | .timingSecondBoundary refs => refs.all (fun x => isInput x.input)
  | .refWtrExpiry d => isDpll d
  | .driftEvaluation i => isInput i
  | .minuteRecord d => isDpll d
  | .modelRefit => true
  | .oscFail => true
  | .oscTempRead _ => true
  | .t0SynthUnlock => true
  | .t0SynthRelock => true
  | .dpllLock d => isDpll d
  | .dpllLockLoss d => isDpll d
  | .switchSpanEnd d _ => isDpll d
  | .holdoverLost d => isDpll d
  | .t1SwCtrlWrite _ => true
  | .t1SwFfoWrite _ => true
  | .t1SwOffsetWrite _ => true
  | .swServoRun => true
  | .swWatchdogExpiry => true
  | .tickMoveEnd => true
  | .outputAlignEnd t => isTarget t
  | .todoutMessage => true
  | .tsPortWrite p _ => isPort p
  | .helloSend => true
  | .helloReceived h _ => h.wf
  | .statusSend => true
  | .statusReceived h _ => h.wf
  | .leaseRenewSend => true
  | .leaseRenewReceived h => h.wf
  | .leaseAckReceived h _ => h.wf
  | .releaseReceived h code => h.wf && 1 ≤ code && code ≤ 10
  | .takenReceived h mode => h.wf && mode < 6
  | .faultMapReceived h es rs => h.wf && es.all (fun x => isIsland x.1) && rs.all (fun x => isIsland x.1 && isRegion x.2)
  | .straitLinkDown _ => true
  | .intlkInPresent => true
  | .intlkInReleased => true
  | .echoInChange _ => true
  | .strapInterlockTimeout => true
  | .hubHealthLost => true
  | .holderLeaseEnd => true
  | .standbyTakeover => true
  | .selfDiagnosedRelease => true
  | .handoverComplete => true
  | .generationStart => true
  | .genDataSend => true
  | .genDataReceived h _ cls _ _ _ => h.wf && cls < 8
  | .genEndReceived h _ _ => h.wf
  | .journalSend => true
  | .journalReceived h _ _ _ _ _ => h.wf
  | .mirrorStale => true
  | .txPathProven => true
  | .drill _ => true
  | .drillReqReceived h _ ret => h.wf && ret < 65536
  | .drillAckDeadline _ => true
  | .drillSwap => true
  | .drillReturn => true
  | .tabletClaim _ => true
  | .deviceKey _ => true
  | .bundleBegin _ => true
  | .bundleChunk _ => true
  | .sdLoad _ _ => true
  | .sdCardInserted _ => true
  | .bundleVerify _ => true
  | .bundleActivate _ => true
  | .bundleAbort _ => true
  | .componentHandoverEnd => true
  | .mcMigrationStep => true
  | .componentConfirmed => true
  | .healthWindowExpiry => true
  | .keySet _ => true
  | .keyWipe _ _ => true
  | .settingsRead _ => true
  | .settingsWrite _ => true
  | .pcieReset => true
  | .registerWrite window off l => window < 3 && off < 0x10000000 && 1 ≤ l.length && l.length ≤ 8
  | .w1cClear off _ _ => off < 0x100000 && off % 4 = 0
  | .interruptWrite _ _ => true
  | .nqPop corr _ => corr ≤ 2
  | .oqPop corr _ => corr ≤ 2
  | .dropRest => true
  | .latchedRead window off len cyc => window < 3 && off < 0x10000000 && 1 ≤ len && len ≤ 4096 && cyc < 375000
  | .depotUncorrectableRead i w reader _ p => isIsland i && w < 131072 && reader < 3 && p < 5
  | .patrolRegionStart i => isIsland i
  | .patrolWriteBack i _ => isIsland i
  | .scanStart k _ => k < 4
  | .scanComplete k _ => k < 4
  | .pcntSelWrite k _ _ => k < 256
  | .snapArm _ => true
  | .counterSnapshot => true
  | .bwWindowEnd => true
  | .sensorRead l => l.all (fun x => isSensor x.1)
  | .thermalTrip s _ => isSensor s
  | .sbResetWrite _ _ => true
  | .sbAlertClear _ => true
  | .injectEnWrite _ => true
  | .injectionArm k => k < 16
  | .injectionStart k => k < 16
  | .injectionEnd k => k < 16
  | .tablePortGo k _ => k < 4
  | .tablePortDone k => k < 4
  | .coldSensorRead l => l.all (fun x => isSensor x.1)
  | .signalBoxRestart => true
  | .signalBoxResume => true
  | .refinPulse i => 8 ≤ i && i < 12

end Sys2Proof
end

