-- ==== Sys2Proof/Safety.lean ====
section
/-!
DEFINITION. The terms claims use: which part of the state a command may change, when transmitters may be lit (R31), and that
memory is in its canonical form.
-/
namespace Sys2Proof.Machine
open Sys2Proof

/-- The parts of the state by name, as `Chip` lists them. -/
inductive Part where
  | dev | mb | int | nq | oq | notice | taps | host | img | cm | jct | eng | isl | cwy | ctx | line | power | dfx | pm | prot | tim | upd | pair | dep | free
  deriving DecidableEq, Repr

/-- A part is the same in two states. -/
def samePart (p : Part) (a b : Chip) : Prop :=
  match p with
  | .dev => a.dev = b.dev
  | .mb => a.mb = b.mb
  | .int => a.int = b.int
  | .nq => a.nq = b.nq
  | .oq => a.oq = b.oq
  | .notice => a.notice = b.notice
  | .taps => a.taps = b.taps
  | .host => a.host = b.host
  | .img => a.img = b.img
  | .cm => a.cm = b.cm
  | .jct => a.jct = b.jct
  | .eng => a.eng = b.eng
  | .isl => a.isl = b.isl
  | .cwy => a.cwy = b.cwy
  | .ctx => a.ctx = b.ctx
  | .line => a.line = b.line
  | .power => a.power = b.power
  | .dfx => a.dfx = b.dfx
  | .pm => a.pm = b.pm
  | .prot => a.prot = b.prot
  | .tim => a.tim = b.tim
  | .upd => a.upd = b.upd
  | .pair => a.pair = b.pair
  | .dep => a.dep = b.dep
  | .free => a.free = b.free

/-- Nothing but the listed parts differs: not a byte of Window B memory, not the queue, and no other part. -/
def OnlyChanges (l : List Part) (s t : State) : Prop :=
  t.mem = s.mem ∧ t.pending = s.pending ∧ ∀ p, p ∉ l → samePart p t.c s.c

/-- A command is carried out on a state: it ends in a next state, in which nothing but the listed parts differs and of
which `P` holds. -/
def Does (i : Instr) (s : State) (l : List Part) (P : Chip → Prop) : Prop :=
  ∃ t, exec i s = .next t ∧ OnlyChanges l s t ∧ P t.c

/-- A notice has been raised: its item waits in the notice queue, or the signal box still holds it (R243). -/
def Raised (n : Notice) (c : Chip) : Prop := noticeItem n ∈ c.nq.items ∨ n ∈ c.notice.held

/-- The signal box has room for k more notices before it discards any (R243). -/
def NoticeRoom (k : Nat) (c : Chip) : Prop := c.notice.held.length + k ≤ heldRoom

/-- A source of `INT_STATUS` is set (R422). -/
def IntSet (src : Nat) (c : Chip) : Prop := bitAt c.int.status src = true

/-- The part has entered COLD from `s` for a cause (R33, R472): everything is as after reset but the hub's record of the
entry, what the flash and the craft slot hold, the level of the interlock inputs, and the model's own record of what was
sent; staged memory reads 0. -/
def ColdFrom (cause : Nat) (s t : State) : Prop :=
  t.pending = s.pending ∧ t.mem = [] ∧ (∀ p, p ∉ [Part.power, .upd, .pair, .host, .free] → samePart p t.c chipReset) ∧
  t.c.power.cause = cause ∧ t.c.power.groups = [] ∧ t.c.pair.holder = false ∧ t.c.upd.rec0 = s.c.upd.rec0 ∧
  t.c.upd.rec1 = s.c.upd.rec1 ∧ t.c.upd.slotA = s.c.upd.slotA ∧ t.c.upd.slotB = s.c.upd.slotB ∧ t.c.upd.set0 = s.c.upd.set0 ∧
  t.c.upd.set1 = s.c.upd.set1

/-- A line transmitter may be lit only in RUNNING (R31). -/
def LitOnlyRunning (s : State) : Prop := s.c.dev.lit = true → s.c.dev.state = .running

/-- Window B memory is in its canonical form. -/
def MemOk (s : State) : Prop := Memory.wf s.mem = true

/-- The rows that submit a command to the mailbox, each with its code (R429); a craft card's file is none where the row does not read
the card. -/
def mbRows (tag : Byte) (file : Option (List Byte)) : List (Nat × Instr) :=
  [(0x010, .loadImage tag), (0x011, .commitImage tag), (0x012, .amendImage tag), (0x013, .readImage tag), (0x020, .protCmd tag),
   (0x030, .refSelect tag), (0x031, .timeAdjust tag), (0x032, .tickAlign tag), (0x033, .ppsAlign tag), (0x034, .phaseStep tag),
   (0x035, .hoReset tag), (0x040, .drill tag), (0x041, .tabletClaim tag), (0x050, .deviceKey tag), (0x051, .bundleBegin tag),
   (0x052, .bundleChunk tag), (0x053, .sdLoad tag file), (0x054, .bundleVerify tag), (0x055, .bundleActivate tag),
   (0x056, .bundleAbort tag), (0x057, .keySet tag), (0x058, .settingsRead tag), (0x059, .settingsWrite tag), (0x05A, .keyWipe tag file)]

/-- No injection slot holds back, drops or damages what is sent on the strait link (R480, R486). -/
def StraitClear (c : Chip) : Prop := ∀ e, e ∈ c.dep.inj → e.2.running = false ∧ e.2.late = []

/-- One message went out on the strait link, with its header as of the tick and its body (R365, R366), and after it at most
interrupt messages; which one goes out while a slot acts on the link is left to R486. -/
def Sent (kind : Nat) (body : List Nat) (n : Nat) (a c : Chip) : Prop :=
  StraitClear a → ∃ rest, c.host.out = a.host.out ++ .hokua kind (hokuaHead n a ++ body) :: rest ∧
    ∀ o, o ∈ rest → ∃ v x d, o = Output.msix v x d

/-- What every valid message shows of its sender (R355, R357, R364, R365). -/
def Seen (h : HokuaHdr) (a c : Chip) : Prop :=
  c.pair.lastMsg = a.dev.tick ∧ c.pair.seen = max a.pair.seen h.epoch ∧ c.pair.twin.state = h.devState ∧
  c.pair.twin.epoch = h.epoch ∧ c.pair.twin.imgSeq = h.imgSeq ∧ c.pair.twin.strap = some h.pairId

/-- The part has given up the tablet with a code (R357, R363): it is dark, holds nothing, and is standby where it ran; in any other state
it stays, HANDOVER's installation going on (log 15). -/
def GaveUp (code : Nat) (a c : Chip) : Prop :=
  c.pair.holder = false ∧ c.pair.lastRel = code ∧ c.dev.lit = false ∧ c.dev.tick = a.dev.tick ∧
  c.dev.state = (if a.dev.state = .running then .standby else a.dev.state)

/-- A command submitted now passes steps 1 to 3 of R427 but for its own ranges, with the signal box up to answer: the mailbox is
free, the state admits the command and no reserved parameter bit is set. -/
def Taken (code : Nat) (c : Chip) : Prop :=
  c.dev.state ≠ .cold ∧ c.mb.cur = none ∧ c.dev.sbDown = false ∧
  mbLegal code c.dev.state (if code < 0x050 then false else decide (c.upd.bootFail ≠ 0)) = true ∧ mbParamsOk code c.dev.state c = true

/-- The mailbox shows a judged reply (R425, R426): `BUSY` 0, `DONE` 1, the command's code and tag, `MB_RESULT` 0x00 and the result words. -/
def Replied (code : Nat) (tag : Byte) (r0 r1 : Nat) (c : Chip) : Prop :=
  c.mb.cur = none ∧ c.mb.done = true ∧ c.mb.code = BitVec.ofNat 12 code ∧ c.mb.tag = tag ∧ c.mb.result = 0 ∧
  c.mb.reply0 = BitVec.ofNat 32 r0 ∧ c.mb.reply1 = BitVec.ofNat 32 r1

/-- A command that also writes memory is carried out: nothing but the listed parts and the bytes from `a` on differs, and those read
as given. -/
def DoesWrite (i : Instr) (s : State) (l : List Part) (a : Nat) (bytes : List Byte) (P : Chip → Prop) : Prop :=
  ∃ t, exec i s = .next t ∧ t.pending = s.pending ∧ (∀ p, p ∉ l → samePart p t.c s.c) ∧ readBytes 0 t.mem a bytes.length = bytes ∧
    (∀ j, j < a ∨ a + bytes.length ≤ j → tget 0 t.mem j = tget 0 s.mem j) ∧ P t.c

/-- A sound section frame of a unit that shows nothing but its frame and `m`, its multiframe indicator. -/
def plainFrame (p u m : Nat) : FrameRep :=
  { port := p, unit := u, layer := 2, ref := p, level := 0, slice := false, fas := true, mf := m, crcOk := true, ids := none, k2 := none, bdi := none,
    iae := none, bei := none, stat := none, label := none, msi := none, csf := none, ptr := none, cal := none, fault := none, hiBer := none,
    trace := none, aps := none, s1 := none, chans := [], calInUse := none, ftfl := none }

/-- What every reachable state keeps: Window B memory is canonical; a lit transmitter means RUNNING (R31); a part that runs holds the
tablet, and RUNNING, STANDBY and HANDOVER have a committed image (R30); a first image waits in VALIDATING, and once
placed in STARTING, and any other change waits only where an image is committed (R33, R34). -/
structure StateInv (s : State) : Prop where
  mem : MemOk s
  lit : LitOnlyRunning s
  held : s.c.dev.state = .running → s.c.pair.holder = true
  image : s.c.dev.state = .running ∨ s.c.dev.state = .standby ∨ s.c.dev.state = .handover → s.c.img.image.isSome = true
  first : ∀ k, s.c.cm.change = some k → k.kind = 1 → s.c.dev.state = if k.place.isSome then .starting else .validating
  later : ∀ k, s.c.cm.change = some k → k.kind ≠ 1 →
    s.c.dev.state = .running ∨ s.c.dev.state = .standby ∨ s.c.dev.state = .handover

/-- The moves of the table of R33 between two states, but for those into COLD, which are from any state. -/
def tableMoves : List (DevState × DevState) :=
  [(.cold, .boot), (.boot, .awaitImage), (.awaitImage, .validating), (.held, .validating), (.validating, .starting), (.validating, .held),
   (.starting, .running), (.starting, .standby), (.starting, .held), (.standby, .handover), (.handover, .running), (.running, .standby)]

/-- The commands that carry a register or memory access whose misuse is unpredictable (R12, R418); no other command stops. -/
def mayStop : Instr → Bool
  | .laneEqWrite _ _ | .traceWrite _ _ _ | .ohTxProduce _ _ | .ohTxTake _ _ _ | .scanStart _ _ | .pcntSelWrite _ _ _ | .injectEnWrite _
  | .injectionArm _ | .defectCtrlWrite _ | .corrCtrlWrite _ | .t1SwCtrlWrite _ | .registerWrite _ _ _ | .interruptWrite _ _
  | .latchedRead _ _ _ _ | .tablePortGo _ _ | .tablePortDone _ => true
  | _ => false

/-- The registers of Window A outside its arrays with their reset values (R493), but for those BOOT writes before the host can read. -/
def resetWords : List (Nat × Word) :=
  [(0x0000, 0x23040100), (0x0004, 0), (0x0020, 0), (0x0024, 0), (0x0028, 0), (0x002C, 0), (0x0030, 0), (0x0034, 0), (0x0040, 0),
   (0x0044, 0xFFFFFFFF), (0x0048, 0), (0x0050, 0), (0x0054, 0), (0x1000, 0), (0x1004, 0), (0x1010, 0), (0x1014, 0), (0x1018, 0),
   (0x101C, 0), (0x1020, 0), (0x1024, 0), (0x1028, 0), (0x102C, 0), (0x1030, 0), (0x1034, 0), (0x2000, 0), (0x2004, 0), (0x2008, 0),
   (0x200C, 0), (0x2010, 0), (0x2C00, 0), (0x2C04, 0), (0x3000, 0), (0x3004, 0), (0x3008, 0), (0x300C, 0), (0x3010, 0), (0x3020, 0),
   (0x3024, 0), (0x3028, 0), (0x302C, 0), (0x3030, 0), (0x3040, 0), (0x3044, 0)] ++
  [(0x3080, 0x196471E8), (0x3084, 0x03200801), (0x3088, 0), (0x308C, 0), (0x3090, 0), (0x3094, 0), (0x3098, 0), (0x309C, 0),
   (0x30A0, 0), (0x30A4, 0xFF000001), (0x4000, 0x80A3C000), (0x4004, 0), (0x4008, 0), (0x4010, 0x1FF8), (0x4020, 0x1FFE0000),
   (0x4024, 0x1FFE0000), (0x4028, 0x1FFE0000), (0x402C, 0x1FFE0000), (0x4060, 0x3E80), (0x4064, 0), (0x4068, 0), (0x4070, 0),
   (0x4074, 0), (0x4078, 0), (0x4080, 0), (0x4084, 0), (0x4088, 0), (0x408C, 0), (0x4090, 0), (0x4094, 0), (0x4098, 0)] ++
  [(0x6000, 0x00200000), (0x6004, 0), (0x6008, 0), (0x600C, 0), (0x6010, 0), (0x6014, 0), (0x7000, 0x5F460000), (0x7004, 0),
   (0x700C, 0x10000000), (0x8004, 0), (0x8008, 0), (0xB800, 0), (0xB804, 0), (0xB808, 0), (0xB80C, 0x1F40), (0xB810, 0), (0xB814, 0),
   (0xB818, 0), (0xB81C, 0), (0xC000, 0), (0xD000, 0x80000008), (0xD004, 0)]

end Sys2Proof.Machine
end

