-- ==== Sys2Proof/Certificates/Slice0/Obligations.lean ====
section
/-!
DEFINITION. The statements for the provers: the block and its invariants; power, sensors and performance; engines, junction and
causeways; depots, counters and scans; lanes; frame alignment; overhead and traces; timing; defects and protection; the host
interface; pairing; firmware update; the service image; fault injection. Each says in its docstring which rules of the spec it
formalises; the terms it uses stand in Safety.lean.
-/
open Sys2Proof Sys2Proof.Machine

/-- R12, R418 (with the block's queue, the model's own frame, assumption log 2): a step takes the command at the front of the queue
and carries it out on the state with the rest of the queue; on an empty queue the block idles; a command itself leaves the queue
as it is. Every command ends in a next state on every state, but for the sixteen that carry a register or memory access, which
may stop as unpredictable where that access is misused; no command is refused. -/
def Obligations.StepTakesFront : Prop :=
  (∀ s i, step { s with pending := i :: s.pending } = exec i s) ∧
  (∀ s, s.pending = [] → step s = .next s) ∧
  (∀ i s t, exec i s = .next t → t.pending = s.pending) ∧
  (∀ i s, mayStop i = false → ∃ t, exec i s = .next t) ∧
  (∀ i s, (∃ t, exec i s = .next t) ∨ ∃ w a, exec i s = .fault (.unpredictableAccess w a))

/-- R31, R33, R493: the machine right after reset is in COLD, dark, at tick 0, with nothing in its queue or its staged memory, and its
registers read their reset values (the array rows by their element; BOOT later writes `DEV_STATUS`, `UPD_STATUS`, `STRAPS`
and `RUN_VER0` to `RUN_VER3`). The invariant every step keeps holds there. -/
def Obligations.ResetState : Prop :=
  State.reset.pending = [] ∧ State.reset.mem = [] ∧ State.reset.c.dev.state = .cold ∧ State.reset.c.dev.lit = false ∧
  State.reset.c.dev.tick = 0 ∧ StateInv State.reset ∧
  (∀ e, e ∈ resetWords → readA State.reset.c 0 e.1 = e.2) ∧
  (∀ k, k < 4 → ∀ j, j < 6 → readA State.reset.c 0 (0x9000 + 32 * k + 4 * j) = if j = 2 then 1 else 0) ∧
  (∀ n, n < 256 → readA State.reset.c 0 (0xA000 + 16 * n) = 0 ∧ readA State.reset.c 0 (0xA000 + 16 * n + 4) = 0 ∧
    readA State.reset.c 0 (0xA000 + 16 * n + 8) = 0x0FF80000 ∧ readA State.reset.c 0 (0xB000 + 8 * n) = 0 ∧
    readA State.reset.c 0 (0xB000 + 8 * n + 4) = 0) ∧
  (∀ k, k < 16 → ∀ j, j < 8 → readA State.reset.c 0 (0xC100 + 32 * k + 4 * j) = if j = 2 then 1 else 0) ∧
  (∀ p, p < 320 → readA State.reset.c 0 (0x10000 + 256 * p) = 0 ∧ readA State.reset.c 0 (0x10000 + 256 * p + 4) = 0x80000000 ∧
    readA State.reset.c 0 (0x10000 + 256 * p + 0x10) = 0 ∧ readA State.reset.c 0 (0x10000 + 256 * p + 0x14) = 0) ∧
  (∀ k, k < 4 → readA State.reset.c 0 (0x40000 + 256 * k) = 0 ∧ readA State.reset.c 0 (0x40004 + 256 * k) = 0xFFFF ∧
    ∀ j, j < 16 → readA State.reset.c 0 (0x40040 + 256 * k + 4 * j) = 0)

/-- Every step keeps the invariant: memory stays canonical; no transmitter is lit outside RUNNING (R31); a part that runs holds
the tablet; in RUNNING, STANDBY and HANDOVER an image is committed (R30); a first image waits in VALIDATING, and once placed
in STARTING, and any other change waits only where an image is committed (R33, R34). It is kept from every state that has it,
whether or not a run reaches that state. -/
def Obligations.StepKeepsInvariant : Prop := ∀ s t, StateInv s → step s = .next t → StateInv t

/-- R33: whatever the command, the device state moves only as the table of R33 allows, and into COLD from any state. At a hand-over's
completion or at one tick boundary two moves of the table may follow each other (assumption log 15): a part that lost the tablet
while it took over runs and stands by again, and a part that yields the tablet may take it again. -/
def Obligations.StatesFollowTheTable : Prop := ∀ s t i, StateInv s → exec i s = .next t →
  t.c.dev.state = s.c.dev.state ∨ t.c.dev.state = .cold ∨ (s.c.dev.state, t.c.dev.state) ∈ tableMoves ∨
  ((i = .handoverComplete ∨ ∃ rep, i = .tickBoundary rep) ∧ s.c.dev.state = .handover ∧ t.c.dev.state = .standby) ∨
  ((∃ rep, i = .tickBoundary rep) ∧ s.c.dev.state = .running ∧ t.c.dev.state = .handover)

/-- R32, R39: a tick boundary advances the tick count by one outside COLD, and nothing in COLD, where there is no tick; no other
command moves the count, but that one which takes the part into COLD or starts BOOT makes it 0. -/
def Obligations.TimeAdvances : Prop :=
  (∀ s rep, s.c.dev.state ≠ .cold → ∃ t, exec (.tickBoundary rep) s = .next t ∧ t.c.dev.tick = s.c.dev.tick + 1 ∧
    t.pending = s.pending ∧ t.mem = s.mem ∧ samePart .oq t.c s.c ∧ samePart .taps t.c s.c) ∧
  (∀ s rep, s.c.dev.state = .cold → exec (.tickBoundary rep) s = .next s) ∧
  (∀ s t i, exec i s = .next t → (∃ rep, i = .tickBoundary rep) ∨ t.c.dev.tick = s.c.dev.tick ∨
    (t.c.dev.tick = 0 ∧ (t.c.dev.state = .cold ∨ t.c.dev.state = .boot)))

/-- R472 (with R33 and R470): what takes the part into COLD, and the cause the hub keeps of it. Power on is cause 1, RESET_N
cause 2, a trip (115 degrees at a junction sensor, 85 at an engine sensor) cause 3 with its sensor and temperature, a supply
cause 4 with the supplies, and the sideband's second 0x5A cause 5. -/
def Obligations.ColdEntries : Prop :=
  (∀ s, ∃ t, exec .powerOn s = .next t ∧ ColdFrom 1 s t ∧ t.c.power.alert = 0) ∧
  (∀ s, s.c.dev.state ≠ .cold → ∃ t, exec .resetAsserted s = .next t ∧ ColdFrom 2 s t ∧ t.c.power.resetLow = true ∧
    t.c.power.coldTick = s.c.dev.tick) ∧
  (∀ s sup, s.c.power.resetLow = false → sup ≠ 0 → ∃ t, exec (.supplyFault sup) s = .next t ∧ ColdFrom 4 s t ∧
    t.c.power.supplies = sup ∧ t.c.power.coldTick = s.c.dev.tick) ∧
  (∀ s sensor temp, s.c.dev.state ≠ .cold → sensor < 21 → (if sensor < 5 then (115 : Int) else 85) ≤ temp →
    ∃ t, exec (.thermalTrip sensor temp) s = .next t ∧ ColdFrom 3 s t ∧ t.c.power.tripSensor = sensor ∧
      t.c.power.tripTemp = temp ∧ bitAt t.c.power.alert 2 = true ∧ t.c.power.coldTick = s.c.dev.tick) ∧
  (∀ s, s.c.dev.state ≠ .cold → s.c.power.armed = true → ∃ t, exec (.sbResetWrite 0x5A true) s = .next t ∧ ColdFrom 5 s t) ∧
  (∀ s b, s.c.power.armed = false → Does (.sbResetWrite 0x5A b) s [.power] (fun c => c.power = { s.c.power with armed := true }))

/-- R33, R473, R477, R36, R37: RESET_N high with good supplies starts BOOT: straps sampled, `RESET_CAUSE` holds the cause, the tick
count starts at 0 and T0 in FREE_RUN; after a trip BOOT starts once every sensor stands below its warning level, and a reading at or
above it is kept and leaves the part in COLD (R470); BOOT that finds verified firmware and passes self-test ends in AWAIT_IMAGE with the engines out on the fault map. While the signal box
restarts it is down and nothing else changes; when it resumes, a reply it held is delivered. -/
def Obligations.BootAndSignalBox : Prop :=
  (∀ s straps, s.c.dev.state = .cold → s.c.power.suppliesOk = true → s.c.power.resetLow = true → bitAt s.c.power.alert 2 = false →
    Does (.resetReleased straps) s [.dev, .power, .tim] (fun c => c.dev.state = .boot ∧ c.dev.tick = 0 ∧ c.dev.lit = false ∧
      c.power.straps = straps ∧ bits c.power.causeReg 28 4 = s.c.power.cause % 16 ∧ c.power.groups = s.c.power.groups ∧
      (c.tim.dps.lookup 0).map (·.state) = some 0)) ∧
  (∀ s temps, s.c.dev.state = .cold → s.c.power.hold = true → coolEnough s.c = true →
    (∀ e, e ∈ temps → e.1 < 21 ∧ e.2 < warnLevel s.c e.1) →
    Does (.coldSensorRead temps) s [.dev, .power, .tim] (fun c => c.dev.state = .boot ∧ c.dev.tick = 0 ∧ c.power.hold = false)) ∧
  (∀ s k t, s.c.dev.state = .cold → s.c.power.hold = true → k < 21 → warnLevel s.c k ≤ t →
    Does (.coldSensorRead [(k, t)]) s [.power] (fun c => c.dev.state = .cold ∧ c.power.hold = true ∧ tempOf c.power k = t)) ∧
  (∀ s rep r, s.c.dev.state = .boot → s.c.upd.bootFail = 0 → bitAt s.c.power.straps 1 = false → recInForce s.c.upd = some r →
    (slotOf s.c.upd r.slot).verified = true → r.trial = false → rep.selfTestOk = true → rep.legacy = false → rep.sdCard = false →
    Does (.bootCompletes rep) s [.dev, .int, .nq, .notice, .host, .cm, .eng, .isl, .tim, .upd, .dep] (fun c =>
      c.dev.state = .awaitImage ∧ IntSet 4 c ∧ c.upd.run = (slotOf s.c.upd r.slot).manifest ∧
      ∀ e, e ∈ rep.enginesOut → e < 1024 → (getEng c e).role = 4)) ∧
  (∀ s, s.c.dev.state ≠ .cold → s.c.dev.state ≠ .boot →
    Does .signalBoxRestart s [.dev] (fun c => c.dev = { s.c.dev with sbDown := true })) ∧
  (∀ s, s.c.dev.sbDown = true → s.c.upd.act = none → s.c.cm.replaceDue = false →
    Does .signalBoxResume s [.dev, .mb, .int, .nq, .notice, .host, .dep] (fun c => c.dev = { s.c.dev with sbDown := false } ∧
      (∀ k r, s.c.mb.cur = some k → s.c.mb.held = some r → c.mb.cur = none ∧ c.mb.done = true ∧ c.mb.tag = k.tag ∧
        c.mb.result = BitVec.ofNat 8 r.result ∧ c.mb.reply0 = r.r0 ∧ c.mb.reply1 = r.r1 ∧ IntSet 0 c)))

/-- R468, R471, R475: a reading is kept; a sensor's warning rises at its level and falls 3 degrees below it, and a rising one
sets its sideband bit, its interrupt and raises its notice. Writing 1 to an alert bit 0 or 1 clears it. -/
def Obligations.SensorsAndAlerts : Prop :=
  (∀ s k t, s.c.dev.state ≠ .cold → k < 21 → NoticeRoom 2 s.c →
    Does (.sensorRead [(k, t)]) s [.int, .nq, .notice, .host, .power, .dep] (fun c =>
      tempOf c.power k = t ∧
      (c.power.warn.contains k = if s.c.power.warn.contains k then decide (warnLevel s.c k - 3 < t) else decide (warnLevel s.c k ≤ t)) ∧
      (s.c.power.warn.contains k = false → warnLevel s.c k ≤ t → bitAt c.power.alert 0 = true ∧ IntSet 7 c ∧
        Raised (event 0x18 6 12 0 k (ofSigned 18 t) s.c.dev.tick false) c))) ∧
  (∀ s v, Does (.sbAlertClear v) s [.power] (fun c =>
    c.power = { s.c.power with alert := s.c.power.alert &&& ~~~(BitVec.ofNat 3 (v.toNat % 4)) }))

/-- R139, R527, R466: the wake of a group. It starts with its state kept and its count of wakes advanced; supplies, calibration
(160 ticks), adaptation (1,760) and the QIC hunt (5,760) follow; it ends in the state the image or the pending change gives
the group; a group that needs a deeper state enters it. -/
def Obligations.GroupsWakeAndSleep : Prop :=
  (∀ s g, s.c.dev.state ≠ .cold → 0x40 ≤ g → g < 0x50 → wakeWanted s.c g = true → (getGroup s.c g).waking = none →
    Does (.ogWakeStart g) s [.line, .power] (fun c => (getGroup c g).waking = some s.c.dev.tick ∧ (getGroup c g).phase = 1 ∧
      (getGroup c g).state = (getGroup s.c g).state ∧
      (getGroup c g).wakes.toNat = min 65535 ((getGroup s.c g).wakes.toNat + 1))) ∧
  (∀ s g w, s.c.dev.state ≠ .cold → 0x40 ≤ g → g < 0x50 → (getGroup s.c g).phase = 1 → (getGroup s.c g).waking = some w →
    w + 160 ≤ s.c.dev.tick → s.c.dev.tick < w + 1760 →
    Does (.ogCalibrationStart g) s [.power] (fun c => (getGroup c g) = { getGroup s.c g with phase := 2 })) ∧
  (∀ s g w, s.c.dev.state ≠ .cold → 0x40 ≤ g → g < 0x50 → (getGroup s.c g).phase = 2 → (getGroup s.c g).waking = some w →
    w + 1760 ≤ s.c.dev.tick → s.c.dev.tick < w + 5760 →
    Does (.ogReceiversEnable g) s [.line, .power] (fun c => (getGroup c g) = { getGroup s.c g with phase := 3 } ∧
      ∀ l, l ∈ groupLanes g → (getLane c l).rx ≠ .off)) ∧
  (∀ s g w, s.c.dev.state ≠ .cold → 0x40 ≤ g → g < 0x50 → (getGroup s.c g).phase = 3 → (getGroup s.c g).waking = some w →
    w + 5760 ≤ s.c.dev.tick →
    Does (.ogQicHuntPhase g) s [.power] (fun c => (getGroup c g) = { getGroup s.c g with phase := 4 })) ∧
  (∀ s g, s.c.dev.state ≠ .cold → wakeDue s.c g s.c.dev.tick = true →
    Does (.groupWakeComplete g) s [.dev, .mb, .int, .nq, .notice, .host, .img, .cm, .jct, .eng, .power, .dep] (fun c => (getGroup c g).waking = none ∧
      (getGroup c g).state = wakeTarget (getGroup s.c g) (wantState0 s.c g))) ∧
  (∀ s g, s.c.dev.state ≠ .cold → g < 0x60 → (getGroup s.c g).waking = none → (getGroup s.c g).state < wantState0 s.c g →
    Does (.groupStateChange g) s [.nq, .notice, .line, .power, .dfx, .dep] (fun c => (getGroup c g).state = wantState0 s.c g))

/-- R249 to R252: a second boundary counts the second: where no quarter ends, the near end of a point of an ODU or VC that is available and
stays so adds its errored and severely errored seconds and its background block errors to the bin of the current quarter; what the current second gathered starts again at nothing, `PM_CTRL`
is in force, and quarter and day advance by 1 where one ends. A write of `PM_ORIGIN_HI` arms the origin formed with `PM_ORIGIN_LO`;
where an armed origin takes effect it is the origin, no origin is armed, quarter and day advance by 1 and every second starts at nothing. -/
def Obligations.PmSecondsAndOrigin : Prop :=
  (∀ s, s.c.dev.state ≠ .cold → s.c.pm.armed = none → ((s.c.dev.tick : Int) - s.c.pm.origin) % 8000 = 0 → 1 ∉ s.c.dev.done →
    Does .pmSecondBoundary s [.dev, .nq, .notice, .dfx, .pm, .dep] (fun c =>
      (∀ k r, c.pm.recs.lookup k = some r → r.acc = accDflt) ∧ c.pm.ctrl.eff = s.c.pm.ctrl.wr ∧ c.dev.state = s.c.dev.state ∧
      c.pm.quarter = s.c.pm.quarter + (if ((s.c.dev.tick : Int) - s.c.pm.origin) % 7200000 = 0 then 1 else 0) ∧
      c.pm.day = s.c.pm.day + (if ((s.c.dev.tick : Int) - s.c.pm.origin) % 691200000 = 0 then 1 else 0) ∧
      (∀ k r, k < 0x40000 → s.c.pm.recs.lookup k = some r → r.ne.avail = true → ((nearSecond s.c (sesShare s.c k) r.acc).ses = false ∨ r.ne.run ≠ 9) →
        ((s.c.dev.tick : Int) - s.c.pm.origin) % 7200000 ≠ 0 → ∃ x, c.pm.recs.lookup k = some x ∧ x.ne.avail = true ∧
        tget binDflt x.ne.b15 (s.c.pm.quarter % 5) = addCounted (nearSecond s.c (sesShare s.c k) r.acc) (tget binDflt r.ne.b15 (s.c.pm.quarter % 5))))) ∧
  (∀ s hi, s.c.dev.state ≠ .cold → Does (.pmOriginArm hi) s [.pm, .pair] (fun c =>
    c.pm = { s.c.pm with originHi := hi, armed := some (hi.toNat * 4294967296 + s.c.pm.originLo.toNat) } ∧
    c.pair.holder = s.c.pair.holder)) ∧
  (∀ s o, s.c.pm.armed = some o → Does .pmOriginApply s [.dev, .nq, .notice, .dfx, .pm, .dep] (fun c =>
    c.pm.origin = o ∧ c.pm.armed = none ∧ c.pm.quarter = s.c.pm.quarter + 1 ∧ c.pm.day = s.c.pm.day + 1 ∧
    (∀ k r, c.pm.recs.lookup k = some r → r.acc = accDflt)))

/-- R106, R443: an engine without its heartbeat, or whose scratchpad word cannot be corrected, is marked with the cause (2 or 1,
the lower code winning), halted in the second case, and the tributaries whose items it abandons emit their replacement signal;
no other engine changes. -/
def Obligations.EngineTroubles : Prop :=
  (∀ s e, s.c.dev.state ≠ .cold → e < 1024 → (getEng s.c e).role ≤ 2 →
    Does (.heartbeatTimeout e) s [.eng, .ctx] (fun c =>
      getEng c e = { getEng s.c e with seen := if (getEng s.c e).seen = 0 then 2 else min (getEng s.c e).seen 2 } ∧
      (∀ j, j ≠ e → getEng c j = getEng s.c j) ∧
      (∀ t, t ∈ itemsTribs s.c.img.place (engItems s.c e) → (s.c.img.place.tribs.lookup t).isSome = true →
        (getCtx c t).unf = true))) ∧
  (∀ s e done, s.c.dev.state ≠ .cold → e < 1024 → (getEng s.c e).role ≤ 2 → (getEng s.c e).halted = false →
    Does (.scratchpadUncorrectable e done) s [.eng, .ctx] (fun c =>
      getEng c e = { getEng s.c e with halted := true, seen := if (getEng s.c e).seen = 0 then 1 else min (getEng s.c e).seen 1 } ∧
      (∀ j, j ≠ e → getEng c j = getEng s.c j) ∧
      (∀ t, t ∈ itemsTribs s.c.img.place ((engItems s.c e).drop done) → (s.c.img.place.tribs.lookup t).isSome = true →
        (getCtx c t).unf = true)))

/-- R107, R110: the boundary at which an engine is declared dead zeroes its tag, takes it into the fault map and raises its
notice; its list goes to the lowest free siding under the next epoch and starts one boundary later, where SIDING_REASSIGNMENT
lets it run. -/
def Obligations.EngineDeathAndSiding : Prop :=
  (∀ s e l f rest, s.c.dev.state ≠ .cold → e < 1024 → (getEng s.c e).role ≤ 2 → (getEng s.c e).seen ≠ 0 → NoticeRoom 1 s.c →
    (getIsl s.c (e / 16)).bind.filter (fun b => b.2 = e || (getEng s.c b.2).role = 3) = [(l, e)] →
    listItems s.c (e / 16) l ≠ [] → enginesIn s.c (e / 16) 1 = f :: rest → f ≠ e →
    Does (.engineDeath e) s [.nq, .notice, .eng, .isl, .ctx, .dep] (fun c =>
      (getEng c e).tag = 0 ∧ (getEng c e).role = 3 ∧ (getEng c e).cause = (getEng s.c e).seen ∧
      (getIsl c (e / 16)).engOut = (getIsl s.c (e / 16)).engOut ||| BitVec.ofNat 16 (1 <<< (e % 16)) ∧
      (getIsl c (e / 16)).bind.lookup l = some f ∧ (getEng c f).role = 0 ∧ (getEng c f).list = l ∧
      (getEng c f).tag = nextEpoch (tget 0 (getIsl s.c (e / 16)).epochs l) ∧
      tget 0 (getIsl c (e / 16)).epochs l = nextEpoch (tget 0 (getIsl s.c (e / 16)).epochs l) ∧
      (getIsl c (e / 16)).starts.lookup l = some (s.c.dev.tick + 1) ∧
      Raised (event 0x11 6 12 (getEng s.c e).seen e
        (if (getEng s.c e).role = 0 then (listTribs s.c (e / 16) (getEng s.c e).list).length else 0) s.c.dev.tick false) c)) ∧
  (∀ s e, s.c.dev.state ≠ .cold → e < 1024 → Does (.sidingReassignment e) s [.isl] (fun c =>
    getIsl c (e / 16) = { getIsl s.c (e / 16) with starts := (getIsl c (e / 16)).starts } ∧
    ∀ p, p ∈ (getIsl c (e / 16)).starts ↔
      p ∈ (getIsl s.c (e / 16)).starts ∧ (s.c.dev.tick < p.2 ∨ (getIsl s.c (e / 16)).bind.lookup p.1 ≠ some e)))

/-- R175, R176, R191, R528: a tributary whose last item completes has its function state, adjustments and fill taken, once in a
tick, and its entry of `TRIB_CTX` written. A ring within the offset its mapping absorbs does not slip; one beyond it is counted once in
the tick, sent to the middle of its ring and out of range, with its defect while its ports are in frame; 8,000 whole ticks without
a slip clear that. -/
def Obligations.ContextsFollowTheTick : Prop :=
  (∀ s t p func pos neg fill, onImage s.c = true → s.c.img.place.tribs.lookup t = some p → (getCtx s.c t).unf = false →
    (getCtx s.c t).upd = false → funcAdjusts (tribFunc (tribOf s.c t)) = true → tribFunc (tribOf s.c t) ≠ 0x006 →
    Does (.engineItemComplete t func pos neg fill) s [.ctx, .pm, .dep] (fun c =>
      getCtx c t = { getCtx s.c t with func := BitVec.ofNat 96 (func.toNat &&& funcMask (tribFunc (tribOf s.c t))), pos := (getCtx s.c t).pos + BitVec.ofNat 32 pos, neg := (getCtx s.c t).neg + BitVec.ofNat 32 neg, fill := BitVec.ofNat 16 fill, fills := (fill :: (getCtx s.c t).fills).take 64, fresh := false, upd := true, seq := (getCtx s.c t).seq + 1 } ∧
      (∀ u, u ≠ t → getCtx c u = getCtx s.c u) ∧ (c.dep.ctxPub.lookup (ctxIndex p)).isSome = true)) ∧
  (∀ s t off, beyondRange (tribFunc (tribOf s.c t)) (tribType (tribOf s.c t)) off = false → exec (.ringSlip t off) s = .next s) ∧
  (∀ s t p off, onImage s.c = true → s.c.img.place.tribs.lookup t = some p → beyondRange (tribFunc (tribOf s.c t)) (tribType (tribOf s.c t)) off = true →
    ((getCtx s.c t).oor = false ∨ (getCtx s.c t).slip ≠ s.c.dev.tick) →
    Does (.ringSlip t off) s [.ctx, .dfx] (fun c =>
      getCtx c t = { getCtx s.c t with range := BitVec.ofNat 32 (satInc 0xFFFFFFFF (getCtx s.c t).range.toNat), oor := true, slip := s.c.dev.tick, repl := true, fill := BitVec.ofNat 16 (ringHalf p.n) } ∧
      ((chainPorts (theImage s.c) (t % 0x20000)).all (portReceives s.c) = true → (dget c (rangeKey (t % 0x20000))).present = true))) ∧
  (∀ s t, t < 0x20000 → (getCtx s.c t).oor = true → (getCtx s.c t).slip + 8001 ≤ s.c.dev.tick → (s.c.img.place.tribs.lookup t).isSome = true →
    (getCtx s.c (t + 0x20000)).oor = false → Does (.oorClear t) s [.ctx, .dfx] (fun c =>
      getCtx c t = { getCtx s.c t with oor := false } ∧ (dget c (rangeKey t)).present = false))

/-- R200: in every window the centre stage delivers the bytes of the source berth its entry names, those of the tick before where the
entry wraps, 25 cycles a berth and 120 cycles later, changing no statistics. An entry that reads in error in both banks delivers
nothing and counts `JCT_LOST` (R216); a berth buffer that cannot be corrected delivers zeros and counts (R219). -/
def Obligations.EgressWindowServed : Prop :=
  (∀ s isl w eccOther si sb t, onImage s.c = true → isl < 64 → w < 15000 → s.c.cm.lastC ≠ some s.c.dev.tick →
    hardAt s.c true (15000 * isl + w) = false → entValid (entAt s.c.img.place isl w) = true →
    entSel (entAt s.c.img.place isl w) = 0x1FFFF → si = entIsl (entAt s.c.img.place isl w) → sb = entBerth (entAt s.c.img.place isl w) →
    t = (if w ≤ sb then s.c.dev.tick - 1 else s.c.dev.tick) → cwyDown s.c isl = false → cwyDown s.c si = false →
    (flitGone s.c si sb t isl w = false → Does (.egressWindowServe isl w 0 eccOther 0 0) s [.nq, .notice, .host, .jct, .ctx, .dep] (fun c =>
      c.host.out = s.c.host.out ++ [Output.berth isl w (sourceBytes s.c s.c.img.place (si, sb) t) (25 * berthDist sb w + 120)] ∧
      c.jct.stat = s.c.jct.stat ∧ c.ctx = s.c.ctx)) ∧
    Does (.egressWindowServe isl w 0 eccOther 2 0) s [.nq, .notice, .host, .jct, .ctx, .dep] (fun c =>
      c.host.out = s.c.host.out ++ [Output.berth isl w .zeros (25 * berthDist sb w + 120)] ∧
      (tget jctDflt c.jct.stat isl).bufUncorr = (tget jctDflt s.c.jct.stat isl).bufUncorr + 1)) ∧
  (∀ s isl w eccData, onImage s.c = true → isl < 64 → w < 15000 →
    Does (.egressWindowServe isl w 2 2 eccData 0) s [.nq, .notice, .host, .jct, .ctx, .dep] (fun c =>
      c.host.out = s.c.host.out ++ [Output.berth isl w .nothing 0] ∧
      (tget jctDflt c.jct.stat isl).lost = (tget jctDflt s.c.jct.stat isl).lost + 1 ∧
      (15000 * isl + w) ∈ c.jct.lostNow))

/-- R217, R218: an index of the shadow bank that still reads in error becomes a hard fault of that bank, others staying; a
`PROT_SEL` field lost is restored from the protection function or from the placement's copy. -/
def Obligations.JunctionRepairs : Prop :=
  (∀ s l, onImage s.c = true → s.c.cm.pending = false →
    Does (.timetableShadowScrub l) s [.nq, .notice, .jct, .dep] (fun c =>
      (∀ i, i ∈ l → i < 960000 → (960000 * bnat (!s.c.cm.activeBank) + i) ∈ c.jct.hard) ∧
      (∀ i, i ∈ s.c.jct.hard → i ∈ c.jct.hard) ∧ c.jct.stat = s.c.jct.stat ∧ c.jct.sel = s.c.jct.sel)) ∧
  (∀ s g x, onImage s.c = true → s.c.prot.groups.lookup g = some x → (getSel s.c g).badSel = true → x.decided = none →
    Does (.protSelRestore g 0) s [.jct] (fun c =>
      getSel c g = { getSel s.c g with badSel := false, select := x.select } ∧ ∀ h, h ≠ g → getSel c h = getSel s.c h)) ∧
  (∀ s g, onImage s.c = true → (s.c.prot.groups.lookup g).isSome = true →
    Does (.protSelRestore g 1) s [.jct] (fun c => getSel c g = { getSel s.c g with badAlt := false }))

/-- R20, R21: a flit that cannot be corrected is counted, its window's bytes are lost for the tick and the data of that window's
tributaries errored; a retransmission is counted; a bad lane waits for a spare, beyond two spares the causeway fails; the
substitution puts spares in for the bad lanes while there are any; a restored causeway has failed no more. -/
def Obligations.CausewaysCountAndFail : Prop :=
  (∀ s q isl w, s.c.dev.state ≠ .cold → q < 4 → isl / 16 = q → w < 15000 →
    Does (.causewayFlitUncorrectable q 1 isl w) s [.jct, .cwy, .ctx, .dep] (fun c =>
      getCwy c q = { getCwy s.c q with uncorr := (getCwy s.c q).uncorr + 1 } ∧
      c.jct = { s.c.jct with lostEgr := (15000 * isl + w, s.c.dev.tick) :: s.c.jct.lostEgr } ∧
      ∀ t, t ∈ egressOwners s.c.img.place isl w → (s.c.img.place.tribs.lookup t).isSome = true → (getCtx c t).errored = true)) ∧
  (∀ s q, s.c.dev.state ≠ .cold → q < 8 → Does (.causewayRetransmission q) s [.cwy, .dep] (fun c =>
    getCwy c q = { getCwy s.c q with retrans := (getCwy s.c q).retrans + 1 } ∧ ∀ r, r ≠ q → getCwy c r = getCwy s.c r)) ∧
  (∀ s q, s.c.dev.state ≠ .cold → q < 8 → Does (.causewayLaneBad q) s [.dev, .nq, .notice, .cwy, .ctx, .dfx, .dep] (fun c =>
    getCwy c q = { getCwy s.c q with badNow := (getCwy s.c q).badNow + 1, failed := (getCwy s.c q).failed || decide (2 < (getCwy s.c q).used + (getCwy s.c q).badNow + 1) })) ∧
  (∀ s q, s.c.dev.state ≠ .cold → q < 8 → Does (.spareLaneSubstitution q) s [.cwy] (fun c =>
    getCwy c q = { getCwy s.c q with used := min 2 ((getCwy s.c q).used + (getCwy s.c q).badNow), badNow := (getCwy s.c q).used + (getCwy s.c q).badNow - 2 })) ∧
  (∀ s q, s.c.dev.state ≠ .cold → q < 8 → (getCwy s.c q).failed = true →
    Does (.causewayRestored q) s [.dev, .nq, .notice, .cwy, .dfx, .dep] (fun c =>
      getCwy c q = { getCwy s.c q with failed := false, badNow := 0 } ∧ ∀ r, r ≠ q → getCwy c r = getCwy s.c r))

/-- R111, R438, R439, R441: a depot write that bears its engine's tag stores its bytes at their addresses, in one word or two, lane 0
at the address given; a write of port B that meets it at its word is lost and counted. A write that bears tag 0 or another tag changes
no depot and is counted. A write to the engine's own scratchpad stands whatever its tag (R112). -/
def Obligations.EngineWritesGuarded : Prop :=
  (∀ s e tag addr n b p j, s.c.dev.state ≠ .cold → e < 1024 → 1 ≤ n → n ≤ 32 → addr + n ≤ 4194304 → tag ≠ 0 → tag = (getEng s.c e).tag →
    b.kind = 0 → Does (.engineWriteArrival e tag 0 addr n b p) s [.dep] (fun c => (getDepot c (e / 16)).bytes.lookup j =
      if addr ≤ j ∧ j < addr + n then some ((getDepot s.c (e / 16)).writes, j - addr) else (getDepot s.c (e / 16)).bytes.lookup j)) ∧
  (∀ s e tag addr n b j, s.c.dev.state ≠ .cold → e < 1024 → 1 ≤ n → addr % 32 + n ≤ 32 → addr + n ≤ 4194304 → tag ≠ 0 → tag = (getEng s.c e).tag →
    b.kind = 2 → b.second = false → Does (.engineWriteArrival e tag 0 addr n b false) s [.dep] (fun c =>
      (getDepot c (e / 16)).bLost = (getDepot s.c (e / 16)).bLost + 1 ∧ (getDepot c (e / 16)).bytes.lookup j =
      if addr ≤ j ∧ j < addr + n then some ((getDepot s.c (e / 16)).writes, j - addr) else (getDepot s.c (e / 16)).bytes.lookup j)) ∧
  (∀ s e tag target addr n b p, s.c.dev.state ≠ .cold → e < 1024 → target < 3 → targetOk target addr n = true →
    (tag = 0 ∨ tag ≠ (getEng s.c e).tag) → b.kind = 0 → Does (.engineWriteArrival e tag target addr n b p) s [.eng, .dep] (fun c =>
      getEng c e = { getEng s.c e with stale := BitVec.ofNat 12 (satInc 0xFFF (getEng s.c e).stale.toNat) } ∧
      ∀ i, getDepot c i = getDepot s.c i)) ∧
  (∀ s e tag addr n b p, s.c.dev.state ≠ .cold → e < 1024 → addr < 16384 → Does (.engineWriteArrival e tag 3 addr n b p) s [.eng] (fun c =>
    (getEng c e).pad.lookup addr = some (getEng s.c e).padWrites ∧ ∀ k, k ≠ addr → (getEng c e).pad.lookup k = (getEng s.c e).pad.lookup k))

/-- R442, R446, R448: an uncorrectable read is counted, its region queued for early patrol and the tributary's data errored,
with a notice at most once in 8,000 ticks. The patrol borrows a region, writes it back when every read matched, and puts it out
with its buffer held and a notice when one did not. -/
def Obligations.DepotPatrol : Prop :=
  (∀ s i w reader t part, s.c.dev.state ≠ .cold → i < 64 → w < 131072 → reader ≠ 2 → (getDepot s.c i).held = none →
    NoticeRoom 1 s.c → (s.c.img.place.tribs.lookup t).isSome = true →
    Does (.depotUncorrectableRead i w reader t part) s [.nq, .notice, .ctx, .dep] (fun c =>
      (getDepot c i).uncorr = BitVec.ofNat 32 (satInc 0xFFFFFFFF (getDepot s.c i).uncorr.toNat) ∧ w ∈ (getDepot c i).bad ∧
      ((getDepot s.c i).queue.length < 16 → w / 128 ∈ (getDepot c i).queue) ∧ (getCtx c t).errored = true ∧
      ((getDepot s.c i).lastNote = none → (getDepot c i).lastNote = some (s.c.dev.tick + 1) ∧ Raised (event 0x17 6 12 2 i (w / 128) (s.c.dev.tick + 1) false) c) ∧
      ∀ m, (getDepot s.c i).lastNote = some m → s.c.dev.tick + 1 < m + 8000 → (getDepot c i).lastNote = some m ∧ c.notice = s.c.notice)) ∧
  (∀ s i r, s.c.dev.state ≠ .cold → i < 64 → patrolDue s.c i s.c.dev.tick = true → (getDepot s.c i).queue = [] →
    nextRegion s.c i (getDepot s.c i).next = some r →
    Does (.patrolRegionStart i) s [.dep] (fun c => (getDepot c i).borrowed = some r ∧ (getDepot c i).back = false ∧
      (getDepot c i).lastStart = some s.c.dev.tick ∧ ∀ j, j ≠ i → getDepot c j = getDepot s.c j)) ∧
  (∀ s i r, s.c.dev.state ≠ .cold → i < 64 → (getDepot s.c i).borrowed = some r → (getDepot s.c i).back = false →
    Does (.patrolWriteBack i true) s [.dep] (fun c => getDepot c i = { getDepot s.c i with back := true, bad := (getDepot s.c i).bad.filter (fun w => w / 128 ≠ r) })) ∧
  (∀ s i r, s.c.dev.state ≠ .cold → i < 64 → (getDepot s.c i).borrowed = some r → (getDepot s.c i).back = false →
    NoticeRoom 1 s.c → r ∉ (getIsl s.c i).regions →
    Does (.patrolWriteBack i false) s [.nq, .notice, .isl, .dep] (fun c => (getDepot c i).held = some r ∧
      (getDepot c i).borrowed = none ∧ r ∈ (getIsl c i).regions ∧
      (getDepot c i).newOut = (getDepot s.c i).newOut + 1 ∧ Raised (event 0x17 6 12 0 i r (s.c.dev.tick + 1) false) c))

/-- R457, R460, R461, R462: `PCNT_SEL` sets a counter's event, scope, chain and enable, and clears it with `CLEAR`; a snapshot armed
for a past tick is taken at the next boundary, and at its tick holds every counter; a bandwidth window that was whole is
reported as it ends. -/
def Obligations.CountersAndSnapshot : Prop :=
  (∀ s k v, s.c.dev.state ≠ .cold → k < 256 → bits v 10 9 = 0 → Does (.pcntSelWrite k v 0) s [.dep] (fun c =>
    tget pcntDflt c.dep.count.cnt k = { val := if bitAt v 29 then 0 else (tget pcntDflt s.c.dep.count.cnt k).val, enable := bitAt v 31, chain := bitAt v 30, ovf := (tget pcntDflt s.c.dep.count.cnt k).ovf && !bitAt v 28, scope := bits v 19 9, ev := bits v 0 10 } ∧
    ∀ j, j ≠ k → tget pcntDflt c.dep.count.cnt j = tget pcntDflt s.c.dep.count.cnt j)) ∧
  (∀ s hi, s.c.dev.state ≠ .cold → Does (.snapArm hi) s [.dep] (fun c =>
    c.dep.count = { s.c.dep.count with tickHi := hi, armed := some (max (hi.toNat * 4294967296 + s.c.dep.count.tickLo.toNat) (s.c.dev.tick + 1)) })) ∧
  (∀ s a, s.c.dev.state ≠ .cold → s.c.dep.count.armed = some a → a ≤ s.c.dev.tick → s.c.dep.count.every = 0 →
    Does .counterSnapshot s [.dep] (fun c =>
      c.dep.count = { s.c.dep.count with snap := pcntVals s.c, last := s.c.dev.tick, snapDone := true, armed := none })) ∧
  (∀ s, s.c.dev.state ≠ .cold → s.c.dev.tick % bits s.c.dep.count.bw.eff 0 19 = 0 → s.c.dep.count.bwLive = true →
    s.c.dep.count.bwEnd ≠ s.c.dev.tick → Does .bwWindowEnd s [.dep] (fun c => c.dep.count.bwEnd = s.c.dev.tick ∧
      c.dep.count.bwAcc = [] ∧ c.dep.count.bwPub.map (·.1) = s.c.dep.count.bwAcc.map (·.1)))

/-- R455, R454: `SCAN_CTRL` with `START` makes a channel busy with what it names; the scan's end leaves the channel done with its
result, over Window B the check value of the bytes read (CRC-32C: `POLY` 0). -/
def Obligations.ScansRun : Prop :=
  (∀ s k v, s.c.dev.state ≠ .cold → k < 4 → (getScan s.c k).busy = false → scanCtrlOk (getScan s.c k) v 268435456 = true →
    Does (.scanStart k v) s [.dep] (fun c => getScan c k = { getScan s.c k with cont := bitAt v 30, source := bits v 28 2, poly := bits v 26 2, island := bits v 0 6, busy := bitAt v 31 })) ∧
  (∀ s k, s.c.dev.state ≠ .cold → k < 4 → (getScan s.c k).busy = true → s.c.power.throt = [] → (getScan s.c k).source = 1 →
    (getScan s.c k).poly = 0 → (getScan s.c k).cont = false →
    Does (.scanComplete k false) s [.dep] (fun c => (getScan c k).busy = false ∧ (getScan c k).done = true ∧
      (getScan c k).poison = (getScan s.c k).poison ∧
      (getScan c k).resLo = BitVec.ofNat 32 ((crcRefl 0x82F63B78 0xFFFFFFFF (bytesB s (getScan s.c k).addr.toNat (getScan s.c k).len.toNat) % 2 ^ 64) ^^^ 0xFFFFFFFF)))

/-- R120: a laser input whose feed falls below its threshold mutes its lanes and shows `FEED_LOSS` on its ports; after the
restore count it recalibrates, `FEED_LOSS` still shown; recalibrated, `FEED_LOSS` clears and the lanes stay dark until the next
boundary. The other inputs do not change. -/
def Obligations.LasersFollowTheFeed : Prop :=
  (∀ s i, s.c.dev.state ≠ .cold → i < 32 → groupOn s.c (0x40 + i / 2) = true →
    Does (.laserFeedLoss i) s [.line, .dfx] (fun c =>
      getLaser c i = { getLaser s.c i with lost := true, recal := false, dark := true } ∧ (∀ j, j ≠ i → getLaser c j = getLaser s.c j) ∧
      ∀ p, p < 256 → laserOf p = i → feedLoss c p = true ∧ portLit c p = false)) ∧
  (∀ s i, s.c.dev.state ≠ .cold → i < 32 → groupOn s.c (0x40 + i / 2) = true → (getLaser s.c i).lost = true →
    (getLaser s.c i).recal = false → Does (.feedRestoreCountEnd i) s [.line, .dfx] (fun c =>
      getLaser c i = { getLaser s.c i with recal := true } ∧ (∀ j, j ≠ i → getLaser c j = getLaser s.c j) ∧
      ∀ p, p < 256 → laserOf p = i → feedLoss c p = true)) ∧
  (∀ s i, s.c.dev.state ≠ .cold → i < 32 → groupOn s.c (0x40 + i / 2) = true → (getLaser s.c i).recal = true →
    Does (.recalibrationComplete i) s [.line, .dfx] (fun c =>
      getLaser c i = { getLaser s.c i with lost := false, recal := false, dark := true } ∧ (∀ j, j ≠ i → getLaser c j = getLaser s.c j) ∧
      ∀ p, p < 256 → laserOf p = i → feedLoss c p = false ∧ portLit c p = false))

/-- R138, R132, R521: a receiver with signal starts to adapt; one that converges goes to LOCKED, or to QIC_HUNT on a lane that runs
QIC; a lane with lane frames locks after 64 frames with correct fill alone and is lost after 16 with 8 or more fill bits wrong.
Every exit from LOCKED is counted. A lane whose signal is absent waits for signal with dLOS. No other lane changes. -/
def Obligations.LanesMoveByTheirEvents : Prop :=
  (∀ s l, (getLane s.c l).rx = .noSignal → injDrops 1 l s.c = false →
    Does (.signalDetect l) s [.ctx, .line, .dfx] (fun c =>
      getLane c l = { getLane s.c l with rx := .adapting, los := false, lowWin := 0 } ∧ ∀ j, j ≠ l → getLane c j = getLane s.c j)) ∧
  (∀ s l skewNs, (getLane s.c l).rx = .adapting → (portOfLane (lineImage s.c) l).isSome = true →
    laneFramed (lineImage s.c) l = false → Does (.cdrLock l skewNs) s [.ctx, .line, .dfx] (fun c =>
      (getLane c l = if laneQic (lineImage s.c) l then { getLane s.c l with rx := .qicHunt, lowWin := 0, huntTick := s.c.dev.tick } else { getLane s.c l with rx := .locked, lowWin := 0, lockTick := true }) ∧
      ∀ j, j ≠ l → getLane c j = getLane s.c j)) ∧
  (∀ s l fills skewNs, (getLane s.c l).rx = .adapting → laneFramed (lineImage s.c) l = true →
    64 ≤ fills.length → (∀ k, k < 64 → fills.getD k 0 = 0) → Does (.laneFrameLock l fills skewNs) s [.ctx, .line, .dfx] (fun c =>
      getLane c l = { getLane s.c l with rx := .locked, lowWin := 0, lockTick := true } ∧
      ∀ j, j ≠ l → getLane c j = getLane s.c j)) ∧
  (∀ s l, (getLane s.c l).rx = .locked → Does (.cdrLoss l) s [.ctx, .line, .dfx] (fun c =>
    getLane c l = { getLane s.c l with rx := .adapting, lowWin := 0, losses := BitVec.ofNat 16 (satInc 0xFFFF (getLane s.c l).losses.toNat) } ∧
    ∀ j, j ≠ l → getLane c j = getLane s.c j)) ∧
  (∀ s l fills, (getLane s.c l).rx = .locked → laneFramed (lineImage s.c) l = true →
    16 ≤ fills.length → (∀ k, k < 16 → 8 ≤ fills.getD k 0) → Does (.laneFrameLockLoss l fills) s [.ctx, .line, .dfx] (fun c =>
      getLane c l = { getLane s.c l with rx := .adapting, lowWin := 0, losses := BitVec.ofNat 16 (satInc 0xFFFF (getLane s.c l).losses.toNat) } ∧
      ∀ j, j ≠ l → getLane c j = getLane s.c j)) ∧
  (∀ s l, (getLane s.c l).rx ≠ .off → Does (.signalAbsent l) s [.ctx, .line, .dfx] (fun c =>
    getLane c l = { countLoss (getLane s.c l) with rx := .noSignal, los := true, lowWin := 0 } ∧
    ∀ j, j ≠ l → getLane c j = getLane s.c j))

/-- R127: a lane hunting QIC adopts, at the end of a window, the one hypothesis with 64 zero syndromes or more that leads every other by
32 or more, and is LOCKED; without one it hunts on, and goes back to adapt after 160 ticks. A LOCKED lane hunts again at its fourth
consecutive window with the adopted hypothesis below 32, the windows before only counted. -/
def Obligations.QicWindows : Prop :=
  (∀ s l counts h skewNs, laneQic (lineImage s.c) l = true → (getLane s.c l).rx = .qicHunt → counts.map (·.1) = upto 1024 →
    h < 1024 → 64 ≤ countOf counts h → (∀ k, k < 1024 → k ≠ h → countOf counts k + 32 ≤ countOf counts h) →
    Does (.qicWindowEnd l counts skewNs) s [.ctx, .line, .dfx] (fun c =>
      getLane c l = { getLane s.c l with rx := .locked, lowWin := 0, lockTick := true, hyp := h } ∧
      ∀ j, j ≠ l → getLane c j = getLane s.c j)) ∧
  (∀ s l counts skewNs, laneQic (lineImage s.c) l = true → (getLane s.c l).rx = .qicHunt → counts.map (·.1) = upto 1024 →
    (∀ h, h < 1024 → countOf counts h < 64 ∨ ∃ k, k < 1024 ∧ k ≠ h ∧ countOf counts h < countOf counts k + 32) →
    exec (.qicWindowEnd l counts skewNs) s = .next s) ∧
  (∀ s l counts skewNs, laneQic (lineImage s.c) l = true → (getLane s.c l).rx = .locked →
    Does (.qicWindowEnd l counts skewNs) s [.ctx, .line, .dfx] (fun c =>
      (getLane c l = if 32 ≤ countOf counts (getLane s.c l).hyp then { getLane s.c l with lowWin := 0 } else if (getLane s.c l).lowWin + 1 < 4 then { getLane s.c l with lowWin := (getLane s.c l).lowWin + 1 } else { getLane s.c l with rx := .qicHunt, lowWin := 0, huntTick := s.c.dev.tick, losses := BitVec.ofNat 16 (satInc 0xFFFF (getLane s.c l).losses.toNat) }) ∧
      ∀ j, j ≠ l → getLane c j = getLane s.c j)) ∧
  (∀ s l, (getLane s.c l).rx = .qicHunt → (getLane s.c l).huntTick + 160 ≤ s.c.dev.tick →
    Does (.qicHuntTimeout l) s [.ctx, .line, .dfx] (fun c =>
      getLane c l = { getLane s.c l with rx := .adapting, lowWin := 0 } ∧ ∀ j, j ≠ l → getLane c j = getLane s.c j))

/-- R134, R338: outside COLD a write of a lane's equaliser entry with zero reserved bits and taps of at most 63/64, and a write of a
port's timestamp offsets, is carried out: the entry's written value is the one given, which the next boundary puts in force; the value
in force until then and every other entry stay as they were. With a tap sum above 63/64 or a reserved bit the equaliser write stops
(R12). -/
def Obligations.TimedEntriesAreHeld : Prop :=
  (∀ s l v, s.c.dev.state ≠ .cold → l < 320 → bits v 33 31 = 0 → bits v 30 2 = 0 → tapSum v ≤ 63 →
    Does (.laneEqWrite l v) s [.line] (fun c =>
      c.line = { s.c.line with laneEq := c.line.laneEq } ∧
      (tget laneEqDflt c.line.laneEq l).wr = v ∧ (tget laneEqDflt c.line.laneEq l).eff = (tget laneEqDflt s.c.line.laneEq l).eff ∧
      ∀ j, j ≠ l → tget laneEqDflt c.line.laneEq j = tget laneEqDflt s.c.line.laneEq j)) ∧
  (∀ s l v, s.c.dev.state ≠ .cold → l < 320 → bits v 33 31 ≠ 0 ∨ bits v 30 2 ≠ 0 ∨ 63 < tapSum v →
    exec (.laneEqWrite l v) s = .fault (.unpredictableAccess 1 (0x0B2F8000 + 8 * l))) ∧
  (∀ s p v, s.c.dev.state ≠ .cold → p < 320 → Does (.tsPortWrite p v) s [.line] (fun c =>
      c.line = { s.c.line with tsPort := c.line.tsPort } ∧
      (tget tsDflt c.line.tsPort p).wr = v ∧ (tget tsDflt c.line.tsPort p).eff = (tget tsDflt s.c.line.tsPort p).eff ∧
      ∀ j, j ≠ p → tget tsDflt c.line.tsPort j = tget tsDflt s.c.line.tsPort j))

/-- R137: when a lane of a port that delivered data loses its clock or its signal in LOCKED, the port delivers no more and every one of
its units is in HUNT. -/
def Obligations.LaneLossStopsThePort : Prop :=
  ∀ s l p u, (getLane s.c l).rx = .locked → portOfLane (lineImage s.c) l = some p → l ∈ portLanes (lineImage s.c) p →
    delivers s.c p = true → u ∈ portUnits (theImage s.c) p →
    Does (.cdrLoss l) s [.ctx, .line, .dfx] (fun c => delivers c p = false ∧ (getUnit c p u).state = .hunt) ∧
    Does (.signalAbsent l) s [.ctx, .line, .dfx] (fun c => delivers c p = false ∧ (getUnit c p u).state = .hunt)

/-- R145, R146, R153: in HUNT the pattern of R146 at a new place opens a candidate, at most eight, or at the one offset a 64b/66b or 8b/10b
search tests; at its expected place a candidate without the pattern, or on a lane with another PCS lane's marker, is closed, with it its
hit counts; the last hit confirms it if the discriminator passes, it and those confirmed before it then having a rival.
A confirmed candidate whose settle window ends is adopted, or with a rival sends the unit to ARBITRATE with the confirmed ones. Other
units do not change. -/
def Obligations.UnitsSearch : Prop :=
  (∀ s p u pos r q, q = inPeriod (unitPeriod (theImage s.c) p u) pos → unitKind (theImage s.c) p u ≠ 0 → searchAllowed s.c p u = true →
    injDrops 2 p s.c = false → (getUnit s.c p u).state = .hunt → patternSeen (unitKind (theImage s.c) p u) false r = true →
    (getUnit s.c p u).cands.length < candMax (unitKind (theImage s.c) p u) → (∀ x, x ∈ (getUnit s.c p u).cands → x.pos ≠ q) →
    (slips (unitKind (theImage s.c) p u) = true → q = (getUnit s.c p u).pos) →
    Does (.framePatternHit p u pos r) s [.line] (fun c =>
      getUnit c p u = { getUnit s.c p u with cands := (getUnit s.c p u).cands ++ [{ pos := q, hits := 1, confirmed := false, rival := false, score := 0, frames := 0, tag := r.tag, crc := r.crcOk }] } ∧
      ∀ p' v, unitKey p' v ≠ unitKey p u → getUnit c p' v = getUnit s.c p' v)) ∧
  (∀ s p u pos r q k x, q = inPeriod (unitPeriod (theImage s.c) p u) pos → k = unitKind (theImage s.c) p u → k ≠ 0 →
    searchAllowed s.c p u = true → injDrops 2 p s.c = false → (getUnit s.c p u).state = .hunt →
    (getUnit s.c p u).cands.find? (fun y => y.pos = q) = some x → x.confirmed = false →
    Does (.candidateExpectedPosition p u pos r) s [.ctx, .line, .dfx] (fun c =>
      getUnit c p u = slipHunt k q (patternSeen k false r) { getUnit s.c p u with cands := if patternSeen k false r && sameMarker k x r then (if x.hits + 1 < hitsNeed k then (getUnit s.c p u).cands.map (fun y => if y.pos = q then { x with hits := x.hits + 1, tag := r.tag, crc := r.crcOk } else y) else if discriminates k x r then (getUnit s.c p u).cands.map (fun y => if y.pos = q then { x with hits := x.hits + 1, tag := r.tag, crc := r.crcOk, confirmed := true } else { y with rival := y.rival || y.confirmed }) else (getUnit s.c p u).cands.filter (fun y => y.pos ≠ q)) else (getUnit s.c p u).cands.filter (fun y => y.pos ≠ q) } ∧
      ∀ p' v, unitKey p' v ≠ unitKey p u → getUnit c p' v = getUnit s.c p' v)) ∧
  (∀ s p u pos q x, q = inPeriod (unitPeriod (theImage s.c) p u) pos →
    (getUnit s.c p u).cands.find? (fun y => y.pos = q && y.confirmed) = some x →
    (getUnit s.c p u).state = .hunt → searchAllowed s.c p u = true →
    Does (.settleWindowEnd p u pos) s [.line, .dfx] (fun c =>
      (getUnit c p u = if x.rival then { getUnit s.c p u with state := .arbitrate, cands := (getUnit s.c p u).cands.filter (·.confirmed) } else { getUnit s.c p u with state := .inFrame, cands := [], pos := q, miss := 0, seen := 0, inSince := s.c.dev.tick, ids := if unitKind (theImage s.c) p u = 5 then some (x.tag, 0, 0) else none }) ∧
      ∀ p' v, unitKey p' v ≠ unitKey p u → getUnit c p' v = getUnit s.c p' v))

/-- R145, R147, R157: when every candidate has 16 scored frames, the one that reaches the win score of its kind and leads every other by the
kind's lead is adopted with `RIVAL` set and `LOOKALIKE` kept; where none does, the unit hunts again with `LOOKALIKE` and `RIVAL` set. -/
def Obligations.ArbitrationDecides : Prop :=
  (∀ s p u x, (getUnit s.c p u).state = .arbitrate → searchAllowed s.c p u = true →
    (∀ y, y ∈ (getUnit s.c p u).cands → 16 ≤ y.frames) →
    x ∈ (getUnit s.c p u).cands → (winLead (unitKind (theImage s.c) p u)).1 ≤ x.score →
    (∀ y, y ∈ (getUnit s.c p u).cands → y = x ∨ y.pos ≠ x.pos ∧ y.score + (winLead (unitKind (theImage s.c) p u)).2 ≤ x.score) →
    Does (.arbitrationEnd p u) s [.line, .dfx] (fun c =>
      getUnit c p u = { getUnit s.c p u with state := .inFrame, cands := [], pos := x.pos, miss := 0, seen := 0, inSince := s.c.dev.tick, ids := if unitKind (theImage s.c) p u = 5 then some (x.tag, 0, 0) else none } ∧
      (tget portAlignDflt c.line.portAlign p).rival = true ∧
      (tget portAlignDflt c.line.portAlign p).lookalike = (tget portAlignDflt s.c.line.portAlign p).lookalike)) ∧
  (∀ s p u, (getUnit s.c p u).state = .arbitrate → searchAllowed s.c p u = true →
    (∀ y, y ∈ (getUnit s.c p u).cands → 16 ≤ y.frames) →
    (∀ x, x ∈ (getUnit s.c p u).cands → x.score < (winLead (unitKind (theImage s.c) p u)).1 ∨
      ∃ y, y ∈ (getUnit s.c p u).cands ∧ y.pos ≠ x.pos ∧ x.score < y.score + (winLead (unitKind (theImage s.c) p u)).2) →
    Does (.arbitrationEnd p u) s [.line, .dfx] (fun c =>
      getUnit c p u = { getUnit s.c p u with state := .hunt, cands := [] } ∧
      (tget portAlignDflt c.line.portAlign p).rival = true ∧ (tget portAlignDflt c.line.portAlign p).lookalike = true))

/-- R145, R146: at the adopted position of a unit in IF a pattern found clears the misses; one missing is counted, and the last of
its count takes the unit to HUNT and out of its multiframes, one loss of frame counted on the port. A 64b/66b unit counts the invalid of
64 positions. -/
def Obligations.UnitsKeepFrame : Prop :=
  (∀ s p u pos r k, k = unitKind (theImage s.c) p u → k ≠ 0 → inPeriod (unitPeriod (theImage s.c) p u) pos = (getUnit s.c p u).pos →
    delivers s.c p = true → injDrops 2 p s.c = false → (getUnit s.c p u).state = .inFrame → (getUnit s.c p u).miss < missMax k →
    adoptedSeen k (getUnit s.c p u) r = true →
    Does (.candidateExpectedPosition p u pos r) s [.ctx, .line, .dfx] (fun c =>
      (getUnit c p u = if k = 7 ∧ (getUnit s.c p u).seen + 1 ≠ 64 then { getUnit s.c p u with seen := (getUnit s.c p u).seen + 1 } else { getUnit s.c p u with miss := 0, seen := 0 }) ∧
      ∀ p' v, unitKey p' v ≠ unitKey p u → getUnit c p' v = getUnit s.c p' v)) ∧
  (∀ s p u pos r k, k = unitKind (theImage s.c) p u → k ≠ 0 → inPeriod (unitPeriod (theImage s.c) p u) pos = (getUnit s.c p u).pos →
    delivers s.c p = true → (getUnit s.c p u).state = .inFrame →
    injDrops 2 p s.c = true ∨ adoptedSeen k (getUnit s.c p u) r = false →
    Does (.candidateExpectedPosition p u pos r) s [.ctx, .line, .dfx] (fun c =>
      (if (getUnit s.c p u).miss + 1 < missMax k then
        getUnit c p u = if k = 7 ∧ (getUnit s.c p u).seen + 1 = 64 then { getUnit s.c p u with miss := 0, seen := 0 } else { getUnit s.c p u with miss := (getUnit s.c p u).miss + 1, seen := if k = 7 then (getUnit s.c p u).seen + 1 else 0 }
      else (getUnit c p u).state = .hunt ∧ (getUnit c p u).mf.isIn = false ∧ (getUnit c p u).smf.isIn = false ∧ (tget portAlignDflt c.line.portAlign p).losses = BitVec.ofNat 16 (satAdd 0xFFFF (tget portAlignDflt s.c.line.portAlign p).losses.toNat 1)) ∧
      ∀ p' v, unitKey p' v ≠ unitKey p u → getUnit c p' v = getUnit s.c p' v))

/-- R148, R156, R224: a unit out of frame for 24 ticks declares LOF, with dLOF of its port; one in frame for 24 ticks clears it; and one
out of its multiframe, or out of its OTUC slice's, for 24 ticks has LOM, with dLOM of its port. -/
def Obligations.LossesOfFrame : Prop :=
  (∀ s p u, detects s.c = true → unitKind (theImage s.c) p u ≠ 0 → unitIn (getUnit s.c p u) = false → (getUnit s.c p u).lof = false →
    (getUnit s.c p u).outSince + 24 ≤ s.c.dev.tick → Does (.lofDeclared p u) s [.line, .dfx] (fun c =>
      getUnit c p u = { getUnit s.c p u with lof := true } ∧ (u ∈ portUnits (theImage s.c) p → (dget c (dkey 2 p 0 0)).present = true))) ∧
  (∀ s p u, detects s.c = true → unitKind (theImage s.c) p u ≠ 0 → unitIn (getUnit s.c p u) = true → (getUnit s.c p u).lof = true →
    (getUnit s.c p u).inSince + 24 ≤ s.c.dev.tick → Does (.lofCleared p u) s [.line, .dfx] (fun c =>
      getUnit c p u = { getUnit s.c p u with lof := false })) ∧
  (∀ s p u, detects s.c = true → mfKind (unitKind (theImage s.c) p u) ≠ 0 → (getUnit s.c p u).mf.isIn = false →
    (getUnit s.c p u).mf.lom = false → (getUnit s.c p u).mf.out + 24 ≤ s.c.dev.tick → Does (.lossOfMultiframe p u) s [.line, .dfx] (fun c =>
      getUnit c p u = { getUnit s.c p u with mf := { (getUnit s.c p u).mf with lom := true }, smf := (getUnit c p u).smf } ∧
      (u ∈ portUnits (theImage s.c) p → (dget c (dkey 2 p 0 1)).present = true))) ∧
  (∀ s p u, detects s.c = true → unitKind (theImage s.c) p u = 1 → (getUnit s.c p u).smf.isIn = false →
    (getUnit s.c p u).smf.lom = false → (getUnit s.c p u).smf.out + 24 ≤ s.c.dev.tick → Does (.lossOfMultiframe p u) s [.line, .dfx] (fun c =>
      getUnit c p u = { getUnit s.c p u with smf := { (getUnit s.c p u).smf with lom := true }, mf := (getUnit c p u).mf } ∧
      (u ∈ portUnits (theImage s.c) p → (dget c (dkey 2 p 0 1)).present = true)))

/-- R171, R172, R167, R339: a write of `PROD` within 64 slots of `CONS` is taken, one beyond stops. A dark port consumes what waits unsent; a
lit one sends the item at the head, or at a gap the whole packet there, and its channels' idle bytes where nothing waits; a PTP message
shorter than it says is discarded and counted, as is a packet that has met no gap for 8 ticks; an item of a type the ring does not take
stops. No other port changes. -/
def Obligations.TransmitRing : Prop :=
  (∀ s p prod, s.c.dev.state ≠ .cold → p < 320 → (prod - (getOh s.c p).cons).toNat ≤ 64 →
    Does (.ohTxProduce p prod) s [.line] (fun c =>
      (getOh c p).prod = prod ∧ (getOh c p).cons = (getOh s.c p).cons ∧ ∀ q, q ≠ p → getOh c q = getOh s.c q)) ∧
  (∀ s p prod, s.c.dev.state ≠ .cold → p < 320 → 64 < (prod - (getOh s.c p).cons).toNat →
    exec (.ohTxProduce p prod) s = .fault (.unpredictableAccess 0 (0x10010 + 256 * p))) ∧
  (∀ s p gap stamp, onImage s.c = true → portLit s.c p = false →
    Does (.ohTxTake p gap stamp) s [.line] (fun c =>
      (getOh c p).cons = (getOh s.c p).prod ∧ (getOh c p).prod = (getOh s.c p).prod ∧ ∀ q, q ≠ p → getOh c q = getOh s.c q)) ∧
  (∀ s p gap stamp i l, onImage s.c = true → portLit s.c p = true → ringOk s.mem s.c p = true →
    ohWaiting s.mem (getOh s.c p) p = i :: l → isPacket i = false →
    Does (.ohTxTake p gap stamp) s [.host, .line] (fun c =>
      c.host.out = s.c.host.out ++ [.ohSent p [i]] ∧ (getOh c p).cons = (getOh s.c p).cons + 1 ∧
      ∀ q, q ≠ p → getOh c q = getOh s.c q)) ∧
  (∀ s p stamp i l pk, onImage s.c = true → portLit s.c p = true → ringOk s.mem s.c p = true →
    ohWaiting s.mem (getOh s.c p) p = i :: l → itemType i = 0x20 → wholePacket (i :: l) = some pk →
    Does (.ohTxTake p true stamp) s [.host, .line, .dep] (fun c =>
      c.host.out = s.c.host.out ++ [.ohSent p pk] ∧ (getOh c p).cons = (getOh s.c p).cons + BitVec.ofNat 16 pk.length ∧
      ∀ q, q ≠ p → getOh c q = getOh s.c q)) ∧
  (∀ s p stamp i l pk, onImage s.c = true → portLit s.c p = true → ringOk s.mem s.c p = true →
    ohWaiting s.mem (getOh s.c p) p = i :: l → itemType i = 0x30 → wholePacket (i :: l) = some pk → packetShort pk = false →
    Does (.ohTxTake p true stamp) s [.host, .line, .dep] (fun c =>
      (∃ sent, c.host.out = s.c.host.out ++ [.ohSent p (i :: sent)]) ∧
      (getOh c p).cons = (getOh s.c p).cons + BitVec.ofNat 16 pk.length ∧
      (getOh c p).twoStep = (if bitAt i 96 then (getOh s.c p).twoStep ++ [{ cookie := BitVec.ofNat 16 (bits i 16 16), stamp := stampAdd stamp (txAdj s.c p) }] else (getOh s.c p).twoStep) ∧
      ∀ q, q ≠ p → getOh c q = getOh s.c q)) ∧
  (∀ s p gap stamp i l pk, onImage s.c = true → portLit s.c p = true → ringOk s.mem s.c p = true →
    ohWaiting s.mem (getOh s.c p) p = i :: l → isPacket i = true → wholePacket (i :: l) = some pk → packetShort pk = true →
    Does (.ohTxTake p gap stamp) s [.line] (fun c =>
      (getOh c p).cons = (getOh s.c p).cons + BitVec.ofNat 16 pk.length ∧
      (getOh c p).txDiscard = BitVec.ofNat 16 (satInc 0xFFFF (getOh s.c p).txDiscard.toNat) ∧ ∀ q, q ≠ p → getOh c q = getOh s.c q)) ∧
  (∀ s p gap stamp, onImage s.c = true → portLit s.c p = true → ohWaiting s.mem (getOh s.c p) p = [] →
    Does (.ohTxTake p gap stamp) s [.host] (fun c =>
      c.host.out = s.c.host.out ++ [.ohFill p (channelFill (stackType (stackRec s.c p)))])) ∧
  (∀ s p gap stamp, onImage s.c = true → portLit s.c p = true → ringOk s.mem s.c p = false →
    exec (.ohTxTake p gap stamp) s = .fault (.unpredictableAccess 1 (ohSlotAddr p 0))) ∧
  (∀ s p t pk, (getOh s.c p).pktTick = some t → wholePacket (ohWaiting s.mem (getOh s.c p) p) = some pk →
    t + 8 ≤ s.c.dev.tick → portLit s.c p = true →
    Does (.ohTxPacketTimeout p) s [.line] (fun c =>
      (getOh c p).cons = (getOh s.c p).cons + BitVec.ofNat 16 pk.length ∧
      (getOh c p).txDiscard = BitVec.ofNat 16 (satInc 0xFFFF (getOh s.c p).txDiscard.toNat) ∧
      ∀ q, q ≠ p → getOh c q = getOh s.c q))

/-- R163, R168, R170, R339: the island's oldest packet moves into the overhead queue whole when there is room for all of it. A frame that
carries a PTP message is replaced by idle and the message staged at the port's island with its corrected stamp; any other frame, and
one with the export bit clear, passes. A two-step message's timestamp is staged as its item. An ESMC frame gives its quality level, 9 for a
code outside 1 to 9, to the inputs that take it from that port (R296). -/
def Obligations.OverheadReceived : Prop :=
  (∀ s isl, headPacket (tget [] s.c.line.staging isl) ≠ [] →
    qCount s.c.oq + (headPacket (tget [] s.c.line.staging isl)).length ≤ oqRoom →
    Does (.ohItemEnqueue isl) s [.oq, .line, .dep] (fun c =>
      c.oq = { s.c.oq with items := s.c.oq.items ++ headPacket (tget [] s.c.line.staging isl) } ∧
      tget [] c.line.staging isl = (tget [] s.c.line.staging isl).drop (headPacket (tget [] s.c.line.staging isl)).length ∧
      ∀ j, j ≠ isl → tget [] c.line.staging j = tget [] s.c.line.staging j)) ∧
  (∀ s p flexe stamp frame msg, delivers s.c p = true → portFramed s.c p = true → injDrops 2 p s.c = false →
    stackType (stackRec s.c p) = 0x10 ∨ stackType (stackRec s.c p) = 0x20 → exported s.c p 0x30 = true → ptpOf frame = some msg →
    (getOh s.c p).gaps.contains 0x30 = false → msg.length ≤ 1500 →
    (tget [] s.c.line.staging (portIsland (theImage s.c) p)).length + 126 ≤ stagingRoom →
    Does (.ptpMessageReceived p flexe stamp frame) s [.host, .line, .dep] (fun c =>
      c.host.out = s.c.host.out ++ [.client p true frame] ∧
      tget [] c.line.staging (portIsland (theImage s.c) p) = tget [] s.c.line.staging (portIsland (theImage s.c) p) ++
        ptpItems p (stackPrio (stackRec s.c p)) (stackType (stackRec s.c p) = 0x20 && flexe) (stampAdd stamp (rxAdj s.c p)) msg)) ∧
  (∀ s p flexe stamp frame, delivers s.c p = true → portFramed s.c p = true → injDrops 2 p s.c = false →
    stackType (stackRec s.c p) = 0x10 ∨ stackType (stackRec s.c p) = 0x20 → exported s.c p 0x30 = false ∨ ptpOf frame = none →
    Does (.ptpMessageReceived p flexe stamp frame) s [.host] (fun c => c.host.out = s.c.host.out ++ [.client p false frame])) ∧
  (∀ s p ql pdu i x, onImage s.c = true → delivers s.c p = true → portFramed s.c p = true → injDrops 2 p s.c = false →
    s.c.tim.ins.lookup i = some x → tapPort s.c i = some p → tapEsmc s.c i = true → isEsmc pdu = true →
    Does (.esmcPduReceived p ql pdu) s [.host, .line, .tim] (fun c =>
      c.tim.ins.lookup i = some { x with rxQl := if 1 ≤ ql ∧ ql ≤ 9 then ql else 9, esmcTick := s.c.dev.tick })) ∧
  (∀ s p t tl, (getOh s.c p).twoStep = t :: tl → (getOh s.c p).gaps.contains 0x31 = false →
    (tget [] s.c.line.staging (portIsland (theImage s.c) p)).length + 1 ≤ stagingRoom →
    Does (.ptpTxTimestamp p) s [.line] (fun c => (getOh c p).twoStep = tl ∧
      ∃ item, tget [] c.line.staging (portIsland (theImage s.c) p) = tget [] s.c.line.staging (portIsland (theImage s.c) p) ++ [item] ∧
        itemType item = 0x31))

/-- R164, R165: the 64 bytes at offset 192 of a trace entry are the trace to send, those at 128 the expected one; no other entry and no
other word of it changes. R165: a trace received on an SDH or OTUk port the third time in a row is accepted. R187: a FlexE group's
calendar, when due, switches once for all its clients. R152: the fifth consecutive frame of an OTUC slice without its FAS takes the slice
out of frame. -/
def Obligations.TracesAndFrames : Prop :=
  (∀ s e l, s.c.dev.state ≠ .cold → e < 262464 → l.length = 64 → Does (.traceWrite e 192 l) s [.line, .dfx] (fun c =>
    getTrace c e = { getTrace s.c e with tx := BitVec.ofNat 512 (leNat l) } ∧ ∀ j, j ≠ e → getTrace c j = getTrace s.c j)) ∧
  (∀ s e l, s.c.dev.state ≠ .cold → e < 262464 → l.length = 64 → Does (.traceWrite e 128 l) s [.line, .dfx] (fun c =>
    getTrace c e = { getTrace s.c e with exp := BitVec.ofNat 512 (leNat l) } ∧ ∀ j, j ≠ e → getTrace c j = getTrace s.c j)) ∧
  (∀ s g, onImage s.c = true → (getCal s.c g).due = true →
    Does (.flexeCalendarSwitch g) s [.ctx, .line] (fun c =>
      getCal c g = { getCal s.c g with inUse := !(getCal s.c g).inUse, due := false } ∧
      (∀ t, t ∈ groupClients s.c g → bitAt (getCtx c t).func 94 = !(getCal s.c g).inUse ∧ (getCtx c t).calTx = false) ∧
      ∀ t, t ∉ groupClients s.c g → getCtx c t = getCtx s.c t)) ∧
  (∀ s p m v, frameIn { plainFrame p 0 m with trace := some v } s.c = true → portFramed s.c p = true → portStack (theImage s.c) p ≠ 1 →
    unitKind (theImage s.c) p 0 = 4 ∨ (unitKind (theImage s.c) p 0 = 2 ∨ unitKind (theImage s.c) p 0 = 3) ∧ (mfFrame 1 m s.c.dev.tick (getUnit s.c p 0).mf).isIn = true →
    (getTrace s.c p).format = false ∨ shortOk v = true → (getTrace s.c p).run = 2 → (getTrace s.c p).cand = v →
    Does (.frameReceived { plainFrame p 0 m with trace := some v }) s [.line, .dfx] (fun c =>
      getTrace c p = { getTrace s.c p with run := 3, acc := v, accValid := true } ∧ ∀ j, j ≠ p → getTrace c j = getTrace s.c j)) ∧
  (∀ s p u m, frameIn { plainFrame p u m with slice := true, fas := false } s.c = true → unitKind (theImage s.c) p u = 1 →
    (getUnit s.c p u).sliceOof = false → (getUnit s.c p u).fasMiss = 4 → u ∈ portUnits (theImage s.c) p →
    Does (.frameReceived { plainFrame p u m with slice := true, fas := false }) s [.ctx, .line, .dfx] (fun c =>
      (getUnit c p u).sliceOof = true ∧ portFramed c p = false))

/-- R298, R313: an input that loses its activity is inactive at once, and every DPLL locked or acquiring on it holds the mean
frequency of its last second; its activity returns where its receiver is on. R293, R296: the third consecutive time-of-day message
makes an input's time valid; three seconds without one, or 40,000 ticks without an ESMC PDU, end it. -/
def Obligations.InputsAreMonitored : Prop :=
  (∀ s i x, onImage s.c = true → (i < 16 ∨ tapActive s.c i = false) → s.c.tim.ins.lookup i = some x → Does (.inputNoActivity i) s [.tim] (fun c =>
    c.tim.ins.lookup i = some { x with act := false, open_ := true } ∧
    (∀ j, j ≠ i → c.tim.ins.lookup j = s.c.tim.ins.lookup j) ∧
    ∀ d y, s.c.tim.dps.lookup d = some y → c.tim.dps.lookup d = some (if y.sel = i ∧ (y.state = dpAcq ∨ y.state = dpLocked) then { y with ffo := meanTicks y } else y))) ∧
  (∀ s i x, onImage s.c = true → (i < 16 ∨ tapActive s.c i = true) → (8 ≤ i ∨ refinOn s.c i = true) → s.c.tim.ins.lookup i = some x →
    Does (.inputActivity i) s [.tim] (fun c => c.tim.ins.lookup i = some { x with act := true } ∧
      ∀ j, j ≠ i → c.tim.ins.lookup j = s.c.tim.ins.lookup j)) ∧
  (∀ s i x m, onImage s.c = true → 8 ≤ i → i ≤ 11 → todValid m = true → s.c.tim.ins.lookup i = some x → x.todRun = 2 →
    x.todLast = some (beNat ((m.drop 4).take 6) - 1) → 0 < beNat ((m.drop 4).take 6) →
    Does (.todMessageReceived i m) s [.tim] (fun c => ∃ y, c.tim.ins.lookup i = some y ∧ y.todOk = true ∧
      y.todLast = some (beNat ((m.drop 4).take 6)) ∧ y.utc = BitVec.ofNat 16 (beNat ((m.drop 10).take 2)))) ∧
  (∀ s i x, onImage s.c = true → s.c.tim.ins.lookup i = some x → x.todOk = true → x.todTick + 24000 ≤ s.c.dev.tick →
    Does (.todTimeout i) s [.tim] (fun c => c.tim.ins.lookup i = some { x with todOk := false })) ∧
  (∀ s i x, onImage s.c = true → s.c.tim.ins.lookup i = some x → tapEsmc s.c i = true → x.esmcTick + 40000 ≤ s.c.dev.tick →
    Does (.esmcTimeout i) s [.tim] (fun c => c.tim.ins.lookup i = some { x with rxQl := 0xB }))

/-- R315: the pulse that follows the message of the reference T1 steps to sets T1's time to the second named. R300: an input whose
own drift lies at its limit with no other to compare is warned of at the minute. R303: a temperature reading is taken, the third that
fails in a row sets `TEMP_FAIL`; the oscillator's failure clears every `HO_READY` with its notice; the synthesiser's unlock is marked
from its tick until it relocks. -/
def Obligations.TimeReferencesAndOscillator : Prop :=
  (∀ s i x sec, onImage s.c = true → 8 ≤ i → i ≤ 11 → s.c.tim.ins.lookup i = some x → x.todLast = some sec → x.todFresh = true →
    s.c.tim.t1.stepTo = some i → Does (.refinPulse i) s [.tim] (fun c =>
      c.tim.t1.time = sec * 4000000000 ∧ c.tim.t1.stepTo = none ∧ ∀ y, s.c.tim.dps.lookup 1 = some y → c.tim.dps.lookup 1 = some { y with buildOut := 0 })) ∧
  (∀ s i x, onImage s.c = true → 8 ≤ i → i ≤ 11 → s.c.tim.ins.lookup i = some x → s.c.tim.t1.stepTo ≠ some i →
    Does (.refinPulse i) s [.tim] (fun c =>
      c.tim.ins.lookup i = some { x with todPulses := x.todPulses + 1, todFresh := false } ∧ c.tim.t1 = s.c.tim.t1)) ∧
  (∀ s i x r d, onImage s.c = true → s.c.dev.tick % 480000 = 0 → s.c.dev.tick ≠ 0 → isDone 4 s.c = false →
    s.c.tim.ins.lookup i = some x → inRec s.c i = some r → x.dRaw = some d → x.driftWarn = false → 0 < inDriftLim r →
    inDriftLim r * 1000 ≤ d.natAbs → (∀ j, j ≠ i → qualified s.c j = false) →
    Does (.driftEvaluation i) s [.nq, .notice, .tim, .dep] (fun c =>
      c.tim.ins.lookup i = some { x with drift := d, driftWarn := true, driftRun := 1, driftTick := s.c.dev.tick })) ∧
  (∀ s v, s.c.dev.state ≠ .cold → Does (.oscTempRead (some v)) s [.nq, .notice, .tim, .dep] (fun c =>
    c.tim.osc.temp = v ∧ c.tim.osc.badReads = 0)) ∧
  (∀ s, s.c.dev.state ≠ .cold → s.c.tim.osc.badReads = 2 → s.c.tim.osc.tempFail = false → NoticeRoom 1 s.c →
    Does (.oscTempRead none) s [.nq, .notice, .tim, .dep] (fun c =>
      c.tim.osc.tempFail = true ∧ c.tim.osc.temp = s.c.tim.osc.temp ∧ Raised (event 0x25 0 0 1 0 0 s.c.dev.tick false) c)) ∧
  (∀ s, s.c.dev.state ≠ .cold → s.c.tim.osc.fail = false → NoticeRoom 1 s.c → Does .oscFail s [.nq, .notice, .tim, .dep] (fun c =>
    c.tim.osc.fail = true ∧ (∀ d y, s.c.tim.dps.lookup d = some y → c.tim.dps.lookup d = some { y with hoReady := false }) ∧
    Raised (event 0x25 0 0 0 0 0 (s.c.dev.tick + 1) false) c)) ∧
  (∀ s, s.c.dev.state ≠ .cold → Does .t0SynthUnlock s [.tim] (fun c =>
    c.tim = { s.c.tim with osc := { s.c.tim.osc with unlock := some s.c.dev.tick } })) ∧
  (∀ s, s.c.dev.state ≠ .cold → Does .t0SynthRelock s [.tim] (fun c =>
    c.tim = { s.c.tim with osc := { s.c.tim.osc with unlock := none } }))

/-- R310, R311: a DPLL whose criteria held for its lock time is LOCKED; one whose phase error stood a second beyond 1 µs
acquires again. R314: the end of a switch's measurement span closes the loop with the difference built out. R306: the wait to restore
that ends takes the host's input. R331: a holdover past its days is LOST. R343: the watchdog's expiry leaves T1 in FREE_RUN where no
holdover is ready. -/
def Obligations.DpllsChangeState : Prop :=
  (∀ s d x f, s.c.dev.state ≠ .cold → s.c.tim.dps.lookup d = some x → x.state = dpAcq → x.span = none → x.lockFrom = some f →
    f + lockTicks (dpBw (dpRec s.c d)) ≤ s.c.dev.tick → NoticeRoom 1 s.c →
    Does (.dpllLock d) s [.nq, .notice, .tim, .dep] (fun c =>
      c.tim.dps.lookup d = some { x with state := dpLocked, stateTick := s.c.dev.tick, lockFrom := none, badFrom := none } ∧
      Raised (event 0x22 0 0 dpLocked d x.sel s.c.dev.tick false) c)) ∧
  (∀ s d x f, s.c.dev.state ≠ .cold → s.c.tim.dps.lookup d = some x → x.state = dpLocked → x.badFrom = some f →
    f + 8000 ≤ s.c.dev.tick → NoticeRoom 1 s.c → Does (.dpllLockLoss d) s [.nq, .notice, .tim, .dep] (fun c =>
      c.tim.dps.lookup d = some { x with state := dpAcq, stateTick := s.c.dev.tick, lockFrom := none, badFrom := none, period := x.period + 1 } ∧
      Raised (event 0x22 0 0 dpAcq d x.sel s.c.dev.tick false) c)) ∧
  (∀ s d x diff e, s.c.dev.state ≠ .cold → s.c.tim.dps.lookup d = some x → x.span = some e → e ≤ s.c.dev.tick →
    Does (.switchSpanEnd d diff) s [.tim] (fun c =>
      c.tim.dps.lookup d = some { x with span := none, buildOut := x.buildOut + diff, pulling := x.pullNext && x.buildOut + diff ≠ 0, pullNext := false } ∧
      ∀ k, k ≠ d → c.tim.dps.lookup k = s.c.tim.dps.lookup k)) ∧
  (∀ s d x, onImage s.c = true → s.c.tim.dps.lookup d = some x → x.wtr = some 0 → x.host ≠ noInput → mayTake s.c d x.host = true →
    Does (.refWtrExpiry d) s [.nq, .notice, .tim, .dep] (fun c =>
      ∃ y, c.tim.dps.lookup d = some y ∧ y.sel = x.host ∧ y.wtr = none ∧ (y.state = dpLocked ∨ y.state = dpAcq))) ∧
  (∀ s d x h, s.c.dev.state ≠ .cold → s.c.tim.dps.lookup d = some x → x.state = dpHold → x.ho = some h →
    lostOnDays s.c d s.c.dev.tick h = true → Does (.holdoverLost d) s [.nq, .notice, .tim, .dep] (fun c =>
      ∃ y, c.tim.dps.lookup d = some y ∧ y.state = dpLost ∧ y.stateTick = s.c.dev.tick ∧ y.ho = some h)) ∧
  (∀ s x, onImage s.c = true → s.c.tim.dps.lookup 1 = some x → x.hoReady = false → s.c.tim.t1.swMode = true →
    s.c.tim.t1.expired = false → swTimeout s.c ≠ 0 → s.c.tim.t1.ownTick + swTimeout s.c < s.c.dev.tick → NoticeRoom 1 s.c →
    Does .swWatchdogExpiry s [.nq, .notice, .tim, .dep] (fun c => c.tim.t1.expired = true ∧
      ∃ y, c.tim.dps.lookup 1 = some y ∧ y.state = dpFree ∧ y.sel = noInput ∧ y.ffo = 0))

/-- R322: at a minute the DPLL's record joins the ring, at most 4,096 kept. R327, R328: at an hour the hours in service advance and
the models are refitted and published. R297, R308: after the steps of a second boundary the quality level sent is T0's, every input's open
mark is gone, and they do not run twice in one tick. -/
def Obligations.TimingRecords : Prop :=
  (∀ s d x, s.c.dev.state ≠ .cold → s.c.dev.tick % 480000 = 0 → s.c.dev.tick ≠ 0 → s.c.tim.dps.lookup d = some x → x.minCnt ≠ 0 →
    Does (.minuteRecord d) s [.tim] (fun c =>
      c.tim.dps.lookup d = some { x with ring := ({ fin := s.c.dev.tick, ctl := x.minSum / x.minCnt, temp := x.minTemp / x.minCnt, usable := x.minOk, hours := s.c.tim.osc.hours, period := x.period } :: x.ring).take 4096, minSum := 0, minCnt := 0, minTemp := 0, minOk := true } ∧
      ∀ k, k ≠ d → c.tim.dps.lookup k = s.c.tim.dps.lookup k)) ∧
  (∀ s, s.c.dev.state ≠ .cold → s.c.dev.tick % 28800000 = 0 → s.c.dev.tick ≠ 0 → isDone 5 s.c = false → s.c.power.throt = [] →
    Does .modelRefit s [.dev, .nq, .notice, .tim, .dep] (fun c =>
      c.tim.osc.hours = s.c.tim.osc.hours + 1 ∧ c.tim.modelPub = modelWord c.tim.osc s.c.dev.tick ∧ isDone 5 c = true)) ∧
  (∀ s refs, s.c.dev.state ≠ .cold → s.c.dev.tick % 8000 = 0 → isDone 3 s.c = false →
    Does (.timingSecondBoundary refs) s [.dev, .mb, .int, .nq, .notice, .host, .tim, .dep] (fun c =>
      c.tim.ql = qlSent c ∧ c.tim.loop = loopPort c ∧ (∀ i x, c.tim.ins.lookup i = some x → x.open_ = false) ∧ isDone 3 c = true)) ∧
  (∀ s refs, isDone 3 s.c = true → exec (.timingSecondBoundary refs) s = .next s)

/-- R341: `T1_SW_CTRL` is held for the next boundary; the frequency is taken from its owner alone, a sample from the servo's. R342: a
sample of 1 µs or more steps T1's time while not locked, a lesser one moves the frequency. R345: a tick move within 2 ns of its
target ends. R346, R347: a realigned output's edge ends its move. R349, R350: a message that is due is sent unless squelched. -/
def Obligations.SoftwareAndOutputs : Prop :=
  (∀ s v, s.c.dev.state ≠ .cold → t1SwCtrlOk v = true → Does (.t1SwCtrlWrite v) s [.tim] (fun c =>
    c.tim = { s.c.tim with t1 := { s.c.tim.t1 with ctrl := { s.c.tim.t1.ctrl with wr := v } } })) ∧
  (∀ s v, s.c.dev.state ≠ .cold → t1SwCtrlOk v = false → exec (.t1SwCtrlWrite v) s = .fault (.unpredictableAccess 0 0x4060)) ∧
  (∀ s v, s.c.dev.state ≠ .cold → Does (.t1SwFfoWrite v) s [.tim] (fun c =>
    c.tim = if swOwner s.c then { s.c.tim with t1 := { s.c.tim.t1 with ffoWr := v, ffoNew := true, ownTick := s.c.dev.tick, ownNew := true } } else s.c.tim)) ∧
  (∀ s v, s.c.dev.state ≠ .cold → Does (.t1SwOffsetWrite v) s [.tim] (fun c =>
    c.tim = if swOwner s.c then s.c.tim else { s.c.tim with t1 := { s.c.tim.t1 with sample := some (toSigned 32 v.toNat), ownTick := s.c.dev.tick, ownNew := true } })) ∧
  (∀ s v, onImage s.c = true → isDone 6 s.c = false → dpSoft s.c 1 = true → swOwner s.c = false → s.c.dev.sbDown = false →
    s.c.tim.t1.sample = some v → Does .swServoRun s [.dev, .tim] (fun c => isDone 6 c = true ∧
      if s.c.tim.t1.swLocked = false ∧ 4000 ≤ v.natAbs then c.tim.t1.time = ((s.c.tim.t1.time : Int) - v).toNat ∧ c.tim.t1.sample = none
      else c.tim.t1.time = s.c.tim.t1.time ∧ c.tim.t1.ffoNew = true ∧ c.tim.t1.ffoWr = BitVec.ofNat 32 (ofSigned 32 (clampInt (-2147483648) 2147483647 (toSigned 32 s.c.tim.t1.ffoWr.toNat + Config.servoStep (dpBw (dpRec s.c 1)) (toSigned 32 s.c.tim.t1.ffoWr.toNat) v))))) ∧
  (∀ s, s.c.dev.state ≠ .cold → s.c.tim.tickMoving = true → s.c.tim.tickLeft.natAbs ≤ 16 → NoticeRoom 1 s.c →
    Does .tickMoveEnd s [.nq, .notice, .tim, .dep] (fun c => c.tim = { s.c.tim with tickMoving := false, tickLeft := 0 } ∧
      Raised (event 0x29 0 0 s.c.tim.tickKind 0 0 s.c.dev.tick false) c)) ∧
  (∀ s t, onImage s.c = true → framePulse (theImage s.c) t = true → (getOut s.c t).move = 2 →
    ((getOut s.c t).last : Int) + outPeriod (theImage s.c) t + (getOut s.c t).step ≤ s.c.tim.t1.time →
    Does (.outputAlignEnd t) s [.nq, .notice, .host, .tim, .dep] (fun c =>
      c.host.out = s.c.host.out ++ [.edge t s.c.dev.tick] ∧
      getOut c t = { off := normOff ((getOut s.c t).off + (getOut s.c t).step) (outPeriod (theImage s.c) t), shown := normOff ((getOut s.c t).off + (getOut s.c t).step) (outPeriod (theImage s.c) t), last := (((getOut s.c t).last : Int) + outPeriod (theImage s.c) t + (getOut s.c t).step).toNat, move := 0, step := 0 })) ∧
  (∀ s d, onImage s.c = true → s.c.tim.todDue = some d → d ≤ s.c.dev.tick → Does .todoutMessage s [.host, .tim] (fun c =>
    c.tim = { s.c.tim with todDue := none } ∧
    c.host.out = if outLow s.c 0x18 then s.c.host.out else s.c.host.out ++ [.todout (todBytes s.c)]))

/-- R230, R242: a defect present for its integration time is declared failed, one absent for its clearing time clears; no other
defect changes. A failure that no root holds, at a point with no tributary below it, raises its class's notice while correlation is
off. -/
def Obligations.FailuresDeclareAndClear : Prop :=
  (∀ s kind ref level bit, detects s.c = true → (dget s.c (dkey kind ref level bit)).failed = false →
    (dget s.c (dkey kind ref level bit)).present = true → integTicks s.c ≤ (dget s.c (dkey kind ref level bit)).pres →
    0 < (dget s.c (dkey kind ref level bit)).pres → suppressed (theImage s.c) s.c (dkey kind ref level bit) = false →
    Does (.failureDeclared kind ref level bit) s [.dev, .nq, .notice, .dfx, .dep] (fun c =>
      dget c (dkey kind ref level bit) = { dget s.c (dkey kind ref level bit) with failed := true, abs := 0, decl := s.c.dev.tick } ∧
      (∀ j, j ≠ dkey kind ref level bit → dget c j = dget s.c j) ∧
      (3 ≤ dkKind (dkey kind ref level bit) → holderOf s.c.dfx.roots (dkRef (dkey kind ref level bit)) = none →
        subtree (theImage s.c) (dkKind (dkey kind ref level bit)) (dkRef (dkey kind ref level bit)) = [] → corrOn s.c = false →
        wouldRaise (dkey kind ref level bit) s.c = true → NoticeRoom 1 s.c →
        Raised { pointNotice (dkey kind ref level bit) false s.c.dev.tick with prio := bits (classRec s.c (pointClass s.c (dkKind (dkey kind ref level bit)) (dkRef (dkey kind ref level bit)))) 8 2 } c))) ∧
  (∀ s kind ref level bit, detects s.c = true → (dget s.c (dkey kind ref level bit)).failed = true →
    clearTicks s.c ≤ (dget s.c (dkey kind ref level bit)).abs → 0 < (dget s.c (dkey kind ref level bit)).abs →
    Does (.failureCleared kind ref level bit) s [.dev, .nq, .notice, .dfx, .dep] (fun c =>
      dget c (dkey kind ref level bit) = { dget s.c (dkey kind ref level bit) with failed := false, abs := 0 } ∧
      ∀ j, j ≠ dkey kind ref level bit → dget c j = dget s.c j))

/-- R233: a window of correlation that ends with its least members, while no failure waits behind a root, opens one burst root over
their tributaries; the window is gone. R231, R526: a write of `DEFECT_CTRL` or `CORR_CTRL` in its ranges is held for the next boundary, one out of them is
unpredictable (R12). R243: the signal box moves held notices into the queue, oldest first, until none is held or the queue is full. -/
def Obligations.CorrelationAndNotices : Prop :=
  (∀ s family port w m, s.c.dfx.wins.find? (fun w => w.family = family && w.port = port) = some w → w.fin ≤ s.c.dev.tick →
    m ∈ burstMembers s.c family port → w.least ≤ (burstMembers s.c family port).length →
    (∀ e, e ∈ s.c.dfx.fails → e.2.how ≠ 3) → Does (.corrWindowEnd family port) s [.dev, .nq, .notice, .dfx, .dep] (fun c =>
      (∃ r, r ∈ c.dfx.roots ∧ r.kind = 2 ∧ r.family = family ∧ r.ref = port ∧ r.list = burstList s.c family port) ∧
      c.dfx.wins = s.c.dfx.wins.filter (fun v => !(v.family = family && v.port = port)))) ∧
  (∀ s v, s.c.dev.state ≠ .cold → defectCtrlOk v = true → Does (.defectCtrlWrite v) s [.dfx, .pair] (fun c =>
    c.dfx = { s.c.dfx with ctrl := { s.c.dfx.ctrl with wr := v } })) ∧
  (∀ s v, s.c.dev.state ≠ .cold → defectCtrlOk v = false → exec (.defectCtrlWrite v) s = .fault (.unpredictableAccess 0 0x3080)) ∧
  (∀ s v, s.c.dev.state ≠ .cold → corrCtrlOk v = true → Does (.corrCtrlWrite v) s [.dfx, .pair] (fun c =>
    c.dfx = { s.c.dfx with corr := { s.c.dfx.corr with wr := v } })) ∧
  (∀ s v, s.c.dev.state ≠ .cold → corrCtrlOk v = false → exec (.corrCtrlWrite v) s = .fault (.unpredictableAccess 0 0x3084)) ∧
  (∀ s, s.c.dev.state ≠ .cold → s.c.dev.sbDown = false → Does .noticeEnqueue s [.nq, .notice, .dep] (fun c =>
    ∃ k, c.nq.items = s.c.nq.items ++ (s.c.notice.held.take k).map noticeItem ∧ c.notice.held = s.c.notice.held.drop k ∧
      (c.notice.held = [] ∨ nqRoom ≤ qCount c.nq)))

/-- R274 to R278, R281: an evaluation without a command turns a working member's SF into the request SFW and selects
protection at the next boundary, unless lockout or forced switch stands; with the condition gone a revertive group waits to restore.
A member's hold-off timer that ends raises its request; the wait that ends leaves no request. After 400 ticks without the far end's
return `FOP_NR` stands. -/
def Obligations.ProtectionEvaluates : Prop :=
  (∀ s g x r, onImage s.c = true → s.c.prot.groups.lookup g = some x → protRec s.c g = some r → x.evalAt < s.c.dev.tick →
    x.born < s.c.dev.tick → protWaiting s.c = none → protBidir r = false → protHold r = 0 → x.w.inSf = true → x.p.inSf = false →
    x.standing ≠ 1 → x.standing ≠ 2 → Does .protectionEvaluation s [.prot] (fun c =>
      ∃ y, c.prot.groups.lookup g = some y ∧ y.state = stSFW ∧ y.select = true ∧ y.evalAt = s.c.dev.tick ∧
        (x.select = false → y.decided = some (s.c.dev.tick + 1)))) ∧
  (∀ s g x r, onImage s.c = true → s.c.prot.groups.lookup g = some x → protRec s.c g = some r → x.evalAt < s.c.dev.tick →
    x.born < s.c.dev.tick → protWaiting s.c = none → protBidir r = false → protRevert r = true → protWtr r ≠ 0 → x.loc = stSFW →
    protHold r = 0 → x.w.inSf = false → x.w.inSd = false → x.p.inSf = false → x.p.inSd = false → x.standing = 0 →
    Does .protectionEvaluation s [.prot] (fun c =>
      ∃ y, c.prot.groups.lookup g = some y ∧ y.state = stWTR ∧ y.wtr = protWtr r * 8000 ∧ y.select = true)) ∧
  (∀ s g x r, onImage s.c = true → s.c.prot.groups.lookup g = some x → protRec s.c g = some r → x.evalAt < s.c.dev.tick →
    x.born < s.c.dev.tick → protWaiting s.c = none → protBidir r = false → x.w.hold = 1 → x.w.inSf = true → x.p.inSf = false →
    x.p.reqSf = false → x.p.hold = 0 → x.standing ≠ 1 → x.standing ≠ 2 → Does (.holdoffExpiry g 0) s [.prot] (fun c =>
      (∃ y, c.prot.groups.lookup g = some y ∧ y.w.reqSf = true ∧ y.w.hold = 0 ∧ y.state = stSFW ∧ y.select = true) ∧
      ∀ h, h ≠ g → c.prot.groups.lookup h = s.c.prot.groups.lookup h)) ∧
  (∀ s g x r, onImage s.c = true → s.c.prot.groups.lookup g = some x → protRec s.c g = some r → x.evalAt < s.c.dev.tick →
    x.born < s.c.dev.tick → protWaiting s.c = none → protBidir r = false → x.loc = stWTR → x.wtr = 1 → x.w.inSf = false →
    x.w.inSd = false → x.p.inSf = false → x.p.inSd = false → x.w.reqSf = false → x.w.reqSd = false → x.p.reqSf = false →
    x.p.reqSd = false → x.standing = 0 → Does (.wtrExpiry g) s [.prot] (fun c =>
      (∃ y, c.prot.groups.lookup g = some y ∧ y.state = stNR ∧ y.loc = stNR ∧ y.wtr = 0 ∧ y.select = false) ∧
      ∀ h, h ≠ g → c.prot.groups.lookup h = s.c.prot.groups.lookup h)) ∧
  (∀ s g x t, onImage s.c = true → s.c.prot.groups.lookup g = some x → x.nrSince = some t → t + 400 ≤ s.c.dev.tick →
    Does (.fopNrTimeout g) s [.prot] (fun c => c.prot.groups.lookup g = some { x with fopNr := true } ∧
      ∀ h, h ≠ g → c.prot.groups.lookup h = s.c.prot.groups.lookup h))

/-- R211, R287: a selection that is due changes the selector at its boundary, counts the change, and raises the group's notice
unless its class is muted. R284, R285: a lockout that waits in the mailbox is always accepted by the next tick's evaluation: it
stands, working is selected, and the reply carries code 0 with the group's state. -/
def Obligations.SelectorsAndCommands : Prop :=
  (∀ s g x r d, onImage s.c = true → s.c.prot.groups.lookup g = some x → protRec s.c g = some r → x.decided = some d →
    d ≤ s.c.dev.tick → (getSel s.c g).select ≠ x.select → NoticeRoom 1 s.c →
    Does (.selectorChange g) s [.nq, .notice, .jct, .prot, .dep] (fun c =>
      getSel c g = { getSel s.c g with select := x.select, switches := (getSel s.c g).switches + 1 } ∧
      (∀ h, h ≠ g → getSel c h = getSel s.c h) ∧
      c.prot.groups.lookup g = some { x with decided := none, lastSwitch := s.c.dev.tick } ∧
      (noticeMute (classRec s.c (grpClass s.c r)) = false → Raised { event 0x15 0 0 x.cause g (bnat x.select) s.c.dev.tick false with prio := bits (classRec s.c (grpClass s.c r)) 8 2 } c))) ∧
  (∀ s g x r, onImage s.c = true → s.c.prot.groups.lookup g = some x → protRec s.c g = some r → x.evalAt < s.c.dev.tick →
    x.born < s.c.dev.tick → protWaiting s.c = some (1, g) → s.c.dev.sbDown = false →
    Does .protectionEvaluation s [.mb, .int, .host, .prot, .pair] (fun c =>
      (∃ y, c.prot.groups.lookup g = some y ∧ y.standing = 1 ∧ y.state = stLO ∧ y.select = false) ∧
      c.mb.cur = none ∧ c.mb.done = true ∧ c.mb.result = 0 ∧ c.mb.reply0 = 0x1A00))

/-- R425, R427, R428: a submission of a command of kind B that passes its checks is carried out: the command is accepted, with the tick as
its A and its parameters, `BUSY` reads 1, and from the next tick on, while the mailbox stands so, it is the command that boundary's
step judges (for `PROT_CMD` that tick's evaluation); nothing else changes but the count of submissions. What the boundary does with it
and its reply are the boundary's own effect. -/
def Obligations.MailboxCommandsWait : Prop :=
  ∀ s tag code ok i, (i, code, ok) ∈ [(Instr.protCmd tag, 0x020, protCmdOk s.c), (.refSelect tag, 0x030, refSelectOk s.c),
      (.timeAdjust tag, 0x031, timeAdjustOk s.c), (.tickAlign tag, 0x032, tickAlignOk s.c), (.ppsAlign tag, 0x033, ppsAlignOk s.c),
      (.phaseStep tag, 0x034, phaseStepOk s.c), (.hoReset tag, 0x035, true), (.tabletClaim tag, 0x041, true)] →
    s.c.dev.state ≠ .cold → s.c.mb.cur = none → mbLegal code s.c.dev.state false = true →
    mbParamsOk code s.c.dev.state s.c = true → ok = true → Does i s [.mb, .dep] (fun c =>
      c.mb = { s.c.mb with cur := some { code := code, tag := tag, accept := s.c.dev.tick, p0 := s.c.mb.p0, p1 := s.c.mb.p1, p2 := s.c.mb.p2, p3 := s.c.mb.p3 }, accept := s.c.dev.tick } ∧
      bitAt (mbStatusWord c.mb) 31 = true ∧
      ∀ d n, d.mb = c.mb → d.mb.held = none → s.c.dev.tick < n →
        cmdWaiting code n d = some { code := code, tag := tag, accept := s.c.dev.tick, p0 := s.c.mb.p0, p1 := s.c.mb.p1, p2 := s.c.mb.p2, p3 := s.c.mb.p3 } ∧
        (code = 0x020 → d.dev.tick = n → protWaiting d = some (bits s.c.mb.p0 16 3, bits s.c.mb.p0 0 16)) ∧
        (code = 0x030 → refWaiting d n = some (bits s.c.mb.p0 0 2, bits s.c.mb.p0 16 6)))

/-- R425, R427, R430: every command submitted while `BUSY` is 1 is discarded with `MB_OVERRUN`; in a state that does not admit it
it is refused with 0x01, and with a reserved or absent parameter word that is not 0 with 0x03. A refusal leaves everything but the
mailbox, the interrupt of its `DONE` and the count of submissions as it was (and a card's file as last found). -/
def Obligations.MailboxRefuses : Prop :=
  (∀ s tag file p, p ∈ mbRows tag file → s.c.dev.state ≠ .cold → s.c.mb.cur ≠ none →
    Does p.2 s [.mb, .upd] (fun c => c.mb = { s.c.mb with overrun := true } ∧ c.upd.live = s.c.upd.live ∧ c.upd.act = s.c.upd.act)) ∧
  (∀ s tag file p, p ∈ mbRows tag file → s.c.dev.state ≠ .cold → s.c.mb.cur = none → s.c.dev.sbDown = false →
    mbLegal p.1 s.c.dev.state (s.c.upd.bootFail ≠ 0) = false → (p.1 < 0x050 → mbLegal p.1 s.c.dev.state false = false) →
    Does p.2 s [.mb, .int, .host, .upd, .dep] (fun c => IntSet 0 c ∧ c.upd.live = s.c.upd.live ∧ c.upd.act = s.c.upd.act ∧
      c.mb = { s.c.mb with cur := none, held := none, done := true, code := BitVec.ofNat 12 p.1, tag := tag, result := 1, reply0 := 0, reply1 := 0, accept := s.c.dev.tick })) ∧
  (∀ s tag file p, p ∈ mbRows tag file → s.c.dev.state ≠ .cold → s.c.mb.cur = none → s.c.dev.sbDown = false →
    mbLegal p.1 s.c.dev.state (s.c.upd.bootFail ≠ 0) = true → (p.1 < 0x050 → mbLegal p.1 s.c.dev.state false = true) →
    mbParamsOk p.1 s.c.dev.state s.c = false →
    Does p.2 s [.mb, .int, .host, .upd, .dep] (fun c => IntSet 0 c ∧ c.upd.live = s.c.upd.live ∧ c.upd.act = s.c.upd.act ∧
      c.mb = { s.c.mb with cur := none, held := none, done := true, code := BitVec.ofNat 12 p.1, tag := tag, result := 3, reply0 := 0, reply1 := 0, accept := s.c.dev.tick }))

/-- R417: a hot reset resets `INT_ENABLE`, `INT_VEC0`, `INT_VEC1`, the MSI-X table and the PBA, and nothing else at all. -/
def Obligations.PcieResetResetsOnly : Prop :=
  ∀ s, s.c.dev.state ≠ .cold → Does .pcieReset s [.int] (fun c =>
    c.int = { s.c.int with enable := 0, vec0 := 0, vec1 := 0, msix := [], pba := [] })

/-- R419, R418, R420, R11: a write of `SCRATCH` is read back; one of a parameter register is kept while `BUSY` is 0; bytes written to
the staging regions read back and every other byte of memory stays; a write of a read-only register or of an offset with none has no
effect; a write R12 or R418 calls misuse is unpredictable. -/
def Obligations.RegisterWritesAct : Prop :=
  (∀ s b0 b1 b2 b3, s.c.dev.state ≠ .cold → Does (.registerWrite 0 4 [b0, b1, b2, b3]) s [.dev] (fun c =>
    c.dev = { s.c.dev with scratch := BitVec.ofNat 32 (leNat [b0, b1, b2, b3]) } ∧ readA c 0 4 = BitVec.ofNat 32 (leNat [b0, b1, b2, b3]))) ∧
  (∀ s b0 b1 b2 b3, s.c.dev.state ≠ .cold → s.c.mb.cur = none → Does (.registerWrite 0 0x1010 [b0, b1, b2, b3]) s [.mb] (fun c =>
    c.mb = { s.c.mb with p0 := BitVec.ofNat 32 (leNat [b0, b1, b2, b3]) })) ∧
  (∀ s b0 b1 b2 b3, s.c.dev.state ≠ .cold → s.c.mb.cur ≠ none →
    exec (.registerWrite 0 0x1010 [b0, b1, b2, b3]) s = .fault (.unpredictableAccess 0 0x1010)) ∧
  (∀ s a l, s.c.dev.state ≠ .cold → s.c.mb.cur = none → (l.length = 4 ∧ a % 4 = 0 ∨ l.length = 8 ∧ a % 8 = 0) → a + l.length ≤ 0x01000000 →
    ∃ t, exec (.registerWrite 1 a l) s = .next t ∧ t.c = s.c ∧ t.pending = s.pending ∧ bytesB t a l.length = l ∧
      ∀ j, j < a ∨ a + l.length ≤ j → tget 0 t.mem j = tget 0 s.mem j) ∧
  (∀ s a k l, s.c.dev.state ≠ .cold → s.c.mb.cur = some k → k.code ∈ [0x010, 0x012, 0x013] →
    (l.length = 4 ∧ a % 4 = 0 ∨ l.length = 8 ∧ a % 8 = 0) → a + l.length ≤ 0x01000000 →
    exec (.registerWrite 1 a l) s = .fault (.unpredictableAccess 1 a)) ∧
  (∀ s b0 b1 b2 b3, s.c.dev.state ≠ .cold → exec (.registerWrite 0 0 [b0, b1, b2, b3]) s = .next s ∧
    exec (.registerWrite 0 0x60 [b0, b1, b2, b3]) s = .next s ∧ exec (.registerWrite 2 0 [b0, b1, b2, b3]) s = .next s) ∧
  (∀ s w a l, s.c.dev.state ≠ .cold → l.length ≠ 4 → l.length ≠ 8 → exec (.registerWrite w a l) s = .fault (.unpredictableAccess w a))

/-- R421, R422, R424: a clearing write clears the flag it names unless hardware sets it in the same cycle, and no other flag;
`INT_ENABLE` takes its value; a pace boundary or another source that stays set and enabled sends its message anew. -/
def Obligations.FlagsClear : Prop :=
  (∀ s mask same, s.c.dev.state ≠ .cold → Does (.w1cClear 0x1004 mask same) s [.mb] (fun c =>
    c.mb = { s.c.mb with done := (s.c.mb.done && !bitAt mask 30) || bitAt same 30, overrun := (s.c.mb.overrun && !bitAt mask 29) || bitAt same 29 })) ∧
  (∀ s mask same k, s.c.dev.state ≠ .cold → k < 8 → Does (.w1cClear 0x2000 mask same) s [.int, .host] (fun c =>
    bitAt c.int.status k = ((bitAt s.c.int.status k && !bitAt mask k) || bitAt same k) ∧ c.int.enable = s.c.int.enable)) ∧
  (∀ s v k, s.c.dev.state ≠ .cold → bits v 8 24 = 0 → k < 8 → Does (.interruptWrite false v) s [.int, .host] (fun c =>
    bitAt c.int.status k = (bitAt s.c.int.status k && !bitAt v k) ∧ c.int.enable = s.c.int.enable)) ∧
  (∀ s v, s.c.dev.state ≠ .cold → bits v 8 24 = 0 → bitAt (tget msixDflt s.c.int.msix (bits s.c.int.vec0 24 6)).ctl 0 = false →
    s.c.int.status = 8 → bitAt (BitVec.ofNat 8 v.toNat) 3 = true →
    Does (.interruptWrite true v) s [.int, .host] (fun c => c.int = { s.c.int with enable := BitVec.ofNat 8 v.toNat } ∧
      ∃ e, e = tget msixDflt s.c.int.msix (bits s.c.int.vec0 24 6) ∧
        c.host.out = s.c.host.out ++ [.msix (bits s.c.int.vec0 24 6) (BitVec.ofNat 64 (e.addrHi.toNat * 4294967296 + e.addrLo.toNat)) e.data])) ∧
  (∀ s b v, s.c.dev.state ≠ .cold → bits v 8 24 ≠ 0 →
    exec (.interruptWrite b v) s = .fault (.unpredictableAccess 0 (if b then 0x2004 else 0x2000)))

/-- R432 to R435: a pop of an empty queue delivers the idle item with the tick of the pop and leaves the queue; one of a queue whose
first item of the highest priority stands alone delivers it, captures its words and leaves the others in order; an uncorrectable word
gives the damaged item, sets `QUEUE_UNCORR` and is counted. `DROP_REST` discards the rest of the open packet. -/
def Obligations.QueuesPop : Prop :=
  (∀ s corr bad, s.c.dev.state ≠ .cold → s.c.nq.items = [] → s.c.nq.openPkt = [] → Does (.nqPop corr bad) s [.nq, .host] (fun c =>
    c.nq = { s.c.nq with w2 := 0, w1 := BitVec.ofNat 32 (s.c.dev.tick / 2 ^ 32), w0 := BitVec.ofNat 32 s.c.dev.tick } ∧
    c.host.readData = [0, 0, 0, 0] ∧ c.host.out = s.c.host.out)) ∧
  (∀ s corr bad, s.c.dev.state ≠ .cold → s.c.oq.items = [] → s.c.oq.openPkt = [] → Does (.oqPop corr bad) s [.oq, .host] (fun c =>
    c.oq = { s.c.oq with w2 := 0, w1 := BitVec.ofNat 32 (s.c.dev.tick / 2 ^ 32), w0 := BitVec.ofNat 32 s.c.dev.tick } ∧
    c.host.readData = [0, 0, 0, 0] ∧ c.host.out = s.c.host.out)) ∧
  (∀ s i l1 l2 corr, s.c.dev.state ≠ .cold → s.c.nq.openPkt = [] → s.c.nq.items = l1 ++ i :: l2 →
    (∀ j, j ∈ l1 → itemPrio i < itemPrio j) → (∀ j, j ∈ l2 → itemPrio i ≤ itemPrio j) → itemLast i = true →
    Does (.nqPop corr false) s [.nq, .host] (fun c =>
      c.nq = { s.c.nq with items := l1 ++ l2, w2 := BitVec.ofNat 32 (bits i 64 32), w1 := BitVec.ofNat 32 (bits i 32 32), w0 := BitVec.ofNat 32 (bits i 0 32), corr := BitVec.ofNat 8 (min 255 (s.c.nq.corr.toNat + corr)) } ∧
      c.host.readData = leBytes 4 (bits i 96 32))) ∧
  (∀ s i t corr, s.c.dev.state ≠ .cold → s.c.oq.openPkt = i :: t → Does (.oqPop corr false) s [.oq, .host] (fun c =>
    c.oq = { s.c.oq with openPkt := t, w2 := BitVec.ofNat 32 (bits i 64 32), w1 := BitVec.ofNat 32 (bits i 32 32), w0 := BitVec.ofNat 32 (bits i 0 32), corr := BitVec.ofNat 8 (min 255 (s.c.oq.corr.toNat + corr)) } ∧
    c.host.readData = leBytes 4 (bits i 96 32))) ∧
  (∀ s corr, s.c.dev.state ≠ .cold → 0 < qCount s.c.oq → Does (.oqPop corr true) s [.int, .oq, .host] (fun c =>
    IntSet 6 c ∧ c.oq.openPkt = [] ∧ c.oq.uncorr = BitVec.ofNat 8 (min 255 (s.c.oq.uncorr.toNat + 1)) ∧ c.oq.corr = s.c.oq.corr)) ∧
  (∀ s, s.c.dev.state ≠ .cold → Does .dropRest s [.oq] (fun c => c.oq = { s.c.oq with openPkt := [] }))

/-- R41, R426, R418: a read of a low word gives it and captures the high word as of the same cycle, so the two make one value; a read
of an offset with no register gives 0. R491, R492: `GO` starts an operation of a table access port, ignored and marked while one
runs; its end shows in `DONE`, and a read holds the block's words. -/
def Obligations.ReadsAndPorts : Prop :=
  (∀ s cyc, s.c.dev.state ≠ .cold → cyc < 375000 → Does (.latchedRead 0 0x20 4 cyc) s [.dev, .host] (fun c =>
    c.host.readData = leBytes 4 (s.c.dev.tick % 2 ^ 32) ∧ c.dev.tickHi = BitVec.ofNat 32 (s.c.dev.tick / 2 ^ 32) ∧
    c.dev.tickCyc = BitVec.ofNat 19 cyc ∧ c.dev.tick = s.c.dev.tick ∧ c.dev.state = s.c.dev.state)) ∧
  (∀ s cyc, s.c.dev.state ≠ .cold → Does (.latchedRead 0 0x1028 4 cyc) s [.mb, .host] (fun c =>
    c.host.readData = leBytes 4 (s.c.mb.accept % 2 ^ 32) ∧ c.mb = { s.c.mb with acceptHi := BitVec.ofNat 32 (s.c.mb.accept / 2 ^ 32) })) ∧
  (∀ s cyc, s.c.dev.state ≠ .cold → Does (.latchedRead 0 0x60 4 cyc) s [.host] (fun c => c.host.readData = [0, 0, 0, 0])) ∧
  (∀ s a n cyc, s.c.dev.state ≠ .cold → a % 4 = 0 → n % 4 = 0 → 0 < n → n ≤ 4096 → a + n ≤ 0x01000000 →
    Does (.latchedRead 1 a n cyc) s [.host] (fun c => c.host.readData = readBytes 0 s.mem a n)) ∧
  (∀ s cyc a n, s.c.dev.state ≠ .cold → n ≠ 4 → n ≠ 8 → exec (.latchedRead 0 a n cyc) s = .fault (.unpredictableAccess 0 a)) ∧
  (∀ s k v, s.c.dev.state ≠ .cold → k < 4 → bits v 16 11 = 0 → bitAt v 31 = true → (getTap s.c k).busy = false →
    Does (.tablePortGo k v) s [.taps] (fun c => (getTap c k).busy = true ∧ (getTap c k).write = bitAt v 27 ∧
      (getTap c k).wordEn = BitVec.ofNat 16 v.toNat ∧ ∀ j, j ≠ k → getTap c j = getTap s.c j)) ∧
  (∀ s k v, s.c.dev.state ≠ .cold → k < 4 → bits v 16 11 = 0 → bitAt v 31 = true → (getTap s.c k).busy = true →
    bitAt v 27 = (getTap s.c k).write → BitVec.ofNat 16 v.toNat = (getTap s.c k).wordEn →
    Does (.tablePortGo k v) s [.taps] (fun c => (getTap c k).busy = true ∧ (getTap c k).overrun = true)) ∧
  (∀ s k, s.c.dev.state ≠ .cold → k < 4 → (getTap s.c k).busy = true → (getTap s.c k).write = false → tapOffset (getTap s.c k) < 0x01000000 →
    Does (.tablePortDone k) s [.taps] (fun c => (getTap c k).busy = false ∧ (getTap c k).done = true ∧
      ∀ j, j < 16 → tget 0 (getTap c k).data j = BitVec.ofNat 32 (leNat (readBytes 0 s.mem (tapOffset (getTap s.c k) + 4 * j) 4)))) ∧
  (∀ s k, s.c.dev.state ≠ .cold → k < 4 → (getTap s.c k).busy = true → (getTap s.c k).write = true → (getTap s.c k).wordEn = 1 →
    tapOffset (getTap s.c k) < 0x01000000 → s.c.mb.cur = none →
    ∃ t, exec (.tablePortDone k) s = .next t ∧ (∀ p, p ∉ [Part.taps] → samePart p t.c s.c) ∧ (getTap t.c k).busy = false ∧ (getTap t.c k).done = true ∧
      readBytes 0 t.mem (tapOffset (getTap s.c k)) 4 = leBytes 4 (tget 0 (getTap s.c k).data 0).toNat ∧
      ∀ j, j < tapOffset (getTap s.c k) ∨ tapOffset (getTap s.c k) + 4 ≤ j → tget 0 t.mem j = tget 0 s.mem j)

/-- R366: `HELLO` is sent with a fault map behind it, and, once in a tick while the lanes are locked, `STATUS`. R355, R364, R365, R367: a
`HELLO` received brings the link up with the straps, digests and records compared; every message refreshes what the part knows of its
twin. R363, R374: a `STATUS` is remembered with its tick, and one that shows again the journal record it showed before asks a new
generation of a holder. R104, R367: a fault map received replaces the twin's engines and regions. R364: a lane that leaves LOCKED, or four
ticks without a message, takes the link down. -/
def Obligations.StraitMessages : Prop :=
  (∀ s, s.c.dev.state ≠ .cold → Does .helloSend s [.host, .pair, .dep] (fun c =>
    (StraitClear s.c → ∃ body head map, c.host.out = s.c.host.out ++ [.hokua 0x01 (hokuaHead s.c.dev.tick s.c ++ body), .hokua 0x07 (head ++ map)]) ∧
    c.pair = { s.c.pair with msgSeq := (s.c.pair.msgSeq + 2) % 4294967296, helloAt := s.c.dev.tick, lanesUp := true, mapSent := ownMap s.c })) ∧
  (∀ s, s.c.dev.state ≠ .cold → s.c.pair.lanesUp = true → isDone 7 s.c = false → Does .statusSend s [.dev, .host, .pair, .dep] (fun c =>
    (∃ body, Sent 0x02 body s.c.dev.tick s.c c) ∧ c.pair = { s.c.pair with msgSeq := (s.c.pair.msgSeq + 1) % 4294967296 } ∧ isDone 7 c = true)) ∧
  (∀ s, isDone 7 s.c = true → exec .statusSend s = .next s) ∧
  (∀ s h b, s.c.dev.state ≠ .cold → NoticeRoom 1 s.c → Does (.helloReceived h b) s [.nq, .notice, .pair, .dep] (fun c =>
    Seen h s.c c ∧ c.pair.linkUp = true ∧ (c.pair.strapMis = true ↔ h.pairId = pairStrap s.c) ∧
    (c.pair.placeMis = true ↔ b.rev ≠ s.c.cm.placeRev.toNat ∨ b.digest ≠ s.c.cm.digest ∨ h.imgSeq ≠ imgSeq s.c ∨ b.vers.getD 3 0 ≠ BitVec.ofNat 32 (compOf s.c.upd.run 3).ver) ∧
    (c.pair.cfgMis = true ↔ b.pairRec ≠ BitVec.ofNat 128 (handRec s.c).toNat ∧ handRec s.c ≠ 0) ∧
    c.pair.twin.fp = some b.fp ∧ c.pair.twin.unproven = b.unproven ∧ (s.c.pair.linkUp = false → c.pair.yielded = false) ∧
    (c.pair.placeMis = true → c.pair.mirror.regions = [] ∧ c.pair.mirror.full = false) ∧
    (s.c.pair.twin.unproven = true → b.unproven = false → Raised (event 0x35 0 0 1 0 (s.c.pair.epoch % 262144) s.c.dev.tick false) c))) ∧
  (∀ s h b, s.c.dev.state ≠ .cold → Does (.statusReceived h b) s [.nq, .notice, .pair, .dep] (fun c => Seen h s.c c ∧
    c.pair.twin.statTick = some s.c.dev.tick ∧ c.pair.twin.ready = b.ready ∧ c.pair.twin.warm = b.warm ∧ c.pair.twin.unproven = b.unproven ∧
    c.pair.mirror.twinRec = b.lastJournal ∧
    (s.c.pair.holder = true → h.devState = 7 → b.lastJournal ≠ 0 → b.lastJournal = s.c.pair.mirror.twinRec →
      s.c.pair.twin.statTick ≠ some s.c.dev.tick → c.pair.mirror.again = true))) ∧
  (∀ s h mode, s.c.dev.state ≠ .cold → Does (.takenReceived h mode) s [.pair, .dep] (fun c => Seen h s.c c ∧ c.pair.twin.holder = h.holder ∧
    c.pair.holder = s.c.pair.holder ∧ c.pair.epoch = s.c.pair.epoch)) ∧
  (∀ s h es rs i, s.c.dev.state ≠ .cold → i < 64 → Does (.faultMapReceived h es rs) s [.isl, .pair, .dep] (fun c => Seen h s.c c ∧
    (getIsl c i).twinOut = tget 0 es i ∧ (∀ r, r ∈ (getIsl c i).twinRegions ↔ (i, r) ∈ rs) ∧ (getIsl c i).engOut = (getIsl s.c i).engOut)) ∧
  (∀ s, s.c.dev.state ≠ .cold → Does (.straitLinkDown true) s [.pair] (fun c => c.pair = { s.c.pair with linkUp := false, lanesUp := false })) ∧
  (∀ s, s.c.dev.state ≠ .cold → s.c.pair.linkUp = true → s.c.pair.lastMsg + 4 < s.c.dev.tick →
    Does (.straitLinkDown false) s [.pair] (fun c => c.pair = { s.c.pair with linkUp := false }))

/-- R358: a renewal that is due is sent and awaits its acknowledgement; one received is recorded by a standby and answered; an
acknowledgement carries the lease to the tick its renewal was sent in. R359, R366: a release with the holder's epoch is noted.
R360: the lease's end without an echo makes a yielding holder go dark. R363: a release condition makes a holder with a ready twin give
up the tablet with its code, and one whose twin is not ready keep it with a notice. -/
def Obligations.LeaseAndRelease : Prop :=
  (∀ s, renewDue s.c.dev.tick s.c = true → Does .leaseRenewSend s [.host, .pair, .dep] (fun c => Sent 0x03 [] s.c.dev.tick s.c c ∧
    c.pair.renewAt = s.c.dev.tick ∧ c.pair.sends.lookup s.c.pair.msgSeq = some s.c.dev.tick ∧ c.pair.acked = s.c.pair.acked)) ∧
  (∀ s h, s.c.dev.state ≠ .cold → Does (.leaseRenewReceived h) s [.host, .pair, .dep] (fun c => Seen h s.c c ∧
    c.pair.renewed = (if s.c.dev.state = .standby then some s.c.dev.tick else s.c.pair.renewed) ∧
    (StraitClear s.c → ∃ head, c.host.out = s.c.host.out ++ [.hokua 0x04 (head ++ [h.seq])]))) ∧
  (∀ s h q t, s.c.dev.state ≠ .cold → s.c.pair.sends.lookup q = some t → s.c.pair.acked ≤ t → Does (.leaseAckReceived h q) s [.pair, .dep] (fun c =>
    Seen h s.c c ∧ c.pair.acked = t ∧ holderEnd c = t + pairLease (pairRec s.c) ∧
    c.pair.twinTick = (h.txTick : Int) + ((s.c.dev.tick - t) / 2 : Nat) - (s.c.dev.tick : Int))) ∧
  (∀ s h code, s.c.dev.state ≠ .cold → s.c.pair.seen ≤ h.epoch → Does (.releaseReceived h code) s [.pair, .dep] (fun c => Seen h s.c c ∧
    c.pair.released = some s.c.dev.tick ∧ c.pair.relCode = code ∧ c.pair.twin.holder = false)) ∧
  (∀ s h code, s.c.dev.state ≠ .cold → h.epoch < s.c.pair.seen → Does (.releaseReceived h code) s [.pair, .dep] (fun c => Seen h s.c c ∧
    c.pair.released = s.c.pair.released ∧ c.pair.relCode = s.c.pair.relCode)) ∧
  (∀ s, s.c.pair.holder = true → paired s.c = true → s.c.pair.acked + pairLease (pairRec s.c) ≤ s.c.dev.tick → pairYield (pairRec s.c) = true →
    (s.c.pair.echo.present = false ∨ s.c.pair.echo.sawOff = true) → NoticeRoom 1 s.c →
    Does .holderLeaseEnd s [.dev, .int, .nq, .notice, .host, .pair, .dep] (fun c => GaveUp 9 s.c c ∧ c.pair.yielded = true ∧ IntSet 5 c ∧
      Sent 0x05 [9] s.c.dev.tick s.c c ∧ Raised (event 0x31 0 0 9 0 (s.c.pair.epoch % 262144) s.c.dev.tick false) c)) ∧
  (∀ s, pairYield (pairRec s.c) = false → exec .holderLeaseEnd s = .next s) ∧
  (∀ s k t, s.c.pair.holder = true → paired s.c = true → s.c.dev.state = .running → ownConds s.c = k :: t → twinReady s.c = true → NoticeRoom 1 s.c →
    Does .selfDiagnosedRelease s [.dev, .int, .nq, .notice, .host, .pair, .dep] (fun c => GaveUp k s.c c ∧ IntSet 5 c ∧
      Sent 0x05 [k] s.c.dev.tick s.c c ∧ Raised (event 0x31 0 0 k 0 (s.c.pair.epoch % 262144) s.c.dev.tick false) c)) ∧
  (∀ s k, s.c.pair.holder = true → paired s.c = true → s.c.dev.state = .running → ownConds s.c = [k] → twinReady s.c = false →
    s.c.pair.withheld = [] → NoticeRoom 1 s.c → Does .selfDiagnosedRelease s [.nq, .notice, .pair, .dep] (fun c =>
      c.pair.holder = true ∧ c.pair.withheld = [k] ∧ Raised (event 0x33 0 0 k 0 (s.c.pair.epoch % 262144) s.c.dev.tick false) c))

/-- R359, R376, R357: a standby whose conditions hold enters HANDOVER with an epoch past every one seen, and installs a cold state where it
cannot be warm; two boundaries later it runs, lit while its hub is healthy, with the selectors of a warm state in the adopted states; one
that gave the tablet up meanwhile goes on to STANDBY as it is (log 15). R361: the interlock and echo inputs follow their lines. R355: a
holder against the interlock for 8,000 ticks gives up. R362: lost hub health darkens every transmitter and drops the interlock at once.
R377: 8,000 ticks prove the transmit path. -/
def Obligations.TakeoverAndInterlock : Prop :=
  (∀ s, takeDue s.c.dev.tick s.c = true → warmOk s.c = false → NoticeRoom 1 s.c →
    Does .standbyTakeover s [.dev, .int, .nq, .notice, .host, .jct, .pm, .prot, .pair, .dep] (fun c =>
      c.dev.state = .handover ∧ c.dev.lit = s.c.dev.lit ∧ c.pair.holder = true ∧ c.pair.epoch = (max s.c.pair.epoch s.c.pair.seen + 1) % 4294967296 ∧
      c.pair.handAt = s.c.dev.tick ∧ c.pair.warm = false ∧
      (∀ k r, s.c.pm.recs.lookup k = some r → c.pm.recs.lookup k = some (freshRec s.c s.c.dev.tick)) ∧
      (∀ g r x, protRec s.c g = some r → s.c.prot.groups.lookup g = some x → c.prot.groups.lookup g = some (grpNew r s.c.dev.tick) ∧ (getSel c g).select = false))) ∧
  (∀ s, takeDue s.c.dev.tick s.c = true → warmOk s.c = true → NoticeRoom 1 s.c →
    Does .standbyTakeover s [.dev, .int, .nq, .notice, .host, .pair, .dep] (fun c =>
      c.dev.state = .handover ∧ c.pair.holder = true ∧ c.pair.epoch = (max s.c.pair.epoch s.c.pair.seen + 1) % 4294967296 ∧
      c.pair.handAt = s.c.dev.tick ∧ c.pair.warm = true ∧ IntSet 4 c)) ∧
  (∀ s, s.c.dev.state = .handover → s.c.pair.handAt + 2 ≤ s.c.dev.tick → s.c.pair.warm = false → s.c.pair.holder = true →
    Does .handoverComplete s [.dev, .int, .host, .pair] (fun c =>
    c.dev.state = .running ∧ c.dev.lit = !s.c.pair.hubBad ∧ c.pair.holder = true ∧ c.pair.mirror.records = [] ∧ IntSet 4 c)) ∧
  (∀ s, s.c.dev.state = .handover → s.c.pair.handAt + 2 ≤ s.c.dev.tick → s.c.pair.warm = false → s.c.pair.holder = false →
    Does .handoverComplete s [.dev, .int, .host, .pair] (fun c =>
    c.dev.state = .standby ∧ c.dev.lit = s.c.dev.lit ∧ c.pair.holder = false ∧ IntSet 4 c)) ∧
  (∀ s, s.c.dev.state = .handover → s.c.pair.handAt + 2 ≤ s.c.dev.tick → s.c.pair.warm = true → s.c.pair.holder = true → s.c.pair.mirror.regions = [] →
    Does .handoverComplete s [.dev, .int, .host, .pm, .prot, .pair] (fun c => c.dev.state = .running ∧ c.dev.lit = !s.c.pair.hubBad ∧
      (∀ g x, s.c.prot.groups.lookup g = some x → c.prot.groups.lookup g = some { x with select := selectsP x.state, decided := some s.c.dev.tick }) ∧
      ∀ k r, s.c.pm.recs.lookup k = some r → c.pm.recs.lookup k = some (partBins s.c r))) ∧
  (∀ s, s.c.dev.state ≠ .cold → Does .intlkInPresent s [.pair] (fun c => c.pair = { s.c.pair with intlk := { s.c.pair.intlk with present := true, sawOn := true } })) ∧
  (∀ s, s.c.dev.state ≠ .cold → Does .intlkInReleased s [.pair] (fun c => c.pair = { s.c.pair with intlk := { s.c.pair.intlk with present := false, sawOff := true } })) ∧
  (∀ s b, s.c.dev.state ≠ .cold → Does (.echoInChange b) s [.pair] (fun c =>
    c.pair = { s.c.pair with echo := { present := b, sawOn := s.c.pair.echo.sawOn || b, sawOff := s.c.pair.echo.sawOff || !b } })) ∧
  (∀ s, s.c.pair.holder = true → paired s.c = true → 8000 ≤ s.c.pair.tieRun → NoticeRoom 1 s.c →
    Does .strapInterlockTimeout s [.dev, .int, .nq, .notice, .host, .pair, .dep] (fun c => GaveUp 0xA s.c c ∧ c.pair.tieRun = 0 ∧
      (s.c.pair.gaveOnce = true → s.c.pair.linkUp = false → c.pair.yielded = true) ∧ (s.c.pair.linkUp = false → c.pair.gaveOnce = true) ∧
      Raised (event 0x31 0 0 0xA 0 (s.c.pair.epoch % 262144) s.c.dev.tick false) c)) ∧
  (∀ s, s.c.dev.state ≠ .cold → Does .hubHealthLost s [.dev, .pair] (fun c => c.dev = { s.c.dev with lit := false } ∧ drives c = false ∧
    c.pair = { s.c.pair with hubBad := true, run := 0 })) ∧
  (∀ s, s.c.pair.unproven = true → 8000 ≤ s.c.pair.run → NoticeRoom 1 s.c → Does .txPathProven s [.nq, .notice, .pair, .dep] (fun c =>
    c.pair = { s.c.pair with unproven := false } ∧ Raised (event 0x35 0 0 0 0 (s.c.pair.epoch % 262144) s.c.dev.tick false) c))

/-- R372: a holder that mirrors starts a generation where none runs or the standby asks another, sends one region at a time and ends it.
R373: the journal record of the last tick is sent once. R374: a standby keeps a region, a whole generation and a complete record; an
incomplete or a missing record or a lag beyond 64 ticks makes the mirror stale. A change of the twin's image ends what was held before. -/
def Obligations.MirrorFollows : Prop :=
  (∀ s, mirrors s.c = true → (s.c.pair.mirror.active = false ∨ s.c.pair.mirror.again = true) → Does .generationStart s [.host, .pair, .dep] (fun c =>
    c.pair.mirror = { s.c.pair.mirror with gen := s.c.pair.mirror.gen + 1, active := true, sent := 0, sentTick := 0, startAt := s.c.dev.tick, again := false } ∧
    Sent 0x10 [s.c.pair.mirror.gen + 1, genRegions s.c, genRegions s.c * 4144, s.c.dev.tick] s.c.dev.tick s.c c)) ∧
  (∀ s, mirrors s.c = true → s.c.pair.mirror.active = true → s.c.pair.mirror.sentTick < genPace s.c →
    (s.c.pair.mirror.sent + 1 < genRegions s.c → Does .genDataSend s [.host, .pair, .dep] (fun c =>
      c.pair.mirror = { s.c.pair.mirror with sent := s.c.pair.mirror.sent + 1, sentTick := s.c.pair.mirror.sentTick + 1 } ∧
      Sent 0x11 [s.c.pair.mirror.gen, s.c.pair.mirror.sent, 1, s.c.dev.tick] s.c.dev.tick s.c c)) ∧
    (s.c.pair.mirror.sent + 1 = genRegions s.c → Does .genDataSend s [.host, .pair, .dep] (fun c => c.pair.mirror.active = false ∧
      c.pair.mirror.lastGen = s.c.pair.mirror.gen ∧ c.pair.mirror.sent = s.c.pair.mirror.sent + 1))) ∧
  (∀ s h g cls r cap items m, s.c.dev.state = .standby → s.c.pair.placeMis = false → h.imgSeq = imgSeq s.c → m = (if h.imgSeq = s.c.pair.twin.imgSeq then s.c else mirrorReset s.c).pair.mirror →
    Does (.genDataReceived h g cls r cap items) s [.pair, .dep] (fun c => Seen h s.c c ∧
      c.pair.mirror = { m with active := true, gen := g, regions := tput m.regions (cls * 16777216 + r) { gen := g, capture := cap, items := items } })) ∧
  (∀ s h g n m, s.c.dev.state = .standby → s.c.pair.placeMis = false → m = (if h.imgSeq = s.c.pair.twin.imgSeq then s.c else mirrorReset s.c).pair.mirror →
    Does (.genEndReceived h g n) s [.pair, .dep] (fun c => Seen h s.c c ∧
    c.pair.mirror = if n ≤ (m.regions.filter (fun e => e.2.gen = g)).length then { m with active := false, full := true, lastGen := g, stale := false } else { m with active := false })) ∧
  (∀ s, mirrors s.c = true → isDone 8 s.c = false → Does .journalSend s [.dev, .host, .pair, .dep] (fun c => isDone 8 c = true ∧
    ∃ body, Sent 0x13 ((s.c.dev.tick - 1) :: body) s.c.dev.tick s.c c)) ∧
  (∀ s, isDone 8 s.c = true → exec .journalSend s = .next s) ∧
  (∀ s h t ch ws ks m, s.c.dev.state = .standby → s.c.pair.placeMis = false → m = (if h.imgSeq = s.c.pair.twin.imgSeq then s.c else mirrorReset s.c).pair.mirror →
    Does (.journalReceived h t true ch ws ks) s [.pair, .dep] (fun c => Seen h s.c c ∧
      c.pair.mirror = { m with records := m.records ++ [{ tick := t, changes := ch, writes := ws, cmds := ks }], lastRec := some t, stale := m.stale || (match m.lastRec with | some u => t ≠ u + 1 | none => false) })) ∧
  (∀ s h t ch ws ks m, s.c.dev.state = .standby → s.c.pair.placeMis = false → m = (if h.imgSeq = s.c.pair.twin.imgSeq then s.c else mirrorReset s.c).pair.mirror →
    Does (.journalReceived h t false ch ws ks) s [.pair, .dep] (fun c => Seen h s.c c ∧ c.pair.mirror = { m with stale := true })) ∧
  (∀ s, s.c.dev.state = .standby → paired s.c = true → 64 < jnlLag s.c → s.c.pair.mirror.stale = false → Does .mirrorStale s [.pair] (fun c =>
    c.pair = { s.c.pair with mirror := { s.c.pair.mirror with stale := true } }))

/-- R378: `DRILL` on a part that is not paired, with a drill under way, within 16 ticks of a commit, or whose twin is not ready and warm is
answered with 1, 3, 4 or 2 and starts nothing; else it asks the twin to swap at S = A + 16, in the twin's ticks. A standby that is ready and
warm accepts, any other part declines. Accepted, the drill goes on to S, where the holder gives up with code 0x2 and the reply is 0x00;
without an acceptance by S−8 it is abandoned with reply 0x02. The swap back starts the same way, or is skipped with a notice. -/
def Obligations.DrillSwaps : Prop :=
  (∀ s tag, s.c.dev.state = .running → s.c.mb.cur = none → s.c.mb.p0.toNat < 65536 → s.c.mb.p1 = 0 → s.c.mb.p2 = 0 → s.c.mb.p3 = 0 →
    paired s.c = true → s.c.pair.drill = none →
    ¬(s.c.cm.pending = true ∧ s.c.dev.tick + 16 ≤ s.c.cm.cTick + 16 ∧ s.c.cm.cTick ≤ s.c.dev.tick + 16 + 16) →
    twinReady s.c = true → s.c.pair.twin.warm = true → Does (.drill tag) s [.mb, .host, .pair, .dep] (fun c =>
      c.pair.drill = some { swap := s.c.dev.tick + 16, ret := s.c.mb.p0.toNat, acked := false, mailbox := true } ∧ (mbHolds 0x040 c).isSome = true ∧
      Sent 0x08 [((((s.c.dev.tick + 16 : Nat) : Int) + s.c.pair.twinTick) % (2 ^ 64 : Nat)).toNat, s.c.mb.p0.toNat] s.c.dev.tick s.c c)) ∧
  (∀ s tag k, s.c.dev.state = .running → s.c.mb.cur = none → s.c.dev.sbDown = false → s.c.mb.p0.toNat < 65536 → s.c.mb.p1 = 0 → s.c.mb.p2 = 0 → s.c.mb.p3 = 0 →
    (k = 1 ∧ paired s.c = false ∨ paired s.c = true ∧
      (k = 3 ∧ s.c.pair.drill.isSome = true ∨ s.c.pair.drill = none ∧
        (k = 4 ∧ s.c.cm.pending = true ∧ s.c.dev.tick + 16 ≤ s.c.cm.cTick + 16 ∧ s.c.cm.cTick ≤ s.c.dev.tick + 16 + 16 ∨
         k = 2 ∧ ¬(s.c.cm.pending = true ∧ s.c.dev.tick + 16 ≤ s.c.cm.cTick + 16 ∧ s.c.cm.cTick ≤ s.c.dev.tick + 16 + 16) ∧ (twinReady s.c = false ∨ s.c.pair.twin.warm = false)))) →
    Does (.drill tag) s [.mb, .int, .host, .dep] (fun c => Replied 0x040 tag k 0 c)) ∧
  (∀ s h t r, s.c.dev.state = .standby → ownReady s.c = true → warmOk s.c = true → h.imgSeq = s.c.pair.twin.imgSeq → Does (.drillReqReceived h t r) s [.host, .pair, .dep] (fun c =>
    Seen h s.c c ∧ c.pair.drillIn = some (t, r) ∧ c.pair.drillRet = r ∧ (StraitClear s.c → ∃ head, c.host.out = s.c.host.out ++ [.hokua 0x09 (head ++ [0])]))) ∧
  (∀ s h t r, s.c.dev.state ≠ .cold → (s.c.dev.state ≠ .standby ∨ ownReady s.c = false ∨ s.c.pair.mirror.full = false ∨ s.c.pair.placeMis = true ∨ h.imgSeq ≠ s.c.pair.twin.imgSeq) → Does (.drillReqReceived h t r) s [.host, .pair, .dep] (fun c =>
    Seen h s.c c ∧ c.pair.drillIn = s.c.pair.drillIn ∧ (StraitClear s.c → ∃ head, c.host.out = s.c.host.out ++ [.hokua 0x09 (head ++ [1])]))) ∧
  (∀ s d, s.c.pair.drill = some d → Does (.drillAckDeadline (some true)) s [.pair] (fun c => c.pair = { s.c.pair with drill := some { d with acked := true } })) ∧
  (∀ s d k a, s.c.pair.drill = some d → d.mailbox = true → mbHolds 0x040 s.c = some k → s.c.dev.sbDown = false → a ≠ some true →
    Does (.drillAckDeadline a) s [.mb, .int, .host, .pair] (fun c => c.pair.drill = none ∧ c.mb.cur = none ∧ c.mb.tag = k.tag ∧ c.mb.result = 0 ∧ c.mb.reply0 = 2)) ∧
  (∀ s d k, s.c.pair.drill = some d → d.swap ≤ s.c.dev.tick → s.c.pair.holder = true → s.c.dev.state = .running → d.mailbox = true →
    mbHolds 0x040 s.c = some k → s.c.dev.sbDown = false → NoticeRoom 1 s.c →
    Does .drillSwap s [.dev, .mb, .int, .nq, .notice, .host, .pair, .dep] (fun c => GaveUp 2 s.c c ∧ c.pair.drill = none ∧ c.mb.cur = none ∧ c.mb.reply0 = 0 ∧
      Raised (event 0x31 0 0 2 0 (s.c.pair.epoch % 262144) s.c.dev.tick false) c)) ∧
  (∀ s t, s.c.pair.retAt = some t → t ≤ s.c.dev.tick → s.c.dev.state = .running → s.c.pair.holder = true → twinReady s.c = true → s.c.pair.twin.warm = true →
    Does .drillReturn s [.host, .pair, .dep] (fun c => c.pair.retAt = none ∧ c.pair.drill = some { swap := s.c.dev.tick + 16, ret := 0, acked := false, mailbox := false })) ∧
  (∀ s t, s.c.pair.retAt = some t → t ≤ s.c.dev.tick → s.c.dev.state = .running → s.c.pair.holder = true → twinReady s.c = false → NoticeRoom 1 s.c →
    Does .drillReturn s [.nq, .notice, .pair, .dep] (fun c => c.pair = { s.c.pair with retAt := none, drillRet := 0 } ∧
      Raised (event 0x33 0 0 2 0 (s.c.pair.epoch % 262144) s.c.dev.tick false) c))

/-- R396, R395, R407: `BUNDLE_BEGIN` of a bundle the inactive slot does not hold stores its head there, RECEIVING, with `NEXT_CHUNK` 0;
`BUNDLE_CHUNK` names `NEXT_CHUNK` or is refused with 0x0602, stores a chunk whose tag checks and refuses another with 0x0603, the
last one leaving the slot RECEIVED; `BUNDLE_ABORT` empties the slot; all three are refused with 0x060A while an activation runs. -/
def Obligations.BundlesAreReceived : Prop :=
  (∀ s tag l, Taken 0x051 s.c → s.c.upd.act = none → s.c.mb.finalUpd.pending = false → staged s.mem s.c.mb.p0.toNat = l → 128 ≤ l.length →
    hdrOk l = true → l.length = headBytes l → (inactive s.c.upd).state ≠ 1 → (inactive s.c.upd).state ≠ 2 →
    Does (.bundleBegin tag) s [.mb, .int, .host, .upd, .dep] (fun c => Replied 0x051 tag 0 0 c ∧ c.upd.nextChunk = 0 ∧
      inactive c.upd = { slotEmpty with state := 1, header := l.take 128, head2 := l.drop 128 } ∧
      slotOf c.upd (!otherSlot s.c.upd) = slotOf s.c.upd (!otherSlot s.c.upd) ∧ recInForce c.upd = recInForce s.c.upd)) ∧
  (∀ s tag l i, Taken 0x052 s.c → s.c.upd.act = none → s.c.mb.finalUpd.pending = false → s.c.mb.p0.toNat = i → (inactive s.c.upd).state = 1 →
    i = s.c.upd.nextChunk → staged s.mem (chunkLen (inactive s.c.upd).header i + 16) = l →
    if chunkGood (inactive s.c.upd) i l = true then Does (.bundleChunk tag) s [.mb, .int, .host, .upd, .dep] (fun c => Replied 0x052 tag 0 0 c ∧ c.upd.nextChunk = i + 1 ∧
      (inactive c.upd).chunks.lookup i = some l ∧ (∀ j, j ≠ i → (inactive c.upd).chunks.lookup j = (inactive s.c.upd).chunks.lookup j) ∧
      (inactive c.upd).state = (if i + 1 = hdrChunks (inactive s.c.upd).header then 2 else 1) ∧ (inactive c.upd).header = (inactive s.c.upd).header ∧
      slotOf c.upd (!otherSlot s.c.upd) = slotOf s.c.upd (!otherSlot s.c.upd))
    else Does (.bundleChunk tag) s [.mb, .int, .host, .dep] (fun c => Replied 0x052 tag 0x0603 0 c)) ∧
  (∀ s tag, Taken 0x052 s.c → s.c.upd.act = none → s.c.mb.finalUpd.pending = false → (inactive s.c.upd).state = 1 → s.c.mb.p0.toNat ≠ s.c.upd.nextChunk →
    Does (.bundleChunk tag) s [.mb, .int, .host, .dep] (fun c => Replied 0x052 tag 0x0602 0 c)) ∧
  (∀ s tag, Taken 0x056 s.c → s.c.upd.act = none → s.c.mb.finalUpd.pending = false → Does (.bundleAbort tag) s [.mb, .int, .host, .upd, .dep] (fun c =>
    Replied 0x056 tag 0 0 c ∧ inactive c.upd = slotEmpty ∧ slotOf c.upd (!otherSlot s.c.upd) = slotOf s.c.upd (!otherSlot s.c.upd))) ∧
  (∀ s tag p, p ∈ [(0x051, Instr.bundleBegin tag), (0x052, .bundleChunk tag), (0x054, .bundleVerify tag), (0x055, .bundleActivate tag), (0x056, .bundleAbort tag)] →
    Taken p.1 s.c → s.c.upd.act ≠ none → Does p.2 s [.mb, .int, .host, .dep] (fun c => Replied p.1 tag 0x060A 0 c))

/-- R397, R398, R428: verification that passes every step leaves the slot VERIFIED with final result 0, one that fails leaves the
slot as it was with the first failure's code; `SD_LOAD` without a card or file is answered 0x060F, and with one downloads it and
verifies; a card put in is remembered, and with `SD_AUTOLOAD` 1 the part takes the same steps by itself. -/
def Obligations.BundlesAreVerified : Prop :=
  (∀ s tag k mf, Taken 0x054 s.c → s.c.upd.act = none → s.c.mb.finalUpd.pending = false → s.c.upd.bootFail = 0 → (inactive s.c.upd).state = 2 →
    verifySlot s.c.upd = (k, mf) → Does (.bundleVerify tag) s [.mb, .int, .host, .upd, .dep] (fun c => Replied 0x054 tag 0 0 c ∧ IntSet 2 c ∧
      c.mb.finalUpd = { pending := false, done := true, tag := tag, reason := BitVec.ofNat 16 k } ∧ c.upd.lastCode = k ∧
      if k = 0 then inactive c.upd = { inactive s.c.upd with state := 3, verified := true, manifest := mf } else c.upd = { s.c.upd with lastCode := k })) ∧
  (∀ s tag, Taken 0x053 s.c → s.c.upd.act = none → s.c.mb.finalUpd.pending = false → Does (.sdLoad tag none) s [.mb, .int, .host, .upd, .dep] (fun c =>
    Replied 0x053 tag 0x060F 0 c ∧ c.upd = { s.c.upd with file := none })) ∧
  (∀ s tag l u k v m mf, Taken 0x053 s.c → s.c.upd.act = none → s.c.mb.finalUpd.pending = false → s.c.upd.bootFail = 0 →
    bundleBegin (l.take (headBytes l)) { s.c.upd with file := some l } = (0, u) → (inactive u).state = 1 →
    fileChunks l (inactive u).header 961 0 u = (k, v) → verifySlot v = (m, mf) →
    if k = 0 then v.bootFail = 0 → (inactive v).state = 2 → Does (.sdLoad tag (some l)) s [.mb, .int, .host, .upd, .dep] (fun c => Replied 0x053 tag 0 0 c ∧
      c.mb.finalUpd = { pending := false, done := true, tag := tag, reason := BitVec.ofNat 16 m } ∧
      if m = 0 then inactive c.upd = { inactive v with state := 3, verified := true, manifest := mf } else c.upd = { v with lastCode := m })
    else Does (.sdLoad tag (some l)) s [.mb, .int, .host, .upd, .dep] (fun c => Replied 0x053 tag 0 0 c ∧
      c.mb.finalUpd = { pending := false, done := true, tag := tag, reason := BitVec.ofNat 16 k } ∧ c.upd = { v with lastCode := k })) ∧
  (∀ s file, s.c.upd.live.sdAuto = false → Does (.sdCardInserted file) s [.upd] (fun c => c.upd = { s.c.upd with cardIn := true, file := file })) ∧
  (∀ s, s.c.dev.state ≠ .cold → s.c.dev.state ≠ .boot → s.c.upd.live.sdAuto = true → s.c.upd.act = none → s.c.mb.finalUpd.pending = false →
    Does (.sdCardInserted none) s [.upd] (fun c => c.upd = { s.c.upd with cardIn := true, file := none, lastCode := 0x060F })) ∧
  (∀ s l u k v m mf, s.c.dev.state ≠ .cold → s.c.dev.state ≠ .boot → s.c.upd.live.sdAuto = true → s.c.upd.act = none → s.c.mb.finalUpd.pending = false → s.c.upd.bootFail = 0 →
    bundleBegin (l.take (headBytes l)) { s.c.upd with cardIn := true, file := some l } = (0, u) → (inactive u).state = 1 →
    fileChunks l (inactive u).header 961 0 u = (k, v) → verifySlot v = (m, mf) →
    if k = 0 then v.bootFail = 0 → (inactive v).state = 2 → Does (.sdCardInserted (some l)) s [.upd] (fun c =>
      if m = 0 then inactive c.upd = { inactive v with state := 3, verified := true, manifest := mf } ∧ c.upd.lastCode = 0 else c.upd = { v with lastCode := m })
    else Does (.sdCardInserted (some l)) s [.upd] (fun c => c.upd = { v with lastCode := k }))

/-- R399 to R403: an activation that is taken on writes the trial record first and starts with the optical engines; a component whose
hand-over ends goes on probation in its new version; the microcode's list moves to the free siding that holds the new one with its
epoch advanced; a component that held its criterion for 80,000 ticks confirms with its notice and the next one starts, the last
ending the activation with the record confirmed; one that did not within its window makes the part fall back, the record first. -/
def Obligations.ActivationProceeds : Prop :=
  (∀ s tag k, Taken 0x055 s.c → activateRefused s.c = k → k ≠ 0 → Does (.bundleActivate tag) s [.mb, .int, .host, .dep] (fun c => Replied 0x055 tag k 0 c)) ∧
  (∀ s tag, Taken 0x055 s.c → activateRefused s.c = 0 → Does (.bundleActivate tag) s [.mb, .int, .host, .upd, .dep] (fun c => Replied 0x055 tag 0 0 c ∧
    c.mb.finalUpd.pending = true ∧ c.mb.finalUpd.tag = tag ∧ (∃ a, c.upd.act = some a ∧ a.comp = 0 ∧ a.phase = 0 ∧ a.handed = 0 ∧ a.confirmed = 0 ∧ a.fallback = false) ∧
    (s.c.upd.rec0.isSome = true → s.c.upd.rec1 = none → ∃ r, c.upd.rec1 = some r ∧ c.upd.rec0 = s.c.upd.rec0 ∧ r.slot = otherSlot s.c.upd ∧ r.trial = true ∧ r.confirmed = 0))) ∧
  (∀ s a m, s.c.upd.act = some a → a.phase = 0 → a.fallback = false → a.comp < 2 → compOf (slotOf s.c.upd (bootSlot s.c.upd)).manifest a.comp = m →
    m.comp = a.comp → Does .componentHandoverEnd s [.upd] (fun c => compOf c.upd.run a.comp = m ∧
      (∀ j, j ≠ a.comp → compOf c.upd.run j = compOf s.c.upd.run j) ∧
      ∃ b, c.upd.act = some b ∧ b.phase = 1 ∧ b.since = s.c.dev.tick ∧ b.handed = a.handed ||| 2 ^ a.comp ∧ b.comp = a.comp)) ∧
  (∀ s a i l e f, s.c.upd.act = some a → a.comp = 2 → a.phase = 0 → a.mcAt < s.c.dev.tick → i < 64 → i ∉ a.mcDone →
    (∀ j, j < 64 → j ≠ i → j ∈ a.mcDone ∧ (getIsl s.c j).bind = []) → (getIsl s.c i).bind = [(l, e)] → (getEng s.c e).role = 0 →
    bitAt (tget 0 a.mcNew i) (e % 16) = false → enginesIn s.c i 1 = [f] → bitAt (tget 0 a.mcNew i) (f % 16) = true → f ≠ e → listItems s.c i l ≠ [] →
    Does .mcMigrationStep s [.eng, .isl, .upd] (fun c => (getIsl c i).bind.lookup l = some f ∧ (getEng c f).role = 0 ∧ (getEng c f).list = l ∧
      (getEng c e).role = 1 ∧ tget 0 (getIsl c i).epochs l = nextEpoch (tget 0 (getIsl s.c i).epochs l))) ∧
  (∀ s a g, s.c.upd.act = some a → a.phase = 1 → a.fallback = false → a.goodFrom = some g → g + 80000 ≤ s.c.dev.tick → a.comp < 2 → NoticeRoom 1 s.c →
    Does .componentConfirmed s [.nq, .notice, .upd, .dep] (fun c => (∃ b, c.upd.act = some b ∧ b.comp = a.comp + 1 ∧ b.phase = 0 ∧ b.confirmed = a.confirmed ||| 2 ^ a.comp) ∧
      Raised (event 0x38 0 0 0 a.comp ((compOf s.c.upd.run a.comp).ver % 65536) s.c.dev.tick false) c)) ∧
  (∀ s a g r, s.c.upd.act = some a → a.phase = 1 → a.fallback = false → a.goodFrom = some g → g + 80000 ≤ s.c.dev.tick → a.comp = 3 → NoticeRoom 2 s.c →
    recInForce s.c.upd = some r → s.c.upd.rec0 = some r → s.c.upd.rec1 = none → s.c.mb.finalUpd.pending = true →
    Does .componentConfirmed s [.mb, .int, .nq, .notice, .host, .upd, .dep] (fun c => c.upd.act = none ∧ c.mb.finalUpd.done = true ∧ c.mb.finalUpd.reason = 0 ∧
      c.upd.rec1 = some { r with trial := false, confirmed := 15, floor := max r.floor (hdrEpoch (slotOf s.c.upd r.slot).header), seq := r.seq + 1 } ∧
      Raised (event 0x3A 0 0 0 (hdrId (slotOf s.c.upd r.slot).header % 131072) 0 s.c.dev.tick false) c)) ∧
  (∀ s a r, s.c.upd.act = some a → a.phase = 1 → a.fallback = false → a.goodFrom = none → a.since + s.c.upd.live.healthS * 8000 ≤ s.c.dev.tick → a.comp < 2 →
    recInForce s.c.upd = some r → s.c.upd.rec0 = some r → s.c.upd.rec1 = none → Does .healthWindowExpiry s [.upd] (fun c =>
      (∃ b, c.upd.act = some b ∧ b.fallback = true ∧ b.comp = a.comp ∧ b.phase = 0) ∧
      ∃ q, c.upd.rec1 = some q ∧ q.slot = !r.slot ∧ q.trial = false ∧ q.confirmed = 15 ∧ q.seq = r.seq + 1))

/-- R386, R395, R410 to R413: `DEVICE_KEY` and `SETTINGS_READ` write their bytes to `BUNDLE_STAGE` and give their number; `KEY_SET` fills a
free image key slot, replaces a key that signed the material, and is refused with 0x0610 where the key held did not sign; `KEY_WIPE` with a
file it takes clears every key and flag with its notices, and refuses any other file with 0x0610 and none with 0x060F; `SETTINGS_WRITE` takes
item 0x0004 within its ranges and refuses any other with 0x0611. An item written has the version the running signal box writes, and its former
version stays beside it while `keptItems` says so. The layouts of `KEY_SET`'s material and of the items are the model's choice (log 30). -/
def Obligations.KeysAndSettings : Prop :=
  (∀ s tag, Taken 0x050 s.c → DoesWrite (.deviceKey tag) s [.mb, .int, .host, .upd, .dep] bundleStage deviceKeyBytes (fun c =>
    Replied 0x050 tag 0 deviceKeyBytes.length c ∧ c.upd = { s.c.upd with lastCode := 0 })) ∧
  (∀ s tag l, Taken 0x058 s.c → itemBytes s.c.upd.live s.c.mb.p0.toNat = some l → l.length ≤ bundleStageSize →
    DoesWrite (.settingsRead tag) s [.mb, .int, .host, .upd, .dep] bundleStage l (fun c => Replied 0x058 tag 0 l.length c ∧ c.upd = { s.c.upd with lastCode := 0 })) ∧
  (∀ s tag, Taken 0x058 s.c → itemBytes s.c.upd.live s.c.mb.p0.toNat = none → Does (.settingsRead tag) s [.mb, .int, .host, .dep] (fun c => Replied 0x058 tag 0x0611 0 c)) ∧
  (∀ s tag, Taken 0x057 s.c → s.c.mb.p0.toNat < 4 → tget 0 s.c.upd.live.imgKeys s.c.mb.p0.toNat = 0 → s.c.upd.live.imgSig = false →
    Does (.keySet tag) s [.mb, .int, .host, .upd, .dep] (fun c => Replied 0x057 tag 0 0 c ∧
      tget 0 c.upd.live.imgKeys s.c.mb.p0.toNat = keyOfBytes ((staged s.mem keyMaterial).take 96) ∧
      (∀ j, j ≠ s.c.mb.p0.toNat → tget 0 c.upd.live.imgKeys j = tget 0 s.c.upd.live.imgKeys j) ∧ c.upd.live.opKeys = s.c.upd.live.opKeys)) ∧
  (∀ s tag l k, Taken 0x057 s.c → s.c.mb.p0.toNat < 16 → staged s.mem keyMaterial = l → tget 0 s.c.upd.live.imgKeys (s.c.mb.p0.toNat % 4) = k →
    k ≠ 0 → k ≠ keyOfBytes (l.take 96) →
    if Config.ecdsaOk k (leBytes 4 s.c.mb.p0.toNat ++ l.take 100) (sub l 100 96) = true then
      Does (.keySet tag) s [.mb, .int, .host, .upd, .dep] (fun c => Replied 0x057 tag 0 0 c ∧ c.upd.live = { s.c.upd.live with
        imgKeys := tset 0 s.c.upd.live.imgKeys (s.c.mb.p0.toNat % 4) (keyOfBytes (l.take 96)), imgSig := leAt l 96 4 % 2 = 1, vers := tput s.c.upd.live.vers 2 (writesVer s.c.upd 2), former := keptItems s.c.upd 2 })
    else Does (.keySet tag) s [.mb, .int, .host, .dep] (fun c => Replied 0x057 tag 0x0610 0 c)) ∧
  (∀ s tag l, Taken 0x05A s.c → NoticeRoom 2 s.c →
    if wipeOk s.c.upd.live.wipeFloor l = true then Does (.keyWipe tag (some l)) s [.mb, .int, .nq, .notice, .host, .upd, .dep] (fun c =>
      Replied 0x05A tag 0 0 c ∧ c.upd.live = { s.c.upd.live with imgKeys := [], opKeys := [], imgSig := false, cosign := false, wipeFloor := leAt l 16 4, vers := tput s.c.upd.live.vers 6 (writesVer s.c.upd 6), former := keptItems s.c.upd 6 } ∧
      Raised (event 0x3B 0 0 0 2 0 s.c.dev.tick false) c ∧ Raised (event 0x3B 0 0 0 3 0 s.c.dev.tick false) c)
    else Does (.keyWipe tag (some l)) s [.mb, .int, .host, .upd, .dep] (fun c => Replied 0x05A tag 0x0610 0 c ∧ c.upd = { s.c.upd with wipe := some l })) ∧
  (∀ s tag, Taken 0x05A s.c → Does (.keyWipe tag none) s [.mb, .int, .host, .upd, .dep] (fun c => Replied 0x05A tag 0x060F 0 c ∧ c.upd = { s.c.upd with wipe := none })) ∧
  (∀ s tag, Taken 0x059 s.c → s.c.mb.p0.toNat = 4 → s.c.mb.p1.toNat = 8 → 10 ≤ leAt (staged s.mem 8) 0 2 → leAt (staged s.mem 8) 0 2 ≤ 600 →
    Does (.settingsWrite tag) s [.mb, .int, .host, .upd, .dep] (fun c => Replied 0x059 tag 0 0 c ∧
      c.upd.live = { s.c.upd.live with healthS := leAt (staged s.mem 8) 0 2, sdAuto := leAt (staged s.mem 8) 2 1 % 2 = 1, allowHit := leAt (staged s.mem 8) 3 1 % 2 = 1, vers := tput s.c.upd.live.vers 4 (writesVer s.c.upd 4), former := keptItems s.c.upd 4 })) ∧
  (∀ s tag, Taken 0x059 s.c → s.c.mb.p0.toNat ≠ 4 → Does (.settingsWrite tag) s [.mb, .int, .host, .dep] (fun c => Replied 0x059 tag 0x0611 0 c))

/-- R88, R89, R58, R94, R427: a first image is stored and validation begins; a replacement or an amendment that names a tick from 10
to 28,800,000 ticks ahead while no commit is pending is pending from then on, and so is a `COMMIT_IMAGE`; one that names an earlier or a later tick, or
comes while another is pending, is answered with its code and changes no change under way; `READ_IMAGE` writes the committed
image into `IMAGE_STAGE` and gives its length. -/
def Obligations.ImagesAreAccepted : Prop :=
  (∀ s tag, Taken 0x010 s.c → s.c.dev.state ≠ .running → s.c.dev.state ≠ .standby → s.c.upd.act = none →
    Does (.loadImage tag) s [.dev, .mb, .int, .host, .cm, .dep] (fun c => Replied 0x010 tag 0 0 c ∧ c.dev = { s.c.dev with state := .validating } ∧
      c.cm = { s.c.cm with pending := false, named := none, change := some (changeNew 1 (decide (s.c.mb.p1.toNat % 2 = 1)) s.c.dev.tick (imageStaged s.mem s.c.mb.p0.toNat)) })) ∧
  (∀ s tag p, p ∈ [(0x010, Instr.loadImage tag, 2, decide (s.c.mb.p1.toNat % 2 = 1)), (0x012, .amendImage tag, 3, false)] → Taken p.1 s.c →
    s.c.dev.state = .running ∨ s.c.dev.state = .standby → s.c.upd.act = none → s.c.cm.pending = false → s.c.dev.tick + 10 ≤ param64 s.c.mb.p2 s.c.mb.p3 →
    param64 s.c.mb.p2 s.c.mb.p3 ≤ s.c.dev.tick + 28800000 → Does p.2.1 s [.mb, .int, .host, .cm, .dep] (fun c => Replied p.1 tag 0 0 c ∧
      c.mb.finalImg = { s.c.mb.finalImg with pending := true, tag := tag } ∧ c.cm = { s.c.cm with pending := true, cTick := param64 s.c.mb.p2 s.c.mb.p3, named := some (param64 s.c.mb.p2 s.c.mb.p3), copied := false, change := some (changeNew p.2.2.1 p.2.2.2 s.c.dev.tick (imageStaged s.mem s.c.mb.p0.toNat)) })) ∧
  (∀ s tag, Taken 0x011 s.c → s.c.upd.act = none → s.c.cm.pending = false → s.c.dev.tick + 10 ≤ param64 s.c.mb.p2 s.c.mb.p3 →
    param64 s.c.mb.p2 s.c.mb.p3 ≤ s.c.dev.tick + 28800000 → Does (.commitImage tag) s [.mb, .int, .host, .cm, .dep] (fun c => Replied 0x011 tag 0 0 c ∧
      c.mb.finalImg = { s.c.mb.finalImg with pending := true, tag := tag } ∧
      c.cm = { s.c.cm with pending := true, cTick := param64 s.c.mb.p2 s.c.mb.p3, named := some (param64 s.c.mb.p2 s.c.mb.p3) })) ∧
  (∀ s tag p k, p ∈ [(0x010, Instr.loadImage tag, 1), (0x012, .amendImage tag, 2), (0x011, .commitImage tag, 0)] → Taken p.1 s.c →
    (p.1 = 0x010 → s.c.dev.state = .running ∨ s.c.dev.state = .standby) → s.c.upd.act = none →
    (k = 0x0501 ∧ param64 s.c.mb.p2 s.c.mb.p3 < s.c.dev.tick + 10 ∨ k = 0x0502 ∧ s.c.dev.tick + 28800000 < param64 s.c.mb.p2 s.c.mb.p3 ∨
      k = 0x0503 ∧ s.c.cm.pending = true ∧ s.c.dev.tick + 10 ≤ param64 s.c.mb.p2 s.c.mb.p3 ∧ param64 s.c.mb.p2 s.c.mb.p3 ≤ s.c.dev.tick + 28800000) →
    Does p.2.1 s [.mb, .int, .host, .cm, .dep] (fun c => Replied p.1 tag k 0 c ∧
      c.cm = { s.c.cm with lastResult := 2, failStage := 5, failSection := 0xF, failSource := p.2.2, failReason := k, failIndex := 0xFFFFFFFF })) ∧
  (∀ s tag p, p ∈ [(0x010, Instr.loadImage tag), (0x012, .amendImage tag)] → Taken p.1 s.c → s.c.upd.act ≠ none →
    Does p.2 s [.mb, .int, .host, .cm, .dep] (fun c => Replied p.1 tag 0x060A 0 c ∧
      c.cm = { s.c.cm with lastResult := 2, failStage := 5, failSection := 0xF, failSource := (if p.1 = 0x012 then 2 else if s.c.dev.state = .running ∨ s.c.dev.state = .standby then 1 else 0), failReason := 0x060A, failIndex := 0xFFFFFFFF })) ∧
  (∀ s tag l, Taken 0x013 s.c → imageOut (theImage s.c) = l → DoesWrite (.readImage tag) s [.mb, .int, .host, .dep] 0 l (fun c => Replied 0x013 tag 0 l.length c))

/-- R56, R59, R84, R86, R88, R55, R177, R33: validation stores the placement in the shadow, or refuses the change with its record and final
result; the deadline C−8 freezes a shadow whose groups are ready, defers a first image that is ready within a tick to 8 ticks later and refuses any other late change
with 0x0504, a scrub error with 0x0505; the guard of C−1 copies the contexts of moved tributaries; the commit switches the bank, the next
boundary releases the old resources and the one after ends the rebuild; a fault found in a waking group enters the fault map and
its list leaves the engine, one reported of no waking group changes nothing, and a first image that no longer fits is held with 0x0506. -/
def Obligations.CommitsFollowTheirTicks : Prop :=
  (∀ s k im pl, s.c.cm.change = some k → k.image = none → s.c.dev.sbDown = false → changeIntegrity k s.c = none → k.kind ≠ 1 →
    changeJudge k (imgFailClear s.c) = (none, im, pl) → Does .imageValidated s [.img, .cm, .jct] (fun c => c.img = { s.c.img with shadow := pl } ∧
      c.jct = { s.c.jct with diff := ttDiff s.c.img.place pl } ∧ c.cm.failStage = 0 ∧ c.cm.failReason = 0 ∧ c.cm.failIndex = 0xFFFFFFFF ∧
      (∃ m, c.cm.change = some { k with image := some im, place := some pl, outMap := m }) ∧ c.cm.pending = s.c.cm.pending ∧ c.cm.named = s.c.cm.named)) ∧
  (∀ s k im pl, s.c.cm.change = some k → k.image = none → s.c.dev.sbDown = false → changeIntegrity k s.c = none → k.kind = 1 → s.c.cm.named = none →
    changeJudge k (imgFailClear s.c) = (none, im, pl) → Does .imageValidated s [.dev, .int, .host, .img, .cm, .jct, .line, .power] (fun c =>
      c.dev = { s.c.dev with state := .starting } ∧ c.img = { s.c.img with shadow := pl } ∧ (∃ m, c.cm.change = some { k with image := some im, place := some pl, outMap := m }))) ∧
  (∀ s k f, s.c.cm.change = some k → k.image = none → s.c.dev.sbDown = false →
    changeIntegrity k s.c = some f ∨ (changeIntegrity k s.c = none ∧ (changeJudge k (imgFailClear s.c)).1 = some f) →
    Does .imageValidated s [.dev, .mb, .int, .host, .img, .cm, .jct] (fun c => c.cm.change = none ∧ c.cm.named = none ∧ c.cm.pending = false ∧
      c.cm.failStage = f.stage ∧ c.cm.failSection = f.sect ∧ c.cm.failReason = f.reason ∧ c.cm.failIndex = BitVec.ofNat 32 f.index ∧ c.cm.failSource = k.kind - 1 ∧
      c.img = { s.c.img with shadow := s.c.img.place } ∧ c.dev = (if k.kind = 1 then { s.c.dev with state := .held } else s.c.dev) ∧
      c.mb = (if s.c.mb.finalImg.pending then { s.c.mb with finalImg := { s.c.mb.finalImg with pending := false, done := true, reason := BitVec.ofNat 16 f.reason } } else s.c.mb))) ∧
  (∀ s k C, s.c.cm.change = some k → s.c.cm.named = some C → k.commitAt = none → C ≤ s.c.dev.tick + 8 → k.kind ≠ 1 → k.place.isSome = true → groupsReady s.c = true → s.c.cm.replaceDue = false →
    Does .commitDeadline s [.cm] (fun c => c.cm = { s.c.cm with shadowReady := true, cTick := C, change := some { k with commitAt := some C, deferred := false } })) ∧
  (∀ s k C, s.c.cm.change = some k → s.c.cm.named = some C → k.commitAt = none → C ≤ s.c.dev.tick + 8 → k.kind = 1 → s.c.dev.state = .starting → k.place.isSome = true →
    groupsReady s.c = true → s.c.cm.replaceDue = false → Does .commitDeadline s [.cm] (fun c =>
      c.cm = { s.c.cm with shadowReady := true, cTick := s.c.dev.tick + 8, change := some { k with commitAt := some (s.c.dev.tick + 8), deferred := true } })) ∧
  (∀ s k C, s.c.cm.change = some k → s.c.cm.named = some C → k.commitAt = none → C ≤ s.c.dev.tick + 8 → k.kind ≠ 1 → (k.place.isSome && groupsReady s.c && !s.c.cm.replaceDue) = false →
    Does .commitDeadline s [.mb, .int, .host, .img, .cm, .jct] (fun c => c.cm.change = none ∧ c.cm.pending = false ∧ c.cm.failReason = 0x0504 ∧ c.cm.failStage = 5 ∧
      c.img = { s.c.img with shadow := s.c.img.place } ∧ (s.c.cm.pending = true → c.cm.lastResult = 2))) ∧
  (∀ s k T, s.c.cm.change = some k → k.commitAt = some T → s.c.cm.shadowReady = true → T ≤ s.c.dev.tick + 8 → s.c.dev.tick < T →
    Does .shadowScrubError s [.dev, .mb, .int, .host, .img, .cm, .jct] (fun c => c.cm.change = none ∧ c.cm.pending = false ∧ c.cm.shadowReady = false ∧ c.cm.failReason = 0x0505 ∧
      c.img = { s.c.img with shadow := s.c.img.place } ∧ c.dev.state = (if k.kind = 1 then .held else s.c.dev.state))) ∧
  (∀ s k o p v, s.c.cm.change = some k → k.commitAt = some (s.c.dev.tick + 1) → s.c.cm.copied = false → movedTribs s.c = [(o, p)] →
    (getDepot s.c o.island).slots.lookup (memKey 1 o.ctx) = some v → Does .contextCopy s [.cm, .dep] (fun c => c.cm = { s.c.cm with copied := true } ∧
      (getDepot c p.island).slots.lookup (memKey 1 p.ctx) = some v)) ∧
  (∀ s k T im pl p, p ∈ [(Instr.commit, false, 1), (.firstImageDeferredCommit, true, 3)] → s.c.cm.change = some k → k.commitAt = some T → T ≤ s.c.dev.tick → k.deferred = p.2.1 →
    k.image = some im → k.place = some pl → Does p.1 s [.dev, .mb, .int, .nq, .notice, .host, .img, .cm, .jct, .eng, .isl, .cwy, .ctx, .line, .power, .dfx, .pm, .prot, .tim, .pair, .dep, .free] (fun c =>
      c.img = { image := some im, place := pl, shadow := s.c.img.place } ∧ c.cm = { s.c.cm with activeBank := !s.c.cm.activeBank, lastResult := p.2.2, cTick := s.c.dev.tick, lastC := some s.c.dev.tick, change := none, named := none, releaseDue := true, rebuildDue := false, copied := false, newFed := newFeeds (theImage s.c) im } ∧
      c.dev.tick = s.c.dev.tick ∧ (s.c.img.image = none → (im.getRec 5 0x10000).isSome = false → c.dev.state = .running ∧ c.pair.holder = true) ∧
      (s.c.mb.finalImg.pending = true → c.mb.finalImg.done = true ∧ c.mb.finalImg.pending = false ∧ c.mb.finalImg.reason = 0))) ∧
  (∀ s C, s.c.cm.lastC = some C → s.c.cm.releaseDue = true → C + 1 ≤ s.c.dev.tick → Does .oldResourceRelease s [.cm, .pm, .dep] (fun c =>
    c.cm = { s.c.cm with shadowReady := false, releaseDue := false, rebuildDue := true })) ∧
  (∀ s C, s.c.cm.lastC = some C → s.c.cm.rebuildDue = true → C + 2 ≤ s.c.dev.tick → Does .shadowRebuildComplete s [.img, .cm, .jct] (fun c =>
    c.img = { s.c.img with shadow := s.c.img.place } ∧ c.cm = { s.c.cm with rebuildDue := false, pending := false, digest := placeDigest s.c.img.place })) ∧
  (∀ s k e, s.c.cm.change = some k → k.kind ≠ 1 → e < 1024 → (getGroup s.c (e / 16)).waking ≠ none → Does (.wakeFault [e] []) s [.eng, .isl, .power] (fun c =>
    (getEng c e).role = roleOut ∧ bitAt (getIsl c (e / 16)).engOut (e % 16) = true ∧ (∀ l, (l, e) ∉ (getIsl c (e / 16)).bind) ∧ (getGroup c (e / 16)).faulty = true)) ∧
  (∀ s k e, s.c.cm.change = some k → k.kind ≠ 1 → e < 1024 → (getGroup s.c (e / 16)).waking = none → exec (.wakeFault [e] []) s = .next s) ∧
  (∀ s k im f q e, s.c.cm.change = some k → k.kind = 1 → s.c.dev.state = .starting → s.c.dev.sbDown = false → k.image = some im → feasible (placeIn im k (addFaults [e] [] s.c)) = (some f, q) → e < 1024 →
    Does (.wakeFault [e] []) s [.dev, .mb, .int, .host, .img, .cm, .jct, .eng, .isl] (fun c => c.dev.state = .held ∧ c.cm.change = none ∧ c.cm.failReason = 0x0506 ∧
      bitAt (getIsl c (e / 16)).engOut (e % 16) = true))

/-- R481, R485, R12: `INJ_CTRL` sets `INJECT_EN`, or clears it and stops every slot at once, those armed or running being cut; writing
its reserved bits is misuse; `ARM` arms an idle slot that R482 and R483 allow, T being at least the next tick, is misuse on a slot outside them, and is ignored while
`INJECT_EN` is 0 or `KIND` is 0; an armed slot runs from boundary T and stops at boundary T + D with `DONE`. -/
def Obligations.InjectionsRun : Prop :=
  (∀ s v, s.c.dev.state ≠ .cold → bits v 16 15 = 0 → bitAt v 31 = true → Does (.injectEnWrite v) s [.dep] (fun c => c.dep = { s.c.dep with injEn := true })) ∧
  (∀ s v, s.c.dev.state ≠ .cold → bits v 16 15 = 0 → bitAt v 31 = false → Does (.injectEnWrite v) s [.dev, .nq, .notice, .host, .cwy, .ctx, .line, .dfx, .dep] (fun c => c.dep.injEn = false ∧
    ∀ k, (getInj c k).armed = false ∧ (getInj c k).running = false ∧ ((getInj s.c k).armed = true ∨ (getInj s.c k).running = true → (getInj c k).cut = true))) ∧
  (∀ s v, s.c.dev.state ≠ .cold → bits v 16 15 ≠ 0 → exec (.injectEnWrite v) s = .fault (.unpredictableAccess 0 0xC000)) ∧
  (∀ s k x, s.c.dev.state ≠ .cold → k < 16 → getInj s.c k = x → s.c.dep.injEn = true → injKind x ≠ 0 → x.armed = false → x.running = false → injSlotOk x = true → injLaneOk s.c x = true →
    Does (.injectionArm k) s [.dep] (fun c => (getInj c k).armed = true ∧ (getInj c k).running = false ∧ (getInj c k).events = 0 ∧ (getInj c k).target = x.target ∧
      (injStartTick x < 18446744073709551616 → s.c.dev.tick + 1 < 18446744073709551616 → injStartTick (getInj c k) = max (injStartTick x) (s.c.dev.tick + 1)) ∧ (∀ j, j ≠ k → getInj c j = getInj s.c j))) ∧
  (∀ s k x, s.c.dev.state ≠ .cold → k < 16 → getInj s.c k = x → s.c.dep.injEn = true → injKind x ≠ 0 → x.armed = false → x.running = false → (injSlotOk x && injLaneOk s.c x) = false →
    exec (.injectionArm k) s = .fault (.unpredictableAccess 0 (0xC118 + 0x20 * k))) ∧
  (∀ s k, k < 16 → s.c.dep.injEn = false ∨ injKind (getInj s.c k) = 0 → Does (.injectionArm k) s [] (fun c => c.dep = s.c.dep)) ∧
  (∀ s k, s.c.dev.state ≠ .cold → (getInj s.c k).armed = true → injStartTick (getInj s.c k) ≤ s.c.dev.tick → Does (.injectionStart k) s [.dev, .nq, .notice, .cwy, .ctx, .line, .dfx, .dep] (fun c =>
    getInj c k = { getInj s.c k with armed := false, running := true } ∧ (∀ j, j ≠ k → getInj c j = getInj s.c j))) ∧
  (∀ s k, s.c.dev.state ≠ .cold → (getInj s.c k).running = true → injStartTick (getInj s.c k) + injTicks (getInj s.c k) ≤ s.c.dev.tick →
    Does (.injectionEnd k) s [.dev, .nq, .notice, .host, .cwy, .ctx, .line, .dfx, .dep] (fun c => (getInj c k).running = false ∧ (getInj c k).done = true ∧ (getInj c k).events = (getInj s.c k).events ∧
      (∀ j, j ≠ k → getInj c j = getInj s.c j)))
end

