-- ==== Sys2Proof/Laws/Frame.lean ====
section
/-!
SUPPORT. Frames, first part: the chip with some of its parts blanked out, and that a change of a listed part, a condition and
a loop leave the rest. A lemma `f_mask` of these files says once which parts an operation `f` may change: blanking those, the
chip before and after are the same.
-/
namespace Sys2Proof.Machine
open Sys2Proof

/-- The chip with the listed parts blanked out. -/
def mask (l : List Part) (c : Chip) : Chip :=
  { dev := if Part.dev ∈ l then devReset else c.dev, mb := if Part.mb ∈ l then mbReset else c.mb, int := if Part.int ∈ l then intReset else c.int, nq := if Part.nq ∈ l then queueReset else c.nq, oq := if Part.oq ∈ l then queueReset else c.oq, notice := if Part.notice ∈ l then noticeReset else c.notice, taps := if Part.taps ∈ l then [] else c.taps, host := if Part.host ∈ l then hostReset else c.host, img := if Part.img ∈ l then imageReset else c.img, cm := if Part.cm ∈ l then commitReset else c.cm, jct := if Part.jct ∈ l then junctionReset else c.jct, eng := if Part.eng ∈ l then [] else c.eng, isl := if Part.isl ∈ l then [] else c.isl, cwy := if Part.cwy ∈ l then [] else c.cwy, ctx := if Part.ctx ∈ l then [] else c.ctx, line := if Part.line ∈ l then lineReset else c.line, power := if Part.power ∈ l then powerReset else c.power, dfx := if Part.dfx ∈ l then defectsReset else c.dfx, pm := if Part.pm ∈ l then pmReset else c.pm, prot := if Part.prot ∈ l then protReset else c.prot, tim := if Part.tim ∈ l then timReset else c.tim, upd := if Part.upd ∈ l then updReset else c.upd, pair := if Part.pair ∈ l then pairReset else c.pair, dep := if Part.dep ∈ l then depReset else c.dep, free := if Part.free ∈ l then 0 else c.free }

@[simp] theorem mask_set_dev {l : List Part} (h : Part.dev ∈ l) (c : Chip) (v : DevSt) : mask l { c with dev := v } = mask l c := by simp only [mask, if_pos h]
@[simp] theorem mask_set_mb {l : List Part} (h : Part.mb ∈ l) (c : Chip) (v : MbSt) : mask l { c with mb := v } = mask l c := by simp only [mask, if_pos h]
@[simp] theorem mask_set_int {l : List Part} (h : Part.int ∈ l) (c : Chip) (v : IntSt) : mask l { c with int := v } = mask l c := by simp only [mask, if_pos h]
@[simp] theorem mask_set_nq {l : List Part} (h : Part.nq ∈ l) (c : Chip) (v : QueueSt) : mask l { c with nq := v } = mask l c := by simp only [mask, if_pos h]
@[simp] theorem mask_set_oq {l : List Part} (h : Part.oq ∈ l) (c : Chip) (v : QueueSt) : mask l { c with oq := v } = mask l c := by simp only [mask, if_pos h]
@[simp] theorem mask_set_notice {l : List Part} (h : Part.notice ∈ l) (c : Chip) (v : NoticeSt) : mask l { c with notice := v } = mask l c := by simp only [mask, if_pos h]
@[simp] theorem mask_set_taps {l : List Part} (h : Part.taps ∈ l) (c : Chip) (v : (FMap TapSt)) : mask l { c with taps := v } = mask l c := by simp only [mask, if_pos h]
@[simp] theorem mask_set_host {l : List Part} (h : Part.host ∈ l) (c : Chip) (v : HostSt) : mask l { c with host := v } = mask l c := by simp only [mask, if_pos h]
@[simp] theorem mask_set_img {l : List Part} (h : Part.img ∈ l) (c : Chip) (v : ImageSt) : mask l { c with img := v } = mask l c := by simp only [mask, if_pos h]
@[simp] theorem mask_set_cm {l : List Part} (h : Part.cm ∈ l) (c : Chip) (v : CommitSt) : mask l { c with cm := v } = mask l c := by simp only [mask, if_pos h]
@[simp] theorem mask_set_jct {l : List Part} (h : Part.jct ∈ l) (c : Chip) (v : JunctionSt) : mask l { c with jct := v } = mask l c := by simp only [mask, if_pos h]
@[simp] theorem mask_set_eng {l : List Part} (h : Part.eng ∈ l) (c : Chip) (v : (FMap EngSt)) : mask l { c with eng := v } = mask l c := by simp only [mask, if_pos h]
@[simp] theorem mask_set_isl {l : List Part} (h : Part.isl ∈ l) (c : Chip) (v : (FMap IslSt)) : mask l { c with isl := v } = mask l c := by simp only [mask, if_pos h]
@[simp] theorem mask_set_cwy {l : List Part} (h : Part.cwy ∈ l) (c : Chip) (v : (FMap CwySt)) : mask l { c with cwy := v } = mask l c := by simp only [mask, if_pos h]
@[simp] theorem mask_set_ctx {l : List Part} (h : Part.ctx ∈ l) (c : Chip) (v : (FMap CtxSt)) : mask l { c with ctx := v } = mask l c := by simp only [mask, if_pos h]
@[simp] theorem mask_set_line {l : List Part} (h : Part.line ∈ l) (c : Chip) (v : LineSt) : mask l { c with line := v } = mask l c := by simp only [mask, if_pos h]
@[simp] theorem mask_set_power {l : List Part} (h : Part.power ∈ l) (c : Chip) (v : PowerSt) : mask l { c with power := v } = mask l c := by simp only [mask, if_pos h]
@[simp] theorem mask_set_dfx {l : List Part} (h : Part.dfx ∈ l) (c : Chip) (v : DefectsSt) : mask l { c with dfx := v } = mask l c := by simp only [mask, if_pos h]
@[simp] theorem mask_set_pm {l : List Part} (h : Part.pm ∈ l) (c : Chip) (v : PmSt) : mask l { c with pm := v } = mask l c := by simp only [mask, if_pos h]
@[simp] theorem mask_set_prot {l : List Part} (h : Part.prot ∈ l) (c : Chip) (v : ProtSt) : mask l { c with prot := v } = mask l c := by simp only [mask, if_pos h]
@[simp] theorem mask_set_tim {l : List Part} (h : Part.tim ∈ l) (c : Chip) (v : TimSt) : mask l { c with tim := v } = mask l c := by simp only [mask, if_pos h]
@[simp] theorem mask_set_upd {l : List Part} (h : Part.upd ∈ l) (c : Chip) (v : UpdSt) : mask l { c with upd := v } = mask l c := by simp only [mask, if_pos h]
@[simp] theorem mask_set_pair {l : List Part} (h : Part.pair ∈ l) (c : Chip) (v : PairSt) : mask l { c with pair := v } = mask l c := by simp only [mask, if_pos h]
@[simp] theorem mask_set_dep {l : List Part} (h : Part.dep ∈ l) (c : Chip) (v : DepSt) : mask l { c with dep := v } = mask l c := by simp only [mask, if_pos h]
@[simp] theorem mask_set_free {l : List Part} (h : Part.free ∈ l) (c : Chip) (v : Nat) : mask l { c with free := v } = mask l c := by simp only [mask, if_pos h]
@[simp] theorem mask_set_dev_power {l : List Part} (h : Part.dev ∈ l) (h' : Part.power ∈ l) (c : Chip) (v : DevSt) (w : PowerSt) : mask l { c with dev := v, power := w } = mask l c := by simp only [mask, if_pos h, if_pos h']
@[simp] theorem mask_set_dev_upd {l : List Part} (h : Part.dev ∈ l) (h' : Part.upd ∈ l) (c : Chip) (v : DevSt) (w : UpdSt) : mask l { c with dev := v, upd := w } = mask l c := by simp only [mask, if_pos h, if_pos h']
@[simp] theorem mask_set_mb_cm {l : List Part} (h : Part.mb ∈ l) (h' : Part.cm ∈ l) (c : Chip) (v : MbSt) (w : CommitSt) : mask l { c with mb := v, cm := w } = mask l c := by simp only [mask, if_pos h, if_pos h']
@[simp] theorem mask_set_nq_notice {l : List Part} (h : Part.nq ∈ l) (h' : Part.notice ∈ l) (c : Chip) (v : QueueSt) (w : NoticeSt) : mask l { c with nq := v, notice := w } = mask l c := by simp only [mask, if_pos h, if_pos h']
@[simp] theorem mask_set_oq_line {l : List Part} (h : Part.oq ∈ l) (h' : Part.line ∈ l) (c : Chip) (v : QueueSt) (w : LineSt) : mask l { c with oq := v, line := w } = mask l c := by simp only [mask, if_pos h, if_pos h']
@[simp] theorem mask_set_notice_dfx {l : List Part} (h : Part.notice ∈ l) (h' : Part.dfx ∈ l) (c : Chip) (v : NoticeSt) (w : DefectsSt) : mask l { c with notice := v, dfx := w } = mask l c := by simp only [mask, if_pos h, if_pos h']
@[simp] theorem mask_set_img_cm {l : List Part} (h : Part.img ∈ l) (h' : Part.cm ∈ l) (c : Chip) (v : ImageSt) (w : CommitSt) : mask l { c with img := v, cm := w } = mask l c := by simp only [mask, if_pos h, if_pos h']
@[simp] theorem mask_set_img_jct {l : List Part} (h : Part.img ∈ l) (h' : Part.jct ∈ l) (c : Chip) (v : ImageSt) (w : JunctionSt) : mask l { c with img := v, jct := w } = mask l c := by simp only [mask, if_pos h, if_pos h']
@[simp] theorem mask_set_cm_jct {l : List Part} (h : Part.cm ∈ l) (h' : Part.jct ∈ l) (c : Chip) (v : CommitSt) (w : JunctionSt) : mask l { c with cm := v, jct := w } = mask l c := by simp only [mask, if_pos h, if_pos h']
@[simp] theorem mask_set_cm_tim {l : List Part} (h : Part.cm ∈ l) (h' : Part.tim ∈ l) (c : Chip) (v : CommitSt) (w : TimSt) : mask l { c with cm := v, tim := w } = mask l c := by simp only [mask, if_pos h, if_pos h']
@[simp] theorem mask_set_jct_pm {l : List Part} (h : Part.jct ∈ l) (h' : Part.pm ∈ l) (c : Chip) (v : JunctionSt) (w : PmSt) : mask l { c with jct := v, pm := w } = mask l c := by simp only [mask, if_pos h, if_pos h']
@[simp] theorem mask_set_ctx_line {l : List Part} (h : Part.ctx ∈ l) (h' : Part.line ∈ l) (c : Chip) (v : (FMap CtxSt)) (w : LineSt) : mask l { c with ctx := v, line := w } = mask l c := by simp only [mask, if_pos h, if_pos h']
@[simp] theorem mask_set_line_dfx {l : List Part} (h : Part.line ∈ l) (h' : Part.dfx ∈ l) (c : Chip) (v : LineSt) (w : DefectsSt) : mask l { c with line := v, dfx := w } = mask l c := by simp only [mask, if_pos h, if_pos h']
@[simp] theorem mask_set_dep_free {l : List Part} (h : Part.dep ∈ l) (h' : Part.free ∈ l) (c : Chip) (v : DepSt) (w : Nat) : mask l { c with dep := v, free := w } = mask l c := by simp only [mask, if_pos h, if_pos h']


@[simp] theorem mask_when {l : List Part} {f : Chip → Chip} (h : ∀ c, mask l (f c) = mask l c) (b : Bool) (c : Chip) :
    mask l (when b f c) = mask l c := by
  cases b
  · rfl
  · exact h c

@[simp] theorem mask_forEach {α : Type} {l : List Part} {f : α → Chip → Chip} (h : ∀ a c, mask l (f a c) = mask l c)
    (xs : List α) (c : Chip) : mask l (forEach xs f c) = mask l c := by
  induction xs generalizing c with
  | nil => rfl
  | cons x t ih => exact (ih (f x c)).trans (h x c)

@[simp] theorem mask_ite {l : List Part} (p : Prop) [Decidable p] (a b : Chip) :
    mask l (if p then a else b) = if p then mask l a else mask l b := apply_ite (mask l) p a b

end Sys2Proof.Machine
end

