-- ==== Sys2Proof/Laws/Does.lean ====
section
/-!
SUPPORT. How a meaning of the form "the chip changes by f" is carried out: its frame from a mask lemma, its effect from f.
-/
namespace Sys2Proof.Machine
open Sys2Proof

@[simp] theorem onChip_c (f : Chip → Chip) (s : State) : (onChip f s).c = f s.c := rfl
@[simp] theorem onChip_mem (f : Chip → Chip) (s : State) : (onChip f s).mem = s.mem := rfl
@[simp] theorem onChip_pending (f : Chip → Chip) (s : State) : (onChip f s).pending = s.pending := rfl
@[simp] theorem when_true (f : Chip → Chip) (c : Chip) : when true f c = f c := rfl
@[simp] theorem when_false (f : Chip → Chip) (c : Chip) : when false f c = c := rfl
@[simp] theorem forEach_nil {α : Type} (f : α → Chip → Chip) (c : Chip) : forEach [] f c = c := rfl
@[simp] theorem forEach_cons {α : Type} (x : α) (t : List α) (f : α → Chip → Chip) (c : Chip) :
    forEach (x :: t) f c = forEach t f (f x c) := rfl

/-- Two values blanked under one condition agree exactly when they agree where it fails. -/
theorem blank_eq_iff {α : Type} (p : Prop) [Decidable p] (d x y : α) :
    (if p then d else x) = (if p then d else y) ↔ (¬p → x = y) := by
  by_cases h : p <;> simp [h]

/-- Blanking the listed parts tells two chips apart exactly when another part differs. -/
theorem mask_eq_iff {l : List Part} (a b : Chip) : mask l a = mask l b ↔ ∀ p, p ∉ l → samePart p a b := by
  simp only [mask, Chip.mk.injEq, blank_eq_iff]
  refine ⟨fun h p hp => ?_, fun h => ?_⟩
  · cases p <;> simp_all only [samePart, not_false_eq_true, forall_const]
  · repeat' constructor
    all_goals exact h _

/-- A meaning that changes the chip by f is carried out within the parts f may change. -/
theorem does_onChip {i : Instr} {s : State} {l : List Part} {P : Chip → Prop} (f : Chip → Chip)
    (he : exec i s = .next (onChip f s)) (hm : mask l (f s.c) = mask l s.c) (hp : P (f s.c)) : Does i s l P :=
  ⟨onChip f s, he, ⟨rfl, rfl, (mask_eq_iff _ _).1 hm⟩, hp⟩

/-- A meaning that changes the chip by f where a condition holds is carried out as f where it does. -/
theorem does_guard {i : Instr} {s : State} {l : List Part} {P : Chip → Prop} {b : Chip → Bool} {f : Chip → Chip → Chip}
    (he : exec i s = .next (onChip (fun c => when (b c) (f c) c) s)) (hb : b s.c = true)
    (hm : mask l (f s.c s.c) = mask l s.c) (hp : P (f s.c s.c)) : Does i s l P :=
  ⟨_, he, ⟨rfl, rfl, by rw [onChip_c, hb]; exact (mask_eq_iff _ _).1 hm⟩, by rw [onChip_c, hb]; exact hp⟩

end Sys2Proof.Machine
end

