-- ==== Sys2Proof/Laws/Frame1.lean ====
section
/-!
SUPPORT. Frames, continued: the parts each operation may change, one lemma an operation, callees first.
-/
namespace Sys2Proof.Machine
open Sys2Proof

@[simp] theorem takeFree_mask {l : List Part} (hfree : Part.free ∈ l) (c : Chip) : mask l (takeFree c).2 = mask l c := mask_set_free hfree c _

@[simp] theorem dupd_mask {l : List Part} (hdfx : Part.dfx ∈ l) (a0 : Nat) (a1 : DefSt → DefSt) (c : Chip) : mask l (dupd a0 a1 c) = mask l c := by
  unfold dupd
  (try dsimp only)
  (repeat' split) <;> (first | with_reducible rfl | (simp_all (maxDischargeDepth := 9); done) | (simp_all [mask]; done))

@[simp] theorem setDefect_mask {l : List Part} (hdfx : Part.dfx ∈ l) (a0 : Nat) (a1 : Bool) (c : Chip) : mask l (setDefect a0 a1 c) = mask l c := by
  unfold setDefect
  (try dsimp only)
  (repeat' split) <;> (first | with_reducible rfl | (simp_all (maxDischargeDepth := 9); done) | (simp_all [mask]; done))

@[simp] theorem accSeen_mask {l : List Part} (hline : Part.line ∈ l) (hdfx : Part.dfx ∈ l) (a0 : Nat) (a1 : Nat) (a2 : Nat) (a3 : Nat → Bool) (c : Chip) : mask l (accSeen a0 a1 a2 a3 c) = mask l c := by
  unfold accSeen
  (try dsimp only)
  (repeat' split) <;> (first | with_reducible rfl | (simp_all (maxDischargeDepth := 9); done) | (simp_all [mask]; done))

@[simp] theorem accField_mask {l : List Part} (hline : Part.line ∈ l) (hdfx : Part.dfx ∈ l) (a0 : Nat) (a1 : Nat) (a2 : Option Nat) (a3 : Nat → Bool) (c : Chip) : mask l (accField a0 a1 a2 a3 c) = mask l c := by
  unfold accField
  (try dsimp only)
  (repeat' split) <;> (first | with_reducible rfl | (simp_all (maxDischargeDepth := 9); done) | (simp_all [mask]; done))

@[simp] theorem setCm_mask {l : List Part} (hcm : Part.cm ∈ l) (a0 : CommitSt) (c : Chip) : mask l (setCm a0 c) = mask l c := by
  unfold setCm
  (try dsimp only)
  (repeat' split) <;> (first | with_reducible rfl | (simp_all (maxDischargeDepth := 9); done) | (simp_all [mask]; done))

@[simp] theorem imgFailSet_mask {l : List Part} (hcm : Part.cm ∈ l) (a0 : Nat) (a1 : ImgFail) (c : Chip) : mask l (imgFailSet a0 a1 c) = mask l c := by
  unfold imgFailSet
  (try dsimp only)
  (repeat' split) <;> (first | with_reducible rfl | (simp_all (maxDischargeDepth := 9); done) | (simp_all [mask]; done))

@[simp] theorem emit_mask {l : List Part} (hhost : Part.host ∈ l) (a0 : Output) (c : Chip) : mask l (emit a0 c) = mask l c := by
  unfold emit
  (try dsimp only)
  (repeat' split) <;> (first | with_reducible rfl | (simp_all (maxDischargeDepth := 9); done) | (simp_all [mask]; done))

@[simp] theorem sendVector_mask {l : List Part} (hint : Part.int ∈ l) (hhost : Part.host ∈ l) (a0 : Nat) (c : Chip) : mask l (sendVector a0 c) = mask l c := by
  unfold sendVector
  (try dsimp only)
  (repeat' split) <;> (first | with_reducible rfl | (simp_all (maxDischargeDepth := 9); done) | (simp_all [mask]; done))

@[simp] theorem setInt_mask {l : List Part} (hint : Part.int ∈ l) (hhost : Part.host ∈ l) (a0 : Nat) (c : Chip) : mask l (setInt a0 c) = mask l c := by
  unfold setInt
  (try dsimp only)
  (repeat' split) <;> (first | with_reducible rfl | (simp_all (maxDischargeDepth := 9); done) | (simp_all [mask]; done))

@[simp] theorem mbDeliver_mask {l : List Part} (hmb : Part.mb ∈ l) (hint : Part.int ∈ l) (hhost : Part.host ∈ l) (a0 : MbReply) (c : Chip) : mask l (mbDeliver a0 c) = mask l c := by
  unfold mbDeliver
  (try dsimp only)
  (repeat' split) <;> (first | with_reducible rfl | (simp_all (maxDischargeDepth := 9); done) | (simp_all [mask]; done))

@[simp] theorem mbReply_mask {l : List Part} (hmb : Part.mb ∈ l) (hint : Part.int ∈ l) (hhost : Part.host ∈ l) (a0 : Nat) (a1 : Nat) (a2 : Nat) (c : Chip) : mask l (mbReply a0 a1 a2 c) = mask l c := by
  unfold mbReply
  (try dsimp only)
  (repeat' split) <;> (first | with_reducible rfl | (simp_all (maxDischargeDepth := 9); done) | (simp_all [mask]; done))

@[simp] theorem mbCode_mask {l : List Part} (hmb : Part.mb ∈ l) (hint : Part.int ∈ l) (hhost : Part.host ∈ l) (a0 : Nat) (c : Chip) : mask l (mbCode a0 c) = mask l c := by
  unfold mbCode
  (try dsimp only)
  (repeat' split) <;> (first | with_reducible rfl | (simp_all (maxDischargeDepth := 9); done) | (simp_all [mask]; done))

@[simp] theorem acceptRefused_mask {l : List Part} (hmb : Part.mb ∈ l) (hint : Part.int ∈ l) (hhost : Part.host ∈ l) (hcm : Part.cm ∈ l) (a0 : Nat) (a1 : Nat) (c : Chip) : mask l (acceptRefused a0 a1 c) = mask l c := by
  unfold acceptRefused
  (try dsimp only)
  (repeat' split) <;> (first | with_reducible rfl | (simp_all (maxDischargeDepth := 9); done) | (simp_all [mask]; done))

@[simp] theorem pcntAdd_mask {l : List Part} (hdep : Part.dep ∈ l) (a0 : Nat) (a1 : Nat) (c : Chip) : mask l (pcntAdd a0 a1 c) = mask l c := by
  unfold pcntAdd
  (try dsimp only)
  (repeat' split) <;> (first | with_reducible rfl | (simp_all (maxDischargeDepth := 9); done) | (simp_all [mask]; done))

@[simp] theorem countEvent_mask {l : List Part} (hdep : Part.dep ∈ l) (a0 : Nat) (a1 : Nat) (a2 : Nat) (c : Chip) : mask l (countEvent a0 a1 a2 c) = mask l c := by
  unfold countEvent
  (try dsimp only)
  (repeat' split) <;> (first | with_reducible rfl | (simp_all (maxDischargeDepth := 9); done) | (simp_all [mask]; done))

@[simp] theorem setPair_mask {l : List Part} (hpair : Part.pair ∈ l) (a0 : PairSt) (c : Chip) : mask l (setPair a0 c) = mask l c := by
  unfold setPair
  (try dsimp only)
  (repeat' split) <;> (first | with_reducible rfl | (simp_all (maxDischargeDepth := 9); done) | (simp_all [mask]; done))

@[simp] theorem setMirror_mask {l : List Part} (hpair : Part.pair ∈ l) (a0 : MirrorSt) (c : Chip) : mask l (setMirror a0 c) = mask l c := by
  unfold setMirror
  (try dsimp only)
  (repeat' split) <;> (first | with_reducible rfl | (simp_all (maxDischargeDepth := 9); done) | (simp_all [mask]; done))

@[simp] theorem mirrorReset_mask {l : List Part} (hpair : Part.pair ∈ l)  (c : Chip) : mask l (mirrorReset  c) = mask l c := by
  unfold mirrorReset
  (try dsimp only)
  (repeat' split) <;> (first | with_reducible rfl | (simp_all (maxDischargeDepth := 9); done) | (simp_all [mask]; done))

@[simp] theorem hokuaSeen_mask {l : List Part} (hpair : Part.pair ∈ l) (hdep : Part.dep ∈ l) (a0 : HokuaHdr) (c : Chip) : mask l (hokuaSeen a0 c) = mask l c := by
  unfold hokuaSeen
  (try dsimp only)
  (repeat' split) <;> (first | with_reducible rfl | (simp_all (maxDischargeDepth := 9); done) | (simp_all [mask]; done))

@[simp] theorem ackReceived_mask {l : List Part} (hpair : Part.pair ∈ l) (hdep : Part.dep ∈ l) (a0 : HokuaHdr) (a1 : Nat) (c : Chip) : mask l (ackReceived a0 a1 c) = mask l c := by
  unfold ackReceived
  (try dsimp only)
  (repeat' split) <;> (first | with_reducible rfl | (simp_all (maxDischargeDepth := 9); done) | (simp_all [mask]; done))

@[simp] theorem updInj_mask {l : List Part} (hdep : Part.dep ∈ l) (a0 : Nat) (a1 : InjSlot → InjSlot) (c : Chip) : mask l (updInj a0 a1 c) = mask l c := by
  unfold updInj
  (try dsimp only)
  (repeat' split) <;> (first | with_reducible rfl | (simp_all (maxDischargeDepth := 9); done) | (simp_all [mask]; done))

@[simp] theorem lateStep_mask {l : List Part} (hhost : Part.host ∈ l) (hdep : Part.dep ∈ l)  (c : Chip) : mask l (lateStep  c) = mask l c := by
  unfold lateStep
  (try dsimp only)
  (repeat' split) <;> (first | with_reducible rfl | (simp_all (maxDischargeDepth := 9); done) | (simp_all [mask]; done))

@[simp] theorem straitSend_mask {l : List Part} (hhost : Part.host ∈ l) (hdep : Part.dep ∈ l) (a0 : Nat) (a1 : List Nat) (c : Chip) : mask l (straitSend a0 a1 c) = mask l c := by
  unfold straitSend
  (try dsimp only)
  (repeat' split) <;> (first | with_reducible rfl | (simp_all (maxDischargeDepth := 9); done) | (simp_all [mask]; done))

@[simp] theorem hokua_mask {l : List Part} (hhost : Part.host ∈ l) (hpair : Part.pair ∈ l) (hdep : Part.dep ∈ l) (a0 : Nat) (a1 : List Nat) (a2 : Nat) (c : Chip) : mask l (hokua a0 a1 a2 c) = mask l c := by
  unfold hokua
  (try dsimp only)
  (repeat' split) <;> (first | with_reducible rfl | (simp_all (maxDischargeDepth := 9); done) | (simp_all [mask]; done))

@[simp] theorem drainNotices_mask {l : List Part} (hnq : Part.nq ∈ l) (hnotice : Part.notice ∈ l) (hdep : Part.dep ∈ l)  (c : Chip) : mask l (drainNotices  c) = mask l c := by
  unfold drainNotices
  (try dsimp only)
  (repeat' split) <;> (first | with_reducible rfl | (simp_all (maxDischargeDepth := 9); done) | (simp_all [mask]; done))

@[simp] theorem notify_mask {l : List Part} (hnq : Part.nq ∈ l) (hnotice : Part.notice ∈ l) (hdep : Part.dep ∈ l) (a0 : Notice) (c : Chip) : mask l (notify a0 c) = mask l c := by
  unfold notify
  (try dsimp only)
  (repeat' split) <;> (first | with_reducible rfl | (simp_all (maxDischargeDepth := 9); done) | (simp_all [mask]; done))

@[simp] theorem pairNotice_mask {l : List Part} (hnq : Part.nq ∈ l) (hnotice : Part.notice ∈ l) (hdep : Part.dep ∈ l) (a0 : Nat) (a1 : Nat) (a2 : Nat) (a3 : Bool) (c : Chip) : mask l (pairNotice a0 a1 a2 a3 c) = mask l c := by
  unfold pairNotice
  (try dsimp only)
  (repeat' split) <;> (first | with_reducible rfl | (simp_all (maxDischargeDepth := 9); done) | (simp_all [mask]; done))

@[simp] theorem acquire_mask {l : List Part} (hint : Part.int ∈ l) (hnq : Part.nq ∈ l) (hnotice : Part.notice ∈ l) (hhost : Part.host ∈ l) (hpair : Part.pair ∈ l) (hdep : Part.dep ∈ l) (a0 : Nat) (a1 : Nat) (c : Chip) : mask l (acquire a0 a1 c) = mask l c := by
  unfold acquire
  (try dsimp only)
  (repeat' split) <;> (first | with_reducible rfl | (simp_all (maxDischargeDepth := 9); done) | (simp_all [mask]; done))

@[simp] theorem setUpd_mask {l : List Part} (hupd : Part.upd ∈ l) (a0 : UpdSt) (c : Chip) : mask l (setUpd a0 c) = mask l c := by
  unfold setUpd
  (try dsimp only)
  (repeat' split) <;> (first | with_reducible rfl | (simp_all (maxDischargeDepth := 9); done) | (simp_all [mask]; done))

@[simp] theorem setCode_mask {l : List Part} (hupd : Part.upd ∈ l) (a0 : Nat) (c : Chip) : mask l (setCode a0 c) = mask l c := by
  unfold setCode
  (try dsimp only)
  (repeat' split) <;> (first | with_reducible rfl | (simp_all (maxDischargeDepth := 9); done) | (simp_all [mask]; done))

@[simp] theorem updFinal_mask {l : List Part} (hmb : Part.mb ∈ l) (hint : Part.int ∈ l) (hhost : Part.host ∈ l) (a0 : Nat) (c : Chip) : mask l (updFinal a0 c) = mask l c := by
  unfold updFinal
  (try dsimp only)
  (repeat' split) <;> (first | with_reducible rfl | (simp_all (maxDischargeDepth := 9); done) | (simp_all [mask]; done))

@[simp] theorem updEnd_mask {l : List Part} (hmb : Part.mb ∈ l) (hint : Part.int ∈ l) (hhost : Part.host ∈ l) (hupd : Part.upd ∈ l) (a0 : Nat) (c : Chip) : mask l (updEnd a0 c) = mask l c := by
  unfold updEnd
  (try dsimp only)
  (repeat' split) <;> (first | with_reducible rfl | (simp_all (maxDischargeDepth := 9); done) | (simp_all [mask]; done))

@[simp] theorem updNotice_mask {l : List Part} (hnq : Part.nq ∈ l) (hnotice : Part.notice ∈ l) (hdep : Part.dep ∈ l) (a0 : Nat) (a1 : Nat) (a2 : Nat) (a3 : Nat) (a4 : Nat) (c : Chip) : mask l (updNotice a0 a1 a2 a3 a4 c) = mask l c := by
  unfold updNotice
  (try dsimp only)
  (repeat' split) <;> (first | with_reducible rfl | (simp_all (maxDischargeDepth := 9); done) | (simp_all [mask]; done))

@[simp] theorem activated_mask {l : List Part} (hmb : Part.mb ∈ l) (hint : Part.int ∈ l) (hnq : Part.nq ∈ l) (hnotice : Part.notice ∈ l) (hhost : Part.host ∈ l) (hupd : Part.upd ∈ l) (hdep : Part.dep ∈ l) (a0 : Nat) (c : Chip) : mask l (activated a0 c) = mask l c := by
  unfold activated
  (try dsimp only)
  (repeat' split) <;> (first | with_reducible rfl | (simp_all (maxDischargeDepth := 9); done) | (simp_all [mask]; done))

@[simp] theorem updAct_mask {l : List Part} (hupd : Part.upd ∈ l) (a0 : ActSt → ActSt) (c : Chip) : mask l (updAct a0 c) = mask l c := by
  unfold updAct
  (try dsimp only)
  (repeat' split) <;> (first | with_reducible rfl | (simp_all (maxDischargeDepth := 9); done) | (simp_all [mask]; done))

@[simp] theorem beginHand_mask {l : List Part} (hdev : Part.dev ∈ l) (hupd : Part.upd ∈ l) (a0 : Nat) (a1 : Nat) (c : Chip) : mask l (beginHand a0 a1 c) = mask l c := by
  unfold beginHand
  (try dsimp only)
  (repeat' split) <;> (first | with_reducible rfl | (simp_all (maxDischargeDepth := 9); done) | (simp_all [mask]; done))

@[simp] theorem confirm_mask {l : List Part} (hdev : Part.dev ∈ l) (hmb : Part.mb ∈ l) (hint : Part.int ∈ l) (hnq : Part.nq ∈ l) (hnotice : Part.notice ∈ l) (hhost : Part.host ∈ l) (hupd : Part.upd ∈ l) (hdep : Part.dep ∈ l) (a0 : Nat) (c : Chip) : mask l (confirm a0 c) = mask l c := by
  unfold confirm
  (try dsimp only)
  (repeat' split) <;> (first | with_reducible rfl | (simp_all (maxDischargeDepth := 9); done) | (simp_all [mask]; done))

@[simp] theorem fallBack_mask {l : List Part} (hdev : Part.dev ∈ l) (hupd : Part.upd ∈ l) (a0 : Nat) (c : Chip) : mask l (fallBack a0 c) = mask l c := by
  unfold fallBack
  (try dsimp only)
  (repeat' split) <;> (first | with_reducible rfl | (simp_all (maxDischargeDepth := 9); done) | (simp_all [mask]; done))

@[simp] theorem watchAct_mask {l : List Part} (hupd : Part.upd ∈ l) (a0 : Nat) (c : Chip) : mask l (watchAct a0 c) = mask l c := by
  unfold watchAct
  (try dsimp only)
  (repeat' split) <;> (first | with_reducible rfl | (simp_all (maxDischargeDepth := 9); done) | (simp_all [mask]; done))

@[simp] theorem actBoundary_mask {l : List Part} (hdev : Part.dev ∈ l) (hmb : Part.mb ∈ l) (hint : Part.int ∈ l) (hnq : Part.nq ∈ l) (hnotice : Part.notice ∈ l) (hhost : Part.host ∈ l) (hupd : Part.upd ∈ l) (hdep : Part.dep ∈ l) (a0 : Nat) (c : Chip) : mask l (actBoundary a0 c) = mask l c := by
  unfold actBoundary
  (try dsimp only)
  (repeat' split) <;> (first | with_reducible rfl | (simp_all (maxDischargeDepth := 9); done) | (simp_all [mask]; done))

@[simp] theorem updTake_mask {l : List Part} (hmb : Part.mb ∈ l) (a0 : Byte) (c : Chip) : mask l (updTake a0 c) = mask l c := by
  unfold updTake
  (try dsimp only)
  (repeat' split) <;> (first | with_reducible rfl | (simp_all (maxDischargeDepth := 9); done) | (simp_all [mask]; done))

@[simp] theorem activate_mask {l : List Part} (hdev : Part.dev ∈ l) (hmb : Part.mb ∈ l) (hint : Part.int ∈ l) (hhost : Part.host ∈ l) (hupd : Part.upd ∈ l) (a0 : Byte) (c : Chip) : mask l (activate a0 c) = mask l c := by
  unfold activate
  (try dsimp only)
  (repeat' split) <;> (first | with_reducible rfl | (simp_all (maxDischargeDepth := 9); done) | (simp_all [mask]; done))

@[simp] theorem updEng_mask {l : List Part} (heng : Part.eng ∈ l) (a0 : Nat) (a1 : EngSt → EngSt) (c : Chip) : mask l (updEng a0 a1 c) = mask l c := by
  unfold updEng
  (try dsimp only)
  (repeat' split) <;> (first | with_reducible rfl | (simp_all (maxDischargeDepth := 9); done) | (simp_all [mask]; done))

@[simp] theorem updIsl_mask {l : List Part} (hisl : Part.isl ∈ l) (a0 : Nat) (a1 : IslSt → IslSt) (c : Chip) : mask l (updIsl a0 a1 c) = mask l c := by
  unfold updIsl
  (try dsimp only)
  (repeat' split) <;> (first | with_reducible rfl | (simp_all (maxDischargeDepth := 9); done) | (simp_all [mask]; done))

@[simp] theorem engineOut_mask {l : List Part} (heng : Part.eng ∈ l) (hisl : Part.isl ∈ l) (a0 : Nat) (c : Chip) : mask l (engineOut a0 c) = mask l c := by
  unfold engineOut
  (try dsimp only)
  (repeat' split) <;> (first | with_reducible rfl | (simp_all (maxDischargeDepth := 9); done) | (simp_all [mask]; done))

@[simp] theorem addFaults_mask {l : List Part} (heng : Part.eng ∈ l) (hisl : Part.isl ∈ l) (a0 : List Nat) (a1 : List (Nat × Nat)) (c : Chip) : mask l (addFaults a0 a1 c) = mask l c := by
  unfold addFaults
  (try dsimp only)
  (repeat' split) <;> (first | with_reducible rfl | (simp_all (maxDischargeDepth := 9); done) | (simp_all [mask]; done))

@[simp] theorem bindList_mask {l : List Part} (heng : Part.eng ∈ l) (hisl : Part.isl ∈ l) (a0 : Nat) (a1 : Nat) (a2 : Nat) (c : Chip) : mask l (bindList a0 a1 a2 c) = mask l c := by
  unfold bindList
  (try dsimp only)
  (repeat' split) <;> (first | with_reducible rfl | (simp_all (maxDischargeDepth := 9); done) | (simp_all [mask]; done))

@[simp] theorem updCtx_mask {l : List Part} (hctx : Part.ctx ∈ l) (a0 : Nat) (a1 : CtxSt → CtxSt) (c : Chip) : mask l (updCtx a0 a1 c) = mask l c := by
  unfold updCtx
  (try dsimp only)
  (repeat' split) <;> (first | with_reducible rfl | (simp_all (maxDischargeDepth := 9); done) | (simp_all [mask]; done))

@[simp] theorem markUnfinished_mask {l : List Part} (hctx : Part.ctx ∈ l) (a0 : Nat) (c : Chip) : mask l (markUnfinished a0 c) = mask l c := by
  unfold markUnfinished
  (try dsimp only)
  (repeat' split) <;> (first | with_reducible rfl | (simp_all (maxDischargeDepth := 9); done) | (simp_all [mask]; done))

@[simp] theorem reassign_mask {l : List Part} (hnq : Part.nq ∈ l) (hnotice : Part.notice ∈ l) (heng : Part.eng ∈ l) (hisl : Part.isl ∈ l) (hctx : Part.ctx ∈ l) (hdep : Part.dep ∈ l) (a0 : Nat) (a1 : Nat) (a2 : Nat) (c : Chip) : mask l (reassign a0 a1 a2 c) = mask l c := by
  unfold reassign
  (try dsimp only)
  (repeat' split) <;> (first | with_reducible rfl | (simp_all (maxDischargeDepth := 9); done) | (simp_all [mask]; done))

@[simp] theorem refreshRoles_mask {l : List Part} (heng : Part.eng ∈ l) (a0 : Nat) (c : Chip) : mask l (refreshRoles a0 c) = mask l c := by
  unfold refreshRoles
  (try dsimp only)
  (repeat' split) <;> (first | with_reducible rfl | (simp_all (maxDischargeDepth := 9); done) | (simp_all [mask]; done))

@[simp] theorem toSiding_mask {l : List Part} (heng : Part.eng ∈ l) (a0 : Nat) (c : Chip) : mask l (toSiding a0 c) = mask l c := by
  unfold toSiding
  (try dsimp only)
  (repeat' split) <;> (first | with_reducible rfl | (simp_all (maxDischargeDepth := 9); done) | (simp_all [mask]; done))

@[simp] theorem adjustIsland_mask {l : List Part} (hnq : Part.nq ∈ l) (hnotice : Part.notice ∈ l) (heng : Part.eng ∈ l) (hisl : Part.isl ∈ l) (hctx : Part.ctx ∈ l) (hdep : Part.dep ∈ l) (a0 : Nat) (a1 : Nat) (c : Chip) : mask l (adjustIsland a0 a1 c) = mask l c := by
  unfold adjustIsland
  dsimp only
  refine (refreshRoles_mask heng _ _).trans ((mask_forEach ?_ _ _).trans ((updIsl_mask hisl _ _ _).trans (mask_forEach ?_ _ _)))
  · intro k c
    split
    · simp [*]
    · split <;> simp [*]
  · intro k c
    split <;> simp [*]

@[simp] theorem updLane_mask {l : List Part} (hline : Part.line ∈ l) (a0 : Nat) (a1 : LaneSt → LaneSt) (c : Chip) : mask l (updLane a0 a1 c) = mask l c := by
  unfold updLane
  (try dsimp only)
  (repeat' split) <;> (first | with_reducible rfl | (simp_all (maxDischargeDepth := 9); done) | (simp_all [mask]; done))

@[simp] theorem setLogical_mask {l : List Part} (hline : Part.line ∈ l) (a0 : Nat) (a1 : Nat) (c : Chip) : mask l (setLogical a0 a1 c) = mask l c := by
  unfold setLogical
  (try dsimp only)
  (repeat' split) <;> (first | with_reducible rfl | (simp_all (maxDischargeDepth := 9); done) | (simp_all [mask]; done))

@[simp] theorem markLogical_mask {l : List Part} (hline : Part.line ∈ l) (a0 : Nat) (a1 : Nat) (a2 : Cand) (c : Chip) : mask l (markLogical a0 a1 a2 c) = mask l c := by
  unfold markLogical
  (try dsimp only)
  (repeat' split) <;> (first | with_reducible rfl | (simp_all (maxDischargeDepth := 9); done) | (simp_all [mask]; done))

@[simp] theorem oorReturns_mask {l : List Part} (hdfx : Part.dfx ∈ l) (a0 : Nat) (c : Chip) : mask l (oorReturns a0 c) = mask l c := by
  unfold oorReturns
  (try dsimp only)
  (repeat' split) <;> (first | with_reducible rfl | (simp_all (maxDischargeDepth := 9); done) | (simp_all [mask]; done))

@[simp] theorem updUnit_mask {l : List Part} (hline : Part.line ∈ l) (a0 : Nat) (a1 : Nat) (a2 : AlignSt → AlignSt) (c : Chip) : mask l (updUnit a0 a1 a2 c) = mask l c := by
  unfold updUnit
  (try dsimp only)
  (repeat' split) <;> (first | with_reducible rfl | (simp_all (maxDischargeDepth := 9); done) | (simp_all [mask]; done))

@[simp] theorem adopt_mask {l : List Part} (hline : Part.line ∈ l) (hdfx : Part.dfx ∈ l) (a0 : Nat) (a1 : Nat) (a2 : Cand) (c : Chip) : mask l (adopt a0 a1 a2 c) = mask l c := by
  unfold adopt
  (try dsimp only)
  (repeat' split) <;> (first | with_reducible rfl | (simp_all (maxDischargeDepth := 9); done) | (simp_all [mask]; done))

@[simp] theorem setGroups_mask {l : List Part} (hprot : Part.prot ∈ l) (a0 : FMap GrpSt) (c : Chip) : mask l (setGroups a0 c) = mask l c := by
  unfold setGroups
  (try dsimp only)
  (repeat' split) <;> (first | with_reducible rfl | (simp_all (maxDischargeDepth := 9); done) | (simp_all [mask]; done))

@[simp] theorem updGrp_mask {l : List Part} (hprot : Part.prot ∈ l) (a0 : Nat) (a1 : GrpSt → GrpSt) (c : Chip) : mask l (updGrp a0 a1 c) = mask l c := by
  unfold updGrp
  (try dsimp only)
  (repeat' split) <;> (first | with_reducible rfl | (simp_all (maxDischargeDepth := 9); done) | (simp_all [mask]; done))

@[simp] theorem adoptSel_mask {l : List Part} (hprot : Part.prot ∈ l) (a0 : Nat) (a1 : Nat) (c : Chip) : mask l (adoptSel a0 a1 c) = mask l c := by
  unfold adoptSel
  (try dsimp only)
  (repeat' split) <;> (first | with_reducible rfl | (simp_all (maxDischargeDepth := 9); done) | (simp_all [mask]; done))

@[simp] theorem updPortAlign_mask {l : List Part} (hline : Part.line ∈ l) (a0 : Nat) (a1 : PortAlignSt → PortAlignSt) (c : Chip) : mask l (updPortAlign a0 a1 c) = mask l c := by
  unfold updPortAlign
  (try dsimp only)
  (repeat' split) <;> (first | with_reducible rfl | (simp_all (maxDischargeDepth := 9); done) | (simp_all [mask]; done))

@[simp] theorem countExit_mask {l : List Part} (hline : Part.line ∈ l) (a0 : Nat) (a1 : Nat) (c : Chip) : mask l (countExit a0 a1 c) = mask l c := by
  unfold countExit
  (try dsimp only)
  (repeat' split) <;> (first | with_reducible rfl | (simp_all (maxDischargeDepth := 9); done) | (simp_all [mask]; done))

@[simp] theorem updOh_mask {l : List Part} (hline : Part.line ∈ l) (a0 : Nat) (a1 : OhPortSt → OhPortSt) (c : Chip) : mask l (updOh a0 a1 c) = mask l c := by
  unfold updOh
  (try dsimp only)
  (repeat' split) <;> (first | with_reducible rfl | (simp_all (maxDischargeDepth := 9); done) | (simp_all [mask]; done))

@[simp] theorem breakChannels_mask {l : List Part} (hline : Part.line ∈ l) (a0 : Nat) (c : Chip) : mask l (breakChannels a0 c) = mask l c := by
  unfold breakChannels
  (try dsimp only)
  (repeat' split) <;> (first | with_reducible rfl | (simp_all (maxDischargeDepth := 9); done) | (simp_all [mask]; done))

@[simp] theorem dropDefect_mask {l : List Part} (hdfx : Part.dfx ∈ l) (a0 : Nat) (c : Chip) : mask l (dropDefect a0 c) = mask l c := by
  unfold dropDefect
  (try dsimp only)
  (repeat' split) <;> (first | with_reducible rfl | (simp_all (maxDischargeDepth := 9); done) | (simp_all [mask]; done))

@[simp] theorem dropKeys_mask {l : List Part} (hdfx : Part.dfx ∈ l) (a0 : Nat → Bool) (c : Chip) : mask l (dropKeys a0 c) = mask l c := by
  unfold dropKeys
  (try dsimp only)
  (repeat' split) <;> (first | with_reducible rfl | (simp_all (maxDischargeDepth := 9); done) | (simp_all [mask]; done))

@[simp] theorem dropPortFrames_mask {l : List Part} (hline : Part.line ∈ l) (hdfx : Part.dfx ∈ l) (a0 : Nat) (c : Chip) : mask l (dropPortFrames a0 c) = mask l c := by
  unfold dropPortFrames
  dsimp only
  refine Eq.trans (mask_set_line_dfx hline hdfx _ _ _) (dropKeys_mask hdfx _ _)

@[simp] theorem ingressLost_mask {l : List Part} (hctx : Part.ctx ∈ l) (a0 : Bool) (a1 : Nat) (c : Chip) : mask l (ingressLost a0 a1 c) = mask l c := by
  unfold ingressLost
  (try dsimp only)
  (repeat' split) <;> (first | with_reducible rfl | (simp_all (maxDischargeDepth := 9); done) | (simp_all [mask]; done))

@[simp] theorem leftFrame_mask {l : List Part} (hctx : Part.ctx ∈ l) (hline : Part.line ∈ l) (hdfx : Part.dfx ∈ l) (a0 : Bool) (a1 : Nat) (c : Chip) : mask l (leftFrame a0 a1 c) = mask l c := by
  unfold leftFrame
  (try dsimp only)
  (repeat' split) <;> (first | with_reducible rfl | (simp_all (maxDischargeDepth := 9); done) | (simp_all [mask]; done))

@[simp] theorem loseFrame_mask {l : List Part} (hctx : Part.ctx ∈ l) (hline : Part.line ∈ l) (hdfx : Part.dfx ∈ l) (a0 : Nat) (a1 : Nat) (c : Chip) : mask l (loseFrame a0 a1 c) = mask l c := by
  unfold loseFrame
  (try dsimp only)
  (repeat' split) <;> (first | with_reducible rfl | (simp_all (maxDischargeDepth := 9); done) | (simp_all [mask]; done))

@[simp] theorem adoptedPosition_mask {l : List Part} (hctx : Part.ctx ∈ l) (hline : Part.line ∈ l) (hdfx : Part.dfx ∈ l) (a0 : Nat) (a1 : Nat) (a2 : Nat) (a3 : Bool) (c : Chip) : mask l (adoptedPosition a0 a1 a2 a3 c) = mask l c := by
  unfold adoptedPosition
  (try dsimp only)
  (repeat' split) <;> (first | with_reducible rfl | (simp_all (maxDischargeDepth := 9); done) | (simp_all [mask]; done))

@[simp] theorem portDefects_mask {l : List Part} (hdfx : Part.dfx ∈ l) (a0 : Nat) (c : Chip) : mask l (portDefects a0 c) = mask l c := by
  unfold portDefects
  (try dsimp only)
  (repeat' split) <;> (first | with_reducible rfl | (simp_all (maxDischargeDepth := 9); done) | (simp_all [mask]; done))

@[simp] theorem afterLane_mask {l : List Part} (hdfx : Part.dfx ∈ l) (a0 : Nat) (c : Chip) : mask l (afterLane a0 c) = mask l c := by
  unfold afterLane
  (try dsimp only)
  (repeat' split) <;> (first | with_reducible rfl | (simp_all (maxDischargeDepth := 9); done) | (simp_all [mask]; done))

@[simp] theorem sectionDefects_mask {l : List Part} (hdfx : Part.dfx ∈ l) (a0 : Nat) (c : Chip) : mask l (sectionDefects a0 c) = mask l c := by
  unfold sectionDefects
  (try dsimp only)
  (repeat' split) <;> (first | with_reducible rfl | (simp_all (maxDischargeDepth := 9); done) | (simp_all [mask]; done))

@[simp] theorem setLof_mask {l : List Part} (hline : Part.line ∈ l) (hdfx : Part.dfx ∈ l) (a0 : Nat) (a1 : Nat) (a2 : Bool) (c : Chip) : mask l (setLof a0 a1 a2 c) = mask l c := by
  unfold setLof
  (try dsimp only)
  (repeat' split) <;> (first | with_reducible rfl | (simp_all (maxDischargeDepth := 9); done) | (simp_all [mask]; done))

@[simp] theorem setLom_mask {l : List Part} (hline : Part.line ∈ l) (hdfx : Part.dfx ∈ l) (a0 : Nat) (a1 : Nat) (a2 : Nat) (c : Chip) : mask l (setLom a0 a1 a2 c) = mask l c := by
  unfold setLom
  (try dsimp only)
  (repeat' split) <;> (first | with_reducible rfl | (simp_all (maxDischargeDepth := 9); done) | (simp_all [mask]; done))

@[simp] theorem alignBoundary_mask {l : List Part} (hline : Part.line ∈ l) (hdfx : Part.dfx ∈ l) (a0 : Nat) (c : Chip) : mask l (alignBoundary a0 c) = mask l c := by
  unfold alignBoundary
  (try dsimp only)
  (repeat' split) <;> (first | with_reducible rfl | (simp_all (maxDischargeDepth := 9); done) | (simp_all [mask]; done))

@[simp] theorem allUnfinished_mask {l : List Part} (hctx : Part.ctx ∈ l)  (c : Chip) : mask l (allUnfinished  c) = mask l c := by
  unfold allUnfinished
  (try dsimp only)
  (repeat' split) <;> (first | with_reducible rfl | (simp_all (maxDischargeDepth := 9); done) | (simp_all [mask]; done))

@[simp] theorem answer_mask {l : List Part} (hhost : Part.host ∈ l) (a0 : List Byte) (c : Chip) : mask l (answer a0 c) = mask l c := by
  unfold answer
  (try dsimp only)
  (repeat' split) <;> (first | with_reducible rfl | (simp_all (maxDischargeDepth := 9); done) | (simp_all [mask]; done))

@[simp] theorem apsReceived_mask {l : List Part} (hprot : Part.prot ∈ l) (a0 : Nat) (a1 : Bool) (a2 : Word) (c : Chip) : mask l (apsReceived a0 a1 a2 c) = mask l c := by
  unfold apsReceived
  (try dsimp only)
  (repeat' split) <;> (first | with_reducible rfl | (simp_all (maxDischargeDepth := 9); done) | (simp_all [mask]; done))

@[simp] theorem apsFrame_mask {l : List Part} (hprot : Part.prot ∈ l) (a0 : Nat) (a1 : Nat) (a2 : Nat) (a3 : Word) (c : Chip) : mask l (apsFrame a0 a1 a2 a3 c) = mask l c := by
  unfold apsFrame
  (try dsimp only)
  (repeat' split) <;> (first | with_reducible rfl | (simp_all (maxDischargeDepth := 9); done) | (simp_all [mask]; done))

@[simp] theorem arbitrationEnds_mask {l : List Part} (hline : Part.line ∈ l) (hdfx : Part.dfx ∈ l) (a0 : Nat) (a1 : Nat) (c : Chip) : mask l (arbitrationEnds a0 a1 c) = mask l c := by
  unfold arbitrationEnds
  (try dsimp only)
  (repeat' split) <;> (first | with_reducible rfl | (simp_all (maxDischargeDepth := 9); done) | (simp_all [mask]; done))

@[simp] theorem setTim_mask {l : List Part} (htim : Part.tim ∈ l) (a0 : TimSt) (c : Chip) : mask l (setTim a0 c) = mask l c := by
  unfold setTim
  (try dsimp only)
  (repeat' split) <;> (first | with_reducible rfl | (simp_all (maxDischargeDepth := 9); done) | (simp_all [mask]; done))

@[simp] theorem updDp_mask {l : List Part} (htim : Part.tim ∈ l) (a0 : Nat) (a1 : DpSt → DpSt) (c : Chip) : mask l (updDp a0 a1 c) = mask l c := by
  unfold updDp
  (try dsimp only)
  (repeat' split) <;> (first | with_reducible rfl | (simp_all (maxDischargeDepth := 9); done) | (simp_all [mask]; done))

@[simp] theorem asideStep_mask {l : List Part} (htim : Part.tim ∈ l) (a0 : Nat) (c : Chip) : mask l (asideStep a0 c) = mask l c := by
  unfold asideStep
  (try dsimp only)
  (repeat' split) <;> (first | with_reducible rfl | (simp_all (maxDischargeDepth := 9); done) | (simp_all [mask]; done))

@[simp] theorem auxInd_mask {l : List Part} (hdfx : Part.dfx ∈ l) (a0 : Nat) (a1 : Nat) (a2 : Bool) (c : Chip) : mask l (auxInd a0 a1 a2 c) = mask l c := by
  unfold auxInd
  (try dsimp only)
  (repeat' split) <;> (first | with_reducible rfl | (simp_all (maxDischargeDepth := 9); done) | (simp_all [mask]; done))

@[simp] theorem b2Count_mask {l : List Part} (hdfx : Part.dfx ∈ l) (a0 : List PortRep) (c : Chip) : mask l (b2Count a0 c) = mask l c := by
  unfold b2Count
  (try dsimp only)
  (repeat' split) <;> (first | with_reducible rfl | (simp_all (maxDischargeDepth := 9); done) | (simp_all [mask]; done))

@[simp] theorem bindFresh_mask {l : List Part} (heng : Part.eng ∈ l) (hisl : Part.isl ∈ l) (a0 : FMap Nat) (a1 : Nat) (a2 : Nat) (a3 : Nat) (c : Chip) : mask l (bindFresh a0 a1 a2 a3 c) = mask l c := by
  unfold bindFresh
  (try dsimp only)
  (repeat' split) <;> (first | with_reducible rfl | (simp_all (maxDischargeDepth := 9); done) | (simp_all [mask]; done))

@[simp] theorem rebindIsland_mask {l : List Part} (hnq : Part.nq ∈ l) (hnotice : Part.notice ∈ l) (heng : Part.eng ∈ l) (hisl : Part.isl ∈ l) (hctx : Part.ctx ∈ l) (hdep : Part.dep ∈ l) (a0 : FMap Nat) (a1 : Nat) (a2 : Nat) (c : Chip) : mask l (rebindIsland a0 a1 a2 c) = mask l c := by
  unfold rebindIsland
  (try dsimp only)
  (repeat' split) <;> (first | with_reducible rfl | (simp_all (maxDischargeDepth := 9); done) | (simp_all [mask]; done))

@[simp] theorem bindAtCommit_mask {l : List Part} (hnq : Part.nq ∈ l) (hnotice : Part.notice ∈ l) (heng : Part.eng ∈ l) (hisl : Part.isl ∈ l) (hctx : Part.ctx ∈ l) (hdep : Part.dep ∈ l) (a0 : Bool) (a1 : FMap Nat) (a2 : Nat) (c : Chip) : mask l (bindAtCommit a0 a1 a2 c) = mask l c := by
  unfold bindAtCommit
  (try dsimp only)
  (repeat' split) <;> (first | with_reducible rfl | (simp_all (maxDischargeDepth := 9); done) | (simp_all [mask]; done))

@[simp] theorem bootMap_mask {l : List Part} (heng : Part.eng ∈ l) (hisl : Part.isl ∈ l) (hdep : Part.dep ∈ l) (a0 : BootRep) (c : Chip) : mask l (bootMap a0 c) = mask l c := by
  unfold bootMap
  (try dsimp only)
  (repeat' split) <;> (first | with_reducible rfl | (simp_all (maxDischargeDepth := 9); done) | (simp_all [mask]; done))

@[simp] theorem bootSettle_mask {l : List Part} (hnq : Part.nq ∈ l) (hnotice : Part.notice ∈ l) (hupd : Part.upd ∈ l) (hdep : Part.dep ∈ l) (a0 : BootRep) (c : Chip) : mask l (bootSettle a0 c) = mask l c := by
  unfold bootSettle
  (try dsimp only)
  (repeat' split) <;> (first | with_reducible rfl | (simp_all (maxDischargeDepth := 9); done) | (simp_all [mask]; done))

@[simp] theorem oscLoad_mask {l : List Part} (htim : Part.tim ∈ l)  (c : Chip) : mask l (oscLoad  c) = mask l c := by
  unfold oscLoad
  (try dsimp only)
  (repeat' split) <;> (first | with_reducible rfl | (simp_all (maxDischargeDepth := 9); done) | (simp_all [mask]; done))

@[simp] theorem boxReads_mask {l : List Part} (hnq : Part.nq ∈ l) (hnotice : Part.notice ∈ l) (htim : Part.tim ∈ l) (hupd : Part.upd ∈ l) (hdep : Part.dep ∈ l) (a0 : Nat) (c : Chip) : mask l (boxReads a0 c) = mask l c := by
  unfold boxReads
  (try dsimp only)
  (repeat' split) <;> (first | with_reducible rfl | (simp_all (maxDischargeDepth := 9); done) | (simp_all [mask]; done))

@[simp] theorem sdLoad_mask {l : List Part} (hupd : Part.upd ∈ l) (b : List Byte) (c : Chip) : mask l (sdLoad b c).2 = mask l c := by
  have hv : ∀ c, mask l (bundleVerify c).2 = mask l c := by
    intro c
    unfold bundleVerify
    dsimp only
    (repeat' split) <;> simp [*]
  unfold sdLoad
  dsimp only
  (repeat' split) <;> simp [*]

@[simp] theorem sdAuto_mask {l : List Part} (hupd : Part.upd ∈ l)  (c : Chip) : mask l (sdAuto  c) = mask l c := by
  unfold sdAuto
  (repeat' split) <;> simp [*]

@[simp] theorem setDev_mask {l : List Part} (hdev : Part.dev ∈ l) (hint : Part.int ∈ l) (hhost : Part.host ∈ l) (a0 : DevState) (c : Chip) : mask l (setDev a0 c) = mask l c := by
  unfold setDev
  (try dsimp only)
  (repeat' split) <;> (first | with_reducible rfl | (simp_all (maxDischargeDepth := 9); done) | (simp_all [mask]; done))

@[simp] theorem bootEnds_mask {l : List Part} (hdev : Part.dev ∈ l) (hint : Part.int ∈ l) (hnq : Part.nq ∈ l) (hnotice : Part.notice ∈ l) (hhost : Part.host ∈ l) (hcm : Part.cm ∈ l) (heng : Part.eng ∈ l) (hisl : Part.isl ∈ l) (htim : Part.tim ∈ l) (hupd : Part.upd ∈ l) (hdep : Part.dep ∈ l) (a0 : BootRep) (c : Chip) : mask l (bootEnds a0 c) = mask l c := by
  unfold bootEnds
  (try dsimp only)
  (repeat' split) <;> (first | with_reducible rfl | (simp_all (maxDischargeDepth := 9); done) | (simp_all [mask]; done))

@[simp] theorem bootFails_mask {l : List Part} (hupd : Part.upd ∈ l) (a0 : Nat) (c : Chip) : mask l (bootFails a0 c) = mask l c := by
  unfold bootFails
  (try dsimp only)
  (repeat' split) <;> (first | with_reducible rfl | (simp_all (maxDischargeDepth := 9); done) | (simp_all [mask]; done))

@[simp] theorem bootRuns_mask {l : List Part} (hdev : Part.dev ∈ l) (hint : Part.int ∈ l) (hnq : Part.nq ∈ l) (hnotice : Part.notice ∈ l) (hhost : Part.host ∈ l) (hcm : Part.cm ∈ l) (heng : Part.eng ∈ l) (hisl : Part.isl ∈ l) (htim : Part.tim ∈ l) (hupd : Part.upd ∈ l) (hdep : Part.dep ∈ l) (a0 : BootRep) (c : Chip) : mask l (bootRuns a0 c) = mask l c := by
  unfold bootRuns
  (try dsimp only)
  (repeat' split) <;> (first | with_reducible rfl | (simp_all (maxDischargeDepth := 9); done) | (simp_all [mask]; done))

@[simp] theorem consequentActions_mask {l : List Part} (hdfx : Part.dfx ∈ l) (a0 : Nat → Bool) (a1 : Nat → Bool) (c : Chip) : mask l (consequentActions a0 a1 c) = mask l c := by
  unfold consequentActions
  (try dsimp only)
  (repeat' split) <;> (first | with_reducible rfl | (simp_all (maxDischargeDepth := 9); done) | (simp_all [mask]; done))

@[simp] theorem excBoundary_mask {l : List Part} (hdfx : Part.dfx ∈ l)  (c : Chip) : mask l (excBoundary  c) = mask l c := by
  unfold excBoundary
  (try dsimp only)
  (repeat' split) <;> (first | with_reducible rfl | (simp_all (maxDischargeDepth := 9); done) | (simp_all [mask]; done))

@[simp] theorem laneDefects_mask {l : List Part} (hdfx : Part.dfx ∈ l) (a0 : Nat) (c : Chip) : mask l (laneDefects a0 c) = mask l c := by
  unfold laneDefects
  (try dsimp only)
  (repeat' split) <;> (first | with_reducible rfl | (simp_all (maxDischargeDepth := 9); done) | (simp_all [mask]; done))

@[simp] theorem oorClear_mask {l : List Part} (hctx : Part.ctx ∈ l) (hdfx : Part.dfx ∈ l) (a0 : Nat) (c : Chip) : mask l (oorClear a0 c) = mask l c := by
  unfold oorClear
  (try dsimp only)
  (repeat' split) <;> (first | with_reducible rfl | (simp_all (maxDischargeDepth := 9); done) | (simp_all [mask]; done))

@[simp] theorem oorBoundary_mask {l : List Part} (hctx : Part.ctx ∈ l) (hdfx : Part.dfx ∈ l) (a0 : Nat) (c : Chip) : mask l (oorBoundary a0 c) = mask l c := by
  unfold oorBoundary
  (try dsimp only)
  (repeat' split) <;> (first | with_reducible rfl | (simp_all (maxDischargeDepth := 9); done) | (simp_all [mask]; done))

@[simp] theorem tickFresh_mask {l : List Part} (hdfx : Part.dfx ∈ l)  (c : Chip) : mask l (tickFresh  c) = mask l c := by
  unfold tickFresh
  (try dsimp only)
  (repeat' split) <;> (first | with_reducible rfl | (simp_all (maxDischargeDepth := 9); done) | (simp_all [mask]; done))

@[simp] theorem defectsAfter_mask {l : List Part} (hctx : Part.ctx ∈ l) (hline : Part.line ∈ l) (hdfx : Part.dfx ∈ l) (a0 : Nat) (c : Chip) : mask l (defectsAfter a0 c) = mask l c := by
  unfold defectsAfter
  (try dsimp only)
  (repeat' split) <;> (first | with_reducible rfl | (simp_all (maxDischargeDepth := 9); done) | (simp_all [mask]; done))

@[simp] theorem setRoots_mask {l : List Part} (hdfx : Part.dfx ∈ l) (a0 : List Root) (c : Chip) : mask l (setRoots a0 c) = mask l c := by
  unfold setRoots
  (try dsimp only)
  (repeat' split) <;> (first | with_reducible rfl | (simp_all (maxDischargeDepth := 9); done) | (simp_all [mask]; done))

@[simp] theorem dropRoot_mask {l : List Part} (hdfx : Part.dfx ∈ l) (a0 : Root) (c : Chip) : mask l (dropRoot a0 c) = mask l c := by
  unfold dropRoot
  (try dsimp only)
  (repeat' split) <;> (first | with_reducible rfl | (simp_all (maxDischargeDepth := 9); done) | (simp_all [mask]; done))

@[simp] theorem placeRoot_mask {l : List Part} (hnotice : Part.notice ∈ l) (r : Root) (c : Chip) : mask l (placeRoot r c).2 = mask l c := by
  have h : ∀ (x : Option Nat) (y : Option Nat), mask l (match x, y with
    | some i, some b => ({ r with slot := some i, base := b }, c)
    | _, _ => ({ r with slot := none, base := 0 }, { c with notice := { c.notice with rootOvf := true } }) : Root × Chip).2 = mask l c := by
    intro x y
    cases x <;> cases y <;> first | rfl | exact mask_set_notice hnotice c _
  exact h _ _

@[simp] theorem openRoot_mask {l : List Part} (hnotice : Part.notice ∈ l) (hdfx : Part.dfx ∈ l) (a0 : Root) (c : Chip) : mask l (openRoot a0 c) = mask l c := by
  unfold openRoot
  simp [*]

@[simp] theorem relistRoot_mask {l : List Part} (hnotice : Part.notice ∈ l) (hdfx : Part.dfx ∈ l) (a0 : Root) (a1 : List Nat) (c : Chip) : mask l (relistRoot a0 a1 c) = mask l c := by
  unfold relistRoot
  dsimp only
  split
  · rfl
  · simp [*]

@[simp] theorem setFails_mask {l : List Part} (hdfx : Part.dfx ∈ l) (a0 : FMap FailSt) (c : Chip) : mask l (setFails a0 c) = mask l c := by
  unfold setFails
  (try dsimp only)
  (repeat' split) <;> (first | with_reducible rfl | (simp_all (maxDischargeDepth := 9); done) | (simp_all [mask]; done))

@[simp] theorem setWins_mask {l : List Part} (hdfx : Part.dfx ∈ l) (a0 : List CorrWin) (c : Chip) : mask l (setWins a0 c) = mask l c := by
  unfold setWins
  (try dsimp only)
  (repeat' split) <;> (first | with_reducible rfl | (simp_all (maxDischargeDepth := 9); done) | (simp_all [mask]; done))

@[simp] theorem joinBurst_mask {l : List Part} (hnotice : Part.notice ∈ l) (hdfx : Part.dfx ∈ l) (a0 : Nat) (a1 : Nat) (c : Chip) : mask l (joinBurst a0 a1 c) = mask l c := by
  unfold joinBurst
  (try dsimp only)
  (repeat' split) <;> (first | with_reducible rfl | (simp_all (maxDischargeDepth := 9); done) | (simp_all [mask]; done))

@[simp] theorem notifyClass_mask {l : List Part} (hnq : Part.nq ∈ l) (hnotice : Part.notice ∈ l) (hdep : Part.dep ∈ l) (a0 : Nat) (a1 : Notice) (c : Chip) : mask l (notifyClass a0 a1 c) = mask l c := by
  unfold notifyClass
  (try dsimp only)
  (repeat' split) <;> (first | with_reducible rfl | (simp_all (maxDischargeDepth := 9); done) | (simp_all [mask]; done))

@[simp] theorem rootNotify_mask {l : List Part} (hnq : Part.nq ∈ l) (hnotice : Part.notice ∈ l) (hdep : Part.dep ∈ l) (a0 : Root) (a1 : Notice) (c : Chip) : mask l (rootNotify a0 a1 c) = mask l c := by
  unfold rootNotify
  (try dsimp only)
  (repeat' split) <;> (first | with_reducible rfl | (simp_all (maxDischargeDepth := 9); done) | (simp_all [mask]; done))

@[simp] theorem subsume_mask {l : List Part} (hnotice : Part.notice ∈ l) (hdfx : Part.dfx ∈ l) (a0 : Root) (c : Chip) : mask l (subsume a0 c) = mask l c := by
  unfold subsume
  (try dsimp only)
  (repeat' split) <;> (first | with_reducible rfl | (simp_all (maxDischargeDepth := 9); done) | (simp_all [mask]; done))

@[simp] theorem openFail_mask {l : List Part} (hnq : Part.nq ∈ l) (hnotice : Part.notice ∈ l) (hdfx : Part.dfx ∈ l) (hdep : Part.dep ∈ l) (a0 : Nat) (a1 : Nat) (c : Chip) : mask l (openFail a0 a1 c) = mask l c := by
  unfold openFail
  (try dsimp only)
  (repeat' split) <;> (first | with_reducible rfl | (simp_all (maxDischargeDepth := 9); done) | (simp_all [mask]; done))

@[simp] theorem releaseHeld_mask {l : List Part} (hnq : Part.nq ∈ l) (hnotice : Part.notice ∈ l) (hdfx : Part.dfx ∈ l) (hdep : Part.dep ∈ l) (a0 : Nat) (c : Chip) : mask l (releaseHeld a0 c) = mask l c := by
  unfold releaseHeld
  (try dsimp only)
  (repeat' split) <;> (first | with_reducible rfl | (simp_all (maxDischargeDepth := 9); done) | (simp_all [mask]; done))

@[simp] theorem markDone_mask {l : List Part} (hdev : Part.dev ∈ l) (a0 : Nat) (c : Chip) : mask l (markDone a0 c) = mask l c := by
  unfold markDone
  (try dsimp only)
  (repeat' split) <;> (first | with_reducible rfl | (simp_all (maxDischargeDepth := 9); done) | (simp_all [mask]; done))

@[simp] theorem rewriting_mask {l : List Part} (hdev : Part.dev ∈ l) (hdfx : Part.dfx ∈ l) (a0 : Chip → Chip) (hf : ∀ c, mask l (a0 c) = mask l c) (c : Chip) : mask l (rewriting a0 c) = mask l c := by
  unfold rewriting
  dsimp only
  split <;> simp [*]

@[simp] theorem causewayRoot_mask {l : List Part} (hdev : Part.dev ∈ l) (hnq : Part.nq ∈ l) (hnotice : Part.notice ∈ l) (hdfx : Part.dfx ∈ l) (hdep : Part.dep ∈ l) (a0 : Nat) (a1 : Nat) (a2 : Bool) (c : Chip) : mask l (causewayRoot a0 a1 a2 c) = mask l c := by
  unfold causewayRoot
  (try dsimp only)
  (repeat' split) <;> (first | with_reducible rfl | (simp_all (maxDischargeDepth := 9); done) | (simp_all [mask]; done))

@[simp] theorem updCwy_mask {l : List Part} (hcwy : Part.cwy ∈ l) (a0 : Nat) (a1 : CwySt → CwySt) (c : Chip) : mask l (updCwy a0 a1 c) = mask l c := by
  unfold updCwy
  (try dsimp only)
  (repeat' split) <;> (first | with_reducible rfl | (simp_all (maxDischargeDepth := 9); done) | (simp_all [mask]; done))

@[simp] theorem cwyRestore_mask {l : List Part} (hdev : Part.dev ∈ l) (hnq : Part.nq ∈ l) (hnotice : Part.notice ∈ l) (hcwy : Part.cwy ∈ l) (hdfx : Part.dfx ∈ l) (hdep : Part.dep ∈ l) (a0 : Nat) (a1 : Nat) (c : Chip) : mask l (cwyRestore a0 a1 c) = mask l c := by
  unfold cwyRestore
  (try dsimp only)
  (repeat' split) <;> (first | with_reducible rfl | (simp_all (maxDischargeDepth := 9); done) | (simp_all [mask]; done))

@[simp] theorem flushLate_mask {l : List Part} (hhost : Part.host ∈ l) (hdep : Part.dep ∈ l) (a0 : Nat) (c : Chip) : mask l (flushLate a0 c) = mask l c := by
  unfold flushLate
  (try dsimp only)
  (repeat' split) <;> (first | with_reducible rfl | (simp_all (maxDischargeDepth := 9); done) | (simp_all [mask]; done))

@[simp] theorem setSkew_mask {l : List Part} (hline : Part.line ∈ l) (a0 : Nat) (a1 : SkewSt) (c : Chip) : mask l (setSkew a0 a1 c) = mask l c := by
  unfold setSkew
  (try dsimp only)
  (repeat' split) <;> (first | with_reducible rfl | (simp_all (maxDischargeDepth := 9); done) | (simp_all [mask]; done))

@[simp] theorem measureSkew_mask {l : List Part} (hline : Part.line ∈ l) (a0 : Nat) (a1 : Nat) (c : Chip) : mask l (measureSkew a0 a1 c) = mask l c := by
  unfold measureSkew
  (try dsimp only)
  (repeat' split) <;> (first | with_reducible rfl | (simp_all (maxDischargeDepth := 9); done) | (simp_all [mask]; done))

@[simp] theorem shiftSkew_mask {l : List Part} (hline : Part.line ∈ l) (hdfx : Part.dfx ∈ l) (a0 : Nat) (a1 : Int) (c : Chip) : mask l (shiftSkew a0 a1 c) = mask l c := by
  unfold shiftSkew
  (try dsimp only)
  (repeat' split) <;> (first | with_reducible rfl | (simp_all (maxDischargeDepth := 9); done) | (simp_all [mask]; done))

@[simp] theorem swapLanes_mask {l : List Part} (hline : Part.line ∈ l) (a0 : Nat) (a1 : Nat) (c : Chip) : mask l (swapLanes a0 a1 c) = mask l c := by
  unfold swapLanes
  (try dsimp only)
  (repeat' split) <;> (first | with_reducible rfl | (simp_all (maxDischargeDepth := 9); done) | (simp_all [mask]; done))

@[simp] theorem unitsToHunt_mask {l : List Part} (hctx : Part.ctx ∈ l) (hline : Part.line ∈ l) (hdfx : Part.dfx ∈ l) (a0 : Nat) (c : Chip) : mask l (unitsToHunt a0 c) = mask l c := by
  unfold unitsToHunt
  (try dsimp only)
  (repeat' split) <;> (first | with_reducible rfl | (simp_all (maxDischargeDepth := 9); done) | (simp_all [mask]; done))

@[simp] theorem injFinish_mask {l : List Part} (hdev : Part.dev ∈ l) (hnq : Part.nq ∈ l) (hnotice : Part.notice ∈ l) (hhost : Part.host ∈ l) (hcwy : Part.cwy ∈ l) (hctx : Part.ctx ∈ l) (hline : Part.line ∈ l) (hdfx : Part.dfx ∈ l) (hdep : Part.dep ∈ l) (a0 : Nat) (a1 : Nat) (c : Chip) : mask l (injFinish a0 a1 c) = mask l c := by
  unfold injFinish
  (try dsimp only)
  (repeat' split) <;> (first | with_reducible rfl | (simp_all (maxDischargeDepth := 9); done) | (simp_all [mask]; done))

@[simp] theorem injEnd_mask {l : List Part} (hdev : Part.dev ∈ l) (hnq : Part.nq ∈ l) (hnotice : Part.notice ∈ l) (hhost : Part.host ∈ l) (hcwy : Part.cwy ∈ l) (hctx : Part.ctx ∈ l) (hline : Part.line ∈ l) (hdfx : Part.dfx ∈ l) (hdep : Part.dep ∈ l) (a0 : Nat) (a1 : Nat) (c : Chip) : mask l (injEnd a0 a1 c) = mask l c := by
  unfold injEnd
  (try dsimp only)
  (repeat' split) <;> (first | with_reducible rfl | (simp_all (maxDischargeDepth := 9); done) | (simp_all [mask]; done))

@[simp] theorem cwyReplace_mask {l : List Part} (hctx : Part.ctx ∈ l) (a0 : Nat) (c : Chip) : mask l (cwyReplace a0 c) = mask l c := by
  unfold cwyReplace
  (try dsimp only)
  (repeat' split) <;> (first | with_reducible rfl | (simp_all (maxDischargeDepth := 9); done) | (simp_all [mask]; done))

end Sys2Proof.Machine
end

