-- ==== Sys2Proof/Laws/Frame2.lean ====
section
/-!
SUPPORT. Frames, continued: the parts each operation may change, one lemma an operation, callees first.
-/
namespace Sys2Proof.Machine
open Sys2Proof

@[simp] theorem cwyFail_mask {l : List Part} (hdev : Part.dev ∈ l) (hnq : Part.nq ∈ l) (hnotice : Part.notice ∈ l) (hcwy : Part.cwy ∈ l) (hctx : Part.ctx ∈ l) (hdfx : Part.dfx ∈ l) (hdep : Part.dep ∈ l) (a0 : Nat) (a1 : Nat) (c : Chip) : mask l (cwyFail a0 a1 c) = mask l c := by
  unfold cwyFail
  (try dsimp only)
  (repeat' split) <;> (first | with_reducible rfl | (simp_all (maxDischargeDepth := 9); done) | (simp_all [mask]; done))

@[simp] theorem laneGo_mask {l : List Part} (hline : Part.line ∈ l) (a0 : Nat) (a1 : RxState) (c : Chip) : mask l (laneGo a0 a1 c) = mask l c := by
  unfold laneGo
  (try dsimp only)
  (repeat' split) <;> (first | with_reducible rfl | (simp_all (maxDischargeDepth := 9); done) | (simp_all [mask]; done))

@[simp] theorem laneChanged_mask {l : List Part} (hctx : Part.ctx ∈ l) (hline : Part.line ∈ l) (hdfx : Part.dfx ∈ l) (a0 : Nat) (a1 : Bool) (c : Chip) : mask l (laneChanged a0 a1 c) = mask l c := by
  unfold laneChanged
  (try dsimp only)
  (repeat' split) <;> (first | with_reducible rfl | (simp_all (maxDischargeDepth := 9); done) | (simp_all [mask]; done))

@[simp] theorem laneStep_mask {l : List Part} (hctx : Part.ctx ∈ l) (hline : Part.line ∈ l) (hdfx : Part.dfx ∈ l) (a0 : Nat) (a1 : Chip → Chip) (hf : ∀ c, mask l (a1 c) = mask l c) (c : Chip) : mask l (laneStep a0 a1 c) = mask l c := by
  unfold laneStep
  dsimp only
  split <;> simp [*]

@[simp] theorem signalAbsent_mask {l : List Part} (hctx : Part.ctx ∈ l) (hline : Part.line ∈ l) (hdfx : Part.dfx ∈ l) (a0 : Nat) (c : Chip) : mask l (signalAbsent a0 c) = mask l c := by
  unfold signalAbsent
  (try dsimp only)
  (repeat' split) <;> (first | with_reducible rfl | (simp_all (maxDischargeDepth := 9); done) | (simp_all [mask]; done))

@[simp] theorem injBegin_mask {l : List Part} (hdev : Part.dev ∈ l) (hnq : Part.nq ∈ l) (hnotice : Part.notice ∈ l) (hcwy : Part.cwy ∈ l) (hctx : Part.ctx ∈ l) (hline : Part.line ∈ l) (hdfx : Part.dfx ∈ l) (hdep : Part.dep ∈ l) (a0 : InjSlot) (a1 : Nat) (c : Chip) : mask l (injBegin a0 a1 c) = mask l c := by
  unfold injBegin
  (try dsimp only)
  (repeat' split) <;> (first | with_reducible rfl | (simp_all (maxDischargeDepth := 9); done) | (simp_all [mask]; done))

@[simp] theorem injStart_mask {l : List Part} (hdev : Part.dev ∈ l) (hnq : Part.nq ∈ l) (hnotice : Part.notice ∈ l) (hcwy : Part.cwy ∈ l) (hctx : Part.ctx ∈ l) (hline : Part.line ∈ l) (hdfx : Part.dfx ∈ l) (hdep : Part.dep ∈ l) (a0 : Nat) (a1 : Nat) (c : Chip) : mask l (injStart a0 a1 c) = mask l c := by
  unfold injStart
  (try dsimp only)
  (repeat' split) <;> (first | with_reducible rfl | (simp_all (maxDischargeDepth := 9); done) | (simp_all [mask]; done))

@[simp] theorem injBoundary_mask {l : List Part} (hdev : Part.dev ∈ l) (hnq : Part.nq ∈ l) (hnotice : Part.notice ∈ l) (hhost : Part.host ∈ l) (hcwy : Part.cwy ∈ l) (hctx : Part.ctx ∈ l) (hline : Part.line ∈ l) (hdfx : Part.dfx ∈ l) (hdep : Part.dep ∈ l) (a0 : Nat) (c : Chip) : mask l (injBoundary a0 c) = mask l c := by
  unfold injBoundary
  (try dsimp only)
  (repeat' split) <;> (first | with_reducible rfl | (simp_all (maxDischargeDepth := 9); done) | (simp_all [mask]; done))

@[simp] theorem paceStep_mask {l : List Part} (hint : Part.int ∈ l) (hhost : Part.host ∈ l) (a0 : Nat) (c : Chip) : mask l (paceStep a0 c) = mask l c := by
  unfold paceStep
  (try dsimp only)
  (repeat' split) <;> (first | with_reducible rfl | (simp_all (maxDischargeDepth := 9); done) | (simp_all [mask]; done))

@[simp] theorem degradeStep_mask {l : List Part} (hnq : Part.nq ∈ l) (hnotice : Part.notice ∈ l) (hpair : Part.pair ∈ l) (hdep : Part.dep ∈ l) (a0 : Nat) (c : Chip) : mask l (degradeStep a0 c) = mask l c := by
  unfold degradeStep
  (try dsimp only)
  (repeat' split) <;> (first | with_reducible rfl | (simp_all (maxDischargeDepth := 9); done) | (simp_all [mask]; done))

@[simp] theorem drillStart_mask {l : List Part} (hhost : Part.host ∈ l) (hpair : Part.pair ∈ l) (hdep : Part.dep ∈ l) (a0 : Bool) (a1 : Nat) (c : Chip) : mask l (drillStart a0 a1 c) = mask l c := by
  unfold drillStart
  (try dsimp only)
  (repeat' split) <;> (first | with_reducible rfl | (simp_all (maxDischargeDepth := 9); done) | (simp_all [mask]; done))

@[simp] theorem drillReturn_mask {l : List Part} (hnq : Part.nq ∈ l) (hnotice : Part.notice ∈ l) (hhost : Part.host ∈ l) (hpair : Part.pair ∈ l) (hdep : Part.dep ∈ l) (a0 : Nat) (c : Chip) : mask l (drillReturn a0 c) = mask l c := by
  unfold drillReturn
  (try dsimp only)
  (repeat' split) <;> (first | with_reducible rfl | (simp_all (maxDischargeDepth := 9); done) | (simp_all [mask]; done))

@[simp] theorem faultMapSend_mask {l : List Part} (hhost : Part.host ∈ l) (hpair : Part.pair ∈ l) (hdep : Part.dep ∈ l) (a0 : Nat) (c : Chip) : mask l (faultMapSend a0 c) = mask l c := by
  unfold faultMapSend
  (try dsimp only)
  (repeat' split) <;> (first | with_reducible rfl | (simp_all (maxDischargeDepth := 9); done) | (simp_all [mask]; done))

@[simp] theorem genStart_mask {l : List Part} (hhost : Part.host ∈ l) (hpair : Part.pair ∈ l) (hdep : Part.dep ∈ l) (a0 : Nat) (c : Chip) : mask l (genStart a0 c) = mask l c := by
  unfold genStart
  (try dsimp only)
  (repeat' split) <;> (first | with_reducible rfl | (simp_all (maxDischargeDepth := 9); done) | (simp_all [mask]; done))

@[simp] theorem helloSend_mask {l : List Part} (hhost : Part.host ∈ l) (hpair : Part.pair ∈ l) (hdep : Part.dep ∈ l) (a0 : Nat) (c : Chip) : mask l (helloSend a0 c) = mask l c := by
  unfold helloSend
  (try dsimp only)
  (repeat' split) <;> (first | with_reducible rfl | (simp_all (maxDischargeDepth := 9); done) | (simp_all [mask]; done))

@[simp] theorem mirrorCheck_mask {l : List Part} (hpair : Part.pair ∈ l)  (c : Chip) : mask l (mirrorCheck  c) = mask l c := by
  unfold mirrorCheck
  (try dsimp only)
  (repeat' split) <;> (first | with_reducible rfl | (simp_all (maxDischargeDepth := 9); done) | (simp_all [mask]; done))

@[simp] theorem renewSend_mask {l : List Part} (hhost : Part.host ∈ l) (hpair : Part.pair ∈ l) (hdep : Part.dep ∈ l) (a0 : Nat) (c : Chip) : mask l (renewSend a0 c) = mask l c := by
  unfold renewSend
  (try dsimp only)
  (repeat' split) <;> (first | with_reducible rfl | (simp_all (maxDischargeDepth := 9); done) | (simp_all [mask]; done))

@[simp] theorem setStale_mask {l : List Part} (hpair : Part.pair ∈ l)  (c : Chip) : mask l (setStale  c) = mask l c := by
  unfold setStale
  (try dsimp only)
  (repeat' split) <;> (first | with_reducible rfl | (simp_all (maxDischargeDepth := 9); done) | (simp_all [mask]; done))

@[simp] theorem pairAfter_mask {l : List Part} (hnq : Part.nq ∈ l) (hnotice : Part.notice ∈ l) (hhost : Part.host ∈ l) (hpair : Part.pair ∈ l) (hdep : Part.dep ∈ l) (a0 : Nat) (c : Chip) : mask l (pairAfter a0 c) = mask l c := by
  unfold pairAfter
  (try dsimp only)
  (repeat' split) <;> (first | with_reducible rfl | (simp_all (maxDischargeDepth := 9); done) | (simp_all [mask]; done))

@[simp] theorem setDep_mask {l : List Part} (hdep : Part.dep ∈ l) (a0 : DepSt) (c : Chip) : mask l (setDep a0 c) = mask l c := by
  unfold setDep
  (try dsimp only)
  (repeat' split) <;> (first | with_reducible rfl | (simp_all (maxDischargeDepth := 9); done) | (simp_all [mask]; done))

@[simp] theorem updDepot_mask {l : List Part} (hdep : Part.dep ∈ l) (a0 : Nat) (a1 : DepotSt → DepotSt) (c : Chip) : mask l (updDepot a0 a1 c) = mask l c := by
  unfold updDepot
  (try dsimp only)
  (repeat' split) <;> (first | with_reducible rfl | (simp_all (maxDischargeDepth := 9); done) | (simp_all [mask]; done))

@[simp] theorem patrolEnd_mask {l : List Part} (hdep : Part.dep ∈ l) (a0 : Nat) (c : Chip) : mask l (patrolEnd a0 c) = mask l c := by
  unfold patrolEnd
  (try dsimp only)
  (repeat' split) <;> (first | with_reducible rfl | (simp_all (maxDischargeDepth := 9); done) | (simp_all [mask]; done))

@[simp] theorem patrolStart_mask {l : List Part} (hdep : Part.dep ∈ l) (a0 : Nat) (a1 : Nat) (c : Chip) : mask l (patrolStart a0 a1 c) = mask l c := by
  unfold patrolStart
  (try dsimp only)
  (repeat' split) <;> (first | with_reducible rfl | (simp_all (maxDischargeDepth := 9); done) | (simp_all [mask]; done))

@[simp] theorem patrolBoundary_mask {l : List Part} (hdep : Part.dep ∈ l) (a0 : Nat) (c : Chip) : mask l (patrolBoundary a0 c) = mask l c := by
  unfold patrolBoundary
  (try dsimp only)
  (repeat' split) <;> (first | with_reducible rfl | (simp_all (maxDischargeDepth := 9); done) | (simp_all [mask]; done))

@[simp] theorem changeSettings_mask {l : List Part} (hupd : Part.upd ∈ l) (a0 : Nat) (a1 : SettingsSt → SettingsSt) (c : Chip) : mask l (changeSettings a0 a1 c) = mask l c := by
  unfold changeSettings
  (try dsimp only)
  (repeat' split) <;> (first | with_reducible rfl | (simp_all (maxDischargeDepth := 9); done) | (simp_all [mask]; done))

@[simp] theorem settingsSync_mask {l : List Part} (hupd : Part.upd ∈ l)  (c : Chip) : mask l (settingsSync  c) = mask l c := by
  unfold settingsSync
  (try dsimp only)
  (repeat' split) <;> (first | with_reducible rfl | (simp_all (maxDischargeDepth := 9); done) | (simp_all [mask]; done))

@[simp] theorem timPublish_mask {l : List Part} (htim : Part.tim ∈ l) (a0 : Nat) (c : Chip) : mask l (timPublish a0 c) = mask l c := by
  unfold timPublish
  (try dsimp only)
  (repeat' split) <;> (first | with_reducible rfl | (simp_all (maxDischargeDepth := 9); done) | (simp_all [mask]; done))

@[simp] theorem timNotice_mask {l : List Part} (hnq : Part.nq ∈ l) (hnotice : Part.notice ∈ l) (hdep : Part.dep ∈ l) (a0 : Nat) (a1 : Nat) (a2 : Nat) (a3 : Nat) (a4 : Nat) (a5 : Bool) (c : Chip) : mask l (timNotice a0 a1 a2 a3 a4 a5 c) = mask l c := by
  unfold timNotice
  (try dsimp only)
  (repeat' split) <;> (first | with_reducible rfl | (simp_all (maxDischargeDepth := 9); done) | (simp_all [mask]; done))

@[simp] theorem hoClear_mask {l : List Part} (hnq : Part.nq ∈ l) (hnotice : Part.notice ∈ l) (htim : Part.tim ∈ l) (hdep : Part.dep ∈ l) (a0 : Nat) (c : Chip) : mask l (hoClear a0 c) = mask l c := by
  unfold hoClear
  (try dsimp only)
  (repeat' split) <;> (first | with_reducible rfl | (simp_all (maxDischargeDepth := 9); done) | (simp_all [mask]; done))

@[simp] theorem hoResetStep_mask {l : List Part} (hmb : Part.mb ∈ l) (hint : Part.int ∈ l) (hnq : Part.nq ∈ l) (hnotice : Part.notice ∈ l) (hhost : Part.host ∈ l) (htim : Part.tim ∈ l) (hdep : Part.dep ∈ l) (a0 : Nat) (c : Chip) : mask l (hoResetStep a0 c) = mask l c := by
  unfold hoResetStep
  (try dsimp only)
  (repeat' split) <;> (first | with_reducible rfl | (simp_all (maxDischargeDepth := 9); done) | (simp_all [mask]; done))

@[simp] theorem holdStep_mask {l : List Part} (htim : Part.tim ∈ l) (a0 : Nat) (a1 : Nat) (c : Chip) : mask l (holdStep a0 a1 c) = mask l c := by
  unfold holdStep
  (try dsimp only)
  (repeat' split) <;> (first | with_reducible rfl | (simp_all (maxDischargeDepth := 9); done) | (simp_all [mask]; done))

@[simp] theorem refitStep_mask {l : List Part} (hnq : Part.nq ∈ l) (hnotice : Part.notice ∈ l) (htim : Part.tim ∈ l) (hdep : Part.dep ∈ l) (a0 : Nat) (c : Chip) : mask l (refitStep a0 c) = mask l c := by
  unfold refitStep
  (try dsimp only)
  (repeat' split) <;> (first | with_reducible rfl | (simp_all (maxDischargeDepth := 9); done) | (simp_all [mask]; done))

@[simp] theorem hourStep_mask {l : List Part} (hnq : Part.nq ∈ l) (hnotice : Part.notice ∈ l) (htim : Part.tim ∈ l) (hdep : Part.dep ∈ l) (a0 : Nat) (c : Chip) : mask l (hourStep a0 c) = mask l c := by
  unfold hourStep
  (try dsimp only)
  (repeat' split) <;> (first | with_reducible rfl | (simp_all (maxDischargeDepth := 9); done) | (simp_all [mask]; done))

@[simp] theorem dpGo_mask {l : List Part} (hnq : Part.nq ∈ l) (hnotice : Part.notice ∈ l) (htim : Part.tim ∈ l) (hdep : Part.dep ∈ l) (a0 : Nat) (a1 : Nat) (a2 : Nat) (c : Chip) : mask l (dpGo a0 a1 a2 c) = mask l c := by
  unfold dpGo
  (try dsimp only)
  (repeat' split) <;> (first | with_reducible rfl | (simp_all (maxDischargeDepth := 9); done) | (simp_all [mask]; done))

@[simp] theorem lostStep_mask {l : List Part} (hnq : Part.nq ∈ l) (hnotice : Part.notice ∈ l) (htim : Part.tim ∈ l) (hdep : Part.dep ∈ l) (a0 : Nat) (a1 : Nat) (c : Chip) : mask l (lostStep a0 a1 c) = mask l c := by
  unfold lostStep
  (try dsimp only)
  (repeat' split) <;> (first | with_reducible rfl | (simp_all (maxDischargeDepth := 9); done) | (simp_all [mask]; done))

@[simp] theorem setOut_mask {l : List Part} (htim : Part.tim ∈ l) (a0 : Nat) (a1 : OutSt) (c : Chip) : mask l (setOut a0 a1 c) = mask l c := by
  unfold setOut
  (try dsimp only)
  (repeat' split) <;> (first | with_reducible rfl | (simp_all (maxDischargeDepth := 9); done) | (simp_all [mask]; done))

@[simp] theorem phaseStepStep_mask {l : List Part} (hmb : Part.mb ∈ l) (hint : Part.int ∈ l) (hhost : Part.host ∈ l) (htim : Part.tim ∈ l) (a0 : Nat) (c : Chip) : mask l (phaseStepStep a0 c) = mask l c := by
  unfold phaseStepStep
  (try dsimp only)
  (repeat' split) <;> (first | with_reducible rfl | (simp_all (maxDischargeDepth := 9); done) | (simp_all [mask]; done))

@[simp] theorem ppsAlignStep_mask {l : List Part} (hmb : Part.mb ∈ l) (hint : Part.int ∈ l) (hhost : Part.host ∈ l) (htim : Part.tim ∈ l) (a0 : Nat) (c : Chip) : mask l (ppsAlignStep a0 c) = mask l c := by
  unfold ppsAlignStep
  (try dsimp only)
  (repeat' split) <;> (first | with_reducible rfl | (simp_all (maxDischargeDepth := 9); done) | (simp_all [mask]; done))

@[simp] theorem qlStep_mask {l : List Part} (hnq : Part.nq ∈ l) (hnotice : Part.notice ∈ l) (htim : Part.tim ∈ l) (hdep : Part.dep ∈ l) (a0 : Nat) (c : Chip) : mask l (qlStep a0 c) = mask l c := by
  unfold qlStep
  (try dsimp only)
  (repeat' split) <;> (first | with_reducible rfl | (simp_all (maxDischargeDepth := 9); done) | (simp_all [mask]; done))

@[simp] theorem refitLate_mask {l : List Part} (hnq : Part.nq ∈ l) (hnotice : Part.notice ∈ l) (htim : Part.tim ∈ l) (hdep : Part.dep ∈ l) (a0 : Nat) (c : Chip) : mask l (refitLate a0 c) = mask l c := by
  unfold refitLate
  (try dsimp only)
  (repeat' split) <;> (first | with_reducible rfl | (simp_all (maxDischargeDepth := 9); done) | (simp_all [mask]; done))

@[simp] theorem setOsc_mask {l : List Part} (htim : Part.tim ∈ l) (a0 : OscSt) (c : Chip) : mask l (setOsc a0 c) = mask l c := by
  unfold setOsc
  (try dsimp only)
  (repeat' split) <;> (first | with_reducible rfl | (simp_all (maxDischargeDepth := 9); done) | (simp_all [mask]; done))

@[simp] theorem enterHold_mask {l : List Part} (hnq : Part.nq ∈ l) (hnotice : Part.notice ∈ l) (htim : Part.tim ∈ l) (hdep : Part.dep ∈ l) (a0 : Nat) (a1 : Nat) (c : Chip) : mask l (enterHold a0 a1 c) = mask l c := by
  unfold enterHold
  (try dsimp only)
  (repeat' split) <;> (first | with_reducible rfl | (simp_all (maxDischargeDepth := 9); done) | (simp_all [mask]; done))

@[simp] theorem dpNone_mask {l : List Part} (hnq : Part.nq ∈ l) (hnotice : Part.notice ∈ l) (htim : Part.tim ∈ l) (hdep : Part.dep ∈ l) (a0 : Nat) (a1 : Nat) (c : Chip) : mask l (dpNone a0 a1 c) = mask l c := by
  unfold dpNone
  (try dsimp only)
  (repeat' split) <;> (first | with_reducible rfl | (simp_all (maxDischargeDepth := 9); done) | (simp_all [mask]; done))

@[simp] theorem setT1_mask {l : List Part} (htim : Part.tim ∈ l) (a0 : T1St) (c : Chip) : mask l (setT1 a0 c) = mask l c := by
  unfold setT1
  (try dsimp only)
  (repeat' split) <;> (first | with_reducible rfl | (simp_all (maxDischargeDepth := 9); done) | (simp_all [mask]; done))

@[simp] theorem swBoundary_mask {l : List Part} (hnq : Part.nq ∈ l) (hnotice : Part.notice ∈ l) (htim : Part.tim ∈ l) (hdep : Part.dep ∈ l) (a0 : Nat) (c : Chip) : mask l (swBoundary a0 c) = mask l c := by
  unfold swBoundary
  (try dsimp only)
  (repeat' split) <;> (first | with_reducible rfl | (simp_all (maxDischargeDepth := 9); done) | (simp_all [mask]; done))

@[simp] theorem tickAlignStep_mask {l : List Part} (hmb : Part.mb ∈ l) (hint : Part.int ∈ l) (hhost : Part.host ∈ l) (htim : Part.tim ∈ l) (a0 : Nat) (c : Chip) : mask l (tickAlignStep a0 c) = mask l c := by
  unfold tickAlignStep
  (try dsimp only)
  (repeat' split) <;> (first | with_reducible rfl | (simp_all (maxDischargeDepth := 9); done) | (simp_all [mask]; done))

@[simp] theorem tickMoveEnd_mask {l : List Part} (hnq : Part.nq ∈ l) (hnotice : Part.notice ∈ l) (htim : Part.tim ∈ l) (hdep : Part.dep ∈ l) (a0 : Nat) (c : Chip) : mask l (tickMoveEnd a0 c) = mask l c := by
  unfold tickMoveEnd
  (try dsimp only)
  (repeat' split) <;> (first | with_reducible rfl | (simp_all (maxDischargeDepth := 9); done) | (simp_all [mask]; done))

@[simp] theorem updIn_mask {l : List Part} (htim : Part.tim ∈ l) (a0 : Nat) (a1 : InSt → InSt) (c : Chip) : mask l (updIn a0 a1 c) = mask l c := by
  unfold updIn
  (try dsimp only)
  (repeat' split) <;> (first | with_reducible rfl | (simp_all (maxDischargeDepth := 9); done) | (simp_all [mask]; done))

@[simp] theorem timeStep_mask {l : List Part} (htim : Part.tim ∈ l) (a0 : Int) (c : Chip) : mask l (timeStep a0 c) = mask l c := by
  unfold timeStep
  (try dsimp only)
  (repeat' split) <;> (first | with_reducible rfl | (simp_all (maxDischargeDepth := 9); done) | (simp_all [mask]; done))

@[simp] theorem timeAdjustStep_mask {l : List Part} (hmb : Part.mb ∈ l) (hint : Part.int ∈ l) (hhost : Part.host ∈ l) (htim : Part.tim ∈ l) (a0 : Nat) (c : Chip) : mask l (timeAdjustStep a0 c) = mask l c := by
  unfold timeAdjustStep
  (try dsimp only)
  (repeat' split) <;> (first | with_reducible rfl | (simp_all (maxDischargeDepth := 9); done) | (simp_all [mask]; done))

@[simp] theorem todSend_mask {l : List Part} (hhost : Part.host ∈ l) (htim : Part.tim ∈ l) (a0 : Nat) (c : Chip) : mask l (todSend a0 c) = mask l c := by
  unfold todSend
  (try dsimp only)
  (repeat' split) <;> (first | with_reducible rfl | (simp_all (maxDischargeDepth := 9); done) | (simp_all [mask]; done))

@[simp] theorem timingAfter_mask {l : List Part} (hmb : Part.mb ∈ l) (hint : Part.int ∈ l) (hnq : Part.nq ∈ l) (hnotice : Part.notice ∈ l) (hhost : Part.host ∈ l) (htim : Part.tim ∈ l) (hdep : Part.dep ∈ l) (a0 : Nat) (c : Chip) : mask l (timingAfter a0 c) = mask l c := by
  unfold timingAfter
  (try dsimp only)
  (repeat' split) <;> (first | with_reducible rfl | (simp_all (maxDischargeDepth := 9); done) | (simp_all [mask]; done))

@[simp] theorem dpSecond_mask {l : List Part} (htim : Part.tim ∈ l) (a0 : Nat) (c : Chip) : mask l (dpSecond a0 c) = mask l c := by
  unfold dpSecond
  (try dsimp only)
  (repeat' split) <;> (first | with_reducible rfl | (simp_all (maxDischargeDepth := 9); done) | (simp_all [mask]; done))

@[simp] theorem minuteRecord_mask {l : List Part} (htim : Part.tim ∈ l) (a0 : Nat) (a1 : Nat) (c : Chip) : mask l (minuteRecord a0 a1 c) = mask l c := by
  unfold minuteRecord
  (try dsimp only)
  (repeat' split) <;> (first | with_reducible rfl | (simp_all (maxDischargeDepth := 9); done) | (simp_all [mask]; done))

@[simp] theorem refreshReady_mask {l : List Part} (htim : Part.tim ∈ l) (a0 : Nat) (c : Chip) : mask l (refreshReady a0 c) = mask l c := by
  unfold refreshReady
  (try dsimp only)
  (repeat' split) <;> (first | with_reducible rfl | (simp_all (maxDischargeDepth := 9); done) | (simp_all [mask]; done))

@[simp] theorem warnStep_mask {l : List Part} (htim : Part.tim ∈ l) (a0 : Nat) (c : Chip) : mask l (warnStep a0 c) = mask l c := by
  unfold warnStep
  (try dsimp only)
  (repeat' split) <;> (first | with_reducible rfl | (simp_all (maxDischargeDepth := 9); done) | (simp_all [mask]; done))

@[simp] theorem timingRecords_mask {l : List Part} (htim : Part.tim ∈ l) (a0 : Nat) (c : Chip) : mask l (timingRecords a0 c) = mask l c := by
  unfold timingRecords
  (try dsimp only)
  (repeat' split) <;> (first | with_reducible rfl | (simp_all (maxDischargeDepth := 9); done) | (simp_all [mask]; done))

@[simp] theorem timingDefer_mask {l : List Part} (htim : Part.tim ∈ l) (a0 : Nat) (c : Chip) : mask l (timingDefer a0 c) = mask l c := by
  unfold timingDefer
  (try dsimp only)
  (repeat' split) <;> (first | with_reducible rfl | (simp_all (maxDischargeDepth := 9); done) | (simp_all [mask]; done))

@[simp] theorem clearConflict_mask {l : List Part} (hnq : Part.nq ∈ l) (hnotice : Part.notice ∈ l) (htim : Part.tim ∈ l) (hdep : Part.dep ∈ l) (a0 : Nat) (a1 : Nat) (c : Chip) : mask l (clearConflict a0 a1 c) = mask l c := by
  unfold clearConflict
  (try dsimp only)
  (repeat' split) <;> (first | with_reducible rfl | (simp_all (maxDischargeDepth := 9); done) | (simp_all [mask]; done))

@[simp] theorem dpSwitch_mask {l : List Part} (hnq : Part.nq ∈ l) (hnotice : Part.notice ∈ l) (htim : Part.tim ∈ l) (hdep : Part.dep ∈ l) (a0 : Nat) (a1 : Nat) (a2 : Nat) (a3 : Nat) (c : Chip) : mask l (dpSwitch a0 a1 a2 a3 c) = mask l c := by
  unfold dpSwitch
  (try dsimp only)
  (repeat' split) <;> (first | with_reducible rfl | (simp_all (maxDischargeDepth := 9); done) | (simp_all [mask]; done))

@[simp] theorem setAside_mask {l : List Part} (htim : Part.tim ∈ l) (a0 : Nat) (a1 : Nat) (c : Chip) : mask l (setAside a0 a1 c) = mask l c := by
  unfold setAside
  (try dsimp only)
  (repeat' split) <;> (first | with_reducible rfl | (simp_all (maxDischargeDepth := 9); done) | (simp_all [mask]; done))

@[simp] theorem conflictOpen_mask {l : List Part} (hnq : Part.nq ∈ l) (hnotice : Part.notice ∈ l) (htim : Part.tim ∈ l) (hdep : Part.dep ∈ l) (a0 : Nat) (a1 : Nat) (a2 : ConfSt) (c : Chip) : mask l (conflictOpen a0 a1 a2 c) = mask l c := by
  unfold conflictOpen
  (try dsimp only)
  (repeat' split) <;> (first | with_reducible rfl | (simp_all (maxDischargeDepth := 9); done) | (simp_all [mask]; done))

@[simp] theorem raiseConflict_mask {l : List Part} (hnq : Part.nq ∈ l) (hnotice : Part.notice ∈ l) (htim : Part.tim ∈ l) (hdep : Part.dep ∈ l) (a0 : Nat) (a1 : Nat) (a2 : Nat) (a3 : Nat) (a4 : Bool) (c : Chip) : mask l (raiseConflict a0 a1 a2 a3 a4 c) = mask l c := by
  unfold raiseConflict
  (try dsimp only)
  (repeat' split) <;> (first | with_reducible rfl | (simp_all (maxDischargeDepth := 9); done) | (simp_all [mask]; done))

@[simp] theorem conflictPair_mask {l : List Part} (hnq : Part.nq ∈ l) (hnotice : Part.notice ∈ l) (htim : Part.tim ∈ l) (hdep : Part.dep ∈ l) (a0 : Nat) (a1 : Nat) (a2 : Nat) (a3 : Nat) (c : Chip) : mask l (conflictPair a0 a1 a2 a3 c) = mask l c := by
  unfold conflictPair
  (try dsimp only)
  (repeat' split) <;> (first | with_reducible rfl | (simp_all (maxDischargeDepth := 9); done) | (simp_all [mask]; done))

@[simp] theorem conflictStep_mask {l : List Part} (hnq : Part.nq ∈ l) (hnotice : Part.notice ∈ l) (htim : Part.tim ∈ l) (hdep : Part.dep ∈ l) (a0 : Nat) (a1 : Nat) (c : Chip) : mask l (conflictStep a0 a1 c) = mask l c := by
  unfold conflictStep
  (try dsimp only)
  (repeat' split) <;> (first | with_reducible rfl | (simp_all (maxDischargeDepth := 9); done) | (simp_all [mask]; done))

@[simp] theorem warnNotice_mask {l : List Part} (hnq : Part.nq ∈ l) (hnotice : Part.notice ∈ l) (hdep : Part.dep ∈ l) (a0 : Nat) (a1 : Nat) (a2 : Nat) (a3 : Bool) (c : Chip) : mask l (warnNotice a0 a1 a2 a3 c) = mask l c := by
  unfold warnNotice
  (try dsimp only)
  (repeat' split) <;> (first | with_reducible rfl | (simp_all (maxDischargeDepth := 9); done) | (simp_all [mask]; done))

@[simp] theorem driftIn_mask {l : List Part} (hnq : Part.nq ∈ l) (hnotice : Part.notice ∈ l) (htim : Part.tim ∈ l) (hdep : Part.dep ∈ l) (a0 : Nat) (a1 : Nat) (c : Chip) : mask l (driftIn a0 a1 c) = mask l c := by
  unfold driftIn
  (try dsimp only)
  (repeat' split) <;> (first | with_reducible rfl | (simp_all (maxDischargeDepth := 9); done) | (simp_all [mask]; done))

@[simp] theorem driftAll_mask {l : List Part} (hnq : Part.nq ∈ l) (hnotice : Part.notice ∈ l) (htim : Part.tim ∈ l) (hdep : Part.dep ∈ l) (a0 : Nat) (c : Chip) : mask l (driftAll a0 c) = mask l c := by
  unfold driftAll
  (try dsimp only)
  (repeat' split) <;> (first | with_reducible rfl | (simp_all (maxDischargeDepth := 9); done) | (simp_all [mask]; done))

@[simp] theorem esmcExpire_mask {l : List Part} (htim : Part.tim ∈ l) (a0 : Nat) (a1 : Nat) (c : Chip) : mask l (esmcExpire a0 a1 c) = mask l c := by
  unfold esmcExpire
  (try dsimp only)
  (repeat' split) <;> (first | with_reducible rfl | (simp_all (maxDischargeDepth := 9); done) | (simp_all [mask]; done))

@[simp] theorem inGo_mask {l : List Part} (hnq : Part.nq ∈ l) (hnotice : Part.notice ∈ l) (htim : Part.tim ∈ l) (hdep : Part.dep ∈ l) (a0 : Nat) (a1 : Nat) (a2 : Nat) (a3 : Nat) (c : Chip) : mask l (inGo a0 a1 a2 a3 c) = mask l c := by
  unfold inGo
  (try dsimp only)
  (repeat' split) <;> (first | with_reducible rfl | (simp_all (maxDischargeDepth := 9); done) | (simp_all [mask]; done))

@[simp] theorem inQualify_mask {l : List Part} (hnq : Part.nq ∈ l) (hnotice : Part.notice ∈ l) (htim : Part.tim ∈ l) (hdep : Part.dep ∈ l) (a0 : Nat) (a1 : Nat) (c : Chip) : mask l (inQualify a0 a1 c) = mask l c := by
  unfold inQualify
  (try dsimp only)
  (repeat' split) <;> (first | with_reducible rfl | (simp_all (maxDischargeDepth := 9); done) | (simp_all [mask]; done))

@[simp] theorem inState1_mask {l : List Part} (hnq : Part.nq ∈ l) (hnotice : Part.notice ∈ l) (htim : Part.tim ∈ l) (hdep : Part.dep ∈ l) (a0 : Bool) (a1 : Nat) (a2 : Nat) (c : Chip) : mask l (inState1 a0 a1 a2 c) = mask l c := by
  unfold inState1
  (try dsimp only)
  (repeat' split) <;> (first | with_reducible rfl | (simp_all (maxDischargeDepth := 9); done) | (simp_all [mask]; done))

@[simp] theorem measureIn_mask {l : List Part} (hnq : Part.nq ∈ l) (hnotice : Part.notice ∈ l) (htim : Part.tim ∈ l) (hdep : Part.dep ∈ l) (a0 : Nat) (a1 : RefRep) (c : Chip) : mask l (measureIn a0 a1 c) = mask l c := by
  unfold measureIn
  (try dsimp only)
  (repeat' split) <;> (first | with_reducible rfl | (simp_all (maxDischargeDepth := 9); done) | (simp_all [mask]; done))

@[simp] theorem measureAll_mask {l : List Part} (hnq : Part.nq ∈ l) (hnotice : Part.notice ∈ l) (htim : Part.tim ∈ l) (hdep : Part.dep ∈ l) (a0 : Nat) (a1 : List RefRep) (c : Chip) : mask l (measureAll a0 a1 c) = mask l c := by
  unfold measureAll
  (try dsimp only)
  (repeat' split) <;> (first | with_reducible rfl | (simp_all (maxDischargeDepth := 9); done) | (simp_all [mask]; done))

@[simp] theorem setActive_mask {l : List Part} (htim : Part.tim ∈ l) (a0 : Nat) (a1 : Bool) (c : Chip) : mask l (setActive a0 a1 c) = mask l c := by
  unfold setActive
  (try dsimp only)
  (repeat' split) <;> (first | with_reducible rfl | (simp_all (maxDischargeDepth := 9); done) | (simp_all [mask]; done))

@[simp] theorem tapMove_mask {l : List Part} (htim : Part.tim ∈ l) (a0 : Nat) (c : Chip) : mask l (tapMove a0 c) = mask l c := by
  unfold tapMove
  (try dsimp only)
  (repeat' split) <;> (first | with_reducible rfl | (simp_all (maxDischargeDepth := 9); done) | (simp_all [mask]; done))

@[simp] theorem todExpire_mask {l : List Part} (htim : Part.tim ∈ l) (a0 : Nat) (a1 : Nat) (c : Chip) : mask l (todExpire a0 a1 c) = mask l c := by
  unfold todExpire
  (try dsimp only)
  (repeat' split) <;> (first | with_reducible rfl | (simp_all (maxDischargeDepth := 9); done) | (simp_all [mask]; done))

@[simp] theorem inputsBoundary_mask {l : List Part} (hnq : Part.nq ∈ l) (hnotice : Part.notice ∈ l) (htim : Part.tim ∈ l) (hdep : Part.dep ∈ l) (a0 : Bool) (a1 : Bool) (a2 : Nat) (a3 : List RefRep) (c : Chip) : mask l (inputsBoundary a0 a1 a2 a3 c) = mask l c := by
  unfold inputsBoundary
  (try dsimp only)
  (repeat' split) <;> (first | with_reducible rfl | (simp_all (maxDischargeDepth := 9); done) | (simp_all [mask]; done))

@[simp] theorem lockStep_mask {l : List Part} (hnq : Part.nq ∈ l) (hnotice : Part.notice ∈ l) (htim : Part.tim ∈ l) (hdep : Part.dep ∈ l) (a0 : Nat) (a1 : Nat) (c : Chip) : mask l (lockStep a0 a1 c) = mask l c := by
  unfold lockStep
  (try dsimp only)
  (repeat' split) <;> (first | with_reducible rfl | (simp_all (maxDischargeDepth := 9); done) | (simp_all [mask]; done))

@[simp] theorem pullStep_mask {l : List Part} (htim : Part.tim ∈ l) (a0 : Nat) (a1 : Nat) (c : Chip) : mask l (pullStep a0 a1 c) = mask l c := by
  unfold pullStep
  (try dsimp only)
  (repeat' split) <;> (first | with_reducible rfl | (simp_all (maxDischargeDepth := 9); done) | (simp_all [mask]; done))

@[simp] theorem refReply_mask {l : List Part} (hmb : Part.mb ∈ l) (hint : Part.int ∈ l) (hhost : Part.host ∈ l) (a0 : Option (Nat × Nat)) (a1 : Option Nat) (c : Chip) : mask l (refReply a0 a1 c) = mask l c := by
  unfold refReply
  (try dsimp only)
  (repeat' split) <;> (first | with_reducible rfl | (simp_all (maxDischargeDepth := 9); done) | (simp_all [mask]; done))

@[simp] theorem refTake_mask {l : List Part} (hnq : Part.nq ∈ l) (hnotice : Part.notice ∈ l) (htim : Part.tim ∈ l) (hdep : Part.dep ∈ l) (a0 : Nat) (c : Chip) : mask l (refTake a0 c) = mask l c := by
  unfold refTake
  (try dsimp only)
  (repeat' split) <;> (first | with_reducible rfl | (simp_all (maxDischargeDepth := 9); done) | (simp_all [mask]; done))

@[simp] theorem selectDone_mask {l : List Part} (htim : Part.tim ∈ l) (a0 : Nat) (c : Chip) : mask l (selectDone a0 c) = mask l c := by
  unfold selectDone
  (try dsimp only)
  (repeat' split) <;> (first | with_reducible rfl | (simp_all (maxDischargeDepth := 9); done) | (simp_all [mask]; done))

@[simp] theorem selectStay_mask {l : List Part} (hnq : Part.nq ∈ l) (hnotice : Part.notice ∈ l) (htim : Part.tim ∈ l) (hdep : Part.dep ∈ l) (a0 : Nat) (a1 : Nat) (a2 : Bool) (c : Chip) : mask l (selectStay a0 a1 a2 c) = mask l c := by
  unfold selectStay
  (try dsimp only)
  (repeat' split) <;> (first | with_reducible rfl | (simp_all (maxDischargeDepth := 9); done) | (simp_all [mask]; done))

@[simp] theorem fallback_mask {l : List Part} (hnq : Part.nq ∈ l) (hnotice : Part.notice ∈ l) (htim : Part.tim ∈ l) (hdep : Part.dep ∈ l) (a0 : Nat) (a1 : Nat) (c : Chip) : mask l (fallback a0 a1 c) = mask l c := by
  unfold fallback
  (try dsimp only)
  (repeat' split) <;> (first | with_reducible rfl | (simp_all (maxDischargeDepth := 9); done) | (simp_all [mask]; done))

@[simp] theorem selectTake_mask {l : List Part} (hnq : Part.nq ∈ l) (hnotice : Part.notice ∈ l) (htim : Part.tim ∈ l) (hdep : Part.dep ∈ l) (a0 : Nat) (a1 : Nat) (a2 : Bool) (a3 : Bool) (c : Chip) : mask l (selectTake a0 a1 a2 a3 c) = mask l c := by
  unfold selectTake
  (try dsimp only)
  (repeat' split) <;> (first | with_reducible rfl | (simp_all (maxDischargeDepth := 9); done) | (simp_all [mask]; done))

@[simp] theorem selectStep_mask {l : List Part} (hnq : Part.nq ∈ l) (hnotice : Part.notice ∈ l) (htim : Part.tim ∈ l) (hdep : Part.dep ∈ l) (a0 : Nat) (a1 : Nat) (c : Chip) : mask l (selectStep a0 a1 c) = mask l c := by
  unfold selectStep
  (try dsimp only)
  (repeat' split) <;> (first | with_reducible rfl | (simp_all (maxDischargeDepth := 9); done) | (simp_all [mask]; done))

@[simp] theorem timingSelect_mask {l : List Part} (hmb : Part.mb ∈ l) (hint : Part.int ∈ l) (hnq : Part.nq ∈ l) (hnotice : Part.notice ∈ l) (hhost : Part.host ∈ l) (htim : Part.tim ∈ l) (hdep : Part.dep ∈ l) (a0 : List RefRep) (a1 : Nat) (c : Chip) : mask l (timingSelect a0 a1 c) = mask l c := by
  unfold timingSelect
  (try dsimp only)
  (repeat' split) <;> (first | with_reducible rfl | (simp_all (maxDischargeDepth := 9); done) | (simp_all [mask]; done))

@[simp] theorem timingBoundary_mask {l : List Part} (hmb : Part.mb ∈ l) (hint : Part.int ∈ l) (hnq : Part.nq ∈ l) (hnotice : Part.notice ∈ l) (hhost : Part.host ∈ l) (htim : Part.tim ∈ l) (hdep : Part.dep ∈ l) (a0 : TickRep) (a1 : Nat) (c : Chip) : mask l (timingBoundary a0 a1 c) = mask l c := by
  unfold timingBoundary
  (try dsimp only)
  (repeat' split) <;> (first | with_reducible rfl | (simp_all (maxDischargeDepth := 9); done) | (simp_all [mask]; done))

@[simp] theorem boundaryAfter_mask {l : List Part} (hdev : Part.dev ∈ l) (hmb : Part.mb ∈ l) (hint : Part.int ∈ l) (hnq : Part.nq ∈ l) (hnotice : Part.notice ∈ l) (hhost : Part.host ∈ l) (hcwy : Part.cwy ∈ l) (hctx : Part.ctx ∈ l) (hline : Part.line ∈ l) (hdfx : Part.dfx ∈ l) (htim : Part.tim ∈ l) (hupd : Part.upd ∈ l) (hpair : Part.pair ∈ l) (hdep : Part.dep ∈ l) (a0 : TickRep) (a1 : Nat) (c : Chip) : mask l (boundaryAfter a0 a1 c) = mask l c := by
  unfold boundaryAfter
  (try dsimp only)
  (repeat' split) <;> (first | with_reducible rfl | (simp_all (maxDischargeDepth := 9); done) | (simp_all [mask]; done))

@[simp] theorem freeze_mask {l : List Part} (hcm : Part.cm ∈ l) (a0 : Change) (a1 : Nat) (a2 : Bool) (c : Chip) : mask l (freeze a0 a1 a2 c) = mask l c := by
  unfold freeze
  (try dsimp only)
  (repeat' split) <;> (first | with_reducible rfl | (simp_all (maxDischargeDepth := 9); done) | (simp_all [mask]; done))

@[simp] theorem imgFinal_mask {l : List Part} (hmb : Part.mb ∈ l) (hint : Part.int ∈ l) (hhost : Part.host ∈ l) (a0 : Nat) (c : Chip) : mask l (imgFinal a0 c) = mask l c := by
  unfold imgFinal
  (try dsimp only)
  (repeat' split) <;> (first | with_reducible rfl | (simp_all (maxDischargeDepth := 9); done) | (simp_all [mask]; done))

@[simp] theorem refuse_mask {l : List Part} (hdev : Part.dev ∈ l) (hmb : Part.mb ∈ l) (hint : Part.int ∈ l) (hhost : Part.host ∈ l) (himg : Part.img ∈ l) (hcm : Part.cm ∈ l) (hjct : Part.jct ∈ l) (a0 : ImgFail) (c : Chip) : mask l (refuse a0 c) = mask l c := by
  unfold refuse
  (try dsimp only)
  (repeat' split) <;> (first | with_reducible rfl | (simp_all (maxDischargeDepth := 9); done) | (simp_all [mask]; done))

@[simp] theorem deadlineAt_mask {l : List Part} (hdev : Part.dev ∈ l) (hmb : Part.mb ∈ l) (hint : Part.int ∈ l) (hhost : Part.host ∈ l) (himg : Part.img ∈ l) (hcm : Part.cm ∈ l) (hjct : Part.jct ∈ l) (a0 : Bool) (a1 : Nat) (c : Chip) : mask l (deadlineAt a0 a1 c) = mask l c := by
  unfold deadlineAt
  (try dsimp only)
  (repeat' split) <;> (first | with_reducible rfl | (simp_all (maxDischargeDepth := 9); done) | (simp_all [mask]; done))

@[simp] theorem commitDeadline_mask {l : List Part} (hdev : Part.dev ∈ l) (hmb : Part.mb ∈ l) (hint : Part.int ∈ l) (hhost : Part.host ∈ l) (himg : Part.img ∈ l) (hcm : Part.cm ∈ l) (hjct : Part.jct ∈ l) (a0 : Nat) (c : Chip) : mask l (commitDeadline a0 c) = mask l c := by
  unfold commitDeadline
  (try dsimp only)
  (repeat' split) <;> (first | with_reducible rfl | (simp_all (maxDischargeDepth := 9); done) | (simp_all [mask]; done))

@[simp] theorem updCal_mask {l : List Part} (hline : Part.line ∈ l) (a0 : Nat) (a1 : CalSt → CalSt) (c : Chip) : mask l (updCal a0 a1 c) = mask l c := by
  unfold updCal
  (try dsimp only)
  (repeat' split) <;> (first | with_reducible rfl | (simp_all (maxDischargeDepth := 9); done) | (simp_all [mask]; done))

@[simp] theorem calAtCommit_mask {l : List Part} (hline : Part.line ∈ l)  (c : Chip) : mask l (calAtCommit  c) = mask l c := by
  unfold calAtCommit
  (try dsimp only)
  (repeat' split) <;> (first | with_reducible rfl | (simp_all (maxDischargeDepth := 9); done) | (simp_all [mask]; done))

@[simp] theorem ctxPublish_mask {l : List Part} (hdep : Part.dep ∈ l) (a0 : Nat) (c : Chip) : mask l (ctxPublish a0 c) = mask l c := by
  unfold ctxPublish
  (try dsimp only)
  (repeat' split) <;> (first | with_reducible rfl | (simp_all (maxDischargeDepth := 9); done) | (simp_all [mask]; done))

@[simp] theorem ctxAtCommit_mask {l : List Part} (hctx : Part.ctx ∈ l) (hline : Part.line ∈ l) (hdep : Part.dep ∈ l) (hfree : Part.free ∈ l) (a0 : Image) (a1 : Nat) (c : Chip) : mask l (ctxAtCommit a0 a1 c) = mask l c := by
  unfold ctxAtCommit
  dsimp only
  refine (mask_forEach (fun _ _ => ctxPublish_mask hdep _ _) _ _).trans ((mask_forEach ?_ _ _).trans ((mask_set_ctx hctx _ _).trans (calAtCommit_mask hline _)))
  intro t c0
  exact (updCtx_mask hctx _ _ _).trans (takeFree_mask hfree _)

@[simp] theorem closeFail_mask {l : List Part} (hnq : Part.nq ∈ l) (hnotice : Part.notice ∈ l) (hdfx : Part.dfx ∈ l) (hdep : Part.dep ∈ l) (a0 : Nat) (a1 : Nat) (a2 : Bool) (c : Chip) : mask l (closeFail a0 a1 a2 c) = mask l c := by
  unfold closeFail
  (try dsimp only)
  (repeat' split) <;> (first | with_reducible rfl | (simp_all (maxDischargeDepth := 9); done) | (simp_all [mask]; done))

@[simp] theorem clearFail_mask {l : List Part} (hnq : Part.nq ∈ l) (hnotice : Part.notice ∈ l) (hdfx : Part.dfx ∈ l) (hdep : Part.dep ∈ l) (a0 : Nat) (a1 : Nat) (c : Chip) : mask l (clearFail a0 a1 c) = mask l c := by
  unfold clearFail
  (try dsimp only)
  (repeat' split) <;> (first | with_reducible rfl | (simp_all (maxDischargeDepth := 9); done) | (simp_all [mask]; done))

@[simp] theorem silenceFail_mask {l : List Part} (hnq : Part.nq ∈ l) (hnotice : Part.notice ∈ l) (hdfx : Part.dfx ∈ l) (hdep : Part.dep ∈ l) (a0 : Nat) (a1 : Nat) (c : Chip) : mask l (silenceFail a0 a1 c) = mask l c := by
  unfold silenceFail
  (try dsimp only)
  (repeat' split) <;> (first | with_reducible rfl | (simp_all (maxDischargeDepth := 9); done) | (simp_all [mask]; done))

@[simp] theorem pointsAtCommit_mask {l : List Part} (hnq : Part.nq ∈ l) (hnotice : Part.notice ∈ l) (hdfx : Part.dfx ∈ l) (hdep : Part.dep ∈ l) (a0 : Image) (a1 : Nat) (c : Chip) : mask l (pointsAtCommit a0 a1 c) = mask l c := by
  unfold pointsAtCommit
  (try dsimp only)
  (repeat' split) <;> (first | with_reducible rfl | (simp_all (maxDischargeDepth := 9); done) | (simp_all [mask]; done))

@[simp] theorem defectsAtCommit_mask {l : List Part} (hdev : Part.dev ∈ l) (hnq : Part.nq ∈ l) (hnotice : Part.notice ∈ l) (hdfx : Part.dfx ∈ l) (hdep : Part.dep ∈ l) (a0 : Image) (a1 : Nat) (c : Chip) : mask l (defectsAtCommit a0 a1 c) = mask l c := by
  unfold defectsAtCommit
  (try dsimp only)
  (repeat' split) <;> (first | with_reducible rfl | (simp_all (maxDischargeDepth := 9); done) | (simp_all [mask]; done))

@[simp] theorem firstState_mask {l : List Part} (hdev : Part.dev ∈ l) (hint : Part.int ∈ l) (hnq : Part.nq ∈ l) (hnotice : Part.notice ∈ l) (hhost : Part.host ∈ l) (hpair : Part.pair ∈ l) (hdep : Part.dep ∈ l) (a0 : Nat) (c : Chip) : mask l (firstState a0 c) = mask l c := by
  unfold firstState
  (try dsimp only)
  (repeat' split) <;> (first | with_reducible rfl | (simp_all (maxDischargeDepth := 9); done) | (simp_all [mask]; done))

@[simp] theorem injCut_mask {l : List Part} (hdev : Part.dev ∈ l) (hnq : Part.nq ∈ l) (hnotice : Part.notice ∈ l) (hhost : Part.host ∈ l) (hcwy : Part.cwy ∈ l) (hctx : Part.ctx ∈ l) (hline : Part.line ∈ l) (hdfx : Part.dfx ∈ l) (hdep : Part.dep ∈ l) (a0 : Nat) (a1 : Nat) (c : Chip) : mask l (injCut a0 a1 c) = mask l c := by
  unfold injCut
  (try dsimp only)
  (repeat' split) <;> (first | with_reducible rfl | (simp_all (maxDischargeDepth := 9); done) | (simp_all [mask]; done))

@[simp] theorem injAtCommit_mask {l : List Part} (hdev : Part.dev ∈ l) (hnq : Part.nq ∈ l) (hnotice : Part.notice ∈ l) (hhost : Part.host ∈ l) (hcwy : Part.cwy ∈ l) (hctx : Part.ctx ∈ l) (hline : Part.line ∈ l) (hdfx : Part.dfx ∈ l) (hdep : Part.dep ∈ l) (a0 : Image) (a1 : Nat) (c : Chip) : mask l (injAtCommit a0 a1 c) = mask l c := by
  unfold injAtCommit
  (try dsimp only)
  (repeat' split) <;> (first | with_reducible rfl | (simp_all (maxDischargeDepth := 9); done) | (simp_all [mask]; done))

@[simp] theorem overheadAtCommit_mask {l : List Part} (hline : Part.line ∈ l) (a0 : Image) (c : Chip) : mask l (overheadAtCommit a0 c) = mask l c := by
  unfold overheadAtCommit
  (try dsimp only)
  (repeat' split) <;> (first | with_reducible rfl | (simp_all (maxDischargeDepth := 9); done) | (simp_all [mask]; done))

@[simp] theorem unitsRestart_mask {l : List Part} (hctx : Part.ctx ∈ l) (hline : Part.line ∈ l) (hdfx : Part.dfx ∈ l) (a0 : Nat) (a1 : Nat) (c : Chip) : mask l (unitsRestart a0 a1 c) = mask l c := by
  unfold unitsRestart
  (try dsimp only)
  (repeat' split) <;> (first | with_reducible rfl | (simp_all (maxDischargeDepth := 9); done) | (simp_all [mask]; done))

@[simp] theorem linesAtCommit_mask {l : List Part} (hctx : Part.ctx ∈ l) (hline : Part.line ∈ l) (hdfx : Part.dfx ∈ l) (a0 : Image) (a1 : Nat) (c : Chip) : mask l (linesAtCommit a0 a1 c) = mask l c := by
  unfold linesAtCommit
  (try dsimp only)
  (repeat' split) <;> (first | with_reducible rfl | (simp_all (maxDischargeDepth := 9); done) | (simp_all [mask]; done))

@[simp] theorem pairAtCommit_mask {l : List Part} (hpair : Part.pair ∈ l) (a0 : Bool) (a1 : Nat) (c : Chip) : mask l (pairAtCommit a0 a1 c) = mask l c := by
  unfold pairAtCommit
  (try dsimp only)
  (repeat' split) <;> (first | with_reducible rfl | (simp_all (maxDischargeDepth := 9); done) | (simp_all [mask]; done))

@[simp] theorem setPm_mask {l : List Part} (hpm : Part.pm ∈ l) (a0 : PmSt) (c : Chip) : mask l (setPm a0 c) = mask l c := by
  unfold setPm
  (try dsimp only)
  (repeat' split) <;> (first | with_reducible rfl | (simp_all (maxDischargeDepth := 9); done) | (simp_all [mask]; done))

@[simp] theorem syncSections_mask {l : List Part} (hpm : Part.pm ∈ l) (a0 : Nat) (c : Chip) : mask l (syncSections a0 c) = mask l c := by
  unfold syncSections
  (try dsimp only)
  (repeat' split) <;> (first | with_reducible rfl | (simp_all (maxDischargeDepth := 9); done) | (simp_all [mask]; done))

@[simp] theorem pmAtCommit_mask {l : List Part} (hpm : Part.pm ∈ l) (a0 : Image) (a1 : Nat) (c : Chip) : mask l (pmAtCommit a0 a1 c) = mask l c := by
  unfold pmAtCommit
  (try dsimp only)
  (repeat' split) <;> (first | with_reducible rfl | (simp_all (maxDischargeDepth := 9); done) | (simp_all [mask]; done))

@[simp] theorem closeDay_mask {l : List Part} (hnq : Part.nq ∈ l) (hnotice : Part.notice ∈ l) (hpm : Part.pm ∈ l) (hdep : Part.dep ∈ l) (a0 : Nat) (a1 : Bool) (c : Chip) : mask l (closeDay a0 a1 c) = mask l c := by
  unfold closeDay
  (try dsimp only)
  (repeat' split) <;> (first | with_reducible rfl | (simp_all (maxDischargeDepth := 9); done) | (simp_all [mask]; done))

@[simp] theorem closeQuarter_mask {l : List Part} (hnq : Part.nq ∈ l) (hnotice : Part.notice ∈ l) (hpm : Part.pm ∈ l) (hdep : Part.dep ∈ l) (a0 : Nat) (a1 : Bool) (c : Chip) : mask l (closeQuarter a0 a1 c) = mask l c := by
  unfold closeQuarter
  (try dsimp only)
  (repeat' split) <;> (first | with_reducible rfl | (simp_all (maxDischargeDepth := 9); done) | (simp_all [mask]; done))

@[simp] theorem degVerdict_mask {l : List Part} (hdfx : Part.dfx ∈ l) (a0 : Nat) (a1 : DegSt) (c : Chip) : mask l (degVerdict a0 a1 c) = mask l c := by
  unfold degVerdict
  (try dsimp only)
  (repeat' split) <;> (first | with_reducible rfl | (simp_all (maxDischargeDepth := 9); done) | (simp_all [mask]; done))

@[simp] theorem updDeg_mask {l : List Part} (hpm : Part.pm ∈ l) (a0 : Nat) (a1 : DegSt → DegSt) (c : Chip) : mask l (updDeg a0 a1 c) = mask l c := by
  unfold updDeg
  (try dsimp only)
  (repeat' split) <;> (first | with_reducible rfl | (simp_all (maxDischargeDepth := 9); done) | (simp_all [mask]; done))

@[simp] theorem degOtn_mask {l : List Part} (hdfx : Part.dfx ∈ l) (hpm : Part.pm ∈ l) (a0 : Nat) (a1 : DegSt) (c : Chip) : mask l (degOtn a0 a1 c) = mask l c := by
  unfold degOtn
  (try dsimp only)
  (repeat' split) <;> (first | with_reducible rfl | (simp_all (maxDischargeDepth := 9); done) | (simp_all [mask]; done))

@[simp] theorem degSdhStep_mask {l : List Part} (hdfx : Part.dfx ∈ l) (hpm : Part.pm ∈ l) (a0 : Nat) (a1 : DegSt) (c : Chip) : mask l (degSdhStep a0 a1 c) = mask l c := by
  unfold degSdhStep
  (try dsimp only)
  (repeat' split) <;> (first | with_reducible rfl | (simp_all (maxDischargeDepth := 9); done) | (simp_all [mask]; done))

@[simp] theorem degrade_mask {l : List Part} (hdfx : Part.dfx ∈ l) (hpm : Part.pm ∈ l) (a0 : Nat) (c : Chip) : mask l (degrade a0 c) = mask l c := by
  unfold degrade
  (try dsimp only)
  (repeat' split) <;> (first | with_reducible rfl | (simp_all (maxDischargeDepth := 9); done) | (simp_all [mask]; done))

@[simp] theorem tcaNotify_mask {l : List Part} (hnq : Part.nq ∈ l) (hnotice : Part.notice ∈ l) (hdep : Part.dep ∈ l) (a0 : Chip) (a1 : Nat) (a2 : Notice) (c : Chip) : mask l (tcaNotify a0 a1 a2 c) = mask l c := by
  unfold tcaNotify
  (try dsimp only)
  (repeat' split) <;> (first | with_reducible rfl | (simp_all (maxDischargeDepth := 9); done) | (simp_all [mask]; done))

@[simp] theorem updRec_mask {l : List Part} (hpm : Part.pm ∈ l) (a0 : Nat) (a1 : PmRecSt → PmRecSt) (c : Chip) : mask l (updRec a0 a1 c) = mask l c := by
  unfold updRec
  (try dsimp only)
  (repeat' split) <;> (first | with_reducible rfl | (simp_all (maxDischargeDepth := 9); done) | (simp_all [mask]; done))

@[simp] theorem recThresholds_mask {l : List Part} (hnq : Part.nq ∈ l) (hnotice : Part.notice ∈ l) (hpm : Part.pm ∈ l) (hdep : Part.dep ∈ l) (a0 : Nat) (a1 : Nat) (c : Chip) : mask l (recThresholds a0 a1 c) = mask l c := by
  unfold recThresholds
  (try dsimp only)
  (repeat' split) <;> (first | with_reducible rfl | (simp_all (maxDischargeDepth := 9); done) | (simp_all [mask]; done))

@[simp] theorem closeSecond_mask {l : List Part} (hnq : Part.nq ∈ l) (hnotice : Part.notice ∈ l) (hdfx : Part.dfx ∈ l) (hpm : Part.pm ∈ l) (hdep : Part.dep ∈ l) (a0 : Nat) (c : Chip) : mask l (closeSecond a0 c) = mask l c := by
  unfold closeSecond
  (try dsimp only)
  (repeat' split) <;> (first | with_reducible rfl | (simp_all (maxDischargeDepth := 9); done) | (simp_all [mask]; done))

@[simp] theorem pmApply_mask {l : List Part} (hdev : Part.dev ∈ l) (hnq : Part.nq ∈ l) (hnotice : Part.notice ∈ l) (hdfx : Part.dfx ∈ l) (hpm : Part.pm ∈ l) (hdep : Part.dep ∈ l) (a0 : Nat) (c : Chip) : mask l (pmApply a0 c) = mask l c := by
  unfold pmApply
  (try dsimp only)
  (repeat' split) <;> (first | with_reducible rfl | (simp_all (maxDischargeDepth := 9); done) | (simp_all [mask]; done))

@[simp] theorem pmSecond_mask {l : List Part} (hdev : Part.dev ∈ l) (hnq : Part.nq ∈ l) (hnotice : Part.notice ∈ l) (hdfx : Part.dfx ∈ l) (hpm : Part.pm ∈ l) (hdep : Part.dep ∈ l) (a0 : Nat) (c : Chip) : mask l (pmSecond a0 c) = mask l c := by
  unfold pmSecond
  (try dsimp only)
  (repeat' split) <;> (first | with_reducible rfl | (simp_all (maxDischargeDepth := 9); done) | (simp_all [mask]; done))

end Sys2Proof.Machine
end

