-- ==== Sys2Proof/Laws/Frame3.lean ====
section
/-!
SUPPORT. Frames, continued: the parts each operation may change, one lemma an operation, callees first.
-/
namespace Sys2Proof.Machine
open Sys2Proof

@[simp] theorem pmBefore_mask {l : List Part} (hdev : Part.dev ∈ l) (hnq : Part.nq ∈ l) (hnotice : Part.notice ∈ l) (hdfx : Part.dfx ∈ l) (hpm : Part.pm ∈ l) (hdep : Part.dep ∈ l) (a0 : Nat) (c : Chip) : mask l (pmBefore a0 c) = mask l c := by
  unfold pmBefore
  (try dsimp only)
  (repeat' split) <;> (first | with_reducible rfl | (simp_all (maxDischargeDepth := 9); done) | (simp_all [mask]; done))

@[simp] theorem enableLanes_mask {l : List Part} (hline : Part.line ∈ l) (a0 : List Nat) (c : Chip) : mask l (enableLanes a0 c) = mask l c := by
  unfold enableLanes
  (try dsimp only)
  (repeat' split) <;> (first | with_reducible rfl | (simp_all (maxDischargeDepth := 9); done) | (simp_all [mask]; done))

@[simp] theorem updGroup_mask {l : List Part} (hpower : Part.power ∈ l) (a0 : Nat) (a1 : GroupSt → GroupSt) (c : Chip) : mask l (updGroup a0 a1 c) = mask l c := by
  unfold updGroup
  (try dsimp only)
  (repeat' split) <;> (first | with_reducible rfl | (simp_all (maxDischargeDepth := 9); done) | (simp_all [mask]; done))

@[simp] theorem startWake_mask {l : List Part} (hline : Part.line ∈ l) (hpower : Part.power ∈ l) (a0 : Nat) (a1 : Nat) (c : Chip) : mask l (startWake a0 a1 c) = mask l c := by
  unfold startWake
  (try dsimp only)
  (repeat' split) <;> (first | with_reducible rfl | (simp_all (maxDischargeDepth := 9); done) | (simp_all [mask]; done))

@[simp] theorem powerAtCommit_mask {l : List Part} (hline : Part.line ∈ l) (hpower : Part.power ∈ l) (a0 : Nat) (c : Chip) : mask l (powerAtCommit a0 c) = mask l c := by
  unfold powerAtCommit
  (try dsimp only)
  (repeat' split) <;> (first | with_reducible rfl | (simp_all (maxDischargeDepth := 9); done) | (simp_all [mask]; done))

@[simp] theorem updSel_mask {l : List Part} (hjct : Part.jct ∈ l) (a0 : Nat) (a1 : SelSt → SelSt) (c : Chip) : mask l (updSel a0 a1 c) = mask l c := by
  unfold updSel
  (try dsimp only)
  (repeat' split) <;> (first | with_reducible rfl | (simp_all (maxDischargeDepth := 9); done) | (simp_all [mask]; done))

@[simp] theorem protAtCommit_mask {l : List Part} (hjct : Part.jct ∈ l) (hprot : Part.prot ∈ l) (a0 : Image) (a1 : Nat) (c : Chip) : mask l (protAtCommit a0 a1 c) = mask l c := by
  unfold protAtCommit
  (try dsimp only)
  (repeat' split) <;> (first | with_reducible rfl | (simp_all (maxDischargeDepth := 9); done) | (simp_all [mask]; done))

@[simp] theorem dpllsAtCommit_mask {l : List Part} (htim : Part.tim ∈ l) (a0 : Image) (a1 : Bool) (a2 : Nat) (c : Chip) : mask l (dpllsAtCommit a0 a1 a2 c) = mask l c := by
  unfold dpllsAtCommit
  (try dsimp only)
  (repeat' split) <;> (first | with_reducible rfl | (simp_all (maxDischargeDepth := 9); done) | (simp_all [mask]; done))

@[simp] theorem inputsAtCommit_mask {l : List Part} (hnq : Part.nq ∈ l) (hnotice : Part.notice ∈ l) (htim : Part.tim ∈ l) (hdep : Part.dep ∈ l) (a0 : Image) (a1 : Nat) (c : Chip) : mask l (inputsAtCommit a0 a1 c) = mask l c := by
  unfold inputsAtCommit
  dsimp only
  refine mask_forEach ?_ _ _
  · intro a c
    (repeat' split) <;> simp [*]

@[simp] theorem outputsAtCommit_mask {l : List Part} (htim : Part.tim ∈ l) (a0 : Image) (c : Chip) : mask l (outputsAtCommit a0 c) = mask l c := by
  unfold outputsAtCommit
  dsimp only
  refine mask_forEach ?_ _ _
  · intro a c
    (repeat' split) <;> simp [*]

@[simp] theorem swAtCommit_mask {l : List Part} (hnq : Part.nq ∈ l) (hnotice : Part.notice ∈ l) (htim : Part.tim ∈ l) (hdep : Part.dep ∈ l) (a0 : Nat) (c : Chip) : mask l (swAtCommit a0 c) = mask l c := by
  unfold swAtCommit
  (try dsimp only)
  (repeat' split) <;> (first | with_reducible rfl | (simp_all (maxDischargeDepth := 9); done) | (simp_all [mask]; done))

@[simp] theorem timingAtCommit_mask {l : List Part} (hnq : Part.nq ∈ l) (hnotice : Part.notice ∈ l) (htim : Part.tim ∈ l) (hdep : Part.dep ∈ l) (a0 : Image) (a1 : Bool) (a2 : Nat) (c : Chip) : mask l (timingAtCommit a0 a1 a2 c) = mask l c := by
  unfold timingAtCommit
  (try dsimp only)
  (repeat' split) <;> (first | with_reducible rfl | (simp_all (maxDischargeDepth := 9); done) | (simp_all [mask]; done))

@[simp] theorem updTrace_mask {l : List Part} (hline : Part.line ∈ l) (a0 : Nat) (a1 : TraceSt → TraceSt) (c : Chip) : mask l (updTrace a0 a1 c) = mask l c := by
  unfold updTrace
  (try dsimp only)
  (repeat' split) <;> (first | with_reducible rfl | (simp_all (maxDischargeDepth := 9); done) | (simp_all [mask]; done))

@[simp] theorem traceAfresh_mask {l : List Part} (hline : Part.line ∈ l) (a0 : Nat) (c : Chip) : mask l (traceAfresh a0 c) = mask l c := by
  unfold traceAfresh
  (try dsimp only)
  (repeat' split) <;> (first | with_reducible rfl | (simp_all (maxDischargeDepth := 9); done) | (simp_all [mask]; done))

@[simp] theorem tracesAtCommit_mask {l : List Part} (hline : Part.line ∈ l) (a0 : FMap (Nat × Nat)) (a1 : Image) (c : Chip) : mask l (tracesAtCommit a0 a1 c) = mask l c := by
  unfold tracesAtCommit
  (try dsimp only)
  (repeat' split) <;> (first | with_reducible rfl | (simp_all (maxDischargeDepth := 9); done) | (simp_all [mask]; done))

@[simp] theorem commitNow_mask {l : List Part} (hdev : Part.dev ∈ l) (hmb : Part.mb ∈ l) (hint : Part.int ∈ l) (hnq : Part.nq ∈ l) (hnotice : Part.notice ∈ l) (hhost : Part.host ∈ l) (himg : Part.img ∈ l) (hcm : Part.cm ∈ l) (hjct : Part.jct ∈ l) (heng : Part.eng ∈ l) (hisl : Part.isl ∈ l) (hcwy : Part.cwy ∈ l) (hctx : Part.ctx ∈ l) (hline : Part.line ∈ l) (hpower : Part.power ∈ l) (hdfx : Part.dfx ∈ l) (hpm : Part.pm ∈ l) (hprot : Part.prot ∈ l) (htim : Part.tim ∈ l) (hpair : Part.pair ∈ l) (hdep : Part.dep ∈ l) (hfree : Part.free ∈ l) (a0 : Nat) (c : Chip) : mask l (commitNow a0 c) = mask l c := by
  unfold commitNow
  (try dsimp only)
  (repeat' split) <;> (first | with_reducible rfl | (simp_all (maxDischargeDepth := 9); done) | (simp_all [mask]; done))

@[simp] theorem commitStep_mask {l : List Part} (hdev : Part.dev ∈ l) (hmb : Part.mb ∈ l) (hint : Part.int ∈ l) (hnq : Part.nq ∈ l) (hnotice : Part.notice ∈ l) (hhost : Part.host ∈ l) (himg : Part.img ∈ l) (hcm : Part.cm ∈ l) (hjct : Part.jct ∈ l) (heng : Part.eng ∈ l) (hisl : Part.isl ∈ l) (hcwy : Part.cwy ∈ l) (hctx : Part.ctx ∈ l) (hline : Part.line ∈ l) (hpower : Part.power ∈ l) (hdfx : Part.dfx ∈ l) (hpm : Part.pm ∈ l) (hprot : Part.prot ∈ l) (htim : Part.tim ∈ l) (hpair : Part.pair ∈ l) (hdep : Part.dep ∈ l) (hfree : Part.free ∈ l) (a0 : Bool) (a1 : Nat) (c : Chip) : mask l (commitStep a0 a1 c) = mask l c := by
  unfold commitStep
  (try dsimp only)
  (repeat' split) <;> (first | with_reducible rfl | (simp_all (maxDischargeDepth := 9); done) | (simp_all [mask]; done))

@[simp] theorem ctxRelease_mask {l : List Part} (hdep : Part.dep ∈ l)  (c : Chip) : mask l (ctxRelease  c) = mask l c := by
  unfold ctxRelease
  (try dsimp only)
  (repeat' split) <;> (first | with_reducible rfl | (simp_all (maxDischargeDepth := 9); done) | (simp_all [mask]; done))

@[simp] theorem patrolRelease_mask {l : List Part} (hdep : Part.dep ∈ l)  (c : Chip) : mask l (patrolRelease  c) = mask l c := by
  unfold patrolRelease
  refine mask_forEach ?_ _ _
  · intro a c
    (repeat' split) <;> simp [*]

@[simp] theorem pmRelease_mask {l : List Part} (hpm : Part.pm ∈ l)  (c : Chip) : mask l (pmRelease  c) = mask l c := by
  unfold pmRelease
  (try dsimp only)
  (repeat' split) <;> (first | with_reducible rfl | (simp_all (maxDischargeDepth := 9); done) | (simp_all [mask]; done))

@[simp] theorem oldRelease_mask {l : List Part} (hcm : Part.cm ∈ l) (hpm : Part.pm ∈ l) (hdep : Part.dep ∈ l) (a0 : Nat) (c : Chip) : mask l (oldRelease a0 c) = mask l c := by
  unfold oldRelease
  (try dsimp only)
  (repeat' split) <;> (first | with_reducible rfl | (simp_all (maxDischargeDepth := 9); done) | (simp_all [mask]; done))

@[simp] theorem rebuildDone_mask {l : List Part} (himg : Part.img ∈ l) (hcm : Part.cm ∈ l) (hjct : Part.jct ∈ l) (a0 : Nat) (c : Chip) : mask l (rebuildDone a0 c) = mask l c := by
  unfold rebuildDone
  (try dsimp only)
  (repeat' split) <;> (first | with_reducible rfl | (simp_all (maxDischargeDepth := 9); done) | (simp_all [mask]; done))

@[simp] theorem replaceFirst_mask {l : List Part} (hdev : Part.dev ∈ l) (hmb : Part.mb ∈ l) (hint : Part.int ∈ l) (hhost : Part.host ∈ l) (himg : Part.img ∈ l) (hcm : Part.cm ∈ l) (hjct : Part.jct ∈ l) (hisl : Part.isl ∈ l)  (c : Chip) : mask l (replaceFirst  c) = mask l c := by
  unfold replaceFirst
  (try dsimp only)
  (repeat' split) <;> (first | with_reducible rfl | (simp_all (maxDischargeDepth := 9); done) | (simp_all [mask]; done))

@[simp] theorem scrubBoundary_mask {l : List Part} (hdev : Part.dev ∈ l) (hmb : Part.mb ∈ l) (hint : Part.int ∈ l) (hhost : Part.host ∈ l) (himg : Part.img ∈ l) (hcm : Part.cm ∈ l) (hjct : Part.jct ∈ l) (a0 : Nat) (c : Chip) : mask l (scrubBoundary a0 c) = mask l c := by
  unfold scrubBoundary
  (try dsimp only)
  (repeat' split) <;> (first | with_reducible rfl | (simp_all (maxDischargeDepth := 9); done) | (simp_all [mask]; done))

@[simp] theorem commitBoundary_mask {l : List Part} (hdev : Part.dev ∈ l) (hmb : Part.mb ∈ l) (hint : Part.int ∈ l) (hnq : Part.nq ∈ l) (hnotice : Part.notice ∈ l) (hhost : Part.host ∈ l) (himg : Part.img ∈ l) (hcm : Part.cm ∈ l) (hjct : Part.jct ∈ l) (heng : Part.eng ∈ l) (hisl : Part.isl ∈ l) (hcwy : Part.cwy ∈ l) (hctx : Part.ctx ∈ l) (hline : Part.line ∈ l) (hpower : Part.power ∈ l) (hdfx : Part.dfx ∈ l) (hpm : Part.pm ∈ l) (hprot : Part.prot ∈ l) (htim : Part.tim ∈ l) (hpair : Part.pair ∈ l) (hdep : Part.dep ∈ l) (hfree : Part.free ∈ l) (a0 : Nat) (c : Chip) : mask l (commitBoundary a0 c) = mask l c := by
  unfold commitBoundary
  (try dsimp only)
  (repeat' split) <;> (first | with_reducible rfl | (simp_all (maxDischargeDepth := 9); done) | (simp_all [mask]; done))

@[simp] theorem substituteLanes_mask {l : List Part} (hcwy : Part.cwy ∈ l) (a0 : Nat) (c : Chip) : mask l (substituteLanes a0 c) = mask l c := by
  unfold substituteLanes
  (try dsimp only)
  (repeat' split) <;> (first | with_reducible rfl | (simp_all (maxDischargeDepth := 9); done) | (simp_all [mask]; done))

@[simp] theorem cwyBoundary_mask {l : List Part} (hcwy : Part.cwy ∈ l)  (c : Chip) : mask l (cwyBoundary  c) = mask l c := by
  unfold cwyBoundary
  (try dsimp only)
  (repeat' split) <;> (first | with_reducible rfl | (simp_all (maxDischargeDepth := 9); done) | (simp_all [mask]; done))

@[simp] theorem integrateAll_mask {l : List Part} (hdfx : Part.dfx ∈ l) (a0 : List Nat) (c : Chip) : mask l (integrateAll a0 c) = mask l c := by
  unfold integrateAll
  (try dsimp only)
  (repeat' split) <;> (first | with_reducible rfl | (simp_all (maxDischargeDepth := 9); done) | (simp_all [mask]; done))

@[simp] theorem publishDefects_mask {l : List Part} (hdfx : Part.dfx ∈ l) (a0 : List Nat) (c : Chip) : mask l (publishDefects a0 c) = mask l c := by
  unfold publishDefects
  (try dsimp only)
  (repeat' split) <;> (first | with_reducible rfl | (simp_all (maxDischargeDepth := 9); done) | (simp_all [mask]; done))

@[simp] theorem declareFail_mask {l : List Part} (hnq : Part.nq ∈ l) (hnotice : Part.notice ∈ l) (hdfx : Part.dfx ∈ l) (hdep : Part.dep ∈ l) (a0 : Nat) (a1 : Nat) (c : Chip) : mask l (declareFail a0 a1 c) = mask l c := by
  unfold declareFail
  (try dsimp only)
  (repeat' split) <;> (first | with_reducible rfl | (simp_all (maxDischargeDepth := 9); done) | (simp_all [mask]; done))

@[simp] theorem endWindow_mask {l : List Part} (hnq : Part.nq ∈ l) (hnotice : Part.notice ∈ l) (hdfx : Part.dfx ∈ l) (hdep : Part.dep ∈ l) (a0 : CorrWin) (c : Chip) : mask l (endWindow a0 c) = mask l c := by
  unfold endWindow
  (try dsimp only)
  (repeat' split) <;> (first | with_reducible rfl | (simp_all (maxDischargeDepth := 9); done) | (simp_all [mask]; done))

@[simp] theorem updateRoots_mask {l : List Part} (hnq : Part.nq ∈ l) (hnotice : Part.notice ∈ l) (hdfx : Part.dfx ∈ l) (hdep : Part.dep ∈ l) (a0 : Nat) (c : Chip) : mask l (updateRoots a0 c) = mask l c := by
  unfold updateRoots
  (try dsimp only)
  (repeat' split) <;> (first | with_reducible rfl | (simp_all (maxDischargeDepth := 9); done) | (simp_all [mask]; done))

@[simp] theorem verdicts_mask {l : List Part} (hnq : Part.nq ∈ l) (hnotice : Part.notice ∈ l) (hdfx : Part.dfx ∈ l) (hdep : Part.dep ∈ l) (a0 : List Nat) (a1 : Nat) (c : Chip) : mask l (verdicts a0 a1 c) = mask l c := by
  unfold verdicts
  (try dsimp only)
  (repeat' split) <;> (first | with_reducible rfl | (simp_all (maxDischargeDepth := 9); done) | (simp_all [mask]; done))

@[simp] theorem defectBoundary_mask {l : List Part} (hdev : Part.dev ∈ l) (hnq : Part.nq ∈ l) (hnotice : Part.notice ∈ l) (hdfx : Part.dfx ∈ l) (hdep : Part.dep ∈ l) (a0 : Nat) (c : Chip) : mask l (defectBoundary a0 c) = mask l c := by
  unfold defectBoundary
  (try dsimp only)
  (repeat' split) <;> (first | with_reducible rfl | (simp_all (maxDischargeDepth := 9); done) | (simp_all [mask]; done))

@[simp] theorem killEngine_mask {l : List Part} (hnq : Part.nq ∈ l) (hnotice : Part.notice ∈ l) (heng : Part.eng ∈ l) (hisl : Part.isl ∈ l) (hdep : Part.dep ∈ l) (a0 : Nat) (a1 : Nat) (c : Chip) : mask l (killEngine a0 a1 c) = mask l c := by
  unfold killEngine
  (try dsimp only)
  (repeat' split) <;> (first | with_reducible rfl | (simp_all (maxDischargeDepth := 9); done) | (simp_all [mask]; done))

@[simp] theorem declareDead_mask {l : List Part} (hnq : Part.nq ∈ l) (hnotice : Part.notice ∈ l) (heng : Part.eng ∈ l) (hisl : Part.isl ∈ l) (hctx : Part.ctx ∈ l) (hdep : Part.dep ∈ l) (a0 : List Nat) (a1 : Nat) (c : Chip) : mask l (declareDead a0 a1 c) = mask l c := by
  unfold declareDead
  (try dsimp only)
  (repeat' split) <;> (first | with_reducible rfl | (simp_all (maxDischargeDepth := 9); done) | (simp_all [mask]; done))

@[simp] theorem engSeen_mask {l : List Part} (heng : Part.eng ∈ l) (a0 : Nat) (a1 : Nat) (c : Chip) : mask l (engSeen a0 a1 c) = mask l c := by
  unfold engSeen
  (try dsimp only)
  (repeat' split) <;> (first | with_reducible rfl | (simp_all (maxDischargeDepth := 9); done) | (simp_all [mask]; done))

@[simp] theorem engCount_mask {l : List Part} (hnq : Part.nq ∈ l) (hnotice : Part.notice ∈ l) (heng : Part.eng ∈ l) (hdep : Part.dep ∈ l) (hfree : Part.free ∈ l) (a0 : Nat) (a1 : EngVerdict) (c : Chip) : mask l (engCount a0 a1 c) = mask l c := by
  unfold engCount
  (try dsimp only)
  (repeat' split) <;> (first | with_reducible rfl | (simp_all (maxDischargeDepth := 9); done) | (simp_all [mask]; done))

@[simp] theorem engOpen_mask {l : List Part} (heng : Part.eng ∈ l)  (c : Chip) : mask l (engOpen  c) = mask l c := by
  unfold engOpen
  (try dsimp only)
  (repeat' split) <;> (first | with_reducible rfl | (simp_all (maxDischargeDepth := 9); done) | (simp_all [mask]; done))

@[simp] theorem engWindow_mask {l : List Part} (heng : Part.eng ∈ l) (a0 : Nat) (c : Chip) : mask l (engWindow a0 c) = mask l c := by
  unfold engWindow
  (try dsimp only)
  (repeat' split) <;> (first | with_reducible rfl | (simp_all (maxDischargeDepth := 9); done) | (simp_all [mask]; done))

@[simp] theorem engBoundary_mask {l : List Part} (hnq : Part.nq ∈ l) (hnotice : Part.notice ∈ l) (heng : Part.eng ∈ l) (hisl : Part.isl ∈ l) (hctx : Part.ctx ∈ l) (hdep : Part.dep ∈ l) (hfree : Part.free ∈ l) (a0 : List (EngVerdict × List Nat)) (a1 : Nat) (c : Chip) : mask l (engBoundary a0 a1 c) = mask l c := by
  unfold engBoundary
  (try dsimp only)
  (repeat' split) <;> (first | with_reducible rfl | (simp_all (maxDischargeDepth := 9); done) | (simp_all [mask]; done))

@[simp] theorem setJct_mask {l : List Part} (hjct : Part.jct ∈ l) (a0 : JunctionSt) (c : Chip) : mask l (setJct a0 c) = mask l c := by
  unfold setJct
  (try dsimp only)
  (repeat' split) <;> (first | with_reducible rfl | (simp_all (maxDischargeDepth := 9); done) | (simp_all [mask]; done))

@[simp] theorem flitsAge_mask {l : List Part} (hjct : Part.jct ∈ l) (a0 : Nat) (c : Chip) : mask l (flitsAge a0 c) = mask l c := by
  unfold flitsAge
  (try dsimp only)
  (repeat' split) <;> (first | with_reducible rfl | (simp_all (maxDischargeDepth := 9); done) | (simp_all [mask]; done))

@[simp] theorem giveUp_mask {l : List Part} (hdev : Part.dev ∈ l) (hint : Part.int ∈ l) (hnq : Part.nq ∈ l) (hnotice : Part.notice ∈ l) (hhost : Part.host ∈ l) (hpair : Part.pair ∈ l) (hdep : Part.dep ∈ l) (a0 : Nat) (a1 : Nat) (c : Chip) : mask l (giveUp a0 a1 c) = mask l c := by
  unfold giveUp
  (try dsimp only)
  (repeat' split) <;> (first | with_reducible rfl | (simp_all (maxDischargeDepth := 9); done) | (simp_all [mask]; done))

@[simp] theorem hubLost_mask {l : List Part} (hdev : Part.dev ∈ l) (hpair : Part.pair ∈ l)  (c : Chip) : mask l (hubLost  c) = mask l c := by
  unfold hubLost
  (try dsimp only)
  (repeat' split) <;> (first | with_reducible rfl | (simp_all (maxDischargeDepth := 9); done) | (simp_all [mask]; done))

@[simp] theorem hubBoundary_mask {l : List Part} (hdev : Part.dev ∈ l) (hint : Part.int ∈ l) (hnq : Part.nq ∈ l) (hnotice : Part.notice ∈ l) (hhost : Part.host ∈ l) (hpair : Part.pair ∈ l) (hdep : Part.dep ∈ l) (a0 : Nat) (c : Chip) : mask l (hubBoundary a0 c) = mask l c := by
  unfold hubBoundary
  (try dsimp only)
  (repeat' split) <;> (first | with_reducible rfl | (simp_all (maxDischargeDepth := 9); done) | (simp_all [mask]; done))

@[simp] theorem linkDown_mask {l : List Part} (hpair : Part.pair ∈ l) (a0 : Bool) (c : Chip) : mask l (linkDown a0 c) = mask l c := by
  unfold linkDown
  (try dsimp only)
  (repeat' split) <;> (first | with_reducible rfl | (simp_all (maxDischargeDepth := 9); done) | (simp_all [mask]; done))

@[simp] theorem dualSeen_mask {l : List Part} (hnq : Part.nq ∈ l) (hnotice : Part.notice ∈ l) (hpair : Part.pair ∈ l) (hdep : Part.dep ∈ l) (a0 : Nat) (a1 : Nat) (c : Chip) : mask l (dualSeen a0 a1 c) = mask l c := by
  unfold dualSeen
  (try dsimp only)
  (repeat' split) <;> (first | with_reducible rfl | (simp_all (maxDischargeDepth := 9); done) | (simp_all [mask]; done))

@[simp] theorem superseded_mask {l : List Part} (hdev : Part.dev ∈ l) (hint : Part.int ∈ l) (hnq : Part.nq ∈ l) (hnotice : Part.notice ∈ l) (hhost : Part.host ∈ l) (hpair : Part.pair ∈ l) (hdep : Part.dep ∈ l) (a0 : Nat) (c : Chip) : mask l (superseded a0 c) = mask l c := by
  unfold superseded
  (try dsimp only)
  (repeat' split) <;> (first | with_reducible rfl | (simp_all (maxDischargeDepth := 9); done) | (simp_all [mask]; done))

@[simp] theorem tieLost_mask {l : List Part} (hdev : Part.dev ∈ l) (hint : Part.int ∈ l) (hnq : Part.nq ∈ l) (hnotice : Part.notice ∈ l) (hhost : Part.host ∈ l) (hpair : Part.pair ∈ l) (hdep : Part.dep ∈ l) (a0 : Nat) (c : Chip) : mask l (tieLost a0 c) = mask l c := by
  unfold tieLost
  (try dsimp only)
  (repeat' split) <;> (first | with_reducible rfl | (simp_all (maxDischargeDepth := 9); done) | (simp_all [mask]; done))

@[simp] theorem tieStep_mask {l : List Part} (hdev : Part.dev ∈ l) (hint : Part.int ∈ l) (hnq : Part.nq ∈ l) (hnotice : Part.notice ∈ l) (hhost : Part.host ∈ l) (hpair : Part.pair ∈ l) (hdep : Part.dep ∈ l) (a0 : Nat) (c : Chip) : mask l (tieStep a0 c) = mask l c := by
  unfold tieStep
  (try dsimp only)
  (repeat' split) <;> (first | with_reducible rfl | (simp_all (maxDischargeDepth := 9); done) | (simp_all [mask]; done))

@[simp] theorem yieldNow_mask {l : List Part} (hdev : Part.dev ∈ l) (hint : Part.int ∈ l) (hnq : Part.nq ∈ l) (hnotice : Part.notice ∈ l) (hhost : Part.host ∈ l) (hpair : Part.pair ∈ l) (hdep : Part.dep ∈ l) (a0 : Nat) (c : Chip) : mask l (yieldNow a0 c) = mask l c := by
  unfold yieldNow
  (try dsimp only)
  (repeat' split) <;> (first | with_reducible rfl | (simp_all (maxDischargeDepth := 9); done) | (simp_all [mask]; done))

@[simp] theorem pairLinks_mask {l : List Part} (hdev : Part.dev ∈ l) (hint : Part.int ∈ l) (hnq : Part.nq ∈ l) (hnotice : Part.notice ∈ l) (hhost : Part.host ∈ l) (hpair : Part.pair ∈ l) (hdep : Part.dep ∈ l) (a0 : Nat) (c : Chip) : mask l (pairLinks a0 c) = mask l c := by
  unfold pairLinks
  (try dsimp only)
  (repeat' split) <;> (first | with_reducible rfl | (simp_all (maxDischargeDepth := 9); done) | (simp_all [mask]; done))

@[simp] theorem proven_mask {l : List Part} (hnq : Part.nq ∈ l) (hnotice : Part.notice ∈ l) (hpair : Part.pair ∈ l) (hdep : Part.dep ∈ l) (a0 : Nat) (c : Chip) : mask l (proven a0 c) = mask l c := by
  unfold proven
  (try dsimp only)
  (repeat' split) <;> (first | with_reducible rfl | (simp_all (maxDischargeDepth := 9); done) | (simp_all [mask]; done))

@[simp] theorem pairMarks_mask {l : List Part} (hnq : Part.nq ∈ l) (hnotice : Part.notice ∈ l) (hpair : Part.pair ∈ l) (hdep : Part.dep ∈ l) (a0 : Nat) (c : Chip) : mask l (pairMarks a0 c) = mask l c := by
  unfold pairMarks
  (try dsimp only)
  (repeat' split) <;> (first | with_reducible rfl | (simp_all (maxDischargeDepth := 9); done) | (simp_all [mask]; done))

@[simp] theorem installCold_mask {l : List Part} (hjct : Part.jct ∈ l) (hpm : Part.pm ∈ l) (hprot : Part.prot ∈ l) (a0 : Nat) (c : Chip) : mask l (installCold a0 c) = mask l c := by
  unfold installCold
  dsimp only
  rw [mask_forEach]
  · try simp [*]
  · intro a c
    (repeat' split) <;> simp [*]

@[simp] theorem takeOver_mask {l : List Part} (hdev : Part.dev ∈ l) (hint : Part.int ∈ l) (hnq : Part.nq ∈ l) (hnotice : Part.notice ∈ l) (hhost : Part.host ∈ l) (hjct : Part.jct ∈ l) (hpm : Part.pm ∈ l) (hprot : Part.prot ∈ l) (hpair : Part.pair ∈ l) (hdep : Part.dep ∈ l) (a0 : Nat) (a1 : Nat) (c : Chip) : mask l (takeOver a0 a1 c) = mask l c := by
  unfold takeOver
  (try dsimp only)
  (repeat' split) <;> (first | with_reducible rfl | (simp_all (maxDischargeDepth := 9); done) | (simp_all [mask]; done))

@[simp] theorem claimStep_mask {l : List Part} (hdev : Part.dev ∈ l) (hmb : Part.mb ∈ l) (hint : Part.int ∈ l) (hnq : Part.nq ∈ l) (hnotice : Part.notice ∈ l) (hhost : Part.host ∈ l) (hjct : Part.jct ∈ l) (hpm : Part.pm ∈ l) (hprot : Part.prot ∈ l) (hpair : Part.pair ∈ l) (hdep : Part.dep ∈ l) (a0 : Nat) (c : Chip) : mask l (claimStep a0 c) = mask l c := by
  unfold claimStep
  (try dsimp only)
  (repeat' split) <;> (first | with_reducible rfl | (simp_all (maxDischargeDepth := 9); done) | (simp_all [mask]; done))

@[simp] theorem drillAbandon_mask {l : List Part} (hmb : Part.mb ∈ l) (hint : Part.int ∈ l) (hhost : Part.host ∈ l) (hpair : Part.pair ∈ l)  (c : Chip) : mask l (drillAbandon  c) = mask l c := by
  unfold drillAbandon
  (try dsimp only)
  (repeat' split) <;> (first | with_reducible rfl | (simp_all (maxDischargeDepth := 9); done) | (simp_all [mask]; done))

@[simp] theorem drillDeadline_mask {l : List Part} (hmb : Part.mb ∈ l) (hint : Part.int ∈ l) (hhost : Part.host ∈ l) (hpair : Part.pair ∈ l) (a0 : Nat) (c : Chip) : mask l (drillDeadline a0 c) = mask l c := by
  unfold drillDeadline
  (try dsimp only)
  (repeat' split) <;> (first | with_reducible rfl | (simp_all (maxDischargeDepth := 9); done) | (simp_all [mask]; done))

@[simp] theorem drillSwap_mask {l : List Part} (hdev : Part.dev ∈ l) (hmb : Part.mb ∈ l) (hint : Part.int ∈ l) (hnq : Part.nq ∈ l) (hnotice : Part.notice ∈ l) (hhost : Part.host ∈ l) (hpair : Part.pair ∈ l) (hdep : Part.dep ∈ l) (a0 : Nat) (c : Chip) : mask l (drillSwap a0 c) = mask l c := by
  unfold drillSwap
  (try dsimp only)
  (repeat' split) <;> (first | with_reducible rfl | (simp_all (maxDischargeDepth := 9); done) | (simp_all [mask]; done))

@[simp] theorem withhold_mask {l : List Part} (hnq : Part.nq ∈ l) (hnotice : Part.notice ∈ l) (hpair : Part.pair ∈ l) (hdep : Part.dep ∈ l) (a0 : List Nat) (a1 : Nat) (c : Chip) : mask l (withhold a0 a1 c) = mask l c := by
  unfold withhold
  (try dsimp only)
  (repeat' split) <;> (first | with_reducible rfl | (simp_all (maxDischargeDepth := 9); done) | (simp_all [mask]; done))

@[simp] theorem selfRelease_mask {l : List Part} (hdev : Part.dev ∈ l) (hint : Part.int ∈ l) (hnq : Part.nq ∈ l) (hnotice : Part.notice ∈ l) (hhost : Part.host ∈ l) (hpair : Part.pair ∈ l) (hdep : Part.dep ∈ l) (a0 : Nat) (c : Chip) : mask l (selfRelease a0 c) = mask l c := by
  unfold selfRelease
  (try dsimp only)
  (repeat' split) <;> (first | with_reducible rfl | (simp_all (maxDischargeDepth := 9); done) | (simp_all [mask]; done))

@[simp] theorem pairReleases_mask {l : List Part} (hdev : Part.dev ∈ l) (hmb : Part.mb ∈ l) (hint : Part.int ∈ l) (hnq : Part.nq ∈ l) (hnotice : Part.notice ∈ l) (hhost : Part.host ∈ l) (hjct : Part.jct ∈ l) (hpm : Part.pm ∈ l) (hprot : Part.prot ∈ l) (hpair : Part.pair ∈ l) (hdep : Part.dep ∈ l) (a0 : Nat) (c : Chip) : mask l (pairReleases a0 c) = mask l c := by
  unfold pairReleases
  (try dsimp only)
  (repeat' split) <;> (first | with_reducible rfl | (simp_all (maxDischargeDepth := 9); done) | (simp_all [mask]; done))

@[simp] theorem installCmd_mask {l : List Part} (hprot : Part.prot ∈ l) (a0 : Word) (c : Chip) : mask l (installCmd a0 c) = mask l c := by
  unfold installCmd
  (try dsimp only)
  (repeat' split) <;> (first | with_reducible rfl | (simp_all (maxDischargeDepth := 9); done) | (simp_all [mask]; done))

@[simp] theorem installItem_mask {l : List Part} (hctx : Part.ctx ∈ l) (hline : Part.line ∈ l) (hpm : Part.pm ∈ l) (hprot : Part.prot ∈ l) (a0 : MirrorItem) (c : Chip) : mask l (installItem a0 c) = mask l c := by
  unfold installItem
  (try dsimp only)
  (repeat' split) <;> (first | with_reducible rfl | (simp_all (maxDischargeDepth := 9); done) | (simp_all [mask]; done))

@[simp] theorem installWrite_mask {l : List Part} (hdfx : Part.dfx ∈ l) (hpm : Part.pm ∈ l) (a0 : Nat) (a1 : Word) (c : Chip) : mask l (installWrite a0 a1 c) = mask l c := by
  unfold installWrite
  (try dsimp only)
  (repeat' split) <;> (first | with_reducible rfl | (simp_all (maxDischargeDepth := 9); done) | (simp_all [mask]; done))

@[simp] theorem installWarm_mask {l : List Part} (hctx : Part.ctx ∈ l) (hline : Part.line ∈ l) (hdfx : Part.dfx ∈ l) (hpm : Part.pm ∈ l) (hprot : Part.prot ∈ l)  (c : Chip) : mask l (installWarm  c) = mask l c := by
  unfold installWarm
  (try dsimp only)
  (repeat' split) <;> (first | with_reducible rfl | (simp_all (maxDischargeDepth := 9); done) | (simp_all [mask]; done))

@[simp] theorem handoverComplete_mask {l : List Part} (hdev : Part.dev ∈ l) (hint : Part.int ∈ l) (hhost : Part.host ∈ l) (hctx : Part.ctx ∈ l) (hline : Part.line ∈ l) (hdfx : Part.dfx ∈ l) (hpm : Part.pm ∈ l) (hprot : Part.prot ∈ l) (hpair : Part.pair ∈ l) (a0 : Nat) (c : Chip) : mask l (handoverComplete a0 c) = mask l c := by
  unfold handoverComplete
  (try dsimp only)
  (repeat' split) <;> (first | with_reducible rfl | (simp_all (maxDischargeDepth := 9); done) | (simp_all [mask]; done))

@[simp] theorem pairTakes_mask {l : List Part} (hdev : Part.dev ∈ l) (hint : Part.int ∈ l) (hnq : Part.nq ∈ l) (hnotice : Part.notice ∈ l) (hhost : Part.host ∈ l) (hjct : Part.jct ∈ l) (hctx : Part.ctx ∈ l) (hline : Part.line ∈ l) (hdfx : Part.dfx ∈ l) (hpm : Part.pm ∈ l) (hprot : Part.prot ∈ l) (hpair : Part.pair ∈ l) (hdep : Part.dep ∈ l) (a0 : Nat) (c : Chip) : mask l (pairTakes a0 c) = mask l c := by
  unfold pairTakes
  (try dsimp only)
  (repeat' split) <;> (first | with_reducible rfl | (simp_all (maxDischargeDepth := 9); done) | (simp_all [mask]; done))

@[simp] theorem pairBoundary_mask {l : List Part} (hdev : Part.dev ∈ l) (hmb : Part.mb ∈ l) (hint : Part.int ∈ l) (hnq : Part.nq ∈ l) (hnotice : Part.notice ∈ l) (hhost : Part.host ∈ l) (hjct : Part.jct ∈ l) (hctx : Part.ctx ∈ l) (hline : Part.line ∈ l) (hdfx : Part.dfx ∈ l) (hpm : Part.pm ∈ l) (hprot : Part.prot ∈ l) (hpair : Part.pair ∈ l) (hdep : Part.dep ∈ l) (a0 : Nat) (c : Chip) : mask l (pairBoundary a0 c) = mask l c := by
  unfold pairBoundary
  (try dsimp only)
  (repeat' split) <;> (first | with_reducible rfl | (simp_all (maxDischargeDepth := 9); done) | (simp_all [mask]; done))

@[simp] theorem grpNotify_mask {l : List Part} (hnq : Part.nq ∈ l) (hnotice : Part.notice ∈ l) (hdep : Part.dep ∈ l) (a0 : Rec) (a1 : Notice) (c : Chip) : mask l (grpNotify a0 a1 c) = mask l c := by
  unfold grpNotify
  (try dsimp only)
  (repeat' split) <;> (first | with_reducible rfl | (simp_all (maxDischargeDepth := 9); done) | (simp_all [mask]; done))

@[simp] theorem grpBoundary_mask {l : List Part} (hnq : Part.nq ∈ l) (hnotice : Part.notice ∈ l) (hprot : Part.prot ∈ l) (hdep : Part.dep ∈ l) (a0 : Nat) (a1 : Nat) (c : Chip) : mask l (grpBoundary a0 a1 c) = mask l c := by
  unfold grpBoundary
  (try dsimp only)
  (repeat' split) <;> (first | with_reducible rfl | (simp_all (maxDischargeDepth := 9); done) | (simp_all [mask]; done))

@[simp] theorem selRestore_mask {l : List Part} (hjct : Part.jct ∈ l) (a0 : Nat) (a1 : Nat) (c : Chip) : mask l (selRestore a0 a1 c) = mask l c := by
  unfold selRestore
  (try dsimp only)
  (repeat' split) <;> (first | with_reducible rfl | (simp_all (maxDischargeDepth := 9); done) | (simp_all [mask]; done))

@[simp] theorem selRestoreAll_mask {l : List Part} (hjct : Part.jct ∈ l)  (c : Chip) : mask l (selRestoreAll  c) = mask l c := by
  unfold selRestoreAll
  (try dsimp only)
  (repeat' split) <;> (first | with_reducible rfl | (simp_all (maxDischargeDepth := 9); done) | (simp_all [mask]; done))

@[simp] theorem selectorChange_mask {l : List Part} (hnq : Part.nq ∈ l) (hnotice : Part.notice ∈ l) (hjct : Part.jct ∈ l) (hprot : Part.prot ∈ l) (hdep : Part.dep ∈ l) (a0 : Nat) (a1 : Nat) (c : Chip) : mask l (selectorChange a0 a1 c) = mask l c := by
  unfold selectorChange
  (try dsimp only)
  (repeat' split) <;> (first | with_reducible rfl | (simp_all (maxDischargeDepth := 9); done) | (simp_all [mask]; done))

@[simp] theorem selectorStep_mask {l : List Part} (hnq : Part.nq ∈ l) (hnotice : Part.notice ∈ l) (hjct : Part.jct ∈ l) (hprot : Part.prot ∈ l) (hdep : Part.dep ∈ l) (a0 : Nat) (c : Chip) : mask l (selectorStep a0 c) = mask l c := by
  unfold selectorStep
  (try dsimp only)
  (repeat' split) <;> (first | with_reducible rfl | (simp_all (maxDischargeDepth := 9); done) | (simp_all [mask]; done))

@[simp] theorem boxUp_mask {l : List Part} (hdev : Part.dev ∈ l) (hmb : Part.mb ∈ l) (hint : Part.int ∈ l) (hnq : Part.nq ∈ l) (hnotice : Part.notice ∈ l) (hhost : Part.host ∈ l) (hdep : Part.dep ∈ l)  (c : Chip) : mask l (boxUp  c) = mask l c := by
  unfold boxUp
  (try dsimp only)
  (repeat' split) <;> (first | with_reducible rfl | (simp_all (maxDischargeDepth := 9); done) | (simp_all [mask]; done))

@[simp] theorem fallbackEnd_mask {l : List Part} (hmb : Part.mb ∈ l) (hint : Part.int ∈ l) (hnq : Part.nq ∈ l) (hnotice : Part.notice ∈ l) (hhost : Part.host ∈ l) (hupd : Part.upd ∈ l) (hdep : Part.dep ∈ l) (a0 : Nat) (c : Chip) : mask l (fallbackEnd a0 c) = mask l c := by
  unfold fallbackEnd
  (try dsimp only)
  (repeat' split) <;> (first | with_reducible rfl | (simp_all (maxDischargeDepth := 9); done) | (simp_all [mask]; done))

@[simp] theorem handEnd_mask {l : List Part} (hdev : Part.dev ∈ l) (hmb : Part.mb ∈ l) (hint : Part.int ∈ l) (hnq : Part.nq ∈ l) (hnotice : Part.notice ∈ l) (hhost : Part.host ∈ l) (hcm : Part.cm ∈ l) (htim : Part.tim ∈ l) (hupd : Part.upd ∈ l) (hdep : Part.dep ∈ l) (a0 : Nat) (c : Chip) : mask l (handEnd a0 c) = mask l c := by
  unfold handEnd
  (try dsimp only)
  (repeat' split) <;> (first | with_reducible rfl | (simp_all (maxDischargeDepth := 9); done) | (simp_all [mask]; done))

@[simp] theorem migrateIsland_mask {l : List Part} (hnq : Part.nq ∈ l) (hnotice : Part.notice ∈ l) (heng : Part.eng ∈ l) (hisl : Part.isl ∈ l) (hctx : Part.ctx ∈ l) (hupd : Part.upd ∈ l) (hdep : Part.dep ∈ l) (a0 : Nat) (a1 : Nat) (c : Chip) : mask l (migrateIsland a0 a1 c) = mask l c := by
  unfold migrateIsland
  (try dsimp only)
  (repeat' split) <;> (first | with_reducible rfl | (simp_all (maxDischargeDepth := 9); done) | (simp_all [mask]; done))

@[simp] theorem mcStep_mask {l : List Part} (hdev : Part.dev ∈ l) (hmb : Part.mb ∈ l) (hint : Part.int ∈ l) (hnq : Part.nq ∈ l) (hnotice : Part.notice ∈ l) (hhost : Part.host ∈ l) (hcm : Part.cm ∈ l) (heng : Part.eng ∈ l) (hisl : Part.isl ∈ l) (hctx : Part.ctx ∈ l) (htim : Part.tim ∈ l) (hupd : Part.upd ∈ l) (hdep : Part.dep ∈ l) (a0 : List Nat) (a1 : Nat) (c : Chip) : mask l (mcStep a0 a1 c) = mask l c := by
  unfold mcStep
  (try dsimp only)
  (repeat' split) <;> (first | with_reducible rfl | (simp_all (maxDischargeDepth := 9); done) | (simp_all [mask]; done))

@[simp] theorem startLists_mask {l : List Part} (hisl : Part.isl ∈ l) (a0 : List Nat) (a1 : Nat) (c : Chip) : mask l (startLists a0 a1 c) = mask l c := by
  unfold startLists
  (try dsimp only)
  (repeat' split) <;> (first | with_reducible rfl | (simp_all (maxDischargeDepth := 9); done) | (simp_all [mask]; done))

@[simp] theorem sidingStep_mask {l : List Part} (hdev : Part.dev ∈ l) (hmb : Part.mb ∈ l) (hint : Part.int ∈ l) (hnq : Part.nq ∈ l) (hnotice : Part.notice ∈ l) (hhost : Part.host ∈ l) (hcm : Part.cm ∈ l) (heng : Part.eng ∈ l) (hisl : Part.isl ∈ l) (hctx : Part.ctx ∈ l) (htim : Part.tim ∈ l) (hupd : Part.upd ∈ l) (hdep : Part.dep ∈ l) (hfree : Part.free ∈ l) (a0 : List (EngVerdict × List Nat)) (a1 : Nat) (c : Chip) : mask l (sidingStep a0 a1 c) = mask l c := by
  unfold sidingStep
  (try dsimp only)
  (repeat' split) <;> (first | with_reducible rfl | (simp_all (maxDischargeDepth := 9); done) | (simp_all [mask]; done))

@[simp] theorem setCounters_mask {l : List Part} (hdep : Part.dep ∈ l) (a0 : CountSt) (c : Chip) : mask l (setCounters a0 c) = mask l c := by
  unfold setCounters
  (try dsimp only)
  (repeat' split) <;> (first | with_reducible rfl | (simp_all (maxDischargeDepth := 9); done) | (simp_all [mask]; done))

@[simp] theorem bwEnds_mask {l : List Part} (hdep : Part.dep ∈ l) (a0 : Nat) (c : Chip) : mask l (bwEnds a0 c) = mask l c := by
  unfold bwEnds
  (try dsimp only)
  (repeat' split) <;> (first | with_reducible rfl | (simp_all (maxDischargeDepth := 9); done) | (simp_all [mask]; done))

@[simp] theorem jctPublish_mask {l : List Part} (hjct : Part.jct ∈ l) (a0 : Placement) (c : Chip) : mask l (jctPublish a0 c) = mask l c := by
  unfold jctPublish
  (try dsimp only)
  (repeat' split) <;> (first | with_reducible rfl | (simp_all (maxDischargeDepth := 9); done) | (simp_all [mask]; done))

@[simp] theorem protPublish_mask {l : List Part} (hprot : Part.prot ∈ l) (a0 : Nat) (c : Chip) : mask l (protPublish a0 c) = mask l c := by
  unfold protPublish
  (try dsimp only)
  (repeat' split) <;> (first | with_reducible rfl | (simp_all (maxDischargeDepth := 9); done) | (simp_all [mask]; done))

@[simp] theorem snapTake_mask {l : List Part} (hdep : Part.dep ∈ l) (a0 : FMap (BitVec 48)) (a1 : Nat) (c : Chip) : mask l (snapTake a0 a1 c) = mask l c := by
  unfold snapTake
  (try dsimp only)
  (repeat' split) <;> (first | with_reducible rfl | (simp_all (maxDischargeDepth := 9); done) | (simp_all [mask]; done))

@[simp] theorem snapshotStep_mask {l : List Part} (hdev : Part.dev ∈ l) (hnq : Part.nq ∈ l) (hnotice : Part.notice ∈ l) (hjct : Part.jct ∈ l) (hdfx : Part.dfx ∈ l) (hpm : Part.pm ∈ l) (hprot : Part.prot ∈ l) (hdep : Part.dep ∈ l) (a0 : Chip) (a1 : Nat) (c : Chip) : mask l (snapshotStep a0 a1 c) = mask l c := by
  unfold snapshotStep
  (try dsimp only)
  (repeat' split) <;> (first | with_reducible rfl | (simp_all (maxDischargeDepth := 9); done) | (simp_all [mask]; done))

@[simp] theorem boundarySteps_mask {l : List Part} (hdev : Part.dev ∈ l) (hmb : Part.mb ∈ l) (hint : Part.int ∈ l) (hnq : Part.nq ∈ l) (hnotice : Part.notice ∈ l) (hhost : Part.host ∈ l) (himg : Part.img ∈ l) (hcm : Part.cm ∈ l) (hjct : Part.jct ∈ l) (heng : Part.eng ∈ l) (hisl : Part.isl ∈ l) (hcwy : Part.cwy ∈ l) (hctx : Part.ctx ∈ l) (hline : Part.line ∈ l) (hpower : Part.power ∈ l) (hdfx : Part.dfx ∈ l) (hpm : Part.pm ∈ l) (hprot : Part.prot ∈ l) (htim : Part.tim ∈ l) (hupd : Part.upd ∈ l) (hpair : Part.pair ∈ l) (hdep : Part.dep ∈ l) (hfree : Part.free ∈ l) (a0 : List (EngVerdict × List Nat)) (a1 : Chip) (a2 : Nat) (c : Chip) : mask l (boundarySteps a0 a1 a2 c) = mask l c := by
  unfold boundarySteps
  (try dsimp only)
  (repeat' split) <;> (first | with_reducible rfl | (simp_all (maxDischargeDepth := 9); done) | (simp_all [mask]; done))

@[simp] theorem bwCount_mask {l : List Part} (hdep : Part.dep ∈ l) (a0 : List PortRep) (c : Chip) : mask l (bwCount a0 c) = mask l c := by
  unfold bwCount
  (try dsimp only)
  (repeat' split) <;> (first | with_reducible rfl | (simp_all (maxDischargeDepth := 9); done) | (simp_all [mask]; done))

@[simp] theorem bwCtrl_mask {l : List Part} (hdep : Part.dep ∈ l) (a0 : Word) (c : Chip) : mask l (bwCtrl a0 c) = mask l c := by
  unfold bwCtrl
  (try dsimp only)
  (repeat' split) <;> (first | with_reducible rfl | (simp_all (maxDischargeDepth := 9); done) | (simp_all [mask]; done))

@[simp] theorem calReceived_mask {l : List Part} (hctx : Part.ctx ∈ l) (hline : Part.line ∈ l) (a0 : Nat) (a1 : Bool) (c : Chip) : mask l (calReceived a0 a1 c) = mask l c := by
  unfold calReceived
  (try dsimp only)
  (repeat' split) <;> (first | with_reducible rfl | (simp_all (maxDischargeDepth := 9); done) | (simp_all [mask]; done))

@[simp] theorem calSwitch_mask {l : List Part} (hctx : Part.ctx ∈ l) (hline : Part.line ∈ l) (a0 : Nat) (c : Chip) : mask l (calSwitch a0 c) = mask l c := by
  unfold calSwitch
  (try dsimp only)
  (repeat' split) <;> (first | with_reducible rfl | (simp_all (maxDischargeDepth := 9); done) | (simp_all [mask]; done))

@[simp] theorem captureA_mask {l : List Part} (hdev : Part.dev ∈ l) (hmb : Part.mb ∈ l) (hcm : Part.cm ∈ l) (hpm : Part.pm ∈ l) (htim : Part.tim ∈ l) (hpair : Part.pair ∈ l) (hdep : Part.dep ∈ l) (a0 : Nat) (a1 : Nat) (c : Chip) : mask l (captureA a0 a1 c) = mask l c := by
  unfold captureA
  (try dsimp only)
  (repeat' split) <;> (first | with_reducible rfl | (simp_all (maxDischargeDepth := 9); done) | (simp_all [mask]; done))

@[simp] theorem captureB_mask {l : List Part} (hfree : Part.free ∈ l) (a0 : Nat) (a1 : Nat) (c : Chip) : mask l (captureB a0 a1 c) = mask l c := by
  unfold captureB
  (try dsimp only)
  (repeat' split) <;> (first | with_reducible rfl | (simp_all (maxDischargeDepth := 9); done) | (simp_all [mask]; done))

@[simp] theorem captureC_mask {l : List Part} (hdep : Part.dep ∈ l) (a0 : Nat) (c : Chip) : mask l (captureC a0 c) = mask l c := by
  unfold captureC
  (try dsimp only)
  (repeat' split) <;> (first | with_reducible rfl | (simp_all (maxDischargeDepth := 9); done) | (simp_all [mask]; done))

@[simp] theorem laneLocks_mask {l : List Part} (hline : Part.line ∈ l) (hdfx : Part.dfx ∈ l) (a0 : Nat) (a1 : Nat) (c : Chip) : mask l (laneLocks a0 a1 c) = mask l c := by
  unfold laneLocks
  (try dsimp only)
  (repeat' split) <;> (first | with_reducible rfl | (simp_all (maxDischargeDepth := 9); done) | (simp_all [mask]; done))

@[simp] theorem cdrLocks_mask {l : List Part} (hline : Part.line ∈ l) (hdfx : Part.dfx ∈ l) (a0 : Nat) (a1 : Nat) (c : Chip) : mask l (cdrLocks a0 a1 c) = mask l c := by
  unfold cdrLocks
  (try dsimp only)
  (repeat' split) <;> (first | with_reducible rfl | (simp_all (maxDischargeDepth := 9); done) | (simp_all [mask]; done))

@[simp] theorem imgTake_mask {l : List Part} (hmb : Part.mb ∈ l) (a0 : Byte) (c : Chip) : mask l (imgTake a0 c) = mask l c := by
  unfold imgTake
  (try dsimp only)
  (repeat' split) <;> (first | with_reducible rfl | (simp_all (maxDischargeDepth := 9); done) | (simp_all [mask]; done))

@[simp] theorem changeTake_mask {l : List Part} (hmb : Part.mb ∈ l) (hint : Part.int ∈ l) (hhost : Part.host ∈ l) (hcm : Part.cm ∈ l) (a0 : Nat) (a1 : Byte) (a2 : Bool) (a3 : List Byte) (c : Chip) : mask l (changeTake a0 a1 a2 a3 c) = mask l c := by
  unfold changeTake
  (try dsimp only)
  (repeat' split) <;> (first | with_reducible rfl | (simp_all (maxDischargeDepth := 9); done) | (simp_all [mask]; done))

@[simp] theorem changeWakes_mask {l : List Part} (hcm : Part.cm ∈ l) (hline : Part.line ∈ l) (hpower : Part.power ∈ l) (a0 : List Nat) (a1 : Nat) (c : Chip) : mask l (changeWakes a0 a1 c) = mask l c := by
  unfold changeWakes
  (try dsimp only)
  (repeat' split) <;> (first | with_reducible rfl | (simp_all (maxDischargeDepth := 9); done) | (simp_all [mask]; done))

@[simp] theorem clearPads_mask {l : List Part} (heng : Part.eng ∈ l) (a0 : Nat) (c : Chip) : mask l (clearPads a0 c) = mask l c := by
  unfold clearPads
  (try dsimp only)
  (repeat' split) <;> (first | with_reducible rfl | (simp_all (maxDischargeDepth := 9); done) | (simp_all [mask]; done))

@[simp] theorem clearIsland_mask {l : List Part} (heng : Part.eng ∈ l) (hdep : Part.dep ∈ l) (a0 : Nat) (c : Chip) : mask l (clearIsland a0 c) = mask l c := by
  unfold clearIsland
  (try dsimp only)
  (repeat' split) <;> (first | with_reducible rfl | (simp_all (maxDischargeDepth := 9); done) | (simp_all [mask]; done))

@[simp] theorem coldChip_mask {l : List Part} (hdev : Part.dev ∈ l) (hmb : Part.mb ∈ l) (hint : Part.int ∈ l) (hnq : Part.nq ∈ l) (hoq : Part.oq ∈ l) (hnotice : Part.notice ∈ l) (htaps : Part.taps ∈ l) (hhost : Part.host ∈ l) (himg : Part.img ∈ l) (hcm : Part.cm ∈ l) (hjct : Part.jct ∈ l) (heng : Part.eng ∈ l) (hisl : Part.isl ∈ l) (hcwy : Part.cwy ∈ l) (hctx : Part.ctx ∈ l) (hline : Part.line ∈ l) (hpower : Part.power ∈ l) (hdfx : Part.dfx ∈ l) (hpm : Part.pm ∈ l) (hprot : Part.prot ∈ l) (htim : Part.tim ∈ l) (hupd : Part.upd ∈ l) (hpair : Part.pair ∈ l) (hdep : Part.dep ∈ l) (hfree : Part.free ∈ l) (a0 : Nat) (a1 : Nat) (a2 : Int) (a3 : BitVec 4) (c : Chip) : mask l (coldChip a0 a1 a2 a3 c) = mask l c := by
  unfold coldChip
  (try dsimp only)
  (repeat' split) <;> (first | with_reducible rfl | (simp_all (maxDischargeDepth := 9); done) | (simp_all [mask]; done))

@[simp] theorem copySlot_mask {l : List Part} (hdep : Part.dep ∈ l) (a0 : Plc) (a1 : Plc) (c : Chip) : mask l (copySlot a0 a1 c) = mask l c := by
  unfold copySlot
  (try dsimp only)
  (repeat' split) <;> (first | with_reducible rfl | (simp_all (maxDischargeDepth := 9); done) | (simp_all [mask]; done))

@[simp] theorem contextCopy_mask {l : List Part} (hcm : Part.cm ∈ l) (hdep : Part.dep ∈ l)  (c : Chip) : mask l (contextCopy  c) = mask l c := by
  unfold contextCopy
  (try dsimp only)
  (repeat' split) <;> (first | with_reducible rfl | (simp_all (maxDischargeDepth := 9); done) | (simp_all [mask]; done))

@[simp] theorem countLane_mask {l : List Part} (hline : Part.line ∈ l) (a0 : List LaneRep) (a1 : LaneRep) (c : Chip) : mask l (countLane a0 a1 c) = mask l c := by
  unfold countLane
  (try dsimp only)
  (repeat' split) <;> (first | with_reducible rfl | (simp_all (maxDischargeDepth := 9); done) | (simp_all [mask]; done))

@[simp] theorem ctxClose_mask {l : List Part} (hctx : Part.ctx ∈ l) (hdep : Part.dep ∈ l) (a0 : Nat) (c : Chip) : mask l (ctxClose a0 c) = mask l c := by
  unfold ctxClose
  (try dsimp only)
  (repeat' split) <;> (first | with_reducible rfl | (simp_all (maxDischargeDepth := 9); done) | (simp_all [mask]; done))

@[simp] theorem pmExtras_mask {l : List Part} (hpm : Part.pm ∈ l) (a0 : Nat) (a1 : Nat) (a2 : Nat) (a3 : Nat) (c : Chip) : mask l (pmExtras a0 a1 a2 a3 c) = mask l c := by
  unfold pmExtras
  (try dsimp only)
  (repeat' split) <;> (first | with_reducible rfl | (simp_all (maxDischargeDepth := 9); done) | (simp_all [mask]; done))

@[simp] theorem ctxTick_mask {l : List Part} (hctx : Part.ctx ∈ l) (hpm : Part.pm ∈ l) (hdep : Part.dep ∈ l) (a0 : Nat) (c : Chip) : mask l (ctxTick a0 c) = mask l c := by
  unfold ctxTick
  (try dsimp only)
  (repeat' split) <;> (first | with_reducible rfl | (simp_all (maxDischargeDepth := 9); done) | (simp_all [mask]; done))

@[simp] theorem degAgain_mask {l : List Part} (hdfx : Part.dfx ∈ l)  (c : Chip) : mask l (degAgain  c) = mask l c := by
  unfold degAgain
  (try dsimp only)
  (repeat' split) <;> (first | with_reducible rfl | (simp_all (maxDischargeDepth := 9); done) | (simp_all [mask]; done))

@[simp] theorem depotCorrected_mask {l : List Part} (hdep : Part.dep ∈ l) (a0 : Nat) (a1 : Nat) (c : Chip) : mask l (depotCorrected a0 a1 c) = mask l c := by
  unfold depotCorrected
  (try dsimp only)
  (repeat' split) <;> (first | with_reducible rfl | (simp_all (maxDischargeDepth := 9); done) | (simp_all [mask]; done))

@[simp] theorem depotNotice_mask {l : List Part} (hnq : Part.nq ∈ l) (hnotice : Part.notice ∈ l) (hdep : Part.dep ∈ l) (a0 : Nat) (a1 : Nat) (a2 : Nat) (a3 : Nat) (c : Chip) : mask l (depotNotice a0 a1 a2 a3 c) = mask l c := by
  unfold depotNotice
  (try dsimp only)
  (repeat' split) <;> (first | with_reducible rfl | (simp_all (maxDischargeDepth := 9); done) | (simp_all [mask]; done))

@[simp] theorem markErrored_mask {l : List Part} (hctx : Part.ctx ∈ l) (a0 : Nat) (c : Chip) : mask l (markErrored a0 c) = mask l c := by
  unfold markErrored
  (try dsimp only)
  (repeat' split) <;> (first | with_reducible rfl | (simp_all (maxDischargeDepth := 9); done) | (simp_all [mask]; done))

@[simp] theorem regionOut_mask {l : List Part} (hisl : Part.isl ∈ l) (hdep : Part.dep ∈ l) (a0 : Nat) (a1 : Nat) (c : Chip) : mask l (regionOut a0 a1 c) = mask l c := by
  unfold regionOut
  (try dsimp only)
  (repeat' split) <;> (first | with_reducible rfl | (simp_all (maxDischargeDepth := 9); done) | (simp_all [mask]; done))

@[simp] theorem depotUncorrectable_mask {l : List Part} (hnq : Part.nq ∈ l) (hnotice : Part.notice ∈ l) (hisl : Part.isl ∈ l) (hctx : Part.ctx ∈ l) (hpm : Part.pm ∈ l) (hdep : Part.dep ∈ l) (a0 : Nat) (a1 : Nat) (a2 : Nat) (a3 : Nat) (a4 : Nat) (c : Chip) : mask l (depotUncorrectable a0 a1 a2 a3 a4 c) = mask l c := by
  unfold depotUncorrectable
  dsimp only
  simp only [mask_ite, updRec_mask hpm, markErrored_mask hctx, depotNotice_mask hnq hnotice hdep, regionOut_mask hisl hdep, countEvent_mask hdep, updDepot_mask hdep, ite_self]

@[simp] theorem meetPorts_mask {l : List Part} (hhost : Part.host ∈ l) (hdep : Part.dep ∈ l) (a0 : Nat) (a1 : Nat) (a2 : Nat) (a3 : Nat × Nat × Nat) (a4 : PortBRep) (a5 : Bool) (a6 : Bool) (c : Chip) : mask l (meetPorts a0 a1 a2 a3 a4 a5 a6 c) = mask l c := by
  unfold meetPorts
  (try dsimp only)
  (repeat' split) <;> (first | with_reducible rfl | (simp_all (maxDischargeDepth := 9); done) | (simp_all [mask]; done))

end Sys2Proof.Machine
end

