-- ==== Sys2Proof/Laws/Frame4.lean ====
section
/-!
SUPPORT. Frames, continued: the parts each operation may change, one lemma an operation, callees first.
-/
namespace Sys2Proof.Machine
open Sys2Proof

@[simp] theorem depotWrite_mask {l : List Part} (hhost : Part.host ∈ l) (hdep : Part.dep ∈ l) (a0 : Nat) (a1 : Nat) (a2 : Nat) (a3 : PortBRep) (a4 : Bool) (a5 : Bool) (c : Chip) : mask l (depotWrite a0 a1 a2 a3 a4 a5 c) = mask l c := by
  unfold depotWrite
  (try dsimp only)
  (repeat' split) <;> (first | with_reducible rfl | (simp_all (maxDischargeDepth := 9); done) | (simp_all [mask]; done))

@[simp] theorem disableLanes_mask {l : List Part} (hline : Part.line ∈ l) (hdfx : Part.dfx ∈ l) (a0 : List Nat) (c : Chip) : mask l (disableLanes a0 c) = mask l c := by
  unfold disableLanes
  (try dsimp only)
  (repeat' split) <;> (first | with_reducible rfl | (simp_all (maxDischargeDepth := 9); done) | (simp_all [mask]; done))

@[simp] theorem dpMeasure_mask {l : List Part} (htim : Part.tim ∈ l) (a0 : List LoopRep) (a1 : Nat) (c : Chip) : mask l (dpMeasure a0 a1 c) = mask l c := by
  unfold dpMeasure
  (try dsimp only)
  (repeat' split) <;> (first | with_reducible rfl | (simp_all (maxDischargeDepth := 9); done) | (simp_all [mask]; done))

@[simp] theorem drillAnswer_mask {l : List Part} (hmb : Part.mb ∈ l) (hint : Part.int ∈ l) (hhost : Part.host ∈ l) (hpair : Part.pair ∈ l) (a0 : Option Bool) (c : Chip) : mask l (drillAnswer a0 c) = mask l c := by
  unfold drillAnswer
  (try dsimp only)
  (repeat' split) <;> (first | with_reducible rfl | (simp_all (maxDischargeDepth := 9); done) | (simp_all [mask]; done))

@[simp] theorem drillReq_mask {l : List Part} (hhost : Part.host ∈ l) (hpair : Part.pair ∈ l) (hdep : Part.dep ∈ l) (a0 : HokuaHdr) (a1 : Nat) (a2 : Nat) (c : Chip) : mask l (drillReq a0 a1 a2 c) = mask l c := by
  unfold drillReq
  (try dsimp only)
  (repeat' split) <;> (first | with_reducible rfl | (simp_all (maxDischargeDepth := 9); done) | (simp_all [mask]; done))

@[simp] theorem dropRestStep_mask {l : List Part} (hoq : Part.oq ∈ l)  (c : Chip) : mask l (dropRestStep  c) = mask l c := by
  unfold dropRestStep
  (try dsimp only)
  (repeat' split) <;> (first | with_reducible rfl | (simp_all (maxDischargeDepth := 9); done) | (simp_all [mask]; done))

@[simp] theorem noteEcc_mask {l : List Part} (hjct : Part.jct ∈ l) (a0 : Nat) (a1 : Nat) (a2 : Nat) (c : Chip) : mask l (noteEcc a0 a1 a2 c) = mask l c := by
  unfold noteEcc
  (try dsimp only)
  (repeat' split) <;> (first | with_reducible rfl | (simp_all (maxDischargeDepth := 9); done) | (simp_all [mask]; done))

@[simp] theorem noteSel_mask {l : List Part} (hjct : Part.jct ∈ l) (a0 : Nat) (a1 : BitVec 40) (c : Chip) : mask l (noteSel a0 a1 c) = mask l c := by
  unfold noteSel
  (try dsimp only)
  (repeat' split) <;> (first | with_reducible rfl | (simp_all (maxDischargeDepth := 9); done) | (simp_all [mask]; done))

@[simp] theorem updJct_mask {l : List Part} (hjct : Part.jct ∈ l) (a0 : Nat) (a1 : JctSt → JctSt) (c : Chip) : mask l (updJct a0 a1 c) = mask l c := by
  unfold updJct
  (try dsimp only)
  (repeat' split) <;> (first | with_reducible rfl | (simp_all (maxDischargeDepth := 9); done) | (simp_all [mask]; done))

@[simp] theorem undeliverable_mask {l : List Part} (hnq : Part.nq ∈ l) (hnotice : Part.notice ∈ l) (hjct : Part.jct ∈ l) (hctx : Part.ctx ∈ l) (hdep : Part.dep ∈ l) (a0 : Nat) (a1 : Nat) (c : Chip) : mask l (undeliverable a0 a1 c) = mask l c := by
  unfold undeliverable
  (try dsimp only)
  (repeat' split) <;> (first | with_reducible rfl | (simp_all (maxDischargeDepth := 9); done) | (simp_all [mask]; done))

@[simp] theorem serveEntry_mask {l : List Part} (hnq : Part.nq ∈ l) (hnotice : Part.notice ∈ l) (hhost : Part.host ∈ l) (hjct : Part.jct ∈ l) (hctx : Part.ctx ∈ l) (hdep : Part.dep ∈ l) (a0 : Nat) (a1 : Nat) (a2 : Nat) (a3 : BitVec 40) (a4 : Placement) (c : Chip) : mask l (serveEntry a0 a1 a2 a3 a4 c) = mask l c := by
  unfold serveEntry
  (try dsimp only)
  (repeat' split) <;> (first | with_reducible rfl | (simp_all (maxDischargeDepth := 9); done) | (simp_all [mask]; done))

@[simp] theorem egressServe_mask {l : List Part} (hnq : Part.nq ∈ l) (hnotice : Part.notice ∈ l) (hhost : Part.host ∈ l) (hjct : Part.jct ∈ l) (hctx : Part.ctx ∈ l) (hdep : Part.dep ∈ l) (a0 : Nat) (a1 : Nat) (a2 : Nat) (a3 : Nat) (a4 : Nat) (a5 : Nat) (c : Chip) : mask l (egressServe a0 a1 a2 a3 a4 a5 c) = mask l c := by
  unfold egressServe
  (try dsimp only)
  (repeat' split) <;> (first | with_reducible rfl | (simp_all (maxDischargeDepth := 9); done) | (simp_all [mask]; done))

@[simp] theorem engMarks_mask {l : List Part} (hctx : Part.ctx ∈ l) (a0 : List (EngVerdict × List Nat)) (c : Chip) : mask l (engMarks a0 c) = mask l c := by
  unfold engMarks
  (try dsimp only)
  (repeat' split) <;> (first | with_reducible rfl | (simp_all (maxDischargeDepth := 9); done) | (simp_all [mask]; done))

@[simp] theorem engineWrite_mask {l : List Part} (hhost : Part.host ∈ l) (heng : Part.eng ∈ l) (hdep : Part.dep ∈ l) (a0 : Nat) (a1 : Byte) (a2 : Nat) (a3 : Nat) (a4 : Nat) (a5 : PortBRep) (a6 : Bool) (c : Chip) : mask l (engineWrite a0 a1 a2 a3 a4 a5 a6 c) = mask l c := by
  unfold engineWrite
  (try dsimp only)
  (repeat' split) <;> (first | with_reducible rfl | (simp_all (maxDischargeDepth := 9); done) | (simp_all [mask]; done))

@[simp] theorem esmcReceived_mask {l : List Part} (htim : Part.tim ∈ l) (a0 : Nat) (a1 : Nat) (c : Chip) : mask l (esmcReceived a0 a1 c) = mask l c := by
  unfold esmcReceived
  (try dsimp only)
  (repeat' split) <;> (first | with_reducible rfl | (simp_all (maxDischargeDepth := 9); done) | (simp_all [mask]; done))

@[simp] theorem ohLose_mask {l : List Part} (hline : Part.line ∈ l) (a0 : Nat) (a1 : Nat) (a2 : Nat) (c : Chip) : mask l (ohLose a0 a1 a2 c) = mask l c := by
  unfold ohLose
  (try dsimp only)
  (repeat' split) <;> (first | with_reducible rfl | (simp_all (maxDischargeDepth := 9); done) | (simp_all [mask]; done))

@[simp] theorem ohStage_mask {l : List Part} (hline : Part.line ∈ l) (a0 : Nat) (a1 : Nat) (a2 : List (BitVec 128)) (c : Chip) : mask l (ohStage a0 a1 a2 c) = mask l c := by
  unfold ohStage
  (try dsimp only)
  (repeat' split) <;> (first | with_reducible rfl | (simp_all (maxDischargeDepth := 9); done) | (simp_all [mask]; done))

@[simp] theorem ohStageEach_mask {l : List Part} (hline : Part.line ∈ l) (a0 : Nat) (a1 : Nat) (a2 : List (BitVec 128)) (c : Chip) : mask l (ohStageEach a0 a1 a2 c) = mask l c := by
  unfold ohStageEach
  (try dsimp only)
  (repeat' split) <;> (first | with_reducible rfl | (simp_all (maxDischargeDepth := 9); done) | (simp_all [mask]; done))

@[simp] theorem ohChannel_mask {l : List Part} (hline : Part.line ∈ l) (a0 : Nat) (a1 : Nat) (a2 : Nat) (a3 : List Byte) (c : Chip) : mask l (ohChannel a0 a1 a2 a3 c) = mask l c := by
  unfold ohChannel
  (try dsimp only)
  (repeat' split) <;> (first | with_reducible rfl | (simp_all (maxDischargeDepth := 9); done) | (simp_all [mask]; done))

@[simp] theorem ohBytes_mask {l : List Part} (hline : Part.line ∈ l) (a0 : Nat) (a1 : Nat) (a2 : List Byte) (c : Chip) : mask l (ohBytes a0 a1 a2 c) = mask l c := by
  unfold ohBytes
  (try dsimp only)
  (repeat' split) <;> (first | with_reducible rfl | (simp_all (maxDischargeDepth := 9); done) | (simp_all [mask]; done))

@[simp] theorem esmcArrives_mask {l : List Part} (hhost : Part.host ∈ l) (hline : Part.line ∈ l) (htim : Part.tim ∈ l) (a0 : Nat) (a1 : Nat) (a2 : List Byte) (c : Chip) : mask l (esmcArrives a0 a1 a2 c) = mask l c := by
  unfold esmcArrives
  (try dsimp only)
  (repeat' split) <;> (first | with_reducible rfl | (simp_all (maxDischargeDepth := 9); done) | (simp_all [mask]; done))

@[simp] theorem expectedPosition_mask {l : List Part} (hctx : Part.ctx ∈ l) (hline : Part.line ∈ l) (hdfx : Part.dfx ∈ l) (a0 : Nat) (a1 : Nat) (a2 : Nat) (a3 : Bool) (a4 : PatternRep) (c : Chip) : mask l (expectedPosition a0 a1 a2 a3 a4 c) = mask l c := by
  unfold expectedPosition
  (try dsimp only)
  (repeat' split) <;> (first | with_reducible rfl | (simp_all (maxDischargeDepth := 9); done) | (simp_all [mask]; done))

@[simp] theorem faultMapReceived_mask {l : List Part} (hisl : Part.isl ∈ l) (hpair : Part.pair ∈ l) (hdep : Part.dep ∈ l) (a0 : HokuaHdr) (a1 : List (Nat × BitVec 16)) (a2 : List (Nat × Nat)) (c : Chip) : mask l (faultMapReceived a0 a1 a2 c) = mask l c := by
  unfold faultMapReceived
  (try dsimp only)
  (repeat' split) <;> (first | with_reducible rfl | (simp_all (maxDischargeDepth := 9); done) | (simp_all [mask]; done))

@[simp] theorem setLaser_mask {l : List Part} (hline : Part.line ∈ l) (a0 : Nat) (a1 : LaserSt) (c : Chip) : mask l (setLaser a0 a1 c) = mask l c := by
  unfold setLaser
  (try dsimp only)
  (repeat' split) <;> (first | with_reducible rfl | (simp_all (maxDischargeDepth := 9); done) | (simp_all [mask]; done))

@[simp] theorem feedMeasured_mask {l : List Part} (hline : Part.line ∈ l) (a0 : Nat × Nat) (c : Chip) : mask l (feedMeasured a0 c) = mask l c := by
  unfold feedMeasured
  (try dsimp only)
  (repeat' split) <;> (first | with_reducible rfl | (simp_all (maxDischargeDepth := 9); done) | (simp_all [mask]; done))

@[simp] theorem genEnd_mask {l : List Part} (hhost : Part.host ∈ l) (hpair : Part.pair ∈ l) (hdep : Part.dep ∈ l)  (c : Chip) : mask l (genEnd  c) = mask l c := by
  unfold genEnd
  (try dsimp only)
  (repeat' split) <;> (first | with_reducible rfl | (simp_all (maxDischargeDepth := 9); done) | (simp_all [mask]; done))

@[simp] theorem genSend_mask {l : List Part} (hhost : Part.host ∈ l) (hpair : Part.pair ∈ l) (hdep : Part.dep ∈ l) (a0 : Nat) (c : Chip) : mask l (genSend a0 c) = mask l c := by
  unfold genSend
  (try dsimp only)
  (repeat' split) <;> (first | with_reducible rfl | (simp_all (maxDischargeDepth := 9); done) | (simp_all [mask]; done))

@[simp] theorem jnlSend_mask {l : List Part} (hhost : Part.host ∈ l) (hpair : Part.pair ∈ l) (hdep : Part.dep ∈ l)  (c : Chip) : mask l (jnlSend  c) = mask l c := by
  unfold jnlSend
  (try dsimp only)
  (repeat' split) <;> (first | with_reducible rfl | (simp_all (maxDischargeDepth := 9); done) | (simp_all [mask]; done))

@[simp] theorem patrolBack_mask {l : List Part} (hnq : Part.nq ∈ l) (hnotice : Part.notice ∈ l) (hisl : Part.isl ∈ l) (hdep : Part.dep ∈ l) (a0 : Nat) (a1 : Bool) (c : Chip) : mask l (patrolBack a0 a1 c) = mask l c := by
  unfold patrolBack
  (try dsimp only)
  (repeat' split) <;> (first | with_reducible rfl | (simp_all (maxDischargeDepth := 9); done) | (simp_all [mask]; done))

@[simp] theorem jnlCmd_mask {l : List Part} (hpair : Part.pair ∈ l) (a0 : Word) (c : Chip) : mask l (jnlCmd a0 c) = mask l c := by
  unfold jnlCmd
  (try dsimp only)
  (repeat' split) <;> (first | with_reducible rfl | (simp_all (maxDischargeDepth := 9); done) | (simp_all [mask]; done))

@[simp] theorem protEval1_mask {l : List Part} (hmb : Part.mb ∈ l) (hint : Part.int ∈ l) (hhost : Part.host ∈ l) (hprot : Part.prot ∈ l) (hpair : Part.pair ∈ l) (a0 : Nat) (c : Chip) : mask l (protEval1 a0 c) = mask l c := by
  unfold protEval1
  (try dsimp only)
  (repeat' split) <;> (first | with_reducible rfl | (simp_all (maxDischargeDepth := 9); done) | (simp_all [mask]; done))

@[simp] theorem protNoGroup_mask {l : List Part} (hmb : Part.mb ∈ l) (hint : Part.int ∈ l) (hhost : Part.host ∈ l)  (c : Chip) : mask l (protNoGroup  c) = mask l c := by
  unfold protNoGroup
  (try dsimp only)
  (repeat' split) <;> (first | with_reducible rfl | (simp_all (maxDischargeDepth := 9); done) | (simp_all [mask]; done))

@[simp] theorem protEvaluate_mask {l : List Part} (hmb : Part.mb ∈ l) (hint : Part.int ∈ l) (hhost : Part.host ∈ l) (hprot : Part.prot ∈ l) (hpair : Part.pair ∈ l)  (c : Chip) : mask l (protEvaluate  c) = mask l c := by
  unfold protEvaluate
  (try dsimp only)
  (repeat' split) <;> (first | with_reducible rfl | (simp_all (maxDischargeDepth := 9); done) | (simp_all [mask]; done))

@[simp] theorem servoRun_mask {l : List Part} (htim : Part.tim ∈ l)  (c : Chip) : mask l (servoRun  c) = mask l c := by
  unfold servoRun
  (try dsimp only)
  (repeat' split) <;> (first | with_reducible rfl | (simp_all (maxDischargeDepth := 9); done) | (simp_all [mask]; done))

@[simp] theorem statusSend_mask {l : List Part} (hhost : Part.host ∈ l) (hpair : Part.pair ∈ l) (hdep : Part.dep ∈ l) (a0 : Nat) (c : Chip) : mask l (statusSend a0 c) = mask l c := by
  unfold statusSend
  (try dsimp only)
  (repeat' split) <;> (first | with_reducible rfl | (simp_all (maxDischargeDepth := 9); done) | (simp_all [mask]; done))

@[simp] theorem finishTick_mask {l : List Part} (hmb : Part.mb ∈ l) (hint : Part.int ∈ l) (hnq : Part.nq ∈ l) (hnotice : Part.notice ∈ l) (hhost : Part.host ∈ l) (hcm : Part.cm ∈ l) (hisl : Part.isl ∈ l) (hprot : Part.prot ∈ l) (htim : Part.tim ∈ l) (hpair : Part.pair ∈ l) (hdep : Part.dep ∈ l)  (c : Chip) : mask l (finishTick  c) = mask l c := by
  unfold finishTick
  (try dsimp only)
  (repeat' split) <;> (first | with_reducible rfl | (simp_all (maxDischargeDepth := 9); done) | (simp_all [mask]; done))

@[simp] theorem flitLost_mask {l : List Part} (hjct : Part.jct ∈ l) (hcwy : Part.cwy ∈ l) (hctx : Part.ctx ∈ l) (hdep : Part.dep ∈ l) (a0 : Nat) (a1 : Nat) (a2 : Nat) (a3 : Nat) (c : Chip) : mask l (flitLost a0 a1 a2 a3 c) = mask l c := by
  unfold flitLost
  (try dsimp only)
  (repeat' split) <;> (first | with_reducible rfl | (simp_all (maxDischargeDepth := 9); done) | (simp_all [mask]; done))

@[simp] theorem frameInd_mask {l : List Part} (hdfx : Part.dfx ∈ l) (a0 : Nat) (a1 : Nat) (a2 : Nat) (a3 : Bool) (c : Chip) : mask l (frameInd a0 a1 a2 a3 c) = mask l c := by
  unfold frameInd
  (try dsimp only)
  (repeat' split) <;> (first | with_reducible rfl | (simp_all (maxDischargeDepth := 9); done) | (simp_all [mask]; done))

@[simp] theorem traceJudge_mask {l : List Part} (hdfx : Part.dfx ∈ l) (a0 : Nat) (c : Chip) : mask l (traceJudge a0 c) = mask l c := by
  unfold traceJudge
  (try dsimp only)
  (repeat' split) <;> (first | with_reducible rfl | (simp_all (maxDischargeDepth := 9); done) | (simp_all [mask]; done))

@[simp] theorem traceReceived_mask {l : List Part} (hline : Part.line ∈ l) (hdfx : Part.dfx ∈ l) (a0 : Nat) (a1 : BitVec 512) (c : Chip) : mask l (traceReceived a0 a1 c) = mask l c := by
  unfold traceReceived
  (try dsimp only)
  (repeat' split) <;> (first | with_reducible rfl | (simp_all (maxDischargeDepth := 9); done) | (simp_all [mask]; done))

@[simp] theorem frameMf_mask {l : List Part} (hctx : Part.ctx ∈ l) (hline : Part.line ∈ l) (hdfx : Part.dfx ∈ l) (a0 : FrameRep) (c : Chip) : mask l (frameMf a0 c) = mask l c := by
  unfold frameMf
  (try dsimp only)
  (repeat' split) <;> (first | with_reducible rfl | (simp_all (maxDischargeDepth := 9); done) | (simp_all [mask]; done))

@[simp] theorem h4Frame_mask {l : List Part} (hline : Part.line ∈ l) (hdfx : Part.dfx ∈ l) (a0 : Nat) (a1 : Nat) (c : Chip) : mask l (h4Frame a0 a1 c) = mask l c := by
  unfold h4Frame
  (try dsimp only)
  (repeat' split) <;> (first | with_reducible rfl | (simp_all (maxDischargeDepth := 9); done) | (simp_all [mask]; done))

@[simp] theorem ptrSeen_mask {l : List Part} (hctx : Part.ctx ∈ l) (hline : Part.line ∈ l) (hdfx : Part.dfx ∈ l) (hpm : Part.pm ∈ l) (a0 : Nat) (a1 : BitVec 16) (c : Chip) : mask l (ptrSeen a0 a1 c) = mask l c := by
  unfold ptrSeen
  (try dsimp only)
  (repeat' split) <;> (first | with_reducible rfl | (simp_all (maxDischargeDepth := 9); done) | (simp_all [mask]; done))

@[simp] theorem tcmIae_mask {l : List Part} (hdfx : Part.dfx ∈ l) (a0 : Nat) (a1 : Nat) (a2 : Nat) (a3 : Bool) (c : Chip) : mask l (tcmIae a0 a1 a2 a3 c) = mask l c := by
  unfold tcmIae
  (try dsimp only)
  (repeat' split) <;> (first | with_reducible rfl | (simp_all (maxDischargeDepth := 9); done) | (simp_all [mask]; done))

@[simp] theorem tcmFrame_mask {l : List Part} (hdfx : Part.dfx ∈ l) (a0 : FrameRep) (c : Chip) : mask l (tcmFrame a0 c) = mask l c := by
  unfold tcmFrame
  (try dsimp only)
  (repeat' split) <;> (first | with_reducible rfl | (simp_all (maxDischargeDepth := 9); done) | (simp_all [mask]; done))

@[simp] theorem frameTrib_mask {l : List Part} (hctx : Part.ctx ∈ l) (hline : Part.line ∈ l) (hdfx : Part.dfx ∈ l) (hpm : Part.pm ∈ l) (a0 : FrameRep) (c : Chip) : mask l (frameTrib a0 c) = mask l c := by
  unfold frameTrib
  (try dsimp only)
  (repeat' split) <;> (first | with_reducible rfl | (simp_all (maxDischargeDepth := 9); done) | (simp_all [mask]; done))

@[simp] theorem s1Received_mask {l : List Part} (htim : Part.tim ∈ l) (a0 : Nat) (a1 : Nat) (c : Chip) : mask l (s1Received a0 a1 c) = mask l c := by
  unfold s1Received
  (try dsimp only)
  (repeat' split) <;> (first | with_reducible rfl | (simp_all (maxDischargeDepth := 9); done) | (simp_all [mask]; done))

@[simp] theorem frameRead_mask {l : List Part} (hctx : Part.ctx ∈ l) (hline : Part.line ∈ l) (hdfx : Part.dfx ∈ l) (hpm : Part.pm ∈ l) (hprot : Part.prot ∈ l) (htim : Part.tim ∈ l) (a0 : FrameRep) (c : Chip) : mask l (frameRead a0 c) = mask l c := by
  unfold frameRead
  (try dsimp only)
  (repeat' split) <;> (first | with_reducible rfl | (simp_all (maxDischargeDepth := 9); done) | (simp_all [mask]; done))

@[simp] theorem idsSeen_mask {l : List Part} (hline : Part.line ∈ l) (hdfx : Part.dfx ∈ l) (a0 : FrameRep) (c : Chip) : mask l (idsSeen a0 c) = mask l c := by
  unfold idsSeen
  (try dsimp only)
  (repeat' split) <;> (first | with_reducible rfl | (simp_all (maxDischargeDepth := 9); done) | (simp_all [mask]; done))

@[simp] theorem mfChanged_mask {l : List Part} (hline : Part.line ∈ l) (hdfx : Part.dfx ∈ l) (a0 : Nat) (a1 : MfSt) (a2 : MfSt) (c : Chip) : mask l (mfChanged a0 a1 a2 c) = mask l c := by
  unfold mfChanged
  (try dsimp only)
  (repeat' split) <;> (first | with_reducible rfl | (simp_all (maxDischargeDepth := 9); done) | (simp_all [mask]; done))

@[simp] theorem multiframe_mask {l : List Part} (hline : Part.line ∈ l) (hdfx : Part.dfx ∈ l) (a0 : Nat) (a1 : Nat) (a2 : Nat) (a3 : Bool) (c : Chip) : mask l (multiframe a0 a1 a2 a3 c) = mask l c := by
  unfold multiframe
  (try dsimp only)
  (repeat' split) <;> (first | with_reducible rfl | (simp_all (maxDischargeDepth := 9); done) | (simp_all [mask]; done))

@[simp] theorem sliceFrame_mask {l : List Part} (hctx : Part.ctx ∈ l) (hline : Part.line ∈ l) (hdfx : Part.dfx ∈ l) (a0 : Nat) (a1 : Nat) (a2 : Nat) (a3 : Bool) (c : Chip) : mask l (sliceFrame a0 a1 a2 a3 c) = mask l c := by
  unfold sliceFrame
  (try dsimp only)
  (repeat' split) <;> (first | with_reducible rfl | (simp_all (maxDischargeDepth := 9); done) | (simp_all [mask]; done))

@[simp] theorem frameSeen_mask {l : List Part} (hctx : Part.ctx ∈ l) (hline : Part.line ∈ l) (hdfx : Part.dfx ∈ l) (hpm : Part.pm ∈ l) (hprot : Part.prot ∈ l) (htim : Part.tim ∈ l) (a0 : FrameRep) (c : Chip) : mask l (frameSeen a0 c) = mask l c := by
  unfold frameSeen
  (try dsimp only)
  (repeat' split) <;> (first | with_reducible rfl | (simp_all (maxDischargeDepth := 9); done) | (simp_all [mask]; done))

@[simp] theorem genDone_mask {l : List Part} (hpair : Part.pair ∈ l) (hdep : Part.dep ∈ l) (a0 : HokuaHdr) (a1 : Nat) (a2 : Nat) (c : Chip) : mask l (genDone a0 a1 a2 c) = mask l c := by
  unfold genDone
  (try dsimp only)
  (repeat' split) <;> (first | with_reducible rfl | (simp_all (maxDischargeDepth := 9); done) | (simp_all [mask]; done))

@[simp] theorem genReceived_mask {l : List Part} (hpair : Part.pair ∈ l) (hdep : Part.dep ∈ l) (a0 : HokuaHdr) (a1 : Nat) (a2 : Nat) (a3 : Nat) (a4 : Nat) (a5 : List MirrorItem) (c : Chip) : mask l (genReceived a0 a1 a2 a3 a4 a5 c) = mask l c := by
  unfold genReceived
  (try dsimp only)
  (repeat' split) <;> (first | with_reducible rfl | (simp_all (maxDischargeDepth := 9); done) | (simp_all [mask]; done))

@[simp] theorem ogPhase_mask {l : List Part} (hline : Part.line ∈ l) (hpower : Part.power ∈ l) (a0 : Nat) (a1 : Nat) (c : Chip) : mask l (ogPhase a0 a1 c) = mask l c := by
  unfold ogPhase
  (try dsimp only)
  (repeat' split) <;> (first | with_reducible rfl | (simp_all (maxDischargeDepth := 9); done) | (simp_all [mask]; done))

@[simp] theorem setGroupState_mask {l : List Part} (hnq : Part.nq ∈ l) (hnotice : Part.notice ∈ l) (hpower : Part.power ∈ l) (hdep : Part.dep ∈ l) (a0 : Nat) (a1 : Nat) (a2 : Nat) (c : Chip) : mask l (setGroupState a0 a1 a2 c) = mask l c := by
  unfold setGroupState
  (try dsimp only)
  (repeat' split) <;> (first | with_reducible rfl | (simp_all (maxDischargeDepth := 9); done) | (simp_all [mask]; done))

@[simp] theorem sleepGroup_mask {l : List Part} (hnq : Part.nq ∈ l) (hnotice : Part.notice ∈ l) (hline : Part.line ∈ l) (hpower : Part.power ∈ l) (hdfx : Part.dfx ∈ l) (hdep : Part.dep ∈ l) (a0 : Nat) (a1 : Nat) (a2 : Nat) (c : Chip) : mask l (sleepGroup a0 a1 a2 c) = mask l c := by
  unfold sleepGroup
  (try dsimp only)
  (repeat' split) <;> (first | with_reducible rfl | (simp_all (maxDischargeDepth := 9); done) | (simp_all [mask]; done))

@[simp] theorem wakeDone_mask {l : List Part} (hnq : Part.nq ∈ l) (hnotice : Part.notice ∈ l) (heng : Part.eng ∈ l) (hpower : Part.power ∈ l) (hdep : Part.dep ∈ l) (a0 : Nat) (a1 : Nat) (a2 : Nat) (c : Chip) : mask l (wakeDone a0 a1 a2 c) = mask l c := by
  unfold wakeDone
  (try dsimp only)
  (repeat' split) <;> (first | with_reducible rfl | (simp_all (maxDischargeDepth := 9); done) | (simp_all [mask]; done))

@[simp] theorem groupStep_mask {l : List Part} (hnq : Part.nq ∈ l) (hnotice : Part.notice ∈ l) (heng : Part.eng ∈ l) (hline : Part.line ∈ l) (hpower : Part.power ∈ l) (hdfx : Part.dfx ∈ l) (hdep : Part.dep ∈ l) (a0 : List Nat) (a1 : FMap Nat) (a2 : Option Image) (a3 : Nat) (a4 : Nat) (c : Chip) : mask l (groupStep a0 a1 a2 a3 a4 c) = mask l c := by
  unfold groupStep
  (try dsimp only)
  (repeat' split) <;> (first | with_reducible rfl | (simp_all (maxDischargeDepth := 9); done) | (simp_all [mask]; done))

@[simp] theorem headTick_mask {l : List Part} (hline : Part.line ∈ l) (a0 : List Host.Cell) (a1 : Nat) (c : Chip) : mask l (headTick a0 a1 c) = mask l c := by
  unfold headTick
  (try dsimp only)
  (repeat' split) <;> (first | with_reducible rfl | (simp_all (maxDischargeDepth := 9); done) | (simp_all [mask]; done))

@[simp] theorem heartbeatLost_mask {l : List Part} (heng : Part.eng ∈ l) (hctx : Part.ctx ∈ l) (a0 : Nat) (c : Chip) : mask l (heartbeatLost a0 c) = mask l c := by
  unfold heartbeatLost
  (try dsimp only)
  (repeat' split) <;> (first | with_reducible rfl | (simp_all (maxDischargeDepth := 9); done) | (simp_all [mask]; done))

@[simp] theorem helloReceived_mask {l : List Part} (hnq : Part.nq ∈ l) (hnotice : Part.notice ∈ l) (hpair : Part.pair ∈ l) (hdep : Part.dep ∈ l) (a0 : HokuaHdr) (a1 : HelloBody) (c : Chip) : mask l (helloReceived a0 a1 c) = mask l c := by
  unfold helloReceived
  (try dsimp only)
  (repeat' split) <;> (first | with_reducible rfl | (simp_all (maxDischargeDepth := 9); done) | (simp_all [mask]; done))

@[simp] theorem imgFailClear_mask {l : List Part} (hcm : Part.cm ∈ l)  (c : Chip) : mask l (imgFailClear  c) = mask l c := by
  unfold imgFailClear
  (try dsimp only)
  (repeat' split) <;> (first | with_reducible rfl | (simp_all (maxDischargeDepth := 9); done) | (simp_all [mask]; done))

@[simp] theorem injArm_mask {l : List Part} (hdep : Part.dep ∈ l) (a0 : Nat) (c : Chip) : mask l (injArm a0 c) = mask l c := by
  unfold injArm
  (try dsimp only)
  (repeat' split) <;> (first | with_reducible rfl | (simp_all (maxDischargeDepth := 9); done) | (simp_all [mask]; done))

@[simp] theorem injCtrl_mask {l : List Part} (hdev : Part.dev ∈ l) (hnq : Part.nq ∈ l) (hnotice : Part.notice ∈ l) (hhost : Part.host ∈ l) (hcwy : Part.cwy ∈ l) (hctx : Part.ctx ∈ l) (hline : Part.line ∈ l) (hdfx : Part.dfx ∈ l) (hdep : Part.dep ∈ l) (a0 : Word) (c : Chip) : mask l (injCtrl a0 c) = mask l c := by
  unfold injCtrl
  (try dsimp only)
  (repeat' split) <;> (first | with_reducible rfl | (simp_all (maxDischargeDepth := 9); done) | (simp_all [mask]; done))

@[simp] theorem injTick_mask {l : List Part} (hdep : Part.dep ∈ l) (a0 : Nat) (c : Chip) : mask l (injTick a0 c) = mask l c := by
  unfold injTick
  (try dsimp only)
  (repeat' split) <;> (first | with_reducible rfl | (simp_all (maxDischargeDepth := 9); done) | (simp_all [mask]; done))

@[simp] theorem inputNoActivity_mask {l : List Part} (htim : Part.tim ∈ l) (a0 : Nat) (c : Chip) : mask l (inputNoActivity a0 c) = mask l c := by
  unfold inputNoActivity
  (try dsimp only)
  (repeat' split) <;> (first | with_reducible rfl | (simp_all (maxDischargeDepth := 9); done) | (simp_all [mask]; done))

@[simp] theorem resend_mask {l : List Part} (hint : Part.int ∈ l) (hhost : Part.host ∈ l)  (c : Chip) : mask l (resend  c) = mask l c := by
  unfold resend
  (try dsimp only)
  (repeat' split) <;> (first | with_reducible rfl | (simp_all (maxDischargeDepth := 9); done) | (simp_all [mask]; done))

@[simp] theorem intEnableWrite_mask {l : List Part} (hint : Part.int ∈ l) (hhost : Part.host ∈ l) (a0 : Word) (c : Chip) : mask l (intEnableWrite a0 c) = mask l c := by
  unfold intEnableWrite
  (try dsimp only)
  (repeat' split) <;> (first | with_reducible rfl | (simp_all (maxDischargeDepth := 9); done) | (simp_all [mask]; done))

@[simp] theorem setPower_mask {l : List Part} (hpower : Part.power ∈ l) (a0 : PowerSt) (c : Chip) : mask l (setPower a0 c) = mask l c := by
  unfold setPower
  (try dsimp only)
  (repeat' split) <;> (first | with_reducible rfl | (simp_all (maxDischargeDepth := 9); done) | (simp_all [mask]; done))

@[simp] theorem updScan_mask {l : List Part} (hdep : Part.dep ∈ l) (a0 : Nat) (a1 : ScanSt → ScanSt) (c : Chip) : mask l (updScan a0 a1 c) = mask l c := by
  unfold updScan
  (try dsimp only)
  (repeat' split) <;> (first | with_reducible rfl | (simp_all (maxDischargeDepth := 9); done) | (simp_all [mask]; done))

@[simp] theorem updTap_mask {l : List Part} (htaps : Part.taps ∈ l) (a0 : Nat) (a1 : TapSt → TapSt) (c : Chip) : mask l (updTap a0 a1 c) = mask l c := by
  unfold updTap
  (try dsimp only)
  (repeat' split) <;> (first | with_reducible rfl | (simp_all (maxDischargeDepth := 9); done) | (simp_all [mask]; done))

@[simp] theorem w1cApply_mask {l : List Part} (hmb : Part.mb ∈ l) (hint : Part.int ∈ l) (hnotice : Part.notice ∈ l) (htaps : Part.taps ∈ l) (hhost : Part.host ∈ l) (hline : Part.line ∈ l) (hpower : Part.power ∈ l) (hpair : Part.pair ∈ l) (hdep : Part.dep ∈ l) (a0 : Nat) (a1 : Word) (a2 : Word) (c : Chip) : mask l (w1cApply a0 a1 a2 c) = mask l c := by
  unfold w1cApply
  dsimp only
  simp only [mask_ite, mask_set_mb hmb, resend_mask hint hhost, mask_set_int hint, mask_set_notice hnotice, setPair_mask hpair, setPower_mask hpower, updScan_mask hdep, setCounters_mask hdep, updInj_mask hdep, setSkew_mask hline, updPortAlign_mask hline, updTap_mask htaps, ite_self]

@[simp] theorem intStatusWrite_mask {l : List Part} (hmb : Part.mb ∈ l) (hint : Part.int ∈ l) (hnotice : Part.notice ∈ l) (htaps : Part.taps ∈ l) (hhost : Part.host ∈ l) (hline : Part.line ∈ l) (hpower : Part.power ∈ l) (hpair : Part.pair ∈ l) (hdep : Part.dep ∈ l) (a0 : Word) (c : Chip) : mask l (intStatusWrite a0 c) = mask l c := by
  unfold intStatusWrite
  (try dsimp only)
  (repeat' split) <;> (first | with_reducible rfl | (simp_all (maxDischargeDepth := 9); done) | (simp_all [mask]; done))

@[simp] theorem itemComplete_mask {l : List Part} (hctx : Part.ctx ∈ l) (hpm : Part.pm ∈ l) (hdep : Part.dep ∈ l) (a0 : Nat) (a1 : BitVec 96) (a2 : Nat) (a3 : Nat) (a4 : Nat) (c : Chip) : mask l (itemComplete a0 a1 a2 a3 a4 c) = mask l c := by
  unfold itemComplete
  (try dsimp only)
  (repeat' split) <;> (first | with_reducible rfl | (simp_all (maxDischargeDepth := 9); done) | (simp_all [mask]; done))

@[simp] theorem jnlReceived_mask {l : List Part} (hpair : Part.pair ∈ l) (hdep : Part.dep ∈ l) (a0 : HokuaHdr) (a1 : JnlRec) (a2 : Bool) (c : Chip) : mask l (jnlReceived a0 a1 a2 c) = mask l c := by
  unfold jnlReceived
  (try dsimp only)
  (repeat' split) <;> (first | with_reducible rfl | (simp_all (maxDischargeDepth := 9); done) | (simp_all [mask]; done))

@[simp] theorem jnlWrite_mask {l : List Part} (hpair : Part.pair ∈ l) (a0 : Nat) (a1 : Word) (c : Chip) : mask l (jnlWrite a0 a1 c) = mask l c := by
  unfold jnlWrite
  (try dsimp only)
  (repeat' split) <;> (first | with_reducible rfl | (simp_all (maxDischargeDepth := 9); done) | (simp_all [mask]; done))

@[simp] theorem journalled_mask {l : List Part} (hdfx : Part.dfx ∈ l) (hpm : Part.pm ∈ l) (hpair : Part.pair ∈ l) (a0 : Nat) (a1 : Word) (c : Chip) : mask l (journalled a0 a1 c) = mask l c := by
  unfold journalled
  (try dsimp only)
  (repeat' split) <;> (first | with_reducible rfl | (simp_all (maxDischargeDepth := 9); done) | (simp_all [mask]; done))

@[simp] theorem thermNotice_mask {l : List Part} (hnq : Part.nq ∈ l) (hnotice : Part.notice ∈ l) (hdep : Part.dep ∈ l) (a0 : Nat) (a1 : Nat) (a2 : Nat) (a3 : Int) (a4 : Bool) (c : Chip) : mask l (thermNotice a0 a1 a2 a3 a4 c) = mask l c := by
  unfold thermNotice
  (try dsimp only)
  (repeat' split) <;> (first | with_reducible rfl | (simp_all (maxDischargeDepth := 9); done) | (simp_all [mask]; done))

@[simp] theorem judgeThrot_mask {l : List Part} (hint : Part.int ∈ l) (hnq : Part.nq ∈ l) (hnotice : Part.notice ∈ l) (hhost : Part.host ∈ l) (hpower : Part.power ∈ l) (hdep : Part.dep ∈ l) (a0 : Nat) (a1 : Int) (c : Chip) : mask l (judgeThrot a0 a1 c) = mask l c := by
  unfold judgeThrot
  (try dsimp only)
  (repeat' split) <;> (first | with_reducible rfl | (simp_all (maxDischargeDepth := 9); done) | (simp_all [mask]; done))

@[simp] theorem judgeWarn_mask {l : List Part} (hint : Part.int ∈ l) (hnq : Part.nq ∈ l) (hnotice : Part.notice ∈ l) (hhost : Part.host ∈ l) (hpower : Part.power ∈ l) (hdep : Part.dep ∈ l) (a0 : Nat) (a1 : Int) (c : Chip) : mask l (judgeWarn a0 a1 c) = mask l c := by
  unfold judgeWarn
  (try dsimp only)
  (repeat' split) <;> (first | with_reducible rfl | (simp_all (maxDischargeDepth := 9); done) | (simp_all [mask]; done))

@[simp] theorem updDone_mask {l : List Part} (hmb : Part.mb ∈ l) (hint : Part.int ∈ l) (hhost : Part.host ∈ l) (hupd : Part.upd ∈ l) (a0 : Nat) (c : Chip) : mask l (updDone a0 c) = mask l c := by
  unfold updDone
  (try dsimp only)
  (repeat' split) <;> (first | with_reducible rfl | (simp_all (maxDischargeDepth := 9); done) | (simp_all [mask]; done))

@[simp] theorem keySet_mask {l : List Part} (hmb : Part.mb ∈ l) (hint : Part.int ∈ l) (hhost : Part.host ∈ l) (hupd : Part.upd ∈ l) (a0 : List Host.Cell) (c : Chip) : mask l (keySet a0 c) = mask l c := by
  unfold keySet
  (try dsimp only)
  (repeat' split) <;> (first | with_reducible rfl | (simp_all (maxDischargeDepth := 9); done) | (simp_all [mask]; done))

@[simp] theorem keyWipe_mask {l : List Part} (hmb : Part.mb ∈ l) (hint : Part.int ∈ l) (hnq : Part.nq ∈ l) (hnotice : Part.notice ∈ l) (hhost : Part.host ∈ l) (hupd : Part.upd ∈ l) (hdep : Part.dep ∈ l) (a0 : Option (List Byte)) (c : Chip) : mask l (keyWipe a0 c) = mask l c := by
  unfold keyWipe
  (try dsimp only)
  (repeat' split) <;> (first | with_reducible rfl | (simp_all (maxDischargeDepth := 9); done) | (simp_all [mask]; done))

@[simp] theorem laneBad_mask {l : List Part} (hdev : Part.dev ∈ l) (hnq : Part.nq ∈ l) (hnotice : Part.notice ∈ l) (hcwy : Part.cwy ∈ l) (hctx : Part.ctx ∈ l) (hdfx : Part.dfx ∈ l) (hdep : Part.dep ∈ l) (a0 : Nat) (c : Chip) : mask l (laneBad a0 c) = mask l c := by
  unfold laneBad
  (try dsimp only)
  (repeat' split) <;> (first | with_reducible rfl | (simp_all (maxDischargeDepth := 9); done) | (simp_all [mask]; done))

@[simp] theorem laneEqWrite_mask {l : List Part} (hline : Part.line ∈ l) (a0 : Nat) (a1 : Word64) (c : Chip) : mask l (laneEqWrite a0 a1 c) = mask l c := by
  unfold laneEqWrite
  (try dsimp only)
  (repeat' split) <;> (first | with_reducible rfl | (simp_all (maxDischargeDepth := 9); done) | (simp_all [mask]; done))

@[simp] theorem lanesMeasured_mask {l : List Part} (hline : Part.line ∈ l) (a0 : List LaneRep) (a1 : List (Nat × Nat)) (a2 : Nat) (c : Chip) : mask l (lanesMeasured a0 a1 a2 c) = mask l c := by
  unfold lanesMeasured
  (try dsimp only)
  (repeat' split) <;> (first | with_reducible rfl | (simp_all (maxDischargeDepth := 9); done) | (simp_all [mask]; done))

@[simp] theorem laserStep_mask {l : List Part} (hline : Part.line ∈ l) (hdfx : Part.dfx ∈ l) (a0 : Nat) (a1 : LaserSt) (c : Chip) : mask l (laserStep a0 a1 c) = mask l c := by
  unfold laserStep
  (try dsimp only)
  (repeat' split) <;> (first | with_reducible rfl | (simp_all (maxDischargeDepth := 9); done) | (simp_all [mask]; done))

@[simp] theorem lasersRelight_mask {l : List Part} (hline : Part.line ∈ l)  (c : Chip) : mask l (lasersRelight  c) = mask l c := by
  unfold lasersRelight
  (try dsimp only)
  (repeat' split) <;> (first | with_reducible rfl | (simp_all (maxDischargeDepth := 9); done) | (simp_all [mask]; done))

@[simp] theorem traceBoundary_mask {l : List Part} (hline : Part.line ∈ l) (a0 : Nat) (c : Chip) : mask l (traceBoundary a0 c) = mask l c := by
  unfold traceBoundary
  (try dsimp only)
  (repeat' split) <;> (first | with_reducible rfl | (simp_all (maxDischargeDepth := 9); done) | (simp_all [mask]; done))

@[simp] theorem latchAll_mask {l : List Part} (hline : Part.line ∈ l) (hpower : Part.power ∈ l) (hdfx : Part.dfx ∈ l) (htim : Part.tim ∈ l) (hdep : Part.dep ∈ l)  (c : Chip) : mask l (latchAll  c) = mask l c := by
  unfold latchAll
  (try dsimp only)
  (repeat' split) <;> (first | with_reducible rfl | (simp_all (maxDischargeDepth := 9); done) | (simp_all [mask]; done))

@[simp] theorem lateDeadline_mask {l : List Part} (hdev : Part.dev ∈ l) (hmb : Part.mb ∈ l) (hint : Part.int ∈ l) (hhost : Part.host ∈ l) (himg : Part.img ∈ l) (hcm : Part.cm ∈ l) (hjct : Part.jct ∈ l) (a0 : Nat) (c : Chip) : mask l (lateDeadline a0 c) = mask l c := by
  unfold lateDeadline
  (try dsimp only)
  (repeat' split) <;> (first | with_reducible rfl | (simp_all (maxDischargeDepth := 9); done) | (simp_all [mask]; done))

@[simp] theorem mbSubmit_mask {l : List Part} (hmb : Part.mb ∈ l) (hint : Part.int ∈ l) (hhost : Part.host ∈ l) (hdep : Part.dep ∈ l) (a0 : Nat) (a1 : Byte) (a2 : Bool) (a3 : Chip → Bool) (a4 : Chip → Chip) (hf : ∀ c, mask l (a4 c) = mask l c) (c : Chip) : mask l (mbSubmit a0 a1 a2 a3 a4 c) = mask l c := by
  unfold mbSubmit
  dsimp only
  (repeat' split) <;> simp [*]

@[simp] theorem reiTick_mask {l : List Part} (hdfx : Part.dfx ∈ l) (a0 : List PmRep) (c : Chip) : mask l (reiTick a0 c) = mask l c := by
  unfold reiTick
  (try dsimp only)
  (repeat' split) <;> (first | with_reducible rfl | (simp_all (maxDischargeDepth := 9); done) | (simp_all [mask]; done))

@[simp] theorem pmTick_mask {l : List Part} (hdfx : Part.dfx ∈ l) (hpm : Part.pm ∈ l) (a0 : List PmRep) (c : Chip) : mask l (pmTick a0 c) = mask l c := by
  unfold pmTick
  (try dsimp only)
  (repeat' split) <;> (first | with_reducible rfl | (simp_all (maxDischargeDepth := 9); done) | (simp_all [mask]; done))

@[simp] theorem protGather_mask {l : List Part} (hprot : Part.prot ∈ l)  (c : Chip) : mask l (protGather  c) = mask l c := by
  unfold protGather
  (try dsimp only)
  (repeat' split) <;> (first | with_reducible rfl | (simp_all (maxDischargeDepth := 9); done) | (simp_all [mask]; done))

@[simp] theorem tickEvents_mask {l : List Part} (hdep : Part.dep ∈ l) (a0 : TickRep) (c : Chip) : mask l (tickEvents a0 c) = mask l c := by
  unfold tickEvents
  dsimp only
  rw [countEvent_mask hdep, countEvent_mask hdep, mask_forEach, mask_forEach, mask_forEach]
  · intro a c
    split <;> simp [*]
  · intro a c
    simp [*]
  · intro a c
    simp [*]

@[simp] theorem outAdvance_mask {l : List Part} (hnq : Part.nq ∈ l) (hnotice : Part.notice ∈ l) (hhost : Part.host ∈ l) (htim : Part.tim ∈ l) (hdep : Part.dep ∈ l) (a0 : Int) (a1 : Int) (a2 : Nat) (a3 : Nat) (c : Chip) : mask l (outAdvance a0 a1 a2 a3 c) = mask l c := by
  unfold outAdvance
  (try dsimp only)
  (repeat' split) <;> (first | with_reducible rfl | (simp_all (maxDischargeDepth := 9); done) | (simp_all [mask]; done))

@[simp] theorem t1Advance_mask {l : List Part} (hnq : Part.nq ∈ l) (hnotice : Part.notice ∈ l) (hhost : Part.host ∈ l) (htim : Part.tim ∈ l) (hdep : Part.dep ∈ l) (a0 : Nat) (a1 : Nat) (c : Chip) : mask l (t1Advance a0 a1 c) = mask l c := by
  unfold t1Advance
  (try dsimp only)
  (repeat' split) <;> (first | with_reducible rfl | (simp_all (maxDischargeDepth := 9); done) | (simp_all [mask]; done))

@[simp] theorem timingTick_mask {l : List Part} (hnq : Part.nq ∈ l) (hnotice : Part.notice ∈ l) (hhost : Part.host ∈ l) (htim : Part.tim ∈ l) (hdep : Part.dep ∈ l) (a0 : TickRep) (a1 : Nat) (c : Chip) : mask l (timingTick a0 a1 c) = mask l c := by
  unfold timingTick
  (try dsimp only)
  (repeat' split) <;> (first | with_reducible rfl | (simp_all (maxDischargeDepth := 9); done) | (simp_all [mask]; done))

@[simp] theorem measureTick_mask {l : List Part} (hnq : Part.nq ∈ l) (hnotice : Part.notice ∈ l) (hhost : Part.host ∈ l) (hctx : Part.ctx ∈ l) (hline : Part.line ∈ l) (hdfx : Part.dfx ∈ l) (hpm : Part.pm ∈ l) (hprot : Part.prot ∈ l) (htim : Part.tim ∈ l) (hdep : Part.dep ∈ l) (a0 : TickRep) (a1 : List (EngVerdict × List Nat)) (a2 : Nat) (c : Chip) : mask l (measureTick a0 a1 a2 c) = mask l c := by
  unfold measureTick
  (try dsimp only)
  (repeat' split) <;> (first | with_reducible rfl | (simp_all (maxDischargeDepth := 9); done) | (simp_all [mask]; done))

@[simp] theorem msixWrite_mask {l : List Part} (hint : Part.int ∈ l) (hhost : Part.host ∈ l) (a0 : Nat) (a1 : MsixEnt) (c : Chip) : mask l (msixWrite a0 a1 c) = mask l c := by
  unfold msixWrite
  (try dsimp only)
  (repeat' split) <;> (first | with_reducible rfl | (simp_all (maxDischargeDepth := 9); done) | (simp_all [mask]; done))

@[simp] theorem msixPut_mask {l : List Part} (hint : Part.int ∈ l) (hhost : Part.host ∈ l) (a0 : Nat) (a1 : Nat) (a2 : Word) (c : Chip) : mask l (msixPut a0 a1 a2 c) = mask l c := by
  unfold msixPut
  (try dsimp only)
  (repeat' split) <;> (first | with_reducible rfl | (simp_all (maxDischargeDepth := 9); done) | (simp_all [mask]; done))

@[simp] theorem nqPopStep_mask {l : List Part} (hint : Part.int ∈ l) (hnq : Part.nq ∈ l) (hhost : Part.host ∈ l) (a0 : Nat) (a1 : Bool) (c : Chip) : mask l (nqPopStep a0 a1 c) = mask l c := by
  unfold nqPopStep
  (try dsimp only)
  (repeat' split) <;> (first | with_reducible rfl | (simp_all (maxDischargeDepth := 9); done) | (simp_all [mask]; done))

@[simp] theorem ohConsume_mask {l : List Part} (hline : Part.line ∈ l) (a0 : Nat) (a1 : List Host.Cell) (a2 : Nat) (c : Chip) : mask l (ohConsume a0 a1 a2 c) = mask l c := by
  unfold ohConsume
  (try dsimp only)
  (repeat' split) <;> (first | with_reducible rfl | (simp_all (maxDischargeDepth := 9); done) | (simp_all [mask]; done))

@[simp] theorem ohEnqueue_mask {l : List Part} (hoq : Part.oq ∈ l) (hline : Part.line ∈ l) (hdep : Part.dep ∈ l) (a0 : Nat) (c : Chip) : mask l (ohEnqueue a0 c) = mask l c := by
  unfold ohEnqueue
  (try dsimp only)
  (repeat' split) <;> (first | with_reducible rfl | (simp_all (maxDischargeDepth := 9); done) | (simp_all [mask]; done))

@[simp] theorem txDiscard_mask {l : List Part} (hline : Part.line ∈ l) (a0 : List (BitVec 128)) (a1 : List Host.Cell) (a2 : Nat) (c : Chip) : mask l (txDiscard a0 a1 a2 c) = mask l c := by
  unfold txDiscard
  (try dsimp only)
  (repeat' split) <;> (first | with_reducible rfl | (simp_all (maxDischargeDepth := 9); done) | (simp_all [mask]; done))

@[simp] theorem txSend_mask {l : List Part} (hhost : Part.host ∈ l) (hline : Part.line ∈ l) (hdep : Part.dep ∈ l) (a0 : List (BitVec 128)) (a1 : Nat) (a2 : List Host.Cell) (a3 : Nat) (c : Chip) : mask l (txSend a0 a1 a2 a3 c) = mask l c := by
  unfold txSend
  (try dsimp only)
  (repeat' split) <;> (first | with_reducible rfl | (simp_all (maxDischargeDepth := 9); done) | (simp_all [mask]; done))

@[simp] theorem ohTake_mask {l : List Part} (hhost : Part.host ∈ l) (hline : Part.line ∈ l) (hdep : Part.dep ∈ l) (a0 : List Host.Cell) (a1 : Nat) (a2 : Bool) (a3 : Nat) (c : Chip) : mask l (ohTake a0 a1 a2 a3 c) = mask l c := by
  unfold ohTake
  (try dsimp only)
  (repeat' split) <;> (first | with_reducible rfl | (simp_all (maxDischargeDepth := 9); done) | (simp_all [mask]; done))

@[simp] theorem oqPopStep_mask {l : List Part} (hint : Part.int ∈ l) (hoq : Part.oq ∈ l) (hhost : Part.host ∈ l) (a0 : Nat) (a1 : Bool) (c : Chip) : mask l (oqPopStep a0 a1 c) = mask l c := by
  unfold oqPopStep
  (try dsimp only)
  (repeat' split) <;> (first | with_reducible rfl | (simp_all (maxDischargeDepth := 9); done) | (simp_all [mask]; done))

@[simp] theorem oscFails_mask {l : List Part} (hnq : Part.nq ∈ l) (hnotice : Part.notice ∈ l) (htim : Part.tim ∈ l) (hdep : Part.dep ∈ l)  (c : Chip) : mask l (oscFails  c) = mask l c := by
  unfold oscFails
  (try dsimp only)
  (repeat' split) <;> (first | with_reducible rfl | (simp_all (maxDischargeDepth := 9); done) | (simp_all [mask]; done))

@[simp] theorem oscTempRead_mask {l : List Part} (hnq : Part.nq ∈ l) (hnotice : Part.notice ∈ l) (htim : Part.tim ∈ l) (hdep : Part.dep ∈ l) (a0 : Option Int) (c : Chip) : mask l (oscTempRead a0 c) = mask l c := by
  unfold oscTempRead
  (try dsimp only)
  (repeat' split) <;> (first | with_reducible rfl | (simp_all (maxDischargeDepth := 9); done) | (simp_all [mask]; done))

@[simp] theorem patternHit_mask {l : List Part} (hline : Part.line ∈ l) (a0 : Nat) (a1 : Nat) (a2 : Nat) (a3 : PatternRep) (c : Chip) : mask l (patternHit a0 a1 a2 a3 c) = mask l c := by
  unfold patternHit
  (try dsimp only)
  (repeat' split) <;> (first | with_reducible rfl | (simp_all (maxDischargeDepth := 9); done) | (simp_all [mask]; done))

@[simp] theorem pcieResetStep_mask {l : List Part} (hint : Part.int ∈ l)  (c : Chip) : mask l (pcieResetStep  c) = mask l c := by
  unfold pcieResetStep
  (try dsimp only)
  (repeat' split) <;> (first | with_reducible rfl | (simp_all (maxDischargeDepth := 9); done) | (simp_all [mask]; done))

@[simp] theorem pcntSel_mask {l : List Part} (hdep : Part.dep ∈ l) (a0 : Nat) (a1 : Word) (a2 : Nat) (c : Chip) : mask l (pcntSel a0 a1 a2 c) = mask l c := by
  unfold pcntSel
  (try dsimp only)
  (repeat' split) <;> (first | with_reducible rfl | (simp_all (maxDischargeDepth := 9); done) | (simp_all [mask]; done))

@[simp] theorem startingWakes_mask {l : List Part} (hline : Part.line ∈ l) (hpower : Part.power ∈ l) (a0 : Nat) (c : Chip) : mask l (startingWakes a0 c) = mask l c := by
  unfold startingWakes
  (try dsimp only)
  (repeat' split) <;> (first | with_reducible rfl | (simp_all (maxDischargeDepth := 9); done) | (simp_all [mask]; done))

@[simp] theorem placeStored_mask {l : List Part} (hdev : Part.dev ∈ l) (hmb : Part.mb ∈ l) (hint : Part.int ∈ l) (hhost : Part.host ∈ l) (himg : Part.img ∈ l) (hcm : Part.cm ∈ l) (hjct : Part.jct ∈ l) (hisl : Part.isl ∈ l) (hline : Part.line ∈ l) (hpower : Part.power ∈ l) (a0 : Change) (a1 : Image) (a2 : Placement) (c : Chip) : mask l (placeStored a0 a1 a2 c) = mask l c := by
  unfold placeStored
  (try dsimp only)
  (repeat' split) <;> (first | with_reducible rfl | (simp_all (maxDischargeDepth := 9); done) | (simp_all [mask]; done))

@[simp] theorem powerBoundary_mask {l : List Part} (hnq : Part.nq ∈ l) (hnotice : Part.notice ∈ l) (hcm : Part.cm ∈ l) (heng : Part.eng ∈ l) (hline : Part.line ∈ l) (hpower : Part.power ∈ l) (hdfx : Part.dfx ∈ l) (hdep : Part.dep ∈ l) (a0 : Nat) (c : Chip) : mask l (powerBoundary a0 c) = mask l c := by
  unfold powerBoundary
  (try dsimp only)
  (repeat' split) <;> (first | with_reducible rfl | (simp_all (maxDischargeDepth := 9); done) | (simp_all [mask]; done))

@[simp] theorem ptpArrives_mask {l : List Part} (hhost : Part.host ∈ l) (hline : Part.line ∈ l) (hdep : Part.dep ∈ l) (a0 : Nat) (a1 : Bool) (a2 : Nat) (a3 : List Byte) (c : Chip) : mask l (ptpArrives a0 a1 a2 a3 c) = mask l c := by
  unfold ptpArrives
  (try dsimp only)
  (repeat' split) <;> (first | with_reducible rfl | (simp_all (maxDischargeDepth := 9); done) | (simp_all [mask]; done))

@[simp] theorem qicAdopt_mask {l : List Part} (hline : Part.line ∈ l) (a0 : Nat) (a1 : Nat) (c : Chip) : mask l (qicAdopt a0 a1 c) = mask l c := by
  unfold qicAdopt
  (try dsimp only)
  (repeat' split) <;> (first | with_reducible rfl | (simp_all (maxDischargeDepth := 9); done) | (simp_all [mask]; done))

@[simp] theorem qicLockedWindow_mask {l : List Part} (hctx : Part.ctx ∈ l) (hline : Part.line ∈ l) (hdfx : Part.dfx ∈ l) (a0 : Nat) (a1 : Nat) (c : Chip) : mask l (qicLockedWindow a0 a1 c) = mask l c := by
  unfold qicLockedWindow
  (try dsimp only)
  (repeat' split) <;> (first | with_reducible rfl | (simp_all (maxDischargeDepth := 9); done) | (simp_all [mask]; done))

@[simp] theorem refinPulse_mask {l : List Part} (htim : Part.tim ∈ l) (a0 : Nat) (c : Chip) : mask l (refinPulse a0 c) = mask l c := by
  unfold refinPulse
  (try dsimp only)
  (repeat' split) <;> (first | with_reducible rfl | (simp_all (maxDischargeDepth := 9); done) | (simp_all [mask]; done))

@[simp] theorem releaseReceived_mask {l : List Part} (hpair : Part.pair ∈ l) (hdep : Part.dep ∈ l) (a0 : HokuaHdr) (a1 : Nat) (c : Chip) : mask l (releaseReceived a0 a1 c) = mask l c := by
  unfold releaseReceived
  (try dsimp only)
  (repeat' split) <;> (first | with_reducible rfl | (simp_all (maxDischargeDepth := 9); done) | (simp_all [mask]; done))

@[simp] theorem renewReceived_mask {l : List Part} (hhost : Part.host ∈ l) (hpair : Part.pair ∈ l) (hdep : Part.dep ∈ l) (a0 : HokuaHdr) (c : Chip) : mask l (renewReceived a0 c) = mask l c := by
  unfold renewReceived
  (try dsimp only)
  (repeat' split) <;> (first | with_reducible rfl | (simp_all (maxDischargeDepth := 9); done) | (simp_all [mask]; done))

@[simp] theorem replaceResume_mask {l : List Part} (hdev : Part.dev ∈ l) (hmb : Part.mb ∈ l) (hint : Part.int ∈ l) (hhost : Part.host ∈ l) (himg : Part.img ∈ l) (hcm : Part.cm ∈ l) (hjct : Part.jct ∈ l) (hisl : Part.isl ∈ l)  (c : Chip) : mask l (replaceResume  c) = mask l c := by
  unfold replaceResume
  (try dsimp only)
  (repeat' split) <;> (first | with_reducible rfl | (simp_all (maxDischargeDepth := 9); done) | (simp_all [mask]; done))

end Sys2Proof.Machine
end

