-- ==== Sys2Proof/Laws/Frame5.lean ====
section
/-!
SUPPORT. Frames, continued: the parts each operation may change, one lemma an operation, callees first.
-/
namespace Sys2Proof.Machine
open Sys2Proof

@[simp] theorem slipEffect_mask {l : List Part} (hctx : Part.ctx ∈ l) (hdfx : Part.dfx ∈ l) (a0 : Nat) (a1 : Nat) (c : Chip) : mask l (slipEffect a0 a1 c) = mask l c := by
  unfold slipEffect
  (try dsimp only)
  (repeat' split) <;> (first | with_reducible rfl | (simp_all (maxDischargeDepth := 9); done) | (simp_all [mask]; done))

@[simp] theorem ringSlip_mask {l : List Part} (hctx : Part.ctx ∈ l) (hdfx : Part.dfx ∈ l) (a0 : Nat) (a1 : Int) (c : Chip) : mask l (ringSlip a0 a1 c) = mask l c := by
  unfold ringSlip
  (try dsimp only)
  (repeat' split) <;> (first | with_reducible rfl | (simp_all (maxDischargeDepth := 9); done) | (simp_all [mask]; done))

@[simp] theorem scanCtrl_mask {l : List Part} (hdep : Part.dep ∈ l) (a0 : Nat) (a1 : Word) (c : Chip) : mask l (scanCtrl a0 a1 c) = mask l c := by
  unfold scanCtrl
  (try dsimp only)
  (repeat' split) <;> (first | with_reducible rfl | (simp_all (maxDischargeDepth := 9); done) | (simp_all [mask]; done))

@[simp] theorem scanDone_mask {l : List Part} (hdep : Part.dep ∈ l) (hfree : Part.free ∈ l) (a0 : Nat) (a1 : Bool) (a2 : Option (List Byte)) (c : Chip) : mask l (scanDone a0 a1 a2 c) = mask l c := by
  unfold scanDone
  dsimp only
  (repeat' split) <;> simp [*]

@[simp] theorem scratchpad_mask {l : List Part} (heng : Part.eng ∈ l) (hctx : Part.ctx ∈ l) (a0 : Nat) (a1 : Nat) (c : Chip) : mask l (scratchpad a0 a1 c) = mask l c := by
  unfold scratchpad
  (try dsimp only)
  (repeat' split) <;> (first | with_reducible rfl | (simp_all (maxDischargeDepth := 9); done) | (simp_all [mask]; done))

@[simp] theorem sensorRead_mask {l : List Part} (hint : Part.int ∈ l) (hnq : Part.nq ∈ l) (hnotice : Part.notice ∈ l) (hhost : Part.host ∈ l) (hpower : Part.power ∈ l) (hdep : Part.dep ∈ l) (a0 : Nat × Int) (c : Chip) : mask l (sensorRead a0 c) = mask l c := by
  unfold sensorRead
  (try dsimp only)
  (repeat' split) <;> (first | with_reducible rfl | (simp_all (maxDischargeDepth := 9); done) | (simp_all [mask]; done))

@[simp] theorem setParam_mask {l : List Part} (hmb : Part.mb ∈ l) (a0 : Nat) (a1 : Word) (c : Chip) : mask l (setParam a0 a1 c) = mask l c := by
  unfold setParam
  (try dsimp only)
  (repeat' split) <;> (first | with_reducible rfl | (simp_all (maxDischargeDepth := 9); done) | (simp_all [mask]; done))

@[simp] theorem settingsWrite_mask {l : List Part} (hmb : Part.mb ∈ l) (hint : Part.int ∈ l) (hhost : Part.host ∈ l) (hupd : Part.upd ∈ l) (a0 : List Host.Cell) (c : Chip) : mask l (settingsWrite a0 c) = mask l c := by
  unfold settingsWrite
  (try dsimp only)
  (repeat' split) <;> (first | with_reducible rfl | (simp_all (maxDischargeDepth := 9); done) | (simp_all [mask]; done))

@[simp] theorem settleEnd_mask {l : List Part} (hline : Part.line ∈ l) (hdfx : Part.dfx ∈ l) (a0 : Nat) (a1 : Nat) (a2 : Nat) (c : Chip) : mask l (settleEnd a0 a1 a2 c) = mask l c := by
  unfold settleEnd
  (try dsimp only)
  (repeat' split) <;> (first | with_reducible rfl | (simp_all (maxDischargeDepth := 9); done) | (simp_all [mask]; done))

@[simp] theorem shadowScrub_mask {l : List Part} (hnq : Part.nq ∈ l) (hnotice : Part.notice ∈ l) (hjct : Part.jct ∈ l) (hdep : Part.dep ∈ l) (a0 : List Nat) (c : Chip) : mask l (shadowScrub a0 c) = mask l c := by
  unfold shadowScrub
  (try dsimp only)
  (repeat' split) <;> (first | with_reducible rfl | (simp_all (maxDischargeDepth := 9); done) | (simp_all [mask]; done))

@[simp] theorem snapArm_mask {l : List Part} (hdep : Part.dep ∈ l) (a0 : Word) (c : Chip) : mask l (snapArm a0 c) = mask l c := by
  unfold snapArm
  (try dsimp only)
  (repeat' split) <;> (first | with_reducible rfl | (simp_all (maxDischargeDepth := 9); done) | (simp_all [mask]; done))

@[simp] theorem startBoot_mask {l : List Part} (hdev : Part.dev ∈ l) (hpower : Part.power ∈ l) (htim : Part.tim ∈ l)  (c : Chip) : mask l (startBoot  c) = mask l c := by
  unfold startBoot
  (try dsimp only)
  (repeat' split) <;> (first | with_reducible rfl | (simp_all (maxDischargeDepth := 9); done) | (simp_all [mask]; done))

@[simp] theorem startOne_mask {l : List Part} (hisl : Part.isl ∈ l) (a0 : Nat) (a1 : Nat) (c : Chip) : mask l (startOne a0 a1 c) = mask l c := by
  unfold startOne
  (try dsimp only)
  (repeat' split) <;> (first | with_reducible rfl | (simp_all (maxDischargeDepth := 9); done) | (simp_all [mask]; done))

@[simp] theorem statusReceived_mask {l : List Part} (hnq : Part.nq ∈ l) (hnotice : Part.notice ∈ l) (hpair : Part.pair ∈ l) (hdep : Part.dep ∈ l) (a0 : HokuaHdr) (a1 : StatusBody) (c : Chip) : mask l (statusReceived a0 a1 c) = mask l c := by
  unfold statusReceived
  (try dsimp only)
  (repeat' split) <;> (first | with_reducible rfl | (simp_all (maxDischargeDepth := 9); done) | (simp_all [mask]; done))

@[simp] theorem switchSpanEnd_mask {l : List Part} (htim : Part.tim ∈ l) (a0 : Nat) (a1 : Int) (c : Chip) : mask l (switchSpanEnd a0 a1 c) = mask l c := by
  unfold switchSpanEnd
  (try dsimp only)
  (repeat' split) <;> (first | with_reducible rfl | (simp_all (maxDischargeDepth := 9); done) | (simp_all [mask]; done))

@[simp] theorem t1SwFfoWrite_mask {l : List Part} (htim : Part.tim ∈ l) (a0 : Word) (c : Chip) : mask l (t1SwFfoWrite a0 c) = mask l c := by
  unfold t1SwFfoWrite
  (try dsimp only)
  (repeat' split) <;> (first | with_reducible rfl | (simp_all (maxDischargeDepth := 9); done) | (simp_all [mask]; done))

@[simp] theorem t1SwOffsetWrite_mask {l : List Part} (htim : Part.tim ∈ l) (a0 : Word) (c : Chip) : mask l (t1SwOffsetWrite a0 c) = mask l c := by
  unfold t1SwOffsetWrite
  (try dsimp only)
  (repeat' split) <;> (first | with_reducible rfl | (simp_all (maxDischargeDepth := 9); done) | (simp_all [mask]; done))

@[simp] theorem tapCtrl_mask {l : List Part} (htaps : Part.taps ∈ l) (a0 : Nat) (a1 : Word) (c : Chip) : mask l (tapCtrl a0 a1 c) = mask l c := by
  unfold tapCtrl
  (try dsimp only)
  (repeat' split) <;> (first | with_reducible rfl | (simp_all (maxDischargeDepth := 9); done) | (simp_all [mask]; done))

@[simp] theorem tickStep_mask {l : List Part} (hdev : Part.dev ∈ l) (hmb : Part.mb ∈ l) (hint : Part.int ∈ l) (hnq : Part.nq ∈ l) (hnotice : Part.notice ∈ l) (hhost : Part.host ∈ l) (himg : Part.img ∈ l) (hcm : Part.cm ∈ l) (hjct : Part.jct ∈ l) (heng : Part.eng ∈ l) (hisl : Part.isl ∈ l) (hcwy : Part.cwy ∈ l) (hctx : Part.ctx ∈ l) (hline : Part.line ∈ l) (hpower : Part.power ∈ l) (hdfx : Part.dfx ∈ l) (hpm : Part.pm ∈ l) (hprot : Part.prot ∈ l) (htim : Part.tim ∈ l) (hupd : Part.upd ∈ l) (hpair : Part.pair ∈ l) (hdep : Part.dep ∈ l) (hfree : Part.free ∈ l) (a0 : TickRep) (c : Chip) : mask l (tickStep a0 c) = mask l c := by
  unfold tickStep
  (try dsimp only)
  (repeat' split) <;> (first | with_reducible rfl | (simp_all (maxDischargeDepth := 9); done) | (simp_all [mask]; done))

@[simp] theorem todInfoWrite_mask {l : List Part} (htim : Part.tim ∈ l) (a0 : Word) (c : Chip) : mask l (todInfoWrite a0 c) = mask l c := by
  unfold todInfoWrite
  (try dsimp only)
  (repeat' split) <;> (first | with_reducible rfl | (simp_all (maxDischargeDepth := 9); done) | (simp_all [mask]; done))

@[simp] theorem traceWrite_mask {l : List Part} (hline : Part.line ∈ l) (hdfx : Part.dfx ∈ l) (a0 : Nat) (a1 : Nat) (a2 : List Byte) (c : Chip) : mask l (traceWrite a0 a1 a2 c) = mask l c := by
  unfold traceWrite
  (try dsimp only)
  (repeat' split) <;> (first | with_reducible rfl | (simp_all (maxDischargeDepth := 9); done) | (simp_all [mask]; done))

@[simp] theorem updJudge_mask {l : List Part} (hmb : Part.mb ∈ l) (hint : Part.int ∈ l) (hhost : Part.host ∈ l) (hupd : Part.upd ∈ l) (a0 : UpdSt → Nat × UpdSt) (c : Chip) : mask l (updJudge a0 c) = mask l c := by
  unfold updJudge
  (try dsimp only)
  (repeat' split) <;> (first | with_reducible rfl | (simp_all (maxDischargeDepth := 9); done) | (simp_all [mask]; done))

@[simp] theorem validate_mask {l : List Part} (hdev : Part.dev ∈ l) (hmb : Part.mb ∈ l) (hint : Part.int ∈ l) (hhost : Part.host ∈ l) (himg : Part.img ∈ l) (hcm : Part.cm ∈ l) (hjct : Part.jct ∈ l) (hisl : Part.isl ∈ l) (hline : Part.line ∈ l) (hpower : Part.power ∈ l)  (c : Chip) : mask l (validate  c) = mask l c := by
  unfold validate
  (try dsimp only)
  (repeat' split) <;> (first | with_reducible rfl | (simp_all (maxDischargeDepth := 9); done) | (simp_all [mask]; done))

@[simp] theorem wakeFault_mask {l : List Part} (hdev : Part.dev ∈ l) (hmb : Part.mb ∈ l) (hint : Part.int ∈ l) (hhost : Part.host ∈ l) (himg : Part.img ∈ l) (hcm : Part.cm ∈ l) (hjct : Part.jct ∈ l) (heng : Part.eng ∈ l) (hisl : Part.isl ∈ l) (hpower : Part.power ∈ l) (a0 : List Nat) (a1 : List (Nat × Nat)) (c : Chip) : mask l (wakeFault a0 a1 c) = mask l c := by
  unfold wakeFault
  (try dsimp only)
  (repeat' split) <;> (first | with_reducible rfl | (simp_all (maxDischargeDepth := 9); done) | (simp_all [mask]; done))

end Sys2Proof.Machine
end

