-- ==== Sys2Proof/Laws/Table.lean ====
section
/-!
SUPPORT. Sparse tables: what reading gives after a write, and the canonical form of memory (R11, R67).
-/
namespace Sys2Proof.Machine
open Sys2Proof

/-! ### Reading and writing -/

/-- Looking an index up and reading it with a default agree. -/
theorem tget_eq_lookup {α : Type} (d : α) (m : FMap α) (i : Nat) : tget d m i = (m.lookup i).getD d := by
  induction m, i using tget.induct with
  | case1 i => rfl
  | case2 k v t => simp [tget]
  | case3 k v t i h ih => rw [tget, if_neg h, ih, List.lookup_cons, beq_eq_false_iff_ne.2 (Ne.symm h)]

/-- Looking an index up tries the first entry, then the others. -/
theorem lookup_first {α : Type} (e : Nat × α) (t : FMap α) (j : Nat) :
    (e :: t).lookup j = if j = e.1 then some e.2 else t.lookup j := by
  rw [List.lookup_cons]
  by_cases h : j = e.1
  · rw [if_pos h, beq_iff_eq.2 h]
  · rw [if_neg h, beq_eq_false_iff_ne.2 h]

/-- What every index looks up to in a table one entry was put into. -/
theorem lookup_tput {α : Type} (m : FMap α) (i j : Nat) (v : α) :
    (tput m i v).lookup j = if j = i then some v else m.lookup j := by
  induction m, i, v using tput.induct with
  | case1 => exact lookup_first _ _ j
  | case2 k w t i v hlt => rw [tput, if_pos hlt]; exact lookup_first _ _ j
  | case3 w t i v hlt =>
    rw [tput, if_neg hlt, if_pos rfl, lookup_first, lookup_first]
    by_cases h : j = i <;> simp [h]
  | case4 k w t i v hlt hne ih =>
    rw [tput, if_neg hlt, if_neg hne, lookup_first, lookup_first, ih]
    by_cases h : j = i
    · simp [h, hne]
    · simp [h]

/-- What every index looks up to in a table one entry was removed from. -/
theorem lookup_tdel {α : Type} (m : FMap α) (i j : Nat) : (tdel m i).lookup j = if j = i then none else m.lookup j := by
  unfold tdel
  induction m with
  | nil => exact (ite_self _).symm
  | cons e t ih =>
    rw [List.filter_cons, apply_ite (List.lookup j), lookup_first, lookup_first, ih]
    by_cases h : j = e.1 <;> by_cases h' : j = i <;> simp_all

@[simp] theorem lookup_tput_same {α : Type} (m : FMap α) (i : Nat) (v : α) : (tput m i v).lookup i = some v :=
  (lookup_tput m i i v).trans (if_pos rfl)

theorem lookup_tput_other {α : Type} (m : FMap α) {i j : Nat} (v : α) (h : j ≠ i) : (tput m i v).lookup j = m.lookup j :=
  (lookup_tput m i j v).trans (if_neg h)

/-- What every index reads as after one entry is written. -/
theorem tget_tset {α : Type} [DecidableEq α] (d : α) (m : FMap α) (i j : Nat) (v : α) :
    tget d (tset d m i v) j = if j = i then v else tget d m j := by
  rw [tset, tget_eq_lookup, tget_eq_lookup, apply_ite (List.lookup j), lookup_tdel, lookup_tput]
  by_cases hj : j = i <;> by_cases hv : v = d <;> simp [hj, hv]

@[simp] theorem tget_tset_same {α : Type} [DecidableEq α] (d : α) (m : FMap α) (i : Nat) (v : α) :
    tget d (tset d m i v) i = v := (tget_tset d m i i v).trans (if_pos rfl)

theorem tget_tset_other {α : Type} [DecidableEq α] (d : α) (m : FMap α) {i j : Nat} (v : α) (h : j ≠ i) :
    tget d (tset d m i v) j = tget d m j := (tget_tset d m i j v).trans (if_neg h)

@[simp] theorem tget_tput_same {α : Type} (d : α) (m : FMap α) (i : Nat) (v : α) : tget d (tput m i v) i = v := by
  simp [tget_eq_lookup]

theorem tget_tput_other {α : Type} (d : α) (m : FMap α) {i j : Nat} (v : α) (h : j ≠ i) :
    tget d (tput m i v) j = tget d m j := by rw [tget_eq_lookup, tget_eq_lookup, lookup_tput_other m v h]

@[simp] theorem tget_tdel_same {α : Type} (d : α) (m : FMap α) (i : Nat) : tget d (tdel m i) i = d := by
  simp [tget_eq_lookup, lookup_tdel]

theorem tget_tdel_other {α : Type} (d : α) (m : FMap α) {i j : Nat} (h : j ≠ i) : tget d (tdel m i) j = tget d m j := by
  rw [tget_eq_lookup, tget_eq_lookup, lookup_tdel, if_neg h]

@[simp] theorem tget_tupd_same {α : Type} [DecidableEq α] (d : α) (m : FMap α) (i : Nat) (f : α → α) :
    tget d (tupd d m i f) i = f (tget d m i) := tget_tset_same d m i _

theorem tget_tupd_other {α : Type} [DecidableEq α] (d : α) (m : FMap α) {i j : Nat} (f : α → α) (h : j ≠ i) :
    tget d (tupd d m i f) j = tget d m j := tget_tset_other d m _ h

/-! ### The canonical form of memory (R11) -/

/-- The canonical form, said at once: the addresses rise from `lo`, and no byte listed is 0. -/
theorem memFrom_iff (m : FMap Byte) (lo : Nat) :
    memFrom lo m = true ↔ (m.map (·.1)).Pairwise (· < ·) ∧ ∀ e ∈ m, lo ≤ e.1 ∧ e.2 ≠ 0 := by
  induction m generalizing lo with
  | nil => exact ⟨fun _ => ⟨List.Pairwise.nil, nofun⟩, fun _ => rfl⟩
  | cons e t ih =>
    rw [memFrom, Bool.and_eq_true, Bool.and_eq_true, decide_eq_true_eq, decide_eq_true_eq, ih, List.map_cons, List.pairwise_cons,
      List.forall_mem_cons, List.forall_mem_map]
    refine ⟨fun ⟨⟨h0, hb⟩, hp, ha⟩ => ⟨⟨fun x hx => (ha x hx).1, hp⟩, ⟨h0, hb⟩, fun x hx => ⟨?_, (ha x hx).2⟩⟩, fun ⟨⟨hl, hp⟩, h0, ha⟩ => ⟨h0, hp, fun x hx => ⟨hl x hx, (ha x hx).2⟩⟩⟩
    exact Nat.le_trans h0 (Nat.le_of_succ_le (ha x hx).1)

/-- Memory stays in its canonical form when an entry is removed. -/
theorem memFrom_tdel (m : FMap Byte) (lo i : Nat) (h : memFrom lo m = true) : memFrom lo (tdel m i) = true := by
  rw [memFrom_iff] at h ⊢
  exact ⟨h.1.sublist (List.filter_sublist.map _), fun e he => h.2 e ((List.mem_filter.1 he).1)⟩

/-- Memory stays in its canonical form when a byte that is not 0 is put in its place. -/
theorem memFrom_tput (m : FMap Byte) (lo i : Nat) (v : Byte) (hi : lo ≤ i) (hv : v ≠ 0) (h : memFrom lo m = true) :
    memFrom lo (tput m i v) = true := by
  induction m, i, v using tput.induct generalizing lo with
  | case4 k w t i v hlt hne ih =>
    simp only [tput, if_neg hlt, if_neg hne, memFrom, Bool.and_eq_true, decide_eq_true_eq] at h ⊢
    exact ⟨h.1, ih (k + 1) (by omega) hv h.2⟩
  | _ => simp_all [tput, memFrom] <;> omega

/-- A byte written keeps memory in its canonical form. -/
theorem Memory.wf_tset (m : FMap Byte) (i : Nat) (v : Byte) (h : Memory.wf m = true) : Memory.wf (tset 0 m i v) = true := by
  rw [tset]
  exact if hv : v = 0 then if_pos hv ▸ memFrom_tdel m 0 i h else if_neg hv ▸ memFrom_tput m 0 i v i.zero_le hv h

/-- Bytes written keep memory in its canonical form. -/
theorem Memory.wf_writeBytes (l : List Byte) (m : FMap Byte) (a : Nat) (h : Memory.wf m = true) :
    Memory.wf (writeBytes 0 m a l) = true := by
  match l with
  | [] => exact h
  | b :: t => exact Memory.wf_writeBytes t (tset 0 m a b) (a + 1) (Memory.wf_tset m a b h)

/-- A write leaves every byte outside it as it was. -/
theorem tget_writeBytes_other (d : Byte) (l : List Byte) (m : FMap Byte) (a j : Nat) (h : j < a ∨ a + l.length ≤ j) :
    tget d (writeBytes d m a l) j = tget d m j := by
  induction l generalizing m a with
  | nil => rfl
  | cons b t ih =>
    rw [List.length_cons] at h
    exact (ih _ _ (by omega)).trans (tget_tset_other d m b (by omega))

/-- A read after a write gives the bytes written. -/
theorem readBytes_writeBytes (d : Byte) (l : List Byte) (m : FMap Byte) (a : Nat) :
    readBytes d (writeBytes d m a l) a l.length = l := by
  induction l generalizing m a with
  | nil => rfl
  | cons b t ih =>
    have hd : tget d (writeBytes d (tset d m a b) (a + 1) t) a = b :=
      (tget_writeBytes_other d t _ (a + 1) a (.inl (Nat.lt_succ_self a))).trans (tget_tset_same d m a b)
    exact List.cons_eq_cons.2 ⟨hd, ih _ _⟩

end Sys2Proof.Machine
end

