-- ==== Sys2Proof/Laws/State.lean ====
section
/-!
SUPPORT. The state's fields after each plain update, true by definition, and after each shared operation.
-/
namespace Sys2Proof.Machine
open Sys2Proof

theorem dev_of_mask {l : List Part} {a b : Chip} (h : mask l a = mask l b) (hp : Part.dev ∉ l) : a.dev = b.dev := (mask_eq_iff a b).1 h .dev hp
theorem mb_of_mask {l : List Part} {a b : Chip} (h : mask l a = mask l b) (hp : Part.mb ∉ l) : a.mb = b.mb := (mask_eq_iff a b).1 h .mb hp
theorem int_of_mask {l : List Part} {a b : Chip} (h : mask l a = mask l b) (hp : Part.int ∉ l) : a.int = b.int := (mask_eq_iff a b).1 h .int hp
theorem nq_of_mask {l : List Part} {a b : Chip} (h : mask l a = mask l b) (hp : Part.nq ∉ l) : a.nq = b.nq := (mask_eq_iff a b).1 h .nq hp
theorem oq_of_mask {l : List Part} {a b : Chip} (h : mask l a = mask l b) (hp : Part.oq ∉ l) : a.oq = b.oq := (mask_eq_iff a b).1 h .oq hp
theorem notice_of_mask {l : List Part} {a b : Chip} (h : mask l a = mask l b) (hp : Part.notice ∉ l) : a.notice = b.notice := (mask_eq_iff a b).1 h .notice hp
theorem taps_of_mask {l : List Part} {a b : Chip} (h : mask l a = mask l b) (hp : Part.taps ∉ l) : a.taps = b.taps := (mask_eq_iff a b).1 h .taps hp
theorem host_of_mask {l : List Part} {a b : Chip} (h : mask l a = mask l b) (hp : Part.host ∉ l) : a.host = b.host := (mask_eq_iff a b).1 h .host hp
theorem img_of_mask {l : List Part} {a b : Chip} (h : mask l a = mask l b) (hp : Part.img ∉ l) : a.img = b.img := (mask_eq_iff a b).1 h .img hp
theorem cm_of_mask {l : List Part} {a b : Chip} (h : mask l a = mask l b) (hp : Part.cm ∉ l) : a.cm = b.cm := (mask_eq_iff a b).1 h .cm hp
theorem jct_of_mask {l : List Part} {a b : Chip} (h : mask l a = mask l b) (hp : Part.jct ∉ l) : a.jct = b.jct := (mask_eq_iff a b).1 h .jct hp
theorem eng_of_mask {l : List Part} {a b : Chip} (h : mask l a = mask l b) (hp : Part.eng ∉ l) : a.eng = b.eng := (mask_eq_iff a b).1 h .eng hp
theorem isl_of_mask {l : List Part} {a b : Chip} (h : mask l a = mask l b) (hp : Part.isl ∉ l) : a.isl = b.isl := (mask_eq_iff a b).1 h .isl hp
theorem cwy_of_mask {l : List Part} {a b : Chip} (h : mask l a = mask l b) (hp : Part.cwy ∉ l) : a.cwy = b.cwy := (mask_eq_iff a b).1 h .cwy hp
theorem ctx_of_mask {l : List Part} {a b : Chip} (h : mask l a = mask l b) (hp : Part.ctx ∉ l) : a.ctx = b.ctx := (mask_eq_iff a b).1 h .ctx hp
theorem line_of_mask {l : List Part} {a b : Chip} (h : mask l a = mask l b) (hp : Part.line ∉ l) : a.line = b.line := (mask_eq_iff a b).1 h .line hp
theorem power_of_mask {l : List Part} {a b : Chip} (h : mask l a = mask l b) (hp : Part.power ∉ l) : a.power = b.power := (mask_eq_iff a b).1 h .power hp
theorem dfx_of_mask {l : List Part} {a b : Chip} (h : mask l a = mask l b) (hp : Part.dfx ∉ l) : a.dfx = b.dfx := (mask_eq_iff a b).1 h .dfx hp
theorem pm_of_mask {l : List Part} {a b : Chip} (h : mask l a = mask l b) (hp : Part.pm ∉ l) : a.pm = b.pm := (mask_eq_iff a b).1 h .pm hp
theorem prot_of_mask {l : List Part} {a b : Chip} (h : mask l a = mask l b) (hp : Part.prot ∉ l) : a.prot = b.prot := (mask_eq_iff a b).1 h .prot hp
theorem tim_of_mask {l : List Part} {a b : Chip} (h : mask l a = mask l b) (hp : Part.tim ∉ l) : a.tim = b.tim := (mask_eq_iff a b).1 h .tim hp
theorem upd_of_mask {l : List Part} {a b : Chip} (h : mask l a = mask l b) (hp : Part.upd ∉ l) : a.upd = b.upd := (mask_eq_iff a b).1 h .upd hp
theorem pair_of_mask {l : List Part} {a b : Chip} (h : mask l a = mask l b) (hp : Part.pair ∉ l) : a.pair = b.pair := (mask_eq_iff a b).1 h .pair hp
theorem dep_of_mask {l : List Part} {a b : Chip} (h : mask l a = mask l b) (hp : Part.dep ∉ l) : a.dep = b.dep := (mask_eq_iff a b).1 h .dep hp
theorem free_of_mask {l : List Part} {a b : Chip} (h : mask l a = mask l b) (hp : Part.free ∉ l) : a.free = b.free := (mask_eq_iff a b).1 h .free hp

@[simp] theorem imgTake_dev (a0 : Byte) (c : Chip) : (imgTake a0 c).dev = c.dev := rfl
@[simp] theorem imgTake_int (a0 : Byte) (c : Chip) : (imgTake a0 c).int = c.int := rfl
@[simp] theorem imgTake_nq (a0 : Byte) (c : Chip) : (imgTake a0 c).nq = c.nq := rfl
@[simp] theorem imgTake_oq (a0 : Byte) (c : Chip) : (imgTake a0 c).oq = c.oq := rfl
@[simp] theorem imgTake_notice (a0 : Byte) (c : Chip) : (imgTake a0 c).notice = c.notice := rfl
@[simp] theorem imgTake_taps (a0 : Byte) (c : Chip) : (imgTake a0 c).taps = c.taps := rfl
@[simp] theorem imgTake_host (a0 : Byte) (c : Chip) : (imgTake a0 c).host = c.host := rfl
@[simp] theorem imgTake_img (a0 : Byte) (c : Chip) : (imgTake a0 c).img = c.img := rfl
@[simp] theorem imgTake_cm (a0 : Byte) (c : Chip) : (imgTake a0 c).cm = c.cm := rfl
@[simp] theorem imgTake_jct (a0 : Byte) (c : Chip) : (imgTake a0 c).jct = c.jct := rfl
@[simp] theorem imgTake_eng (a0 : Byte) (c : Chip) : (imgTake a0 c).eng = c.eng := rfl
@[simp] theorem imgTake_isl (a0 : Byte) (c : Chip) : (imgTake a0 c).isl = c.isl := rfl
@[simp] theorem imgTake_cwy (a0 : Byte) (c : Chip) : (imgTake a0 c).cwy = c.cwy := rfl
@[simp] theorem imgTake_ctx (a0 : Byte) (c : Chip) : (imgTake a0 c).ctx = c.ctx := rfl
@[simp] theorem imgTake_line (a0 : Byte) (c : Chip) : (imgTake a0 c).line = c.line := rfl
@[simp] theorem imgTake_power (a0 : Byte) (c : Chip) : (imgTake a0 c).power = c.power := rfl
@[simp] theorem imgTake_dfx (a0 : Byte) (c : Chip) : (imgTake a0 c).dfx = c.dfx := rfl
@[simp] theorem imgTake_pm (a0 : Byte) (c : Chip) : (imgTake a0 c).pm = c.pm := rfl
@[simp] theorem imgTake_prot (a0 : Byte) (c : Chip) : (imgTake a0 c).prot = c.prot := rfl
@[simp] theorem imgTake_tim (a0 : Byte) (c : Chip) : (imgTake a0 c).tim = c.tim := rfl
@[simp] theorem imgTake_upd (a0 : Byte) (c : Chip) : (imgTake a0 c).upd = c.upd := rfl
@[simp] theorem imgTake_pair (a0 : Byte) (c : Chip) : (imgTake a0 c).pair = c.pair := rfl
@[simp] theorem imgTake_dep (a0 : Byte) (c : Chip) : (imgTake a0 c).dep = c.dep := rfl
@[simp] theorem imgTake_free (a0 : Byte) (c : Chip) : (imgTake a0 c).free = c.free := rfl
@[simp] theorem updTake_dev (a0 : Byte) (c : Chip) : (updTake a0 c).dev = c.dev := rfl
@[simp] theorem updTake_int (a0 : Byte) (c : Chip) : (updTake a0 c).int = c.int := rfl
@[simp] theorem updTake_nq (a0 : Byte) (c : Chip) : (updTake a0 c).nq = c.nq := rfl
@[simp] theorem updTake_oq (a0 : Byte) (c : Chip) : (updTake a0 c).oq = c.oq := rfl
@[simp] theorem updTake_notice (a0 : Byte) (c : Chip) : (updTake a0 c).notice = c.notice := rfl
@[simp] theorem updTake_taps (a0 : Byte) (c : Chip) : (updTake a0 c).taps = c.taps := rfl
@[simp] theorem updTake_host (a0 : Byte) (c : Chip) : (updTake a0 c).host = c.host := rfl
@[simp] theorem updTake_img (a0 : Byte) (c : Chip) : (updTake a0 c).img = c.img := rfl
@[simp] theorem updTake_cm (a0 : Byte) (c : Chip) : (updTake a0 c).cm = c.cm := rfl
@[simp] theorem updTake_jct (a0 : Byte) (c : Chip) : (updTake a0 c).jct = c.jct := rfl
@[simp] theorem updTake_eng (a0 : Byte) (c : Chip) : (updTake a0 c).eng = c.eng := rfl
@[simp] theorem updTake_isl (a0 : Byte) (c : Chip) : (updTake a0 c).isl = c.isl := rfl
@[simp] theorem updTake_cwy (a0 : Byte) (c : Chip) : (updTake a0 c).cwy = c.cwy := rfl
@[simp] theorem updTake_ctx (a0 : Byte) (c : Chip) : (updTake a0 c).ctx = c.ctx := rfl
@[simp] theorem updTake_line (a0 : Byte) (c : Chip) : (updTake a0 c).line = c.line := rfl
@[simp] theorem updTake_power (a0 : Byte) (c : Chip) : (updTake a0 c).power = c.power := rfl
@[simp] theorem updTake_dfx (a0 : Byte) (c : Chip) : (updTake a0 c).dfx = c.dfx := rfl
@[simp] theorem updTake_pm (a0 : Byte) (c : Chip) : (updTake a0 c).pm = c.pm := rfl
@[simp] theorem updTake_prot (a0 : Byte) (c : Chip) : (updTake a0 c).prot = c.prot := rfl
@[simp] theorem updTake_tim (a0 : Byte) (c : Chip) : (updTake a0 c).tim = c.tim := rfl
@[simp] theorem updTake_upd (a0 : Byte) (c : Chip) : (updTake a0 c).upd = c.upd := rfl
@[simp] theorem updTake_pair (a0 : Byte) (c : Chip) : (updTake a0 c).pair = c.pair := rfl
@[simp] theorem updTake_dep (a0 : Byte) (c : Chip) : (updTake a0 c).dep = c.dep := rfl
@[simp] theorem updTake_free (a0 : Byte) (c : Chip) : (updTake a0 c).free = c.free := rfl
@[simp] theorem updUnit_dev (a0 : Nat) (a1 : Nat) (a2 : AlignSt → AlignSt) (c : Chip) : (updUnit a0 a1 a2 c).dev = c.dev := rfl
@[simp] theorem updUnit_mb (a0 : Nat) (a1 : Nat) (a2 : AlignSt → AlignSt) (c : Chip) : (updUnit a0 a1 a2 c).mb = c.mb := rfl
@[simp] theorem updUnit_int (a0 : Nat) (a1 : Nat) (a2 : AlignSt → AlignSt) (c : Chip) : (updUnit a0 a1 a2 c).int = c.int := rfl
@[simp] theorem updUnit_nq (a0 : Nat) (a1 : Nat) (a2 : AlignSt → AlignSt) (c : Chip) : (updUnit a0 a1 a2 c).nq = c.nq := rfl
@[simp] theorem updUnit_oq (a0 : Nat) (a1 : Nat) (a2 : AlignSt → AlignSt) (c : Chip) : (updUnit a0 a1 a2 c).oq = c.oq := rfl
@[simp] theorem updUnit_notice (a0 : Nat) (a1 : Nat) (a2 : AlignSt → AlignSt) (c : Chip) : (updUnit a0 a1 a2 c).notice = c.notice := rfl
@[simp] theorem updUnit_taps (a0 : Nat) (a1 : Nat) (a2 : AlignSt → AlignSt) (c : Chip) : (updUnit a0 a1 a2 c).taps = c.taps := rfl
@[simp] theorem updUnit_host (a0 : Nat) (a1 : Nat) (a2 : AlignSt → AlignSt) (c : Chip) : (updUnit a0 a1 a2 c).host = c.host := rfl
@[simp] theorem updUnit_img (a0 : Nat) (a1 : Nat) (a2 : AlignSt → AlignSt) (c : Chip) : (updUnit a0 a1 a2 c).img = c.img := rfl
@[simp] theorem updUnit_cm (a0 : Nat) (a1 : Nat) (a2 : AlignSt → AlignSt) (c : Chip) : (updUnit a0 a1 a2 c).cm = c.cm := rfl
@[simp] theorem updUnit_jct (a0 : Nat) (a1 : Nat) (a2 : AlignSt → AlignSt) (c : Chip) : (updUnit a0 a1 a2 c).jct = c.jct := rfl
@[simp] theorem updUnit_eng (a0 : Nat) (a1 : Nat) (a2 : AlignSt → AlignSt) (c : Chip) : (updUnit a0 a1 a2 c).eng = c.eng := rfl
@[simp] theorem updUnit_isl (a0 : Nat) (a1 : Nat) (a2 : AlignSt → AlignSt) (c : Chip) : (updUnit a0 a1 a2 c).isl = c.isl := rfl
@[simp] theorem updUnit_cwy (a0 : Nat) (a1 : Nat) (a2 : AlignSt → AlignSt) (c : Chip) : (updUnit a0 a1 a2 c).cwy = c.cwy := rfl
@[simp] theorem updUnit_ctx (a0 : Nat) (a1 : Nat) (a2 : AlignSt → AlignSt) (c : Chip) : (updUnit a0 a1 a2 c).ctx = c.ctx := rfl
@[simp] theorem updUnit_power (a0 : Nat) (a1 : Nat) (a2 : AlignSt → AlignSt) (c : Chip) : (updUnit a0 a1 a2 c).power = c.power := rfl
@[simp] theorem updUnit_dfx (a0 : Nat) (a1 : Nat) (a2 : AlignSt → AlignSt) (c : Chip) : (updUnit a0 a1 a2 c).dfx = c.dfx := rfl
@[simp] theorem updUnit_pm (a0 : Nat) (a1 : Nat) (a2 : AlignSt → AlignSt) (c : Chip) : (updUnit a0 a1 a2 c).pm = c.pm := rfl
@[simp] theorem updUnit_prot (a0 : Nat) (a1 : Nat) (a2 : AlignSt → AlignSt) (c : Chip) : (updUnit a0 a1 a2 c).prot = c.prot := rfl
@[simp] theorem updUnit_tim (a0 : Nat) (a1 : Nat) (a2 : AlignSt → AlignSt) (c : Chip) : (updUnit a0 a1 a2 c).tim = c.tim := rfl
@[simp] theorem updUnit_upd (a0 : Nat) (a1 : Nat) (a2 : AlignSt → AlignSt) (c : Chip) : (updUnit a0 a1 a2 c).upd = c.upd := rfl
@[simp] theorem updUnit_pair (a0 : Nat) (a1 : Nat) (a2 : AlignSt → AlignSt) (c : Chip) : (updUnit a0 a1 a2 c).pair = c.pair := rfl
@[simp] theorem updUnit_dep (a0 : Nat) (a1 : Nat) (a2 : AlignSt → AlignSt) (c : Chip) : (updUnit a0 a1 a2 c).dep = c.dep := rfl
@[simp] theorem updUnit_free (a0 : Nat) (a1 : Nat) (a2 : AlignSt → AlignSt) (c : Chip) : (updUnit a0 a1 a2 c).free = c.free := rfl
@[simp] theorem updPortAlign_dev (a0 : Nat) (a1 : PortAlignSt → PortAlignSt) (c : Chip) : (updPortAlign a0 a1 c).dev = c.dev := rfl
@[simp] theorem updPortAlign_mb (a0 : Nat) (a1 : PortAlignSt → PortAlignSt) (c : Chip) : (updPortAlign a0 a1 c).mb = c.mb := rfl
@[simp] theorem updPortAlign_int (a0 : Nat) (a1 : PortAlignSt → PortAlignSt) (c : Chip) : (updPortAlign a0 a1 c).int = c.int := rfl
@[simp] theorem updPortAlign_nq (a0 : Nat) (a1 : PortAlignSt → PortAlignSt) (c : Chip) : (updPortAlign a0 a1 c).nq = c.nq := rfl
@[simp] theorem updPortAlign_oq (a0 : Nat) (a1 : PortAlignSt → PortAlignSt) (c : Chip) : (updPortAlign a0 a1 c).oq = c.oq := rfl
@[simp] theorem updPortAlign_notice (a0 : Nat) (a1 : PortAlignSt → PortAlignSt) (c : Chip) : (updPortAlign a0 a1 c).notice = c.notice := rfl
@[simp] theorem updPortAlign_taps (a0 : Nat) (a1 : PortAlignSt → PortAlignSt) (c : Chip) : (updPortAlign a0 a1 c).taps = c.taps := rfl
@[simp] theorem updPortAlign_host (a0 : Nat) (a1 : PortAlignSt → PortAlignSt) (c : Chip) : (updPortAlign a0 a1 c).host = c.host := rfl
@[simp] theorem updPortAlign_img (a0 : Nat) (a1 : PortAlignSt → PortAlignSt) (c : Chip) : (updPortAlign a0 a1 c).img = c.img := rfl
@[simp] theorem updPortAlign_cm (a0 : Nat) (a1 : PortAlignSt → PortAlignSt) (c : Chip) : (updPortAlign a0 a1 c).cm = c.cm := rfl
@[simp] theorem updPortAlign_jct (a0 : Nat) (a1 : PortAlignSt → PortAlignSt) (c : Chip) : (updPortAlign a0 a1 c).jct = c.jct := rfl
@[simp] theorem updPortAlign_eng (a0 : Nat) (a1 : PortAlignSt → PortAlignSt) (c : Chip) : (updPortAlign a0 a1 c).eng = c.eng := rfl
@[simp] theorem updPortAlign_isl (a0 : Nat) (a1 : PortAlignSt → PortAlignSt) (c : Chip) : (updPortAlign a0 a1 c).isl = c.isl := rfl
@[simp] theorem updPortAlign_cwy (a0 : Nat) (a1 : PortAlignSt → PortAlignSt) (c : Chip) : (updPortAlign a0 a1 c).cwy = c.cwy := rfl
@[simp] theorem updPortAlign_ctx (a0 : Nat) (a1 : PortAlignSt → PortAlignSt) (c : Chip) : (updPortAlign a0 a1 c).ctx = c.ctx := rfl
@[simp] theorem updPortAlign_power (a0 : Nat) (a1 : PortAlignSt → PortAlignSt) (c : Chip) : (updPortAlign a0 a1 c).power = c.power := rfl
@[simp] theorem updPortAlign_dfx (a0 : Nat) (a1 : PortAlignSt → PortAlignSt) (c : Chip) : (updPortAlign a0 a1 c).dfx = c.dfx := rfl
@[simp] theorem updPortAlign_pm (a0 : Nat) (a1 : PortAlignSt → PortAlignSt) (c : Chip) : (updPortAlign a0 a1 c).pm = c.pm := rfl
@[simp] theorem updPortAlign_prot (a0 : Nat) (a1 : PortAlignSt → PortAlignSt) (c : Chip) : (updPortAlign a0 a1 c).prot = c.prot := rfl
@[simp] theorem updPortAlign_tim (a0 : Nat) (a1 : PortAlignSt → PortAlignSt) (c : Chip) : (updPortAlign a0 a1 c).tim = c.tim := rfl
@[simp] theorem updPortAlign_upd (a0 : Nat) (a1 : PortAlignSt → PortAlignSt) (c : Chip) : (updPortAlign a0 a1 c).upd = c.upd := rfl
@[simp] theorem updPortAlign_pair (a0 : Nat) (a1 : PortAlignSt → PortAlignSt) (c : Chip) : (updPortAlign a0 a1 c).pair = c.pair := rfl
@[simp] theorem updPortAlign_dep (a0 : Nat) (a1 : PortAlignSt → PortAlignSt) (c : Chip) : (updPortAlign a0 a1 c).dep = c.dep := rfl
@[simp] theorem updPortAlign_free (a0 : Nat) (a1 : PortAlignSt → PortAlignSt) (c : Chip) : (updPortAlign a0 a1 c).free = c.free := rfl
@[simp] theorem updOh_dev (a0 : Nat) (a1 : OhPortSt → OhPortSt) (c : Chip) : (updOh a0 a1 c).dev = c.dev := rfl
@[simp] theorem updOh_mb (a0 : Nat) (a1 : OhPortSt → OhPortSt) (c : Chip) : (updOh a0 a1 c).mb = c.mb := rfl
@[simp] theorem updOh_int (a0 : Nat) (a1 : OhPortSt → OhPortSt) (c : Chip) : (updOh a0 a1 c).int = c.int := rfl
@[simp] theorem updOh_nq (a0 : Nat) (a1 : OhPortSt → OhPortSt) (c : Chip) : (updOh a0 a1 c).nq = c.nq := rfl
@[simp] theorem updOh_oq (a0 : Nat) (a1 : OhPortSt → OhPortSt) (c : Chip) : (updOh a0 a1 c).oq = c.oq := rfl
@[simp] theorem updOh_notice (a0 : Nat) (a1 : OhPortSt → OhPortSt) (c : Chip) : (updOh a0 a1 c).notice = c.notice := rfl
@[simp] theorem updOh_taps (a0 : Nat) (a1 : OhPortSt → OhPortSt) (c : Chip) : (updOh a0 a1 c).taps = c.taps := rfl
@[simp] theorem updOh_host (a0 : Nat) (a1 : OhPortSt → OhPortSt) (c : Chip) : (updOh a0 a1 c).host = c.host := rfl
@[simp] theorem updOh_img (a0 : Nat) (a1 : OhPortSt → OhPortSt) (c : Chip) : (updOh a0 a1 c).img = c.img := rfl
@[simp] theorem updOh_cm (a0 : Nat) (a1 : OhPortSt → OhPortSt) (c : Chip) : (updOh a0 a1 c).cm = c.cm := rfl
@[simp] theorem updOh_jct (a0 : Nat) (a1 : OhPortSt → OhPortSt) (c : Chip) : (updOh a0 a1 c).jct = c.jct := rfl
@[simp] theorem updOh_eng (a0 : Nat) (a1 : OhPortSt → OhPortSt) (c : Chip) : (updOh a0 a1 c).eng = c.eng := rfl
@[simp] theorem updOh_isl (a0 : Nat) (a1 : OhPortSt → OhPortSt) (c : Chip) : (updOh a0 a1 c).isl = c.isl := rfl
@[simp] theorem updOh_cwy (a0 : Nat) (a1 : OhPortSt → OhPortSt) (c : Chip) : (updOh a0 a1 c).cwy = c.cwy := rfl
@[simp] theorem updOh_ctx (a0 : Nat) (a1 : OhPortSt → OhPortSt) (c : Chip) : (updOh a0 a1 c).ctx = c.ctx := rfl
@[simp] theorem updOh_power (a0 : Nat) (a1 : OhPortSt → OhPortSt) (c : Chip) : (updOh a0 a1 c).power = c.power := rfl
@[simp] theorem updOh_dfx (a0 : Nat) (a1 : OhPortSt → OhPortSt) (c : Chip) : (updOh a0 a1 c).dfx = c.dfx := rfl
@[simp] theorem updOh_pm (a0 : Nat) (a1 : OhPortSt → OhPortSt) (c : Chip) : (updOh a0 a1 c).pm = c.pm := rfl
@[simp] theorem updOh_prot (a0 : Nat) (a1 : OhPortSt → OhPortSt) (c : Chip) : (updOh a0 a1 c).prot = c.prot := rfl
@[simp] theorem updOh_tim (a0 : Nat) (a1 : OhPortSt → OhPortSt) (c : Chip) : (updOh a0 a1 c).tim = c.tim := rfl
@[simp] theorem updOh_upd (a0 : Nat) (a1 : OhPortSt → OhPortSt) (c : Chip) : (updOh a0 a1 c).upd = c.upd := rfl
@[simp] theorem updOh_pair (a0 : Nat) (a1 : OhPortSt → OhPortSt) (c : Chip) : (updOh a0 a1 c).pair = c.pair := rfl
@[simp] theorem updOh_dep (a0 : Nat) (a1 : OhPortSt → OhPortSt) (c : Chip) : (updOh a0 a1 c).dep = c.dep := rfl
@[simp] theorem updOh_free (a0 : Nat) (a1 : OhPortSt → OhPortSt) (c : Chip) : (updOh a0 a1 c).free = c.free := rfl
@[simp] theorem setCm_dev (a0 : CommitSt) (c : Chip) : (setCm a0 c).dev = c.dev := rfl
@[simp] theorem setCm_mb (a0 : CommitSt) (c : Chip) : (setCm a0 c).mb = c.mb := rfl
@[simp] theorem setCm_int (a0 : CommitSt) (c : Chip) : (setCm a0 c).int = c.int := rfl
@[simp] theorem setCm_nq (a0 : CommitSt) (c : Chip) : (setCm a0 c).nq = c.nq := rfl
@[simp] theorem setCm_oq (a0 : CommitSt) (c : Chip) : (setCm a0 c).oq = c.oq := rfl
@[simp] theorem setCm_notice (a0 : CommitSt) (c : Chip) : (setCm a0 c).notice = c.notice := rfl
@[simp] theorem setCm_taps (a0 : CommitSt) (c : Chip) : (setCm a0 c).taps = c.taps := rfl
@[simp] theorem setCm_host (a0 : CommitSt) (c : Chip) : (setCm a0 c).host = c.host := rfl
@[simp] theorem setCm_img (a0 : CommitSt) (c : Chip) : (setCm a0 c).img = c.img := rfl
@[simp] theorem setCm_jct (a0 : CommitSt) (c : Chip) : (setCm a0 c).jct = c.jct := rfl
@[simp] theorem setCm_eng (a0 : CommitSt) (c : Chip) : (setCm a0 c).eng = c.eng := rfl
@[simp] theorem setCm_isl (a0 : CommitSt) (c : Chip) : (setCm a0 c).isl = c.isl := rfl
@[simp] theorem setCm_cwy (a0 : CommitSt) (c : Chip) : (setCm a0 c).cwy = c.cwy := rfl
@[simp] theorem setCm_ctx (a0 : CommitSt) (c : Chip) : (setCm a0 c).ctx = c.ctx := rfl
@[simp] theorem setCm_line (a0 : CommitSt) (c : Chip) : (setCm a0 c).line = c.line := rfl
@[simp] theorem setCm_power (a0 : CommitSt) (c : Chip) : (setCm a0 c).power = c.power := rfl
@[simp] theorem setCm_dfx (a0 : CommitSt) (c : Chip) : (setCm a0 c).dfx = c.dfx := rfl
@[simp] theorem setCm_pm (a0 : CommitSt) (c : Chip) : (setCm a0 c).pm = c.pm := rfl
@[simp] theorem setCm_prot (a0 : CommitSt) (c : Chip) : (setCm a0 c).prot = c.prot := rfl
@[simp] theorem setCm_tim (a0 : CommitSt) (c : Chip) : (setCm a0 c).tim = c.tim := rfl
@[simp] theorem setCm_upd (a0 : CommitSt) (c : Chip) : (setCm a0 c).upd = c.upd := rfl
@[simp] theorem setCm_pair (a0 : CommitSt) (c : Chip) : (setCm a0 c).pair = c.pair := rfl
@[simp] theorem setCm_dep (a0 : CommitSt) (c : Chip) : (setCm a0 c).dep = c.dep := rfl
@[simp] theorem setCm_free (a0 : CommitSt) (c : Chip) : (setCm a0 c).free = c.free := rfl
@[simp] theorem setRoots_dev (a0 : List Root) (c : Chip) : (setRoots a0 c).dev = c.dev := rfl
@[simp] theorem setRoots_mb (a0 : List Root) (c : Chip) : (setRoots a0 c).mb = c.mb := rfl
@[simp] theorem setRoots_int (a0 : List Root) (c : Chip) : (setRoots a0 c).int = c.int := rfl
@[simp] theorem setRoots_nq (a0 : List Root) (c : Chip) : (setRoots a0 c).nq = c.nq := rfl
@[simp] theorem setRoots_oq (a0 : List Root) (c : Chip) : (setRoots a0 c).oq = c.oq := rfl
@[simp] theorem setRoots_notice (a0 : List Root) (c : Chip) : (setRoots a0 c).notice = c.notice := rfl
@[simp] theorem setRoots_taps (a0 : List Root) (c : Chip) : (setRoots a0 c).taps = c.taps := rfl
@[simp] theorem setRoots_host (a0 : List Root) (c : Chip) : (setRoots a0 c).host = c.host := rfl
@[simp] theorem setRoots_img (a0 : List Root) (c : Chip) : (setRoots a0 c).img = c.img := rfl
@[simp] theorem setRoots_cm (a0 : List Root) (c : Chip) : (setRoots a0 c).cm = c.cm := rfl
@[simp] theorem setRoots_jct (a0 : List Root) (c : Chip) : (setRoots a0 c).jct = c.jct := rfl
@[simp] theorem setRoots_eng (a0 : List Root) (c : Chip) : (setRoots a0 c).eng = c.eng := rfl
@[simp] theorem setRoots_isl (a0 : List Root) (c : Chip) : (setRoots a0 c).isl = c.isl := rfl
@[simp] theorem setRoots_cwy (a0 : List Root) (c : Chip) : (setRoots a0 c).cwy = c.cwy := rfl
@[simp] theorem setRoots_ctx (a0 : List Root) (c : Chip) : (setRoots a0 c).ctx = c.ctx := rfl
@[simp] theorem setRoots_line (a0 : List Root) (c : Chip) : (setRoots a0 c).line = c.line := rfl
@[simp] theorem setRoots_power (a0 : List Root) (c : Chip) : (setRoots a0 c).power = c.power := rfl
@[simp] theorem setRoots_pm (a0 : List Root) (c : Chip) : (setRoots a0 c).pm = c.pm := rfl
@[simp] theorem setRoots_prot (a0 : List Root) (c : Chip) : (setRoots a0 c).prot = c.prot := rfl
@[simp] theorem setRoots_tim (a0 : List Root) (c : Chip) : (setRoots a0 c).tim = c.tim := rfl
@[simp] theorem setRoots_upd (a0 : List Root) (c : Chip) : (setRoots a0 c).upd = c.upd := rfl
@[simp] theorem setRoots_pair (a0 : List Root) (c : Chip) : (setRoots a0 c).pair = c.pair := rfl
@[simp] theorem setRoots_dep (a0 : List Root) (c : Chip) : (setRoots a0 c).dep = c.dep := rfl
@[simp] theorem setRoots_free (a0 : List Root) (c : Chip) : (setRoots a0 c).free = c.free := rfl
@[simp] theorem setFails_dev (a0 : FMap FailSt) (c : Chip) : (setFails a0 c).dev = c.dev := rfl
@[simp] theorem setFails_mb (a0 : FMap FailSt) (c : Chip) : (setFails a0 c).mb = c.mb := rfl
@[simp] theorem setFails_int (a0 : FMap FailSt) (c : Chip) : (setFails a0 c).int = c.int := rfl
@[simp] theorem setFails_nq (a0 : FMap FailSt) (c : Chip) : (setFails a0 c).nq = c.nq := rfl
@[simp] theorem setFails_oq (a0 : FMap FailSt) (c : Chip) : (setFails a0 c).oq = c.oq := rfl
@[simp] theorem setFails_notice (a0 : FMap FailSt) (c : Chip) : (setFails a0 c).notice = c.notice := rfl
@[simp] theorem setFails_taps (a0 : FMap FailSt) (c : Chip) : (setFails a0 c).taps = c.taps := rfl
@[simp] theorem setFails_host (a0 : FMap FailSt) (c : Chip) : (setFails a0 c).host = c.host := rfl
@[simp] theorem setFails_img (a0 : FMap FailSt) (c : Chip) : (setFails a0 c).img = c.img := rfl
@[simp] theorem setFails_cm (a0 : FMap FailSt) (c : Chip) : (setFails a0 c).cm = c.cm := rfl
@[simp] theorem setFails_jct (a0 : FMap FailSt) (c : Chip) : (setFails a0 c).jct = c.jct := rfl
@[simp] theorem setFails_eng (a0 : FMap FailSt) (c : Chip) : (setFails a0 c).eng = c.eng := rfl
@[simp] theorem setFails_isl (a0 : FMap FailSt) (c : Chip) : (setFails a0 c).isl = c.isl := rfl
@[simp] theorem setFails_cwy (a0 : FMap FailSt) (c : Chip) : (setFails a0 c).cwy = c.cwy := rfl
@[simp] theorem setFails_ctx (a0 : FMap FailSt) (c : Chip) : (setFails a0 c).ctx = c.ctx := rfl
@[simp] theorem setFails_line (a0 : FMap FailSt) (c : Chip) : (setFails a0 c).line = c.line := rfl
@[simp] theorem setFails_power (a0 : FMap FailSt) (c : Chip) : (setFails a0 c).power = c.power := rfl
@[simp] theorem setFails_pm (a0 : FMap FailSt) (c : Chip) : (setFails a0 c).pm = c.pm := rfl
@[simp] theorem setFails_prot (a0 : FMap FailSt) (c : Chip) : (setFails a0 c).prot = c.prot := rfl
@[simp] theorem setFails_tim (a0 : FMap FailSt) (c : Chip) : (setFails a0 c).tim = c.tim := rfl
@[simp] theorem setFails_upd (a0 : FMap FailSt) (c : Chip) : (setFails a0 c).upd = c.upd := rfl
@[simp] theorem setFails_pair (a0 : FMap FailSt) (c : Chip) : (setFails a0 c).pair = c.pair := rfl
@[simp] theorem setFails_dep (a0 : FMap FailSt) (c : Chip) : (setFails a0 c).dep = c.dep := rfl
@[simp] theorem setFails_free (a0 : FMap FailSt) (c : Chip) : (setFails a0 c).free = c.free := rfl
@[simp] theorem setWins_dev (a0 : List CorrWin) (c : Chip) : (setWins a0 c).dev = c.dev := rfl
@[simp] theorem setWins_mb (a0 : List CorrWin) (c : Chip) : (setWins a0 c).mb = c.mb := rfl
@[simp] theorem setWins_int (a0 : List CorrWin) (c : Chip) : (setWins a0 c).int = c.int := rfl
@[simp] theorem setWins_nq (a0 : List CorrWin) (c : Chip) : (setWins a0 c).nq = c.nq := rfl
@[simp] theorem setWins_oq (a0 : List CorrWin) (c : Chip) : (setWins a0 c).oq = c.oq := rfl
@[simp] theorem setWins_notice (a0 : List CorrWin) (c : Chip) : (setWins a0 c).notice = c.notice := rfl
@[simp] theorem setWins_taps (a0 : List CorrWin) (c : Chip) : (setWins a0 c).taps = c.taps := rfl
@[simp] theorem setWins_host (a0 : List CorrWin) (c : Chip) : (setWins a0 c).host = c.host := rfl
@[simp] theorem setWins_img (a0 : List CorrWin) (c : Chip) : (setWins a0 c).img = c.img := rfl
@[simp] theorem setWins_cm (a0 : List CorrWin) (c : Chip) : (setWins a0 c).cm = c.cm := rfl
@[simp] theorem setWins_jct (a0 : List CorrWin) (c : Chip) : (setWins a0 c).jct = c.jct := rfl
@[simp] theorem setWins_eng (a0 : List CorrWin) (c : Chip) : (setWins a0 c).eng = c.eng := rfl
@[simp] theorem setWins_isl (a0 : List CorrWin) (c : Chip) : (setWins a0 c).isl = c.isl := rfl
@[simp] theorem setWins_cwy (a0 : List CorrWin) (c : Chip) : (setWins a0 c).cwy = c.cwy := rfl
@[simp] theorem setWins_ctx (a0 : List CorrWin) (c : Chip) : (setWins a0 c).ctx = c.ctx := rfl
@[simp] theorem setWins_line (a0 : List CorrWin) (c : Chip) : (setWins a0 c).line = c.line := rfl
@[simp] theorem setWins_power (a0 : List CorrWin) (c : Chip) : (setWins a0 c).power = c.power := rfl
@[simp] theorem setWins_pm (a0 : List CorrWin) (c : Chip) : (setWins a0 c).pm = c.pm := rfl
@[simp] theorem setWins_prot (a0 : List CorrWin) (c : Chip) : (setWins a0 c).prot = c.prot := rfl
@[simp] theorem setWins_tim (a0 : List CorrWin) (c : Chip) : (setWins a0 c).tim = c.tim := rfl
@[simp] theorem setWins_upd (a0 : List CorrWin) (c : Chip) : (setWins a0 c).upd = c.upd := rfl
@[simp] theorem setWins_pair (a0 : List CorrWin) (c : Chip) : (setWins a0 c).pair = c.pair := rfl
@[simp] theorem setWins_dep (a0 : List CorrWin) (c : Chip) : (setWins a0 c).dep = c.dep := rfl
@[simp] theorem setWins_free (a0 : List CorrWin) (c : Chip) : (setWins a0 c).free = c.free := rfl
@[simp] theorem setDep_dev (a0 : DepSt) (c : Chip) : (setDep a0 c).dev = c.dev := rfl
@[simp] theorem setDep_mb (a0 : DepSt) (c : Chip) : (setDep a0 c).mb = c.mb := rfl
@[simp] theorem setDep_int (a0 : DepSt) (c : Chip) : (setDep a0 c).int = c.int := rfl
@[simp] theorem setDep_nq (a0 : DepSt) (c : Chip) : (setDep a0 c).nq = c.nq := rfl
@[simp] theorem setDep_oq (a0 : DepSt) (c : Chip) : (setDep a0 c).oq = c.oq := rfl
@[simp] theorem setDep_notice (a0 : DepSt) (c : Chip) : (setDep a0 c).notice = c.notice := rfl
@[simp] theorem setDep_taps (a0 : DepSt) (c : Chip) : (setDep a0 c).taps = c.taps := rfl
@[simp] theorem setDep_host (a0 : DepSt) (c : Chip) : (setDep a0 c).host = c.host := rfl
@[simp] theorem setDep_img (a0 : DepSt) (c : Chip) : (setDep a0 c).img = c.img := rfl
@[simp] theorem setDep_cm (a0 : DepSt) (c : Chip) : (setDep a0 c).cm = c.cm := rfl
@[simp] theorem setDep_jct (a0 : DepSt) (c : Chip) : (setDep a0 c).jct = c.jct := rfl
@[simp] theorem setDep_eng (a0 : DepSt) (c : Chip) : (setDep a0 c).eng = c.eng := rfl
@[simp] theorem setDep_isl (a0 : DepSt) (c : Chip) : (setDep a0 c).isl = c.isl := rfl
@[simp] theorem setDep_cwy (a0 : DepSt) (c : Chip) : (setDep a0 c).cwy = c.cwy := rfl
@[simp] theorem setDep_ctx (a0 : DepSt) (c : Chip) : (setDep a0 c).ctx = c.ctx := rfl
@[simp] theorem setDep_line (a0 : DepSt) (c : Chip) : (setDep a0 c).line = c.line := rfl
@[simp] theorem setDep_power (a0 : DepSt) (c : Chip) : (setDep a0 c).power = c.power := rfl
@[simp] theorem setDep_dfx (a0 : DepSt) (c : Chip) : (setDep a0 c).dfx = c.dfx := rfl
@[simp] theorem setDep_pm (a0 : DepSt) (c : Chip) : (setDep a0 c).pm = c.pm := rfl
@[simp] theorem setDep_prot (a0 : DepSt) (c : Chip) : (setDep a0 c).prot = c.prot := rfl
@[simp] theorem setDep_tim (a0 : DepSt) (c : Chip) : (setDep a0 c).tim = c.tim := rfl
@[simp] theorem setDep_upd (a0 : DepSt) (c : Chip) : (setDep a0 c).upd = c.upd := rfl
@[simp] theorem setDep_pair (a0 : DepSt) (c : Chip) : (setDep a0 c).pair = c.pair := rfl
@[simp] theorem setDep_free (a0 : DepSt) (c : Chip) : (setDep a0 c).free = c.free := rfl
@[simp] theorem setCounters_dev (a0 : CountSt) (c : Chip) : (setCounters a0 c).dev = c.dev := rfl
@[simp] theorem setCounters_mb (a0 : CountSt) (c : Chip) : (setCounters a0 c).mb = c.mb := rfl
@[simp] theorem setCounters_int (a0 : CountSt) (c : Chip) : (setCounters a0 c).int = c.int := rfl
@[simp] theorem setCounters_nq (a0 : CountSt) (c : Chip) : (setCounters a0 c).nq = c.nq := rfl
@[simp] theorem setCounters_oq (a0 : CountSt) (c : Chip) : (setCounters a0 c).oq = c.oq := rfl
@[simp] theorem setCounters_notice (a0 : CountSt) (c : Chip) : (setCounters a0 c).notice = c.notice := rfl
@[simp] theorem setCounters_taps (a0 : CountSt) (c : Chip) : (setCounters a0 c).taps = c.taps := rfl
@[simp] theorem setCounters_host (a0 : CountSt) (c : Chip) : (setCounters a0 c).host = c.host := rfl
@[simp] theorem setCounters_img (a0 : CountSt) (c : Chip) : (setCounters a0 c).img = c.img := rfl
@[simp] theorem setCounters_cm (a0 : CountSt) (c : Chip) : (setCounters a0 c).cm = c.cm := rfl
@[simp] theorem setCounters_jct (a0 : CountSt) (c : Chip) : (setCounters a0 c).jct = c.jct := rfl
@[simp] theorem setCounters_eng (a0 : CountSt) (c : Chip) : (setCounters a0 c).eng = c.eng := rfl
@[simp] theorem setCounters_isl (a0 : CountSt) (c : Chip) : (setCounters a0 c).isl = c.isl := rfl
@[simp] theorem setCounters_cwy (a0 : CountSt) (c : Chip) : (setCounters a0 c).cwy = c.cwy := rfl
@[simp] theorem setCounters_ctx (a0 : CountSt) (c : Chip) : (setCounters a0 c).ctx = c.ctx := rfl
@[simp] theorem setCounters_line (a0 : CountSt) (c : Chip) : (setCounters a0 c).line = c.line := rfl
@[simp] theorem setCounters_power (a0 : CountSt) (c : Chip) : (setCounters a0 c).power = c.power := rfl
@[simp] theorem setCounters_dfx (a0 : CountSt) (c : Chip) : (setCounters a0 c).dfx = c.dfx := rfl
@[simp] theorem setCounters_pm (a0 : CountSt) (c : Chip) : (setCounters a0 c).pm = c.pm := rfl
@[simp] theorem setCounters_prot (a0 : CountSt) (c : Chip) : (setCounters a0 c).prot = c.prot := rfl
@[simp] theorem setCounters_tim (a0 : CountSt) (c : Chip) : (setCounters a0 c).tim = c.tim := rfl
@[simp] theorem setCounters_upd (a0 : CountSt) (c : Chip) : (setCounters a0 c).upd = c.upd := rfl
@[simp] theorem setCounters_pair (a0 : CountSt) (c : Chip) : (setCounters a0 c).pair = c.pair := rfl
@[simp] theorem setCounters_free (a0 : CountSt) (c : Chip) : (setCounters a0 c).free = c.free := rfl
@[simp] theorem updDepot_dev (a0 : Nat) (a1 : DepotSt → DepotSt) (c : Chip) : (updDepot a0 a1 c).dev = c.dev := rfl
@[simp] theorem updDepot_mb (a0 : Nat) (a1 : DepotSt → DepotSt) (c : Chip) : (updDepot a0 a1 c).mb = c.mb := rfl
@[simp] theorem updDepot_int (a0 : Nat) (a1 : DepotSt → DepotSt) (c : Chip) : (updDepot a0 a1 c).int = c.int := rfl
@[simp] theorem updDepot_nq (a0 : Nat) (a1 : DepotSt → DepotSt) (c : Chip) : (updDepot a0 a1 c).nq = c.nq := rfl
@[simp] theorem updDepot_oq (a0 : Nat) (a1 : DepotSt → DepotSt) (c : Chip) : (updDepot a0 a1 c).oq = c.oq := rfl
@[simp] theorem updDepot_notice (a0 : Nat) (a1 : DepotSt → DepotSt) (c : Chip) : (updDepot a0 a1 c).notice = c.notice := rfl
@[simp] theorem updDepot_taps (a0 : Nat) (a1 : DepotSt → DepotSt) (c : Chip) : (updDepot a0 a1 c).taps = c.taps := rfl
@[simp] theorem updDepot_host (a0 : Nat) (a1 : DepotSt → DepotSt) (c : Chip) : (updDepot a0 a1 c).host = c.host := rfl
@[simp] theorem updDepot_img (a0 : Nat) (a1 : DepotSt → DepotSt) (c : Chip) : (updDepot a0 a1 c).img = c.img := rfl
@[simp] theorem updDepot_cm (a0 : Nat) (a1 : DepotSt → DepotSt) (c : Chip) : (updDepot a0 a1 c).cm = c.cm := rfl
@[simp] theorem updDepot_jct (a0 : Nat) (a1 : DepotSt → DepotSt) (c : Chip) : (updDepot a0 a1 c).jct = c.jct := rfl
@[simp] theorem updDepot_eng (a0 : Nat) (a1 : DepotSt → DepotSt) (c : Chip) : (updDepot a0 a1 c).eng = c.eng := rfl
@[simp] theorem updDepot_isl (a0 : Nat) (a1 : DepotSt → DepotSt) (c : Chip) : (updDepot a0 a1 c).isl = c.isl := rfl
@[simp] theorem updDepot_cwy (a0 : Nat) (a1 : DepotSt → DepotSt) (c : Chip) : (updDepot a0 a1 c).cwy = c.cwy := rfl
@[simp] theorem updDepot_ctx (a0 : Nat) (a1 : DepotSt → DepotSt) (c : Chip) : (updDepot a0 a1 c).ctx = c.ctx := rfl
@[simp] theorem updDepot_line (a0 : Nat) (a1 : DepotSt → DepotSt) (c : Chip) : (updDepot a0 a1 c).line = c.line := rfl
@[simp] theorem updDepot_power (a0 : Nat) (a1 : DepotSt → DepotSt) (c : Chip) : (updDepot a0 a1 c).power = c.power := rfl
@[simp] theorem updDepot_dfx (a0 : Nat) (a1 : DepotSt → DepotSt) (c : Chip) : (updDepot a0 a1 c).dfx = c.dfx := rfl
@[simp] theorem updDepot_pm (a0 : Nat) (a1 : DepotSt → DepotSt) (c : Chip) : (updDepot a0 a1 c).pm = c.pm := rfl
@[simp] theorem updDepot_prot (a0 : Nat) (a1 : DepotSt → DepotSt) (c : Chip) : (updDepot a0 a1 c).prot = c.prot := rfl
@[simp] theorem updDepot_tim (a0 : Nat) (a1 : DepotSt → DepotSt) (c : Chip) : (updDepot a0 a1 c).tim = c.tim := rfl
@[simp] theorem updDepot_upd (a0 : Nat) (a1 : DepotSt → DepotSt) (c : Chip) : (updDepot a0 a1 c).upd = c.upd := rfl
@[simp] theorem updDepot_pair (a0 : Nat) (a1 : DepotSt → DepotSt) (c : Chip) : (updDepot a0 a1 c).pair = c.pair := rfl
@[simp] theorem updDepot_free (a0 : Nat) (a1 : DepotSt → DepotSt) (c : Chip) : (updDepot a0 a1 c).free = c.free := rfl
@[simp] theorem updScan_dev (a0 : Nat) (a1 : ScanSt → ScanSt) (c : Chip) : (updScan a0 a1 c).dev = c.dev := rfl
@[simp] theorem updScan_mb (a0 : Nat) (a1 : ScanSt → ScanSt) (c : Chip) : (updScan a0 a1 c).mb = c.mb := rfl
@[simp] theorem updScan_int (a0 : Nat) (a1 : ScanSt → ScanSt) (c : Chip) : (updScan a0 a1 c).int = c.int := rfl
@[simp] theorem updScan_nq (a0 : Nat) (a1 : ScanSt → ScanSt) (c : Chip) : (updScan a0 a1 c).nq = c.nq := rfl
@[simp] theorem updScan_oq (a0 : Nat) (a1 : ScanSt → ScanSt) (c : Chip) : (updScan a0 a1 c).oq = c.oq := rfl
@[simp] theorem updScan_notice (a0 : Nat) (a1 : ScanSt → ScanSt) (c : Chip) : (updScan a0 a1 c).notice = c.notice := rfl
@[simp] theorem updScan_taps (a0 : Nat) (a1 : ScanSt → ScanSt) (c : Chip) : (updScan a0 a1 c).taps = c.taps := rfl
@[simp] theorem updScan_host (a0 : Nat) (a1 : ScanSt → ScanSt) (c : Chip) : (updScan a0 a1 c).host = c.host := rfl
@[simp] theorem updScan_img (a0 : Nat) (a1 : ScanSt → ScanSt) (c : Chip) : (updScan a0 a1 c).img = c.img := rfl
@[simp] theorem updScan_cm (a0 : Nat) (a1 : ScanSt → ScanSt) (c : Chip) : (updScan a0 a1 c).cm = c.cm := rfl
@[simp] theorem updScan_jct (a0 : Nat) (a1 : ScanSt → ScanSt) (c : Chip) : (updScan a0 a1 c).jct = c.jct := rfl
@[simp] theorem updScan_eng (a0 : Nat) (a1 : ScanSt → ScanSt) (c : Chip) : (updScan a0 a1 c).eng = c.eng := rfl
@[simp] theorem updScan_isl (a0 : Nat) (a1 : ScanSt → ScanSt) (c : Chip) : (updScan a0 a1 c).isl = c.isl := rfl
@[simp] theorem updScan_cwy (a0 : Nat) (a1 : ScanSt → ScanSt) (c : Chip) : (updScan a0 a1 c).cwy = c.cwy := rfl
@[simp] theorem updScan_ctx (a0 : Nat) (a1 : ScanSt → ScanSt) (c : Chip) : (updScan a0 a1 c).ctx = c.ctx := rfl
@[simp] theorem updScan_line (a0 : Nat) (a1 : ScanSt → ScanSt) (c : Chip) : (updScan a0 a1 c).line = c.line := rfl
@[simp] theorem updScan_power (a0 : Nat) (a1 : ScanSt → ScanSt) (c : Chip) : (updScan a0 a1 c).power = c.power := rfl
@[simp] theorem updScan_dfx (a0 : Nat) (a1 : ScanSt → ScanSt) (c : Chip) : (updScan a0 a1 c).dfx = c.dfx := rfl
@[simp] theorem updScan_pm (a0 : Nat) (a1 : ScanSt → ScanSt) (c : Chip) : (updScan a0 a1 c).pm = c.pm := rfl
@[simp] theorem updScan_prot (a0 : Nat) (a1 : ScanSt → ScanSt) (c : Chip) : (updScan a0 a1 c).prot = c.prot := rfl
@[simp] theorem updScan_tim (a0 : Nat) (a1 : ScanSt → ScanSt) (c : Chip) : (updScan a0 a1 c).tim = c.tim := rfl
@[simp] theorem updScan_upd (a0 : Nat) (a1 : ScanSt → ScanSt) (c : Chip) : (updScan a0 a1 c).upd = c.upd := rfl
@[simp] theorem updScan_pair (a0 : Nat) (a1 : ScanSt → ScanSt) (c : Chip) : (updScan a0 a1 c).pair = c.pair := rfl
@[simp] theorem updScan_free (a0 : Nat) (a1 : ScanSt → ScanSt) (c : Chip) : (updScan a0 a1 c).free = c.free := rfl
@[simp] theorem updEng_dev (a0 : Nat) (a1 : EngSt → EngSt) (c : Chip) : (updEng a0 a1 c).dev = c.dev := rfl
@[simp] theorem updEng_mb (a0 : Nat) (a1 : EngSt → EngSt) (c : Chip) : (updEng a0 a1 c).mb = c.mb := rfl
@[simp] theorem updEng_int (a0 : Nat) (a1 : EngSt → EngSt) (c : Chip) : (updEng a0 a1 c).int = c.int := rfl
@[simp] theorem updEng_nq (a0 : Nat) (a1 : EngSt → EngSt) (c : Chip) : (updEng a0 a1 c).nq = c.nq := rfl
@[simp] theorem updEng_oq (a0 : Nat) (a1 : EngSt → EngSt) (c : Chip) : (updEng a0 a1 c).oq = c.oq := rfl
@[simp] theorem updEng_notice (a0 : Nat) (a1 : EngSt → EngSt) (c : Chip) : (updEng a0 a1 c).notice = c.notice := rfl
@[simp] theorem updEng_taps (a0 : Nat) (a1 : EngSt → EngSt) (c : Chip) : (updEng a0 a1 c).taps = c.taps := rfl
@[simp] theorem updEng_host (a0 : Nat) (a1 : EngSt → EngSt) (c : Chip) : (updEng a0 a1 c).host = c.host := rfl
@[simp] theorem updEng_img (a0 : Nat) (a1 : EngSt → EngSt) (c : Chip) : (updEng a0 a1 c).img = c.img := rfl
@[simp] theorem updEng_cm (a0 : Nat) (a1 : EngSt → EngSt) (c : Chip) : (updEng a0 a1 c).cm = c.cm := rfl
@[simp] theorem updEng_jct (a0 : Nat) (a1 : EngSt → EngSt) (c : Chip) : (updEng a0 a1 c).jct = c.jct := rfl
@[simp] theorem updEng_isl (a0 : Nat) (a1 : EngSt → EngSt) (c : Chip) : (updEng a0 a1 c).isl = c.isl := rfl
@[simp] theorem updEng_cwy (a0 : Nat) (a1 : EngSt → EngSt) (c : Chip) : (updEng a0 a1 c).cwy = c.cwy := rfl
@[simp] theorem updEng_ctx (a0 : Nat) (a1 : EngSt → EngSt) (c : Chip) : (updEng a0 a1 c).ctx = c.ctx := rfl
@[simp] theorem updEng_line (a0 : Nat) (a1 : EngSt → EngSt) (c : Chip) : (updEng a0 a1 c).line = c.line := rfl
@[simp] theorem updEng_power (a0 : Nat) (a1 : EngSt → EngSt) (c : Chip) : (updEng a0 a1 c).power = c.power := rfl
@[simp] theorem updEng_dfx (a0 : Nat) (a1 : EngSt → EngSt) (c : Chip) : (updEng a0 a1 c).dfx = c.dfx := rfl
@[simp] theorem updEng_pm (a0 : Nat) (a1 : EngSt → EngSt) (c : Chip) : (updEng a0 a1 c).pm = c.pm := rfl
@[simp] theorem updEng_prot (a0 : Nat) (a1 : EngSt → EngSt) (c : Chip) : (updEng a0 a1 c).prot = c.prot := rfl
@[simp] theorem updEng_tim (a0 : Nat) (a1 : EngSt → EngSt) (c : Chip) : (updEng a0 a1 c).tim = c.tim := rfl
@[simp] theorem updEng_upd (a0 : Nat) (a1 : EngSt → EngSt) (c : Chip) : (updEng a0 a1 c).upd = c.upd := rfl
@[simp] theorem updEng_pair (a0 : Nat) (a1 : EngSt → EngSt) (c : Chip) : (updEng a0 a1 c).pair = c.pair := rfl
@[simp] theorem updEng_dep (a0 : Nat) (a1 : EngSt → EngSt) (c : Chip) : (updEng a0 a1 c).dep = c.dep := rfl
@[simp] theorem updEng_free (a0 : Nat) (a1 : EngSt → EngSt) (c : Chip) : (updEng a0 a1 c).free = c.free := rfl
@[simp] theorem updIsl_dev (a0 : Nat) (a1 : IslSt → IslSt) (c : Chip) : (updIsl a0 a1 c).dev = c.dev := rfl
@[simp] theorem updIsl_mb (a0 : Nat) (a1 : IslSt → IslSt) (c : Chip) : (updIsl a0 a1 c).mb = c.mb := rfl
@[simp] theorem updIsl_int (a0 : Nat) (a1 : IslSt → IslSt) (c : Chip) : (updIsl a0 a1 c).int = c.int := rfl
@[simp] theorem updIsl_nq (a0 : Nat) (a1 : IslSt → IslSt) (c : Chip) : (updIsl a0 a1 c).nq = c.nq := rfl
@[simp] theorem updIsl_oq (a0 : Nat) (a1 : IslSt → IslSt) (c : Chip) : (updIsl a0 a1 c).oq = c.oq := rfl
@[simp] theorem updIsl_notice (a0 : Nat) (a1 : IslSt → IslSt) (c : Chip) : (updIsl a0 a1 c).notice = c.notice := rfl
@[simp] theorem updIsl_taps (a0 : Nat) (a1 : IslSt → IslSt) (c : Chip) : (updIsl a0 a1 c).taps = c.taps := rfl
@[simp] theorem updIsl_host (a0 : Nat) (a1 : IslSt → IslSt) (c : Chip) : (updIsl a0 a1 c).host = c.host := rfl
@[simp] theorem updIsl_img (a0 : Nat) (a1 : IslSt → IslSt) (c : Chip) : (updIsl a0 a1 c).img = c.img := rfl
@[simp] theorem updIsl_cm (a0 : Nat) (a1 : IslSt → IslSt) (c : Chip) : (updIsl a0 a1 c).cm = c.cm := rfl
@[simp] theorem updIsl_jct (a0 : Nat) (a1 : IslSt → IslSt) (c : Chip) : (updIsl a0 a1 c).jct = c.jct := rfl
@[simp] theorem updIsl_eng (a0 : Nat) (a1 : IslSt → IslSt) (c : Chip) : (updIsl a0 a1 c).eng = c.eng := rfl
@[simp] theorem updIsl_cwy (a0 : Nat) (a1 : IslSt → IslSt) (c : Chip) : (updIsl a0 a1 c).cwy = c.cwy := rfl
@[simp] theorem updIsl_ctx (a0 : Nat) (a1 : IslSt → IslSt) (c : Chip) : (updIsl a0 a1 c).ctx = c.ctx := rfl
@[simp] theorem updIsl_line (a0 : Nat) (a1 : IslSt → IslSt) (c : Chip) : (updIsl a0 a1 c).line = c.line := rfl
@[simp] theorem updIsl_power (a0 : Nat) (a1 : IslSt → IslSt) (c : Chip) : (updIsl a0 a1 c).power = c.power := rfl
@[simp] theorem updIsl_dfx (a0 : Nat) (a1 : IslSt → IslSt) (c : Chip) : (updIsl a0 a1 c).dfx = c.dfx := rfl
@[simp] theorem updIsl_pm (a0 : Nat) (a1 : IslSt → IslSt) (c : Chip) : (updIsl a0 a1 c).pm = c.pm := rfl
@[simp] theorem updIsl_prot (a0 : Nat) (a1 : IslSt → IslSt) (c : Chip) : (updIsl a0 a1 c).prot = c.prot := rfl
@[simp] theorem updIsl_tim (a0 : Nat) (a1 : IslSt → IslSt) (c : Chip) : (updIsl a0 a1 c).tim = c.tim := rfl
@[simp] theorem updIsl_upd (a0 : Nat) (a1 : IslSt → IslSt) (c : Chip) : (updIsl a0 a1 c).upd = c.upd := rfl
@[simp] theorem updIsl_pair (a0 : Nat) (a1 : IslSt → IslSt) (c : Chip) : (updIsl a0 a1 c).pair = c.pair := rfl
@[simp] theorem updIsl_dep (a0 : Nat) (a1 : IslSt → IslSt) (c : Chip) : (updIsl a0 a1 c).dep = c.dep := rfl
@[simp] theorem updIsl_free (a0 : Nat) (a1 : IslSt → IslSt) (c : Chip) : (updIsl a0 a1 c).free = c.free := rfl
@[simp] theorem updTrace_dev (a0 : Nat) (a1 : TraceSt → TraceSt) (c : Chip) : (updTrace a0 a1 c).dev = c.dev := rfl
@[simp] theorem updTrace_mb (a0 : Nat) (a1 : TraceSt → TraceSt) (c : Chip) : (updTrace a0 a1 c).mb = c.mb := rfl
@[simp] theorem updTrace_int (a0 : Nat) (a1 : TraceSt → TraceSt) (c : Chip) : (updTrace a0 a1 c).int = c.int := rfl
@[simp] theorem updTrace_nq (a0 : Nat) (a1 : TraceSt → TraceSt) (c : Chip) : (updTrace a0 a1 c).nq = c.nq := rfl
@[simp] theorem updTrace_oq (a0 : Nat) (a1 : TraceSt → TraceSt) (c : Chip) : (updTrace a0 a1 c).oq = c.oq := rfl
@[simp] theorem updTrace_notice (a0 : Nat) (a1 : TraceSt → TraceSt) (c : Chip) : (updTrace a0 a1 c).notice = c.notice := rfl
@[simp] theorem updTrace_taps (a0 : Nat) (a1 : TraceSt → TraceSt) (c : Chip) : (updTrace a0 a1 c).taps = c.taps := rfl
@[simp] theorem updTrace_host (a0 : Nat) (a1 : TraceSt → TraceSt) (c : Chip) : (updTrace a0 a1 c).host = c.host := rfl
@[simp] theorem updTrace_img (a0 : Nat) (a1 : TraceSt → TraceSt) (c : Chip) : (updTrace a0 a1 c).img = c.img := rfl
@[simp] theorem updTrace_cm (a0 : Nat) (a1 : TraceSt → TraceSt) (c : Chip) : (updTrace a0 a1 c).cm = c.cm := rfl
@[simp] theorem updTrace_jct (a0 : Nat) (a1 : TraceSt → TraceSt) (c : Chip) : (updTrace a0 a1 c).jct = c.jct := rfl
@[simp] theorem updTrace_eng (a0 : Nat) (a1 : TraceSt → TraceSt) (c : Chip) : (updTrace a0 a1 c).eng = c.eng := rfl
@[simp] theorem updTrace_isl (a0 : Nat) (a1 : TraceSt → TraceSt) (c : Chip) : (updTrace a0 a1 c).isl = c.isl := rfl
@[simp] theorem updTrace_cwy (a0 : Nat) (a1 : TraceSt → TraceSt) (c : Chip) : (updTrace a0 a1 c).cwy = c.cwy := rfl
@[simp] theorem updTrace_ctx (a0 : Nat) (a1 : TraceSt → TraceSt) (c : Chip) : (updTrace a0 a1 c).ctx = c.ctx := rfl
@[simp] theorem updTrace_power (a0 : Nat) (a1 : TraceSt → TraceSt) (c : Chip) : (updTrace a0 a1 c).power = c.power := rfl
@[simp] theorem updTrace_dfx (a0 : Nat) (a1 : TraceSt → TraceSt) (c : Chip) : (updTrace a0 a1 c).dfx = c.dfx := rfl
@[simp] theorem updTrace_pm (a0 : Nat) (a1 : TraceSt → TraceSt) (c : Chip) : (updTrace a0 a1 c).pm = c.pm := rfl
@[simp] theorem updTrace_prot (a0 : Nat) (a1 : TraceSt → TraceSt) (c : Chip) : (updTrace a0 a1 c).prot = c.prot := rfl
@[simp] theorem updTrace_tim (a0 : Nat) (a1 : TraceSt → TraceSt) (c : Chip) : (updTrace a0 a1 c).tim = c.tim := rfl
@[simp] theorem updTrace_upd (a0 : Nat) (a1 : TraceSt → TraceSt) (c : Chip) : (updTrace a0 a1 c).upd = c.upd := rfl
@[simp] theorem updTrace_pair (a0 : Nat) (a1 : TraceSt → TraceSt) (c : Chip) : (updTrace a0 a1 c).pair = c.pair := rfl
@[simp] theorem updTrace_dep (a0 : Nat) (a1 : TraceSt → TraceSt) (c : Chip) : (updTrace a0 a1 c).dep = c.dep := rfl
@[simp] theorem updTrace_free (a0 : Nat) (a1 : TraceSt → TraceSt) (c : Chip) : (updTrace a0 a1 c).free = c.free := rfl
@[simp] theorem updTap_dev (a0 : Nat) (a1 : TapSt → TapSt) (c : Chip) : (updTap a0 a1 c).dev = c.dev := rfl
@[simp] theorem updTap_mb (a0 : Nat) (a1 : TapSt → TapSt) (c : Chip) : (updTap a0 a1 c).mb = c.mb := rfl
@[simp] theorem updTap_int (a0 : Nat) (a1 : TapSt → TapSt) (c : Chip) : (updTap a0 a1 c).int = c.int := rfl
@[simp] theorem updTap_nq (a0 : Nat) (a1 : TapSt → TapSt) (c : Chip) : (updTap a0 a1 c).nq = c.nq := rfl
@[simp] theorem updTap_oq (a0 : Nat) (a1 : TapSt → TapSt) (c : Chip) : (updTap a0 a1 c).oq = c.oq := rfl
@[simp] theorem updTap_notice (a0 : Nat) (a1 : TapSt → TapSt) (c : Chip) : (updTap a0 a1 c).notice = c.notice := rfl
@[simp] theorem updTap_host (a0 : Nat) (a1 : TapSt → TapSt) (c : Chip) : (updTap a0 a1 c).host = c.host := rfl
@[simp] theorem updTap_img (a0 : Nat) (a1 : TapSt → TapSt) (c : Chip) : (updTap a0 a1 c).img = c.img := rfl
@[simp] theorem updTap_cm (a0 : Nat) (a1 : TapSt → TapSt) (c : Chip) : (updTap a0 a1 c).cm = c.cm := rfl
@[simp] theorem updTap_jct (a0 : Nat) (a1 : TapSt → TapSt) (c : Chip) : (updTap a0 a1 c).jct = c.jct := rfl
@[simp] theorem updTap_eng (a0 : Nat) (a1 : TapSt → TapSt) (c : Chip) : (updTap a0 a1 c).eng = c.eng := rfl
@[simp] theorem updTap_isl (a0 : Nat) (a1 : TapSt → TapSt) (c : Chip) : (updTap a0 a1 c).isl = c.isl := rfl
@[simp] theorem updTap_cwy (a0 : Nat) (a1 : TapSt → TapSt) (c : Chip) : (updTap a0 a1 c).cwy = c.cwy := rfl
@[simp] theorem updTap_ctx (a0 : Nat) (a1 : TapSt → TapSt) (c : Chip) : (updTap a0 a1 c).ctx = c.ctx := rfl
@[simp] theorem updTap_line (a0 : Nat) (a1 : TapSt → TapSt) (c : Chip) : (updTap a0 a1 c).line = c.line := rfl
@[simp] theorem updTap_power (a0 : Nat) (a1 : TapSt → TapSt) (c : Chip) : (updTap a0 a1 c).power = c.power := rfl
@[simp] theorem updTap_dfx (a0 : Nat) (a1 : TapSt → TapSt) (c : Chip) : (updTap a0 a1 c).dfx = c.dfx := rfl
@[simp] theorem updTap_pm (a0 : Nat) (a1 : TapSt → TapSt) (c : Chip) : (updTap a0 a1 c).pm = c.pm := rfl
@[simp] theorem updTap_prot (a0 : Nat) (a1 : TapSt → TapSt) (c : Chip) : (updTap a0 a1 c).prot = c.prot := rfl
@[simp] theorem updTap_tim (a0 : Nat) (a1 : TapSt → TapSt) (c : Chip) : (updTap a0 a1 c).tim = c.tim := rfl
@[simp] theorem updTap_upd (a0 : Nat) (a1 : TapSt → TapSt) (c : Chip) : (updTap a0 a1 c).upd = c.upd := rfl
@[simp] theorem updTap_pair (a0 : Nat) (a1 : TapSt → TapSt) (c : Chip) : (updTap a0 a1 c).pair = c.pair := rfl
@[simp] theorem updTap_dep (a0 : Nat) (a1 : TapSt → TapSt) (c : Chip) : (updTap a0 a1 c).dep = c.dep := rfl
@[simp] theorem updTap_free (a0 : Nat) (a1 : TapSt → TapSt) (c : Chip) : (updTap a0 a1 c).free = c.free := rfl
@[simp] theorem setJct_dev (a0 : JunctionSt) (c : Chip) : (setJct a0 c).dev = c.dev := rfl
@[simp] theorem setJct_mb (a0 : JunctionSt) (c : Chip) : (setJct a0 c).mb = c.mb := rfl
@[simp] theorem setJct_int (a0 : JunctionSt) (c : Chip) : (setJct a0 c).int = c.int := rfl
@[simp] theorem setJct_nq (a0 : JunctionSt) (c : Chip) : (setJct a0 c).nq = c.nq := rfl
@[simp] theorem setJct_oq (a0 : JunctionSt) (c : Chip) : (setJct a0 c).oq = c.oq := rfl
@[simp] theorem setJct_notice (a0 : JunctionSt) (c : Chip) : (setJct a0 c).notice = c.notice := rfl
@[simp] theorem setJct_taps (a0 : JunctionSt) (c : Chip) : (setJct a0 c).taps = c.taps := rfl
@[simp] theorem setJct_host (a0 : JunctionSt) (c : Chip) : (setJct a0 c).host = c.host := rfl
@[simp] theorem setJct_img (a0 : JunctionSt) (c : Chip) : (setJct a0 c).img = c.img := rfl
@[simp] theorem setJct_cm (a0 : JunctionSt) (c : Chip) : (setJct a0 c).cm = c.cm := rfl
@[simp] theorem setJct_eng (a0 : JunctionSt) (c : Chip) : (setJct a0 c).eng = c.eng := rfl
@[simp] theorem setJct_isl (a0 : JunctionSt) (c : Chip) : (setJct a0 c).isl = c.isl := rfl
@[simp] theorem setJct_cwy (a0 : JunctionSt) (c : Chip) : (setJct a0 c).cwy = c.cwy := rfl
@[simp] theorem setJct_ctx (a0 : JunctionSt) (c : Chip) : (setJct a0 c).ctx = c.ctx := rfl
@[simp] theorem setJct_line (a0 : JunctionSt) (c : Chip) : (setJct a0 c).line = c.line := rfl
@[simp] theorem setJct_power (a0 : JunctionSt) (c : Chip) : (setJct a0 c).power = c.power := rfl
@[simp] theorem setJct_dfx (a0 : JunctionSt) (c : Chip) : (setJct a0 c).dfx = c.dfx := rfl
@[simp] theorem setJct_pm (a0 : JunctionSt) (c : Chip) : (setJct a0 c).pm = c.pm := rfl
@[simp] theorem setJct_prot (a0 : JunctionSt) (c : Chip) : (setJct a0 c).prot = c.prot := rfl
@[simp] theorem setJct_tim (a0 : JunctionSt) (c : Chip) : (setJct a0 c).tim = c.tim := rfl
@[simp] theorem setJct_upd (a0 : JunctionSt) (c : Chip) : (setJct a0 c).upd = c.upd := rfl
@[simp] theorem setJct_pair (a0 : JunctionSt) (c : Chip) : (setJct a0 c).pair = c.pair := rfl
@[simp] theorem setJct_dep (a0 : JunctionSt) (c : Chip) : (setJct a0 c).dep = c.dep := rfl
@[simp] theorem setJct_free (a0 : JunctionSt) (c : Chip) : (setJct a0 c).free = c.free := rfl
@[simp] theorem updJct_dev (a0 : Nat) (a1 : JctSt → JctSt) (c : Chip) : (updJct a0 a1 c).dev = c.dev := rfl
@[simp] theorem updJct_mb (a0 : Nat) (a1 : JctSt → JctSt) (c : Chip) : (updJct a0 a1 c).mb = c.mb := rfl
@[simp] theorem updJct_int (a0 : Nat) (a1 : JctSt → JctSt) (c : Chip) : (updJct a0 a1 c).int = c.int := rfl
@[simp] theorem updJct_nq (a0 : Nat) (a1 : JctSt → JctSt) (c : Chip) : (updJct a0 a1 c).nq = c.nq := rfl
@[simp] theorem updJct_oq (a0 : Nat) (a1 : JctSt → JctSt) (c : Chip) : (updJct a0 a1 c).oq = c.oq := rfl
@[simp] theorem updJct_notice (a0 : Nat) (a1 : JctSt → JctSt) (c : Chip) : (updJct a0 a1 c).notice = c.notice := rfl
@[simp] theorem updJct_taps (a0 : Nat) (a1 : JctSt → JctSt) (c : Chip) : (updJct a0 a1 c).taps = c.taps := rfl
@[simp] theorem updJct_host (a0 : Nat) (a1 : JctSt → JctSt) (c : Chip) : (updJct a0 a1 c).host = c.host := rfl
@[simp] theorem updJct_img (a0 : Nat) (a1 : JctSt → JctSt) (c : Chip) : (updJct a0 a1 c).img = c.img := rfl
@[simp] theorem updJct_cm (a0 : Nat) (a1 : JctSt → JctSt) (c : Chip) : (updJct a0 a1 c).cm = c.cm := rfl
@[simp] theorem updJct_eng (a0 : Nat) (a1 : JctSt → JctSt) (c : Chip) : (updJct a0 a1 c).eng = c.eng := rfl
@[simp] theorem updJct_isl (a0 : Nat) (a1 : JctSt → JctSt) (c : Chip) : (updJct a0 a1 c).isl = c.isl := rfl
@[simp] theorem updJct_cwy (a0 : Nat) (a1 : JctSt → JctSt) (c : Chip) : (updJct a0 a1 c).cwy = c.cwy := rfl
@[simp] theorem updJct_ctx (a0 : Nat) (a1 : JctSt → JctSt) (c : Chip) : (updJct a0 a1 c).ctx = c.ctx := rfl
@[simp] theorem updJct_line (a0 : Nat) (a1 : JctSt → JctSt) (c : Chip) : (updJct a0 a1 c).line = c.line := rfl
@[simp] theorem updJct_power (a0 : Nat) (a1 : JctSt → JctSt) (c : Chip) : (updJct a0 a1 c).power = c.power := rfl
@[simp] theorem updJct_dfx (a0 : Nat) (a1 : JctSt → JctSt) (c : Chip) : (updJct a0 a1 c).dfx = c.dfx := rfl
@[simp] theorem updJct_pm (a0 : Nat) (a1 : JctSt → JctSt) (c : Chip) : (updJct a0 a1 c).pm = c.pm := rfl
@[simp] theorem updJct_prot (a0 : Nat) (a1 : JctSt → JctSt) (c : Chip) : (updJct a0 a1 c).prot = c.prot := rfl
@[simp] theorem updJct_tim (a0 : Nat) (a1 : JctSt → JctSt) (c : Chip) : (updJct a0 a1 c).tim = c.tim := rfl
@[simp] theorem updJct_upd (a0 : Nat) (a1 : JctSt → JctSt) (c : Chip) : (updJct a0 a1 c).upd = c.upd := rfl
@[simp] theorem updJct_pair (a0 : Nat) (a1 : JctSt → JctSt) (c : Chip) : (updJct a0 a1 c).pair = c.pair := rfl
@[simp] theorem updJct_dep (a0 : Nat) (a1 : JctSt → JctSt) (c : Chip) : (updJct a0 a1 c).dep = c.dep := rfl
@[simp] theorem updJct_free (a0 : Nat) (a1 : JctSt → JctSt) (c : Chip) : (updJct a0 a1 c).free = c.free := rfl
@[simp] theorem updCwy_dev (a0 : Nat) (a1 : CwySt → CwySt) (c : Chip) : (updCwy a0 a1 c).dev = c.dev := rfl
@[simp] theorem updCwy_mb (a0 : Nat) (a1 : CwySt → CwySt) (c : Chip) : (updCwy a0 a1 c).mb = c.mb := rfl
@[simp] theorem updCwy_int (a0 : Nat) (a1 : CwySt → CwySt) (c : Chip) : (updCwy a0 a1 c).int = c.int := rfl
@[simp] theorem updCwy_nq (a0 : Nat) (a1 : CwySt → CwySt) (c : Chip) : (updCwy a0 a1 c).nq = c.nq := rfl
@[simp] theorem updCwy_oq (a0 : Nat) (a1 : CwySt → CwySt) (c : Chip) : (updCwy a0 a1 c).oq = c.oq := rfl
@[simp] theorem updCwy_notice (a0 : Nat) (a1 : CwySt → CwySt) (c : Chip) : (updCwy a0 a1 c).notice = c.notice := rfl
@[simp] theorem updCwy_taps (a0 : Nat) (a1 : CwySt → CwySt) (c : Chip) : (updCwy a0 a1 c).taps = c.taps := rfl
@[simp] theorem updCwy_host (a0 : Nat) (a1 : CwySt → CwySt) (c : Chip) : (updCwy a0 a1 c).host = c.host := rfl
@[simp] theorem updCwy_img (a0 : Nat) (a1 : CwySt → CwySt) (c : Chip) : (updCwy a0 a1 c).img = c.img := rfl
@[simp] theorem updCwy_cm (a0 : Nat) (a1 : CwySt → CwySt) (c : Chip) : (updCwy a0 a1 c).cm = c.cm := rfl
@[simp] theorem updCwy_jct (a0 : Nat) (a1 : CwySt → CwySt) (c : Chip) : (updCwy a0 a1 c).jct = c.jct := rfl
@[simp] theorem updCwy_eng (a0 : Nat) (a1 : CwySt → CwySt) (c : Chip) : (updCwy a0 a1 c).eng = c.eng := rfl
@[simp] theorem updCwy_isl (a0 : Nat) (a1 : CwySt → CwySt) (c : Chip) : (updCwy a0 a1 c).isl = c.isl := rfl
@[simp] theorem updCwy_ctx (a0 : Nat) (a1 : CwySt → CwySt) (c : Chip) : (updCwy a0 a1 c).ctx = c.ctx := rfl
@[simp] theorem updCwy_line (a0 : Nat) (a1 : CwySt → CwySt) (c : Chip) : (updCwy a0 a1 c).line = c.line := rfl
@[simp] theorem updCwy_power (a0 : Nat) (a1 : CwySt → CwySt) (c : Chip) : (updCwy a0 a1 c).power = c.power := rfl
@[simp] theorem updCwy_dfx (a0 : Nat) (a1 : CwySt → CwySt) (c : Chip) : (updCwy a0 a1 c).dfx = c.dfx := rfl
@[simp] theorem updCwy_pm (a0 : Nat) (a1 : CwySt → CwySt) (c : Chip) : (updCwy a0 a1 c).pm = c.pm := rfl
@[simp] theorem updCwy_prot (a0 : Nat) (a1 : CwySt → CwySt) (c : Chip) : (updCwy a0 a1 c).prot = c.prot := rfl
@[simp] theorem updCwy_tim (a0 : Nat) (a1 : CwySt → CwySt) (c : Chip) : (updCwy a0 a1 c).tim = c.tim := rfl
@[simp] theorem updCwy_upd (a0 : Nat) (a1 : CwySt → CwySt) (c : Chip) : (updCwy a0 a1 c).upd = c.upd := rfl
@[simp] theorem updCwy_pair (a0 : Nat) (a1 : CwySt → CwySt) (c : Chip) : (updCwy a0 a1 c).pair = c.pair := rfl
@[simp] theorem updCwy_dep (a0 : Nat) (a1 : CwySt → CwySt) (c : Chip) : (updCwy a0 a1 c).dep = c.dep := rfl
@[simp] theorem updCwy_free (a0 : Nat) (a1 : CwySt → CwySt) (c : Chip) : (updCwy a0 a1 c).free = c.free := rfl
@[simp] theorem updLane_dev (a0 : Nat) (a1 : LaneSt → LaneSt) (c : Chip) : (updLane a0 a1 c).dev = c.dev := rfl
@[simp] theorem updLane_mb (a0 : Nat) (a1 : LaneSt → LaneSt) (c : Chip) : (updLane a0 a1 c).mb = c.mb := rfl
@[simp] theorem updLane_int (a0 : Nat) (a1 : LaneSt → LaneSt) (c : Chip) : (updLane a0 a1 c).int = c.int := rfl
@[simp] theorem updLane_nq (a0 : Nat) (a1 : LaneSt → LaneSt) (c : Chip) : (updLane a0 a1 c).nq = c.nq := rfl
@[simp] theorem updLane_oq (a0 : Nat) (a1 : LaneSt → LaneSt) (c : Chip) : (updLane a0 a1 c).oq = c.oq := rfl
@[simp] theorem updLane_notice (a0 : Nat) (a1 : LaneSt → LaneSt) (c : Chip) : (updLane a0 a1 c).notice = c.notice := rfl
@[simp] theorem updLane_taps (a0 : Nat) (a1 : LaneSt → LaneSt) (c : Chip) : (updLane a0 a1 c).taps = c.taps := rfl
@[simp] theorem updLane_host (a0 : Nat) (a1 : LaneSt → LaneSt) (c : Chip) : (updLane a0 a1 c).host = c.host := rfl
@[simp] theorem updLane_img (a0 : Nat) (a1 : LaneSt → LaneSt) (c : Chip) : (updLane a0 a1 c).img = c.img := rfl
@[simp] theorem updLane_cm (a0 : Nat) (a1 : LaneSt → LaneSt) (c : Chip) : (updLane a0 a1 c).cm = c.cm := rfl
@[simp] theorem updLane_jct (a0 : Nat) (a1 : LaneSt → LaneSt) (c : Chip) : (updLane a0 a1 c).jct = c.jct := rfl
@[simp] theorem updLane_eng (a0 : Nat) (a1 : LaneSt → LaneSt) (c : Chip) : (updLane a0 a1 c).eng = c.eng := rfl
@[simp] theorem updLane_isl (a0 : Nat) (a1 : LaneSt → LaneSt) (c : Chip) : (updLane a0 a1 c).isl = c.isl := rfl
@[simp] theorem updLane_cwy (a0 : Nat) (a1 : LaneSt → LaneSt) (c : Chip) : (updLane a0 a1 c).cwy = c.cwy := rfl
@[simp] theorem updLane_ctx (a0 : Nat) (a1 : LaneSt → LaneSt) (c : Chip) : (updLane a0 a1 c).ctx = c.ctx := rfl
@[simp] theorem updLane_power (a0 : Nat) (a1 : LaneSt → LaneSt) (c : Chip) : (updLane a0 a1 c).power = c.power := rfl
@[simp] theorem updLane_dfx (a0 : Nat) (a1 : LaneSt → LaneSt) (c : Chip) : (updLane a0 a1 c).dfx = c.dfx := rfl
@[simp] theorem updLane_pm (a0 : Nat) (a1 : LaneSt → LaneSt) (c : Chip) : (updLane a0 a1 c).pm = c.pm := rfl
@[simp] theorem updLane_prot (a0 : Nat) (a1 : LaneSt → LaneSt) (c : Chip) : (updLane a0 a1 c).prot = c.prot := rfl
@[simp] theorem updLane_tim (a0 : Nat) (a1 : LaneSt → LaneSt) (c : Chip) : (updLane a0 a1 c).tim = c.tim := rfl
@[simp] theorem updLane_upd (a0 : Nat) (a1 : LaneSt → LaneSt) (c : Chip) : (updLane a0 a1 c).upd = c.upd := rfl
@[simp] theorem updLane_pair (a0 : Nat) (a1 : LaneSt → LaneSt) (c : Chip) : (updLane a0 a1 c).pair = c.pair := rfl
@[simp] theorem updLane_dep (a0 : Nat) (a1 : LaneSt → LaneSt) (c : Chip) : (updLane a0 a1 c).dep = c.dep := rfl
@[simp] theorem updLane_free (a0 : Nat) (a1 : LaneSt → LaneSt) (c : Chip) : (updLane a0 a1 c).free = c.free := rfl
@[simp] theorem setLaser_dev (a0 : Nat) (a1 : LaserSt) (c : Chip) : (setLaser a0 a1 c).dev = c.dev := rfl
@[simp] theorem setLaser_mb (a0 : Nat) (a1 : LaserSt) (c : Chip) : (setLaser a0 a1 c).mb = c.mb := rfl
@[simp] theorem setLaser_int (a0 : Nat) (a1 : LaserSt) (c : Chip) : (setLaser a0 a1 c).int = c.int := rfl
@[simp] theorem setLaser_nq (a0 : Nat) (a1 : LaserSt) (c : Chip) : (setLaser a0 a1 c).nq = c.nq := rfl
@[simp] theorem setLaser_oq (a0 : Nat) (a1 : LaserSt) (c : Chip) : (setLaser a0 a1 c).oq = c.oq := rfl
@[simp] theorem setLaser_notice (a0 : Nat) (a1 : LaserSt) (c : Chip) : (setLaser a0 a1 c).notice = c.notice := rfl
@[simp] theorem setLaser_taps (a0 : Nat) (a1 : LaserSt) (c : Chip) : (setLaser a0 a1 c).taps = c.taps := rfl
@[simp] theorem setLaser_host (a0 : Nat) (a1 : LaserSt) (c : Chip) : (setLaser a0 a1 c).host = c.host := rfl
@[simp] theorem setLaser_img (a0 : Nat) (a1 : LaserSt) (c : Chip) : (setLaser a0 a1 c).img = c.img := rfl
@[simp] theorem setLaser_cm (a0 : Nat) (a1 : LaserSt) (c : Chip) : (setLaser a0 a1 c).cm = c.cm := rfl
@[simp] theorem setLaser_jct (a0 : Nat) (a1 : LaserSt) (c : Chip) : (setLaser a0 a1 c).jct = c.jct := rfl
@[simp] theorem setLaser_eng (a0 : Nat) (a1 : LaserSt) (c : Chip) : (setLaser a0 a1 c).eng = c.eng := rfl
@[simp] theorem setLaser_isl (a0 : Nat) (a1 : LaserSt) (c : Chip) : (setLaser a0 a1 c).isl = c.isl := rfl
@[simp] theorem setLaser_cwy (a0 : Nat) (a1 : LaserSt) (c : Chip) : (setLaser a0 a1 c).cwy = c.cwy := rfl
@[simp] theorem setLaser_ctx (a0 : Nat) (a1 : LaserSt) (c : Chip) : (setLaser a0 a1 c).ctx = c.ctx := rfl
@[simp] theorem setLaser_power (a0 : Nat) (a1 : LaserSt) (c : Chip) : (setLaser a0 a1 c).power = c.power := rfl
@[simp] theorem setLaser_dfx (a0 : Nat) (a1 : LaserSt) (c : Chip) : (setLaser a0 a1 c).dfx = c.dfx := rfl
@[simp] theorem setLaser_pm (a0 : Nat) (a1 : LaserSt) (c : Chip) : (setLaser a0 a1 c).pm = c.pm := rfl
@[simp] theorem setLaser_prot (a0 : Nat) (a1 : LaserSt) (c : Chip) : (setLaser a0 a1 c).prot = c.prot := rfl
@[simp] theorem setLaser_tim (a0 : Nat) (a1 : LaserSt) (c : Chip) : (setLaser a0 a1 c).tim = c.tim := rfl
@[simp] theorem setLaser_upd (a0 : Nat) (a1 : LaserSt) (c : Chip) : (setLaser a0 a1 c).upd = c.upd := rfl
@[simp] theorem setLaser_pair (a0 : Nat) (a1 : LaserSt) (c : Chip) : (setLaser a0 a1 c).pair = c.pair := rfl
@[simp] theorem setLaser_dep (a0 : Nat) (a1 : LaserSt) (c : Chip) : (setLaser a0 a1 c).dep = c.dep := rfl
@[simp] theorem setLaser_free (a0 : Nat) (a1 : LaserSt) (c : Chip) : (setLaser a0 a1 c).free = c.free := rfl
@[simp] theorem setSkew_dev (a0 : Nat) (a1 : SkewSt) (c : Chip) : (setSkew a0 a1 c).dev = c.dev := rfl
@[simp] theorem setSkew_mb (a0 : Nat) (a1 : SkewSt) (c : Chip) : (setSkew a0 a1 c).mb = c.mb := rfl
@[simp] theorem setSkew_int (a0 : Nat) (a1 : SkewSt) (c : Chip) : (setSkew a0 a1 c).int = c.int := rfl
@[simp] theorem setSkew_nq (a0 : Nat) (a1 : SkewSt) (c : Chip) : (setSkew a0 a1 c).nq = c.nq := rfl
@[simp] theorem setSkew_oq (a0 : Nat) (a1 : SkewSt) (c : Chip) : (setSkew a0 a1 c).oq = c.oq := rfl
@[simp] theorem setSkew_notice (a0 : Nat) (a1 : SkewSt) (c : Chip) : (setSkew a0 a1 c).notice = c.notice := rfl
@[simp] theorem setSkew_taps (a0 : Nat) (a1 : SkewSt) (c : Chip) : (setSkew a0 a1 c).taps = c.taps := rfl
@[simp] theorem setSkew_host (a0 : Nat) (a1 : SkewSt) (c : Chip) : (setSkew a0 a1 c).host = c.host := rfl
@[simp] theorem setSkew_img (a0 : Nat) (a1 : SkewSt) (c : Chip) : (setSkew a0 a1 c).img = c.img := rfl
@[simp] theorem setSkew_cm (a0 : Nat) (a1 : SkewSt) (c : Chip) : (setSkew a0 a1 c).cm = c.cm := rfl
@[simp] theorem setSkew_jct (a0 : Nat) (a1 : SkewSt) (c : Chip) : (setSkew a0 a1 c).jct = c.jct := rfl
@[simp] theorem setSkew_eng (a0 : Nat) (a1 : SkewSt) (c : Chip) : (setSkew a0 a1 c).eng = c.eng := rfl
@[simp] theorem setSkew_isl (a0 : Nat) (a1 : SkewSt) (c : Chip) : (setSkew a0 a1 c).isl = c.isl := rfl
@[simp] theorem setSkew_cwy (a0 : Nat) (a1 : SkewSt) (c : Chip) : (setSkew a0 a1 c).cwy = c.cwy := rfl
@[simp] theorem setSkew_ctx (a0 : Nat) (a1 : SkewSt) (c : Chip) : (setSkew a0 a1 c).ctx = c.ctx := rfl
@[simp] theorem setSkew_power (a0 : Nat) (a1 : SkewSt) (c : Chip) : (setSkew a0 a1 c).power = c.power := rfl
@[simp] theorem setSkew_dfx (a0 : Nat) (a1 : SkewSt) (c : Chip) : (setSkew a0 a1 c).dfx = c.dfx := rfl
@[simp] theorem setSkew_pm (a0 : Nat) (a1 : SkewSt) (c : Chip) : (setSkew a0 a1 c).pm = c.pm := rfl
@[simp] theorem setSkew_prot (a0 : Nat) (a1 : SkewSt) (c : Chip) : (setSkew a0 a1 c).prot = c.prot := rfl
@[simp] theorem setSkew_tim (a0 : Nat) (a1 : SkewSt) (c : Chip) : (setSkew a0 a1 c).tim = c.tim := rfl
@[simp] theorem setSkew_upd (a0 : Nat) (a1 : SkewSt) (c : Chip) : (setSkew a0 a1 c).upd = c.upd := rfl
@[simp] theorem setSkew_pair (a0 : Nat) (a1 : SkewSt) (c : Chip) : (setSkew a0 a1 c).pair = c.pair := rfl
@[simp] theorem setSkew_dep (a0 : Nat) (a1 : SkewSt) (c : Chip) : (setSkew a0 a1 c).dep = c.dep := rfl
@[simp] theorem setSkew_free (a0 : Nat) (a1 : SkewSt) (c : Chip) : (setSkew a0 a1 c).free = c.free := rfl
@[simp] theorem updGroup_dev (a0 : Nat) (a1 : GroupSt → GroupSt) (c : Chip) : (updGroup a0 a1 c).dev = c.dev := rfl
@[simp] theorem updGroup_mb (a0 : Nat) (a1 : GroupSt → GroupSt) (c : Chip) : (updGroup a0 a1 c).mb = c.mb := rfl
@[simp] theorem updGroup_int (a0 : Nat) (a1 : GroupSt → GroupSt) (c : Chip) : (updGroup a0 a1 c).int = c.int := rfl
@[simp] theorem updGroup_nq (a0 : Nat) (a1 : GroupSt → GroupSt) (c : Chip) : (updGroup a0 a1 c).nq = c.nq := rfl
@[simp] theorem updGroup_oq (a0 : Nat) (a1 : GroupSt → GroupSt) (c : Chip) : (updGroup a0 a1 c).oq = c.oq := rfl
@[simp] theorem updGroup_notice (a0 : Nat) (a1 : GroupSt → GroupSt) (c : Chip) : (updGroup a0 a1 c).notice = c.notice := rfl
@[simp] theorem updGroup_taps (a0 : Nat) (a1 : GroupSt → GroupSt) (c : Chip) : (updGroup a0 a1 c).taps = c.taps := rfl
@[simp] theorem updGroup_host (a0 : Nat) (a1 : GroupSt → GroupSt) (c : Chip) : (updGroup a0 a1 c).host = c.host := rfl
@[simp] theorem updGroup_img (a0 : Nat) (a1 : GroupSt → GroupSt) (c : Chip) : (updGroup a0 a1 c).img = c.img := rfl
@[simp] theorem updGroup_cm (a0 : Nat) (a1 : GroupSt → GroupSt) (c : Chip) : (updGroup a0 a1 c).cm = c.cm := rfl
@[simp] theorem updGroup_jct (a0 : Nat) (a1 : GroupSt → GroupSt) (c : Chip) : (updGroup a0 a1 c).jct = c.jct := rfl
@[simp] theorem updGroup_eng (a0 : Nat) (a1 : GroupSt → GroupSt) (c : Chip) : (updGroup a0 a1 c).eng = c.eng := rfl
@[simp] theorem updGroup_isl (a0 : Nat) (a1 : GroupSt → GroupSt) (c : Chip) : (updGroup a0 a1 c).isl = c.isl := rfl
@[simp] theorem updGroup_cwy (a0 : Nat) (a1 : GroupSt → GroupSt) (c : Chip) : (updGroup a0 a1 c).cwy = c.cwy := rfl
@[simp] theorem updGroup_ctx (a0 : Nat) (a1 : GroupSt → GroupSt) (c : Chip) : (updGroup a0 a1 c).ctx = c.ctx := rfl
@[simp] theorem updGroup_line (a0 : Nat) (a1 : GroupSt → GroupSt) (c : Chip) : (updGroup a0 a1 c).line = c.line := rfl
@[simp] theorem updGroup_dfx (a0 : Nat) (a1 : GroupSt → GroupSt) (c : Chip) : (updGroup a0 a1 c).dfx = c.dfx := rfl
@[simp] theorem updGroup_pm (a0 : Nat) (a1 : GroupSt → GroupSt) (c : Chip) : (updGroup a0 a1 c).pm = c.pm := rfl
@[simp] theorem updGroup_prot (a0 : Nat) (a1 : GroupSt → GroupSt) (c : Chip) : (updGroup a0 a1 c).prot = c.prot := rfl
@[simp] theorem updGroup_tim (a0 : Nat) (a1 : GroupSt → GroupSt) (c : Chip) : (updGroup a0 a1 c).tim = c.tim := rfl
@[simp] theorem updGroup_upd (a0 : Nat) (a1 : GroupSt → GroupSt) (c : Chip) : (updGroup a0 a1 c).upd = c.upd := rfl
@[simp] theorem updGroup_pair (a0 : Nat) (a1 : GroupSt → GroupSt) (c : Chip) : (updGroup a0 a1 c).pair = c.pair := rfl
@[simp] theorem updGroup_dep (a0 : Nat) (a1 : GroupSt → GroupSt) (c : Chip) : (updGroup a0 a1 c).dep = c.dep := rfl
@[simp] theorem updGroup_free (a0 : Nat) (a1 : GroupSt → GroupSt) (c : Chip) : (updGroup a0 a1 c).free = c.free := rfl
@[simp] theorem updInj_dev (a0 : Nat) (a1 : InjSlot → InjSlot) (c : Chip) : (updInj a0 a1 c).dev = c.dev := rfl
@[simp] theorem updInj_mb (a0 : Nat) (a1 : InjSlot → InjSlot) (c : Chip) : (updInj a0 a1 c).mb = c.mb := rfl
@[simp] theorem updInj_int (a0 : Nat) (a1 : InjSlot → InjSlot) (c : Chip) : (updInj a0 a1 c).int = c.int := rfl
@[simp] theorem updInj_nq (a0 : Nat) (a1 : InjSlot → InjSlot) (c : Chip) : (updInj a0 a1 c).nq = c.nq := rfl
@[simp] theorem updInj_oq (a0 : Nat) (a1 : InjSlot → InjSlot) (c : Chip) : (updInj a0 a1 c).oq = c.oq := rfl
@[simp] theorem updInj_notice (a0 : Nat) (a1 : InjSlot → InjSlot) (c : Chip) : (updInj a0 a1 c).notice = c.notice := rfl
@[simp] theorem updInj_taps (a0 : Nat) (a1 : InjSlot → InjSlot) (c : Chip) : (updInj a0 a1 c).taps = c.taps := rfl
@[simp] theorem updInj_host (a0 : Nat) (a1 : InjSlot → InjSlot) (c : Chip) : (updInj a0 a1 c).host = c.host := rfl
@[simp] theorem updInj_img (a0 : Nat) (a1 : InjSlot → InjSlot) (c : Chip) : (updInj a0 a1 c).img = c.img := rfl
@[simp] theorem updInj_cm (a0 : Nat) (a1 : InjSlot → InjSlot) (c : Chip) : (updInj a0 a1 c).cm = c.cm := rfl
@[simp] theorem updInj_jct (a0 : Nat) (a1 : InjSlot → InjSlot) (c : Chip) : (updInj a0 a1 c).jct = c.jct := rfl
@[simp] theorem updInj_eng (a0 : Nat) (a1 : InjSlot → InjSlot) (c : Chip) : (updInj a0 a1 c).eng = c.eng := rfl
@[simp] theorem updInj_isl (a0 : Nat) (a1 : InjSlot → InjSlot) (c : Chip) : (updInj a0 a1 c).isl = c.isl := rfl
@[simp] theorem updInj_cwy (a0 : Nat) (a1 : InjSlot → InjSlot) (c : Chip) : (updInj a0 a1 c).cwy = c.cwy := rfl
@[simp] theorem updInj_ctx (a0 : Nat) (a1 : InjSlot → InjSlot) (c : Chip) : (updInj a0 a1 c).ctx = c.ctx := rfl
@[simp] theorem updInj_line (a0 : Nat) (a1 : InjSlot → InjSlot) (c : Chip) : (updInj a0 a1 c).line = c.line := rfl
@[simp] theorem updInj_power (a0 : Nat) (a1 : InjSlot → InjSlot) (c : Chip) : (updInj a0 a1 c).power = c.power := rfl
@[simp] theorem updInj_dfx (a0 : Nat) (a1 : InjSlot → InjSlot) (c : Chip) : (updInj a0 a1 c).dfx = c.dfx := rfl
@[simp] theorem updInj_pm (a0 : Nat) (a1 : InjSlot → InjSlot) (c : Chip) : (updInj a0 a1 c).pm = c.pm := rfl
@[simp] theorem updInj_prot (a0 : Nat) (a1 : InjSlot → InjSlot) (c : Chip) : (updInj a0 a1 c).prot = c.prot := rfl
@[simp] theorem updInj_tim (a0 : Nat) (a1 : InjSlot → InjSlot) (c : Chip) : (updInj a0 a1 c).tim = c.tim := rfl
@[simp] theorem updInj_upd (a0 : Nat) (a1 : InjSlot → InjSlot) (c : Chip) : (updInj a0 a1 c).upd = c.upd := rfl
@[simp] theorem updInj_pair (a0 : Nat) (a1 : InjSlot → InjSlot) (c : Chip) : (updInj a0 a1 c).pair = c.pair := rfl
@[simp] theorem updInj_free (a0 : Nat) (a1 : InjSlot → InjSlot) (c : Chip) : (updInj a0 a1 c).free = c.free := rfl
@[simp] theorem setPair_dev (a0 : PairSt) (c : Chip) : (setPair a0 c).dev = c.dev := rfl
@[simp] theorem setPair_mb (a0 : PairSt) (c : Chip) : (setPair a0 c).mb = c.mb := rfl
@[simp] theorem setPair_int (a0 : PairSt) (c : Chip) : (setPair a0 c).int = c.int := rfl
@[simp] theorem setPair_nq (a0 : PairSt) (c : Chip) : (setPair a0 c).nq = c.nq := rfl
@[simp] theorem setPair_oq (a0 : PairSt) (c : Chip) : (setPair a0 c).oq = c.oq := rfl
@[simp] theorem setPair_notice (a0 : PairSt) (c : Chip) : (setPair a0 c).notice = c.notice := rfl
@[simp] theorem setPair_taps (a0 : PairSt) (c : Chip) : (setPair a0 c).taps = c.taps := rfl
@[simp] theorem setPair_host (a0 : PairSt) (c : Chip) : (setPair a0 c).host = c.host := rfl
@[simp] theorem setPair_img (a0 : PairSt) (c : Chip) : (setPair a0 c).img = c.img := rfl
@[simp] theorem setPair_cm (a0 : PairSt) (c : Chip) : (setPair a0 c).cm = c.cm := rfl
@[simp] theorem setPair_jct (a0 : PairSt) (c : Chip) : (setPair a0 c).jct = c.jct := rfl
@[simp] theorem setPair_eng (a0 : PairSt) (c : Chip) : (setPair a0 c).eng = c.eng := rfl
@[simp] theorem setPair_isl (a0 : PairSt) (c : Chip) : (setPair a0 c).isl = c.isl := rfl
@[simp] theorem setPair_cwy (a0 : PairSt) (c : Chip) : (setPair a0 c).cwy = c.cwy := rfl
@[simp] theorem setPair_ctx (a0 : PairSt) (c : Chip) : (setPair a0 c).ctx = c.ctx := rfl
@[simp] theorem setPair_line (a0 : PairSt) (c : Chip) : (setPair a0 c).line = c.line := rfl
@[simp] theorem setPair_power (a0 : PairSt) (c : Chip) : (setPair a0 c).power = c.power := rfl
@[simp] theorem setPair_dfx (a0 : PairSt) (c : Chip) : (setPair a0 c).dfx = c.dfx := rfl
@[simp] theorem setPair_pm (a0 : PairSt) (c : Chip) : (setPair a0 c).pm = c.pm := rfl
@[simp] theorem setPair_prot (a0 : PairSt) (c : Chip) : (setPair a0 c).prot = c.prot := rfl
@[simp] theorem setPair_tim (a0 : PairSt) (c : Chip) : (setPair a0 c).tim = c.tim := rfl
@[simp] theorem setPair_upd (a0 : PairSt) (c : Chip) : (setPair a0 c).upd = c.upd := rfl
@[simp] theorem setPair_dep (a0 : PairSt) (c : Chip) : (setPair a0 c).dep = c.dep := rfl
@[simp] theorem setPair_free (a0 : PairSt) (c : Chip) : (setPair a0 c).free = c.free := rfl
@[simp] theorem setMirror_dev (a0 : MirrorSt) (c : Chip) : (setMirror a0 c).dev = c.dev := rfl
@[simp] theorem setMirror_mb (a0 : MirrorSt) (c : Chip) : (setMirror a0 c).mb = c.mb := rfl
@[simp] theorem setMirror_int (a0 : MirrorSt) (c : Chip) : (setMirror a0 c).int = c.int := rfl
@[simp] theorem setMirror_nq (a0 : MirrorSt) (c : Chip) : (setMirror a0 c).nq = c.nq := rfl
@[simp] theorem setMirror_oq (a0 : MirrorSt) (c : Chip) : (setMirror a0 c).oq = c.oq := rfl
@[simp] theorem setMirror_notice (a0 : MirrorSt) (c : Chip) : (setMirror a0 c).notice = c.notice := rfl
@[simp] theorem setMirror_taps (a0 : MirrorSt) (c : Chip) : (setMirror a0 c).taps = c.taps := rfl
@[simp] theorem setMirror_host (a0 : MirrorSt) (c : Chip) : (setMirror a0 c).host = c.host := rfl
@[simp] theorem setMirror_img (a0 : MirrorSt) (c : Chip) : (setMirror a0 c).img = c.img := rfl
@[simp] theorem setMirror_cm (a0 : MirrorSt) (c : Chip) : (setMirror a0 c).cm = c.cm := rfl
@[simp] theorem setMirror_jct (a0 : MirrorSt) (c : Chip) : (setMirror a0 c).jct = c.jct := rfl
@[simp] theorem setMirror_eng (a0 : MirrorSt) (c : Chip) : (setMirror a0 c).eng = c.eng := rfl
@[simp] theorem setMirror_isl (a0 : MirrorSt) (c : Chip) : (setMirror a0 c).isl = c.isl := rfl
@[simp] theorem setMirror_cwy (a0 : MirrorSt) (c : Chip) : (setMirror a0 c).cwy = c.cwy := rfl
@[simp] theorem setMirror_ctx (a0 : MirrorSt) (c : Chip) : (setMirror a0 c).ctx = c.ctx := rfl
@[simp] theorem setMirror_line (a0 : MirrorSt) (c : Chip) : (setMirror a0 c).line = c.line := rfl
@[simp] theorem setMirror_power (a0 : MirrorSt) (c : Chip) : (setMirror a0 c).power = c.power := rfl
@[simp] theorem setMirror_dfx (a0 : MirrorSt) (c : Chip) : (setMirror a0 c).dfx = c.dfx := rfl
@[simp] theorem setMirror_pm (a0 : MirrorSt) (c : Chip) : (setMirror a0 c).pm = c.pm := rfl
@[simp] theorem setMirror_prot (a0 : MirrorSt) (c : Chip) : (setMirror a0 c).prot = c.prot := rfl
@[simp] theorem setMirror_tim (a0 : MirrorSt) (c : Chip) : (setMirror a0 c).tim = c.tim := rfl
@[simp] theorem setMirror_upd (a0 : MirrorSt) (c : Chip) : (setMirror a0 c).upd = c.upd := rfl
@[simp] theorem setMirror_dep (a0 : MirrorSt) (c : Chip) : (setMirror a0 c).dep = c.dep := rfl
@[simp] theorem setMirror_free (a0 : MirrorSt) (c : Chip) : (setMirror a0 c).free = c.free := rfl
@[simp] theorem setPm_dev (a0 : PmSt) (c : Chip) : (setPm a0 c).dev = c.dev := rfl
@[simp] theorem setPm_mb (a0 : PmSt) (c : Chip) : (setPm a0 c).mb = c.mb := rfl
@[simp] theorem setPm_int (a0 : PmSt) (c : Chip) : (setPm a0 c).int = c.int := rfl
@[simp] theorem setPm_nq (a0 : PmSt) (c : Chip) : (setPm a0 c).nq = c.nq := rfl
@[simp] theorem setPm_oq (a0 : PmSt) (c : Chip) : (setPm a0 c).oq = c.oq := rfl
@[simp] theorem setPm_notice (a0 : PmSt) (c : Chip) : (setPm a0 c).notice = c.notice := rfl
@[simp] theorem setPm_taps (a0 : PmSt) (c : Chip) : (setPm a0 c).taps = c.taps := rfl
@[simp] theorem setPm_host (a0 : PmSt) (c : Chip) : (setPm a0 c).host = c.host := rfl
@[simp] theorem setPm_img (a0 : PmSt) (c : Chip) : (setPm a0 c).img = c.img := rfl
@[simp] theorem setPm_cm (a0 : PmSt) (c : Chip) : (setPm a0 c).cm = c.cm := rfl
@[simp] theorem setPm_jct (a0 : PmSt) (c : Chip) : (setPm a0 c).jct = c.jct := rfl
@[simp] theorem setPm_eng (a0 : PmSt) (c : Chip) : (setPm a0 c).eng = c.eng := rfl
@[simp] theorem setPm_isl (a0 : PmSt) (c : Chip) : (setPm a0 c).isl = c.isl := rfl
@[simp] theorem setPm_cwy (a0 : PmSt) (c : Chip) : (setPm a0 c).cwy = c.cwy := rfl
@[simp] theorem setPm_ctx (a0 : PmSt) (c : Chip) : (setPm a0 c).ctx = c.ctx := rfl
@[simp] theorem setPm_line (a0 : PmSt) (c : Chip) : (setPm a0 c).line = c.line := rfl
@[simp] theorem setPm_power (a0 : PmSt) (c : Chip) : (setPm a0 c).power = c.power := rfl
@[simp] theorem setPm_dfx (a0 : PmSt) (c : Chip) : (setPm a0 c).dfx = c.dfx := rfl
@[simp] theorem setPm_prot (a0 : PmSt) (c : Chip) : (setPm a0 c).prot = c.prot := rfl
@[simp] theorem setPm_tim (a0 : PmSt) (c : Chip) : (setPm a0 c).tim = c.tim := rfl
@[simp] theorem setPm_upd (a0 : PmSt) (c : Chip) : (setPm a0 c).upd = c.upd := rfl
@[simp] theorem setPm_pair (a0 : PmSt) (c : Chip) : (setPm a0 c).pair = c.pair := rfl
@[simp] theorem setPm_dep (a0 : PmSt) (c : Chip) : (setPm a0 c).dep = c.dep := rfl
@[simp] theorem setPm_free (a0 : PmSt) (c : Chip) : (setPm a0 c).free = c.free := rfl
@[simp] theorem setPower_dev (a0 : PowerSt) (c : Chip) : (setPower a0 c).dev = c.dev := rfl
@[simp] theorem setPower_mb (a0 : PowerSt) (c : Chip) : (setPower a0 c).mb = c.mb := rfl
@[simp] theorem setPower_int (a0 : PowerSt) (c : Chip) : (setPower a0 c).int = c.int := rfl
@[simp] theorem setPower_nq (a0 : PowerSt) (c : Chip) : (setPower a0 c).nq = c.nq := rfl
@[simp] theorem setPower_oq (a0 : PowerSt) (c : Chip) : (setPower a0 c).oq = c.oq := rfl
@[simp] theorem setPower_notice (a0 : PowerSt) (c : Chip) : (setPower a0 c).notice = c.notice := rfl
@[simp] theorem setPower_taps (a0 : PowerSt) (c : Chip) : (setPower a0 c).taps = c.taps := rfl
@[simp] theorem setPower_host (a0 : PowerSt) (c : Chip) : (setPower a0 c).host = c.host := rfl
@[simp] theorem setPower_img (a0 : PowerSt) (c : Chip) : (setPower a0 c).img = c.img := rfl
@[simp] theorem setPower_cm (a0 : PowerSt) (c : Chip) : (setPower a0 c).cm = c.cm := rfl
@[simp] theorem setPower_jct (a0 : PowerSt) (c : Chip) : (setPower a0 c).jct = c.jct := rfl
@[simp] theorem setPower_eng (a0 : PowerSt) (c : Chip) : (setPower a0 c).eng = c.eng := rfl
@[simp] theorem setPower_isl (a0 : PowerSt) (c : Chip) : (setPower a0 c).isl = c.isl := rfl
@[simp] theorem setPower_cwy (a0 : PowerSt) (c : Chip) : (setPower a0 c).cwy = c.cwy := rfl
@[simp] theorem setPower_ctx (a0 : PowerSt) (c : Chip) : (setPower a0 c).ctx = c.ctx := rfl
@[simp] theorem setPower_line (a0 : PowerSt) (c : Chip) : (setPower a0 c).line = c.line := rfl
@[simp] theorem setPower_dfx (a0 : PowerSt) (c : Chip) : (setPower a0 c).dfx = c.dfx := rfl
@[simp] theorem setPower_pm (a0 : PowerSt) (c : Chip) : (setPower a0 c).pm = c.pm := rfl
@[simp] theorem setPower_prot (a0 : PowerSt) (c : Chip) : (setPower a0 c).prot = c.prot := rfl
@[simp] theorem setPower_tim (a0 : PowerSt) (c : Chip) : (setPower a0 c).tim = c.tim := rfl
@[simp] theorem setPower_upd (a0 : PowerSt) (c : Chip) : (setPower a0 c).upd = c.upd := rfl
@[simp] theorem setPower_pair (a0 : PowerSt) (c : Chip) : (setPower a0 c).pair = c.pair := rfl
@[simp] theorem setPower_dep (a0 : PowerSt) (c : Chip) : (setPower a0 c).dep = c.dep := rfl
@[simp] theorem setPower_free (a0 : PowerSt) (c : Chip) : (setPower a0 c).free = c.free := rfl
@[simp] theorem setGroups_dev (a0 : FMap GrpSt) (c : Chip) : (setGroups a0 c).dev = c.dev := rfl
@[simp] theorem setGroups_mb (a0 : FMap GrpSt) (c : Chip) : (setGroups a0 c).mb = c.mb := rfl
@[simp] theorem setGroups_int (a0 : FMap GrpSt) (c : Chip) : (setGroups a0 c).int = c.int := rfl
@[simp] theorem setGroups_nq (a0 : FMap GrpSt) (c : Chip) : (setGroups a0 c).nq = c.nq := rfl
@[simp] theorem setGroups_oq (a0 : FMap GrpSt) (c : Chip) : (setGroups a0 c).oq = c.oq := rfl
@[simp] theorem setGroups_notice (a0 : FMap GrpSt) (c : Chip) : (setGroups a0 c).notice = c.notice := rfl
@[simp] theorem setGroups_taps (a0 : FMap GrpSt) (c : Chip) : (setGroups a0 c).taps = c.taps := rfl
@[simp] theorem setGroups_host (a0 : FMap GrpSt) (c : Chip) : (setGroups a0 c).host = c.host := rfl
@[simp] theorem setGroups_img (a0 : FMap GrpSt) (c : Chip) : (setGroups a0 c).img = c.img := rfl
@[simp] theorem setGroups_cm (a0 : FMap GrpSt) (c : Chip) : (setGroups a0 c).cm = c.cm := rfl
@[simp] theorem setGroups_jct (a0 : FMap GrpSt) (c : Chip) : (setGroups a0 c).jct = c.jct := rfl
@[simp] theorem setGroups_eng (a0 : FMap GrpSt) (c : Chip) : (setGroups a0 c).eng = c.eng := rfl
@[simp] theorem setGroups_isl (a0 : FMap GrpSt) (c : Chip) : (setGroups a0 c).isl = c.isl := rfl
@[simp] theorem setGroups_cwy (a0 : FMap GrpSt) (c : Chip) : (setGroups a0 c).cwy = c.cwy := rfl
@[simp] theorem setGroups_ctx (a0 : FMap GrpSt) (c : Chip) : (setGroups a0 c).ctx = c.ctx := rfl
@[simp] theorem setGroups_line (a0 : FMap GrpSt) (c : Chip) : (setGroups a0 c).line = c.line := rfl
@[simp] theorem setGroups_power (a0 : FMap GrpSt) (c : Chip) : (setGroups a0 c).power = c.power := rfl
@[simp] theorem setGroups_dfx (a0 : FMap GrpSt) (c : Chip) : (setGroups a0 c).dfx = c.dfx := rfl
@[simp] theorem setGroups_pm (a0 : FMap GrpSt) (c : Chip) : (setGroups a0 c).pm = c.pm := rfl
@[simp] theorem setGroups_tim (a0 : FMap GrpSt) (c : Chip) : (setGroups a0 c).tim = c.tim := rfl
@[simp] theorem setGroups_upd (a0 : FMap GrpSt) (c : Chip) : (setGroups a0 c).upd = c.upd := rfl
@[simp] theorem setGroups_pair (a0 : FMap GrpSt) (c : Chip) : (setGroups a0 c).pair = c.pair := rfl
@[simp] theorem setGroups_dep (a0 : FMap GrpSt) (c : Chip) : (setGroups a0 c).dep = c.dep := rfl
@[simp] theorem setGroups_free (a0 : FMap GrpSt) (c : Chip) : (setGroups a0 c).free = c.free := rfl
@[simp] theorem updSel_dev (a0 : Nat) (a1 : SelSt → SelSt) (c : Chip) : (updSel a0 a1 c).dev = c.dev := rfl
@[simp] theorem updSel_mb (a0 : Nat) (a1 : SelSt → SelSt) (c : Chip) : (updSel a0 a1 c).mb = c.mb := rfl
@[simp] theorem updSel_int (a0 : Nat) (a1 : SelSt → SelSt) (c : Chip) : (updSel a0 a1 c).int = c.int := rfl
@[simp] theorem updSel_nq (a0 : Nat) (a1 : SelSt → SelSt) (c : Chip) : (updSel a0 a1 c).nq = c.nq := rfl
@[simp] theorem updSel_oq (a0 : Nat) (a1 : SelSt → SelSt) (c : Chip) : (updSel a0 a1 c).oq = c.oq := rfl
@[simp] theorem updSel_notice (a0 : Nat) (a1 : SelSt → SelSt) (c : Chip) : (updSel a0 a1 c).notice = c.notice := rfl
@[simp] theorem updSel_taps (a0 : Nat) (a1 : SelSt → SelSt) (c : Chip) : (updSel a0 a1 c).taps = c.taps := rfl
@[simp] theorem updSel_host (a0 : Nat) (a1 : SelSt → SelSt) (c : Chip) : (updSel a0 a1 c).host = c.host := rfl
@[simp] theorem updSel_img (a0 : Nat) (a1 : SelSt → SelSt) (c : Chip) : (updSel a0 a1 c).img = c.img := rfl
@[simp] theorem updSel_cm (a0 : Nat) (a1 : SelSt → SelSt) (c : Chip) : (updSel a0 a1 c).cm = c.cm := rfl
@[simp] theorem updSel_eng (a0 : Nat) (a1 : SelSt → SelSt) (c : Chip) : (updSel a0 a1 c).eng = c.eng := rfl
@[simp] theorem updSel_isl (a0 : Nat) (a1 : SelSt → SelSt) (c : Chip) : (updSel a0 a1 c).isl = c.isl := rfl
@[simp] theorem updSel_cwy (a0 : Nat) (a1 : SelSt → SelSt) (c : Chip) : (updSel a0 a1 c).cwy = c.cwy := rfl
@[simp] theorem updSel_ctx (a0 : Nat) (a1 : SelSt → SelSt) (c : Chip) : (updSel a0 a1 c).ctx = c.ctx := rfl
@[simp] theorem updSel_line (a0 : Nat) (a1 : SelSt → SelSt) (c : Chip) : (updSel a0 a1 c).line = c.line := rfl
@[simp] theorem updSel_power (a0 : Nat) (a1 : SelSt → SelSt) (c : Chip) : (updSel a0 a1 c).power = c.power := rfl
@[simp] theorem updSel_dfx (a0 : Nat) (a1 : SelSt → SelSt) (c : Chip) : (updSel a0 a1 c).dfx = c.dfx := rfl
@[simp] theorem updSel_pm (a0 : Nat) (a1 : SelSt → SelSt) (c : Chip) : (updSel a0 a1 c).pm = c.pm := rfl
@[simp] theorem updSel_prot (a0 : Nat) (a1 : SelSt → SelSt) (c : Chip) : (updSel a0 a1 c).prot = c.prot := rfl
@[simp] theorem updSel_tim (a0 : Nat) (a1 : SelSt → SelSt) (c : Chip) : (updSel a0 a1 c).tim = c.tim := rfl
@[simp] theorem updSel_upd (a0 : Nat) (a1 : SelSt → SelSt) (c : Chip) : (updSel a0 a1 c).upd = c.upd := rfl
@[simp] theorem updSel_pair (a0 : Nat) (a1 : SelSt → SelSt) (c : Chip) : (updSel a0 a1 c).pair = c.pair := rfl
@[simp] theorem updSel_dep (a0 : Nat) (a1 : SelSt → SelSt) (c : Chip) : (updSel a0 a1 c).dep = c.dep := rfl
@[simp] theorem updSel_free (a0 : Nat) (a1 : SelSt → SelSt) (c : Chip) : (updSel a0 a1 c).free = c.free := rfl
@[simp] theorem setTim_dev (a0 : TimSt) (c : Chip) : (setTim a0 c).dev = c.dev := rfl
@[simp] theorem setTim_mb (a0 : TimSt) (c : Chip) : (setTim a0 c).mb = c.mb := rfl
@[simp] theorem setTim_int (a0 : TimSt) (c : Chip) : (setTim a0 c).int = c.int := rfl
@[simp] theorem setTim_nq (a0 : TimSt) (c : Chip) : (setTim a0 c).nq = c.nq := rfl
@[simp] theorem setTim_oq (a0 : TimSt) (c : Chip) : (setTim a0 c).oq = c.oq := rfl
@[simp] theorem setTim_notice (a0 : TimSt) (c : Chip) : (setTim a0 c).notice = c.notice := rfl
@[simp] theorem setTim_taps (a0 : TimSt) (c : Chip) : (setTim a0 c).taps = c.taps := rfl
@[simp] theorem setTim_host (a0 : TimSt) (c : Chip) : (setTim a0 c).host = c.host := rfl
@[simp] theorem setTim_img (a0 : TimSt) (c : Chip) : (setTim a0 c).img = c.img := rfl
@[simp] theorem setTim_cm (a0 : TimSt) (c : Chip) : (setTim a0 c).cm = c.cm := rfl
@[simp] theorem setTim_jct (a0 : TimSt) (c : Chip) : (setTim a0 c).jct = c.jct := rfl
@[simp] theorem setTim_eng (a0 : TimSt) (c : Chip) : (setTim a0 c).eng = c.eng := rfl
@[simp] theorem setTim_isl (a0 : TimSt) (c : Chip) : (setTim a0 c).isl = c.isl := rfl
@[simp] theorem setTim_cwy (a0 : TimSt) (c : Chip) : (setTim a0 c).cwy = c.cwy := rfl
@[simp] theorem setTim_ctx (a0 : TimSt) (c : Chip) : (setTim a0 c).ctx = c.ctx := rfl
@[simp] theorem setTim_line (a0 : TimSt) (c : Chip) : (setTim a0 c).line = c.line := rfl
@[simp] theorem setTim_power (a0 : TimSt) (c : Chip) : (setTim a0 c).power = c.power := rfl
@[simp] theorem setTim_dfx (a0 : TimSt) (c : Chip) : (setTim a0 c).dfx = c.dfx := rfl
@[simp] theorem setTim_pm (a0 : TimSt) (c : Chip) : (setTim a0 c).pm = c.pm := rfl
@[simp] theorem setTim_prot (a0 : TimSt) (c : Chip) : (setTim a0 c).prot = c.prot := rfl
@[simp] theorem setTim_upd (a0 : TimSt) (c : Chip) : (setTim a0 c).upd = c.upd := rfl
@[simp] theorem setTim_pair (a0 : TimSt) (c : Chip) : (setTim a0 c).pair = c.pair := rfl
@[simp] theorem setTim_dep (a0 : TimSt) (c : Chip) : (setTim a0 c).dep = c.dep := rfl
@[simp] theorem setTim_free (a0 : TimSt) (c : Chip) : (setTim a0 c).free = c.free := rfl
@[simp] theorem setOsc_dev (a0 : OscSt) (c : Chip) : (setOsc a0 c).dev = c.dev := rfl
@[simp] theorem setOsc_mb (a0 : OscSt) (c : Chip) : (setOsc a0 c).mb = c.mb := rfl
@[simp] theorem setOsc_int (a0 : OscSt) (c : Chip) : (setOsc a0 c).int = c.int := rfl
@[simp] theorem setOsc_nq (a0 : OscSt) (c : Chip) : (setOsc a0 c).nq = c.nq := rfl
@[simp] theorem setOsc_oq (a0 : OscSt) (c : Chip) : (setOsc a0 c).oq = c.oq := rfl
@[simp] theorem setOsc_notice (a0 : OscSt) (c : Chip) : (setOsc a0 c).notice = c.notice := rfl
@[simp] theorem setOsc_taps (a0 : OscSt) (c : Chip) : (setOsc a0 c).taps = c.taps := rfl
@[simp] theorem setOsc_host (a0 : OscSt) (c : Chip) : (setOsc a0 c).host = c.host := rfl
@[simp] theorem setOsc_img (a0 : OscSt) (c : Chip) : (setOsc a0 c).img = c.img := rfl
@[simp] theorem setOsc_cm (a0 : OscSt) (c : Chip) : (setOsc a0 c).cm = c.cm := rfl
@[simp] theorem setOsc_jct (a0 : OscSt) (c : Chip) : (setOsc a0 c).jct = c.jct := rfl
@[simp] theorem setOsc_eng (a0 : OscSt) (c : Chip) : (setOsc a0 c).eng = c.eng := rfl
@[simp] theorem setOsc_isl (a0 : OscSt) (c : Chip) : (setOsc a0 c).isl = c.isl := rfl
@[simp] theorem setOsc_cwy (a0 : OscSt) (c : Chip) : (setOsc a0 c).cwy = c.cwy := rfl
@[simp] theorem setOsc_ctx (a0 : OscSt) (c : Chip) : (setOsc a0 c).ctx = c.ctx := rfl
@[simp] theorem setOsc_line (a0 : OscSt) (c : Chip) : (setOsc a0 c).line = c.line := rfl
@[simp] theorem setOsc_power (a0 : OscSt) (c : Chip) : (setOsc a0 c).power = c.power := rfl
@[simp] theorem setOsc_dfx (a0 : OscSt) (c : Chip) : (setOsc a0 c).dfx = c.dfx := rfl
@[simp] theorem setOsc_pm (a0 : OscSt) (c : Chip) : (setOsc a0 c).pm = c.pm := rfl
@[simp] theorem setOsc_prot (a0 : OscSt) (c : Chip) : (setOsc a0 c).prot = c.prot := rfl
@[simp] theorem setOsc_upd (a0 : OscSt) (c : Chip) : (setOsc a0 c).upd = c.upd := rfl
@[simp] theorem setOsc_pair (a0 : OscSt) (c : Chip) : (setOsc a0 c).pair = c.pair := rfl
@[simp] theorem setOsc_dep (a0 : OscSt) (c : Chip) : (setOsc a0 c).dep = c.dep := rfl
@[simp] theorem setOsc_free (a0 : OscSt) (c : Chip) : (setOsc a0 c).free = c.free := rfl
@[simp] theorem setT1_dev (a0 : T1St) (c : Chip) : (setT1 a0 c).dev = c.dev := rfl
@[simp] theorem setT1_mb (a0 : T1St) (c : Chip) : (setT1 a0 c).mb = c.mb := rfl
@[simp] theorem setT1_int (a0 : T1St) (c : Chip) : (setT1 a0 c).int = c.int := rfl
@[simp] theorem setT1_nq (a0 : T1St) (c : Chip) : (setT1 a0 c).nq = c.nq := rfl
@[simp] theorem setT1_oq (a0 : T1St) (c : Chip) : (setT1 a0 c).oq = c.oq := rfl
@[simp] theorem setT1_notice (a0 : T1St) (c : Chip) : (setT1 a0 c).notice = c.notice := rfl
@[simp] theorem setT1_taps (a0 : T1St) (c : Chip) : (setT1 a0 c).taps = c.taps := rfl
@[simp] theorem setT1_host (a0 : T1St) (c : Chip) : (setT1 a0 c).host = c.host := rfl
@[simp] theorem setT1_img (a0 : T1St) (c : Chip) : (setT1 a0 c).img = c.img := rfl
@[simp] theorem setT1_cm (a0 : T1St) (c : Chip) : (setT1 a0 c).cm = c.cm := rfl
@[simp] theorem setT1_jct (a0 : T1St) (c : Chip) : (setT1 a0 c).jct = c.jct := rfl
@[simp] theorem setT1_eng (a0 : T1St) (c : Chip) : (setT1 a0 c).eng = c.eng := rfl
@[simp] theorem setT1_isl (a0 : T1St) (c : Chip) : (setT1 a0 c).isl = c.isl := rfl
@[simp] theorem setT1_cwy (a0 : T1St) (c : Chip) : (setT1 a0 c).cwy = c.cwy := rfl
@[simp] theorem setT1_ctx (a0 : T1St) (c : Chip) : (setT1 a0 c).ctx = c.ctx := rfl
@[simp] theorem setT1_line (a0 : T1St) (c : Chip) : (setT1 a0 c).line = c.line := rfl
@[simp] theorem setT1_power (a0 : T1St) (c : Chip) : (setT1 a0 c).power = c.power := rfl
@[simp] theorem setT1_dfx (a0 : T1St) (c : Chip) : (setT1 a0 c).dfx = c.dfx := rfl
@[simp] theorem setT1_pm (a0 : T1St) (c : Chip) : (setT1 a0 c).pm = c.pm := rfl
@[simp] theorem setT1_prot (a0 : T1St) (c : Chip) : (setT1 a0 c).prot = c.prot := rfl
@[simp] theorem setT1_upd (a0 : T1St) (c : Chip) : (setT1 a0 c).upd = c.upd := rfl
@[simp] theorem setT1_pair (a0 : T1St) (c : Chip) : (setT1 a0 c).pair = c.pair := rfl
@[simp] theorem setT1_dep (a0 : T1St) (c : Chip) : (setT1 a0 c).dep = c.dep := rfl
@[simp] theorem setT1_free (a0 : T1St) (c : Chip) : (setT1 a0 c).free = c.free := rfl
@[simp] theorem setOut_dev (a0 : Nat) (a1 : OutSt) (c : Chip) : (setOut a0 a1 c).dev = c.dev := rfl
@[simp] theorem setOut_mb (a0 : Nat) (a1 : OutSt) (c : Chip) : (setOut a0 a1 c).mb = c.mb := rfl
@[simp] theorem setOut_int (a0 : Nat) (a1 : OutSt) (c : Chip) : (setOut a0 a1 c).int = c.int := rfl
@[simp] theorem setOut_nq (a0 : Nat) (a1 : OutSt) (c : Chip) : (setOut a0 a1 c).nq = c.nq := rfl
@[simp] theorem setOut_oq (a0 : Nat) (a1 : OutSt) (c : Chip) : (setOut a0 a1 c).oq = c.oq := rfl
@[simp] theorem setOut_notice (a0 : Nat) (a1 : OutSt) (c : Chip) : (setOut a0 a1 c).notice = c.notice := rfl
@[simp] theorem setOut_taps (a0 : Nat) (a1 : OutSt) (c : Chip) : (setOut a0 a1 c).taps = c.taps := rfl
@[simp] theorem setOut_host (a0 : Nat) (a1 : OutSt) (c : Chip) : (setOut a0 a1 c).host = c.host := rfl
@[simp] theorem setOut_img (a0 : Nat) (a1 : OutSt) (c : Chip) : (setOut a0 a1 c).img = c.img := rfl
@[simp] theorem setOut_cm (a0 : Nat) (a1 : OutSt) (c : Chip) : (setOut a0 a1 c).cm = c.cm := rfl
@[simp] theorem setOut_jct (a0 : Nat) (a1 : OutSt) (c : Chip) : (setOut a0 a1 c).jct = c.jct := rfl
@[simp] theorem setOut_eng (a0 : Nat) (a1 : OutSt) (c : Chip) : (setOut a0 a1 c).eng = c.eng := rfl
@[simp] theorem setOut_isl (a0 : Nat) (a1 : OutSt) (c : Chip) : (setOut a0 a1 c).isl = c.isl := rfl
@[simp] theorem setOut_cwy (a0 : Nat) (a1 : OutSt) (c : Chip) : (setOut a0 a1 c).cwy = c.cwy := rfl
@[simp] theorem setOut_ctx (a0 : Nat) (a1 : OutSt) (c : Chip) : (setOut a0 a1 c).ctx = c.ctx := rfl
@[simp] theorem setOut_line (a0 : Nat) (a1 : OutSt) (c : Chip) : (setOut a0 a1 c).line = c.line := rfl
@[simp] theorem setOut_power (a0 : Nat) (a1 : OutSt) (c : Chip) : (setOut a0 a1 c).power = c.power := rfl
@[simp] theorem setOut_dfx (a0 : Nat) (a1 : OutSt) (c : Chip) : (setOut a0 a1 c).dfx = c.dfx := rfl
@[simp] theorem setOut_pm (a0 : Nat) (a1 : OutSt) (c : Chip) : (setOut a0 a1 c).pm = c.pm := rfl
@[simp] theorem setOut_prot (a0 : Nat) (a1 : OutSt) (c : Chip) : (setOut a0 a1 c).prot = c.prot := rfl
@[simp] theorem setOut_upd (a0 : Nat) (a1 : OutSt) (c : Chip) : (setOut a0 a1 c).upd = c.upd := rfl
@[simp] theorem setOut_pair (a0 : Nat) (a1 : OutSt) (c : Chip) : (setOut a0 a1 c).pair = c.pair := rfl
@[simp] theorem setOut_dep (a0 : Nat) (a1 : OutSt) (c : Chip) : (setOut a0 a1 c).dep = c.dep := rfl
@[simp] theorem setOut_free (a0 : Nat) (a1 : OutSt) (c : Chip) : (setOut a0 a1 c).free = c.free := rfl
@[simp] theorem setUpd_dev (a0 : UpdSt) (c : Chip) : (setUpd a0 c).dev = c.dev := rfl
@[simp] theorem setUpd_mb (a0 : UpdSt) (c : Chip) : (setUpd a0 c).mb = c.mb := rfl
@[simp] theorem setUpd_int (a0 : UpdSt) (c : Chip) : (setUpd a0 c).int = c.int := rfl
@[simp] theorem setUpd_nq (a0 : UpdSt) (c : Chip) : (setUpd a0 c).nq = c.nq := rfl
@[simp] theorem setUpd_oq (a0 : UpdSt) (c : Chip) : (setUpd a0 c).oq = c.oq := rfl
@[simp] theorem setUpd_notice (a0 : UpdSt) (c : Chip) : (setUpd a0 c).notice = c.notice := rfl
@[simp] theorem setUpd_taps (a0 : UpdSt) (c : Chip) : (setUpd a0 c).taps = c.taps := rfl
@[simp] theorem setUpd_host (a0 : UpdSt) (c : Chip) : (setUpd a0 c).host = c.host := rfl
@[simp] theorem setUpd_img (a0 : UpdSt) (c : Chip) : (setUpd a0 c).img = c.img := rfl
@[simp] theorem setUpd_cm (a0 : UpdSt) (c : Chip) : (setUpd a0 c).cm = c.cm := rfl
@[simp] theorem setUpd_jct (a0 : UpdSt) (c : Chip) : (setUpd a0 c).jct = c.jct := rfl
@[simp] theorem setUpd_eng (a0 : UpdSt) (c : Chip) : (setUpd a0 c).eng = c.eng := rfl
@[simp] theorem setUpd_isl (a0 : UpdSt) (c : Chip) : (setUpd a0 c).isl = c.isl := rfl
@[simp] theorem setUpd_cwy (a0 : UpdSt) (c : Chip) : (setUpd a0 c).cwy = c.cwy := rfl
@[simp] theorem setUpd_ctx (a0 : UpdSt) (c : Chip) : (setUpd a0 c).ctx = c.ctx := rfl
@[simp] theorem setUpd_line (a0 : UpdSt) (c : Chip) : (setUpd a0 c).line = c.line := rfl
@[simp] theorem setUpd_power (a0 : UpdSt) (c : Chip) : (setUpd a0 c).power = c.power := rfl
@[simp] theorem setUpd_dfx (a0 : UpdSt) (c : Chip) : (setUpd a0 c).dfx = c.dfx := rfl
@[simp] theorem setUpd_pm (a0 : UpdSt) (c : Chip) : (setUpd a0 c).pm = c.pm := rfl
@[simp] theorem setUpd_prot (a0 : UpdSt) (c : Chip) : (setUpd a0 c).prot = c.prot := rfl
@[simp] theorem setUpd_tim (a0 : UpdSt) (c : Chip) : (setUpd a0 c).tim = c.tim := rfl
@[simp] theorem setUpd_pair (a0 : UpdSt) (c : Chip) : (setUpd a0 c).pair = c.pair := rfl
@[simp] theorem setUpd_dep (a0 : UpdSt) (c : Chip) : (setUpd a0 c).dep = c.dep := rfl
@[simp] theorem setUpd_free (a0 : UpdSt) (c : Chip) : (setUpd a0 c).free = c.free := rfl
@[simp] theorem emit_dev (a0 : Output) (c : Chip) : (emit a0 c).dev = c.dev := rfl
@[simp] theorem emit_mb (a0 : Output) (c : Chip) : (emit a0 c).mb = c.mb := rfl
@[simp] theorem emit_int (a0 : Output) (c : Chip) : (emit a0 c).int = c.int := rfl
@[simp] theorem emit_nq (a0 : Output) (c : Chip) : (emit a0 c).nq = c.nq := rfl
@[simp] theorem emit_oq (a0 : Output) (c : Chip) : (emit a0 c).oq = c.oq := rfl
@[simp] theorem emit_notice (a0 : Output) (c : Chip) : (emit a0 c).notice = c.notice := rfl
@[simp] theorem emit_taps (a0 : Output) (c : Chip) : (emit a0 c).taps = c.taps := rfl
@[simp] theorem emit_img (a0 : Output) (c : Chip) : (emit a0 c).img = c.img := rfl
@[simp] theorem emit_cm (a0 : Output) (c : Chip) : (emit a0 c).cm = c.cm := rfl
@[simp] theorem emit_jct (a0 : Output) (c : Chip) : (emit a0 c).jct = c.jct := rfl
@[simp] theorem emit_eng (a0 : Output) (c : Chip) : (emit a0 c).eng = c.eng := rfl
@[simp] theorem emit_isl (a0 : Output) (c : Chip) : (emit a0 c).isl = c.isl := rfl
@[simp] theorem emit_cwy (a0 : Output) (c : Chip) : (emit a0 c).cwy = c.cwy := rfl
@[simp] theorem emit_ctx (a0 : Output) (c : Chip) : (emit a0 c).ctx = c.ctx := rfl
@[simp] theorem emit_line (a0 : Output) (c : Chip) : (emit a0 c).line = c.line := rfl
@[simp] theorem emit_power (a0 : Output) (c : Chip) : (emit a0 c).power = c.power := rfl
@[simp] theorem emit_dfx (a0 : Output) (c : Chip) : (emit a0 c).dfx = c.dfx := rfl
@[simp] theorem emit_pm (a0 : Output) (c : Chip) : (emit a0 c).pm = c.pm := rfl
@[simp] theorem emit_prot (a0 : Output) (c : Chip) : (emit a0 c).prot = c.prot := rfl
@[simp] theorem emit_tim (a0 : Output) (c : Chip) : (emit a0 c).tim = c.tim := rfl
@[simp] theorem emit_upd (a0 : Output) (c : Chip) : (emit a0 c).upd = c.upd := rfl
@[simp] theorem emit_pair (a0 : Output) (c : Chip) : (emit a0 c).pair = c.pair := rfl
@[simp] theorem emit_dep (a0 : Output) (c : Chip) : (emit a0 c).dep = c.dep := rfl
@[simp] theorem emit_free (a0 : Output) (c : Chip) : (emit a0 c).free = c.free := rfl
@[simp] theorem markDone_mb (a0 : Nat) (c : Chip) : (markDone a0 c).mb = c.mb := rfl
@[simp] theorem markDone_int (a0 : Nat) (c : Chip) : (markDone a0 c).int = c.int := rfl
@[simp] theorem markDone_nq (a0 : Nat) (c : Chip) : (markDone a0 c).nq = c.nq := rfl
@[simp] theorem markDone_oq (a0 : Nat) (c : Chip) : (markDone a0 c).oq = c.oq := rfl
@[simp] theorem markDone_notice (a0 : Nat) (c : Chip) : (markDone a0 c).notice = c.notice := rfl
@[simp] theorem markDone_taps (a0 : Nat) (c : Chip) : (markDone a0 c).taps = c.taps := rfl
@[simp] theorem markDone_host (a0 : Nat) (c : Chip) : (markDone a0 c).host = c.host := rfl
@[simp] theorem markDone_img (a0 : Nat) (c : Chip) : (markDone a0 c).img = c.img := rfl
@[simp] theorem markDone_cm (a0 : Nat) (c : Chip) : (markDone a0 c).cm = c.cm := rfl
@[simp] theorem markDone_jct (a0 : Nat) (c : Chip) : (markDone a0 c).jct = c.jct := rfl
@[simp] theorem markDone_eng (a0 : Nat) (c : Chip) : (markDone a0 c).eng = c.eng := rfl
@[simp] theorem markDone_isl (a0 : Nat) (c : Chip) : (markDone a0 c).isl = c.isl := rfl
@[simp] theorem markDone_cwy (a0 : Nat) (c : Chip) : (markDone a0 c).cwy = c.cwy := rfl
@[simp] theorem markDone_ctx (a0 : Nat) (c : Chip) : (markDone a0 c).ctx = c.ctx := rfl
@[simp] theorem markDone_line (a0 : Nat) (c : Chip) : (markDone a0 c).line = c.line := rfl
@[simp] theorem markDone_power (a0 : Nat) (c : Chip) : (markDone a0 c).power = c.power := rfl
@[simp] theorem markDone_dfx (a0 : Nat) (c : Chip) : (markDone a0 c).dfx = c.dfx := rfl
@[simp] theorem markDone_pm (a0 : Nat) (c : Chip) : (markDone a0 c).pm = c.pm := rfl
@[simp] theorem markDone_prot (a0 : Nat) (c : Chip) : (markDone a0 c).prot = c.prot := rfl
@[simp] theorem markDone_tim (a0 : Nat) (c : Chip) : (markDone a0 c).tim = c.tim := rfl
@[simp] theorem markDone_upd (a0 : Nat) (c : Chip) : (markDone a0 c).upd = c.upd := rfl
@[simp] theorem markDone_pair (a0 : Nat) (c : Chip) : (markDone a0 c).pair = c.pair := rfl
@[simp] theorem markDone_dep (a0 : Nat) (c : Chip) : (markDone a0 c).dep = c.dep := rfl
@[simp] theorem markDone_free (a0 : Nat) (c : Chip) : (markDone a0 c).free = c.free := rfl
@[simp] theorem updCtx_dev (a0 : Nat) (a1 : CtxSt → CtxSt) (c : Chip) : (updCtx a0 a1 c).dev = c.dev := dev_of_mask (l := [.ctx]) (by simp) (by decide)
@[simp] theorem updCtx_mb (a0 : Nat) (a1 : CtxSt → CtxSt) (c : Chip) : (updCtx a0 a1 c).mb = c.mb := mb_of_mask (l := [.ctx]) (by simp) (by decide)
@[simp] theorem updCtx_int (a0 : Nat) (a1 : CtxSt → CtxSt) (c : Chip) : (updCtx a0 a1 c).int = c.int := int_of_mask (l := [.ctx]) (by simp) (by decide)
@[simp] theorem updCtx_nq (a0 : Nat) (a1 : CtxSt → CtxSt) (c : Chip) : (updCtx a0 a1 c).nq = c.nq := nq_of_mask (l := [.ctx]) (by simp) (by decide)
@[simp] theorem updCtx_oq (a0 : Nat) (a1 : CtxSt → CtxSt) (c : Chip) : (updCtx a0 a1 c).oq = c.oq := oq_of_mask (l := [.ctx]) (by simp) (by decide)
@[simp] theorem updCtx_notice (a0 : Nat) (a1 : CtxSt → CtxSt) (c : Chip) : (updCtx a0 a1 c).notice = c.notice := notice_of_mask (l := [.ctx]) (by simp) (by decide)
@[simp] theorem updCtx_taps (a0 : Nat) (a1 : CtxSt → CtxSt) (c : Chip) : (updCtx a0 a1 c).taps = c.taps := taps_of_mask (l := [.ctx]) (by simp) (by decide)
@[simp] theorem updCtx_host (a0 : Nat) (a1 : CtxSt → CtxSt) (c : Chip) : (updCtx a0 a1 c).host = c.host := host_of_mask (l := [.ctx]) (by simp) (by decide)
@[simp] theorem updCtx_img (a0 : Nat) (a1 : CtxSt → CtxSt) (c : Chip) : (updCtx a0 a1 c).img = c.img := img_of_mask (l := [.ctx]) (by simp) (by decide)
@[simp] theorem updCtx_cm (a0 : Nat) (a1 : CtxSt → CtxSt) (c : Chip) : (updCtx a0 a1 c).cm = c.cm := cm_of_mask (l := [.ctx]) (by simp) (by decide)
@[simp] theorem updCtx_jct (a0 : Nat) (a1 : CtxSt → CtxSt) (c : Chip) : (updCtx a0 a1 c).jct = c.jct := jct_of_mask (l := [.ctx]) (by simp) (by decide)
@[simp] theorem updCtx_eng (a0 : Nat) (a1 : CtxSt → CtxSt) (c : Chip) : (updCtx a0 a1 c).eng = c.eng := eng_of_mask (l := [.ctx]) (by simp) (by decide)
@[simp] theorem updCtx_isl (a0 : Nat) (a1 : CtxSt → CtxSt) (c : Chip) : (updCtx a0 a1 c).isl = c.isl := isl_of_mask (l := [.ctx]) (by simp) (by decide)
@[simp] theorem updCtx_cwy (a0 : Nat) (a1 : CtxSt → CtxSt) (c : Chip) : (updCtx a0 a1 c).cwy = c.cwy := cwy_of_mask (l := [.ctx]) (by simp) (by decide)
@[simp] theorem updCtx_line (a0 : Nat) (a1 : CtxSt → CtxSt) (c : Chip) : (updCtx a0 a1 c).line = c.line := line_of_mask (l := [.ctx]) (by simp) (by decide)
@[simp] theorem updCtx_power (a0 : Nat) (a1 : CtxSt → CtxSt) (c : Chip) : (updCtx a0 a1 c).power = c.power := power_of_mask (l := [.ctx]) (by simp) (by decide)
@[simp] theorem updCtx_dfx (a0 : Nat) (a1 : CtxSt → CtxSt) (c : Chip) : (updCtx a0 a1 c).dfx = c.dfx := dfx_of_mask (l := [.ctx]) (by simp) (by decide)
@[simp] theorem updCtx_pm (a0 : Nat) (a1 : CtxSt → CtxSt) (c : Chip) : (updCtx a0 a1 c).pm = c.pm := pm_of_mask (l := [.ctx]) (by simp) (by decide)
@[simp] theorem updCtx_prot (a0 : Nat) (a1 : CtxSt → CtxSt) (c : Chip) : (updCtx a0 a1 c).prot = c.prot := prot_of_mask (l := [.ctx]) (by simp) (by decide)
@[simp] theorem updCtx_tim (a0 : Nat) (a1 : CtxSt → CtxSt) (c : Chip) : (updCtx a0 a1 c).tim = c.tim := tim_of_mask (l := [.ctx]) (by simp) (by decide)
@[simp] theorem updCtx_upd (a0 : Nat) (a1 : CtxSt → CtxSt) (c : Chip) : (updCtx a0 a1 c).upd = c.upd := upd_of_mask (l := [.ctx]) (by simp) (by decide)
@[simp] theorem updCtx_pair (a0 : Nat) (a1 : CtxSt → CtxSt) (c : Chip) : (updCtx a0 a1 c).pair = c.pair := pair_of_mask (l := [.ctx]) (by simp) (by decide)
@[simp] theorem updCtx_dep (a0 : Nat) (a1 : CtxSt → CtxSt) (c : Chip) : (updCtx a0 a1 c).dep = c.dep := dep_of_mask (l := [.ctx]) (by simp) (by decide)
@[simp] theorem updCtx_free (a0 : Nat) (a1 : CtxSt → CtxSt) (c : Chip) : (updCtx a0 a1 c).free = c.free := free_of_mask (l := [.ctx]) (by simp) (by decide)
@[simp] theorem updDp_dev (a0 : Nat) (a1 : DpSt → DpSt) (c : Chip) : (updDp a0 a1 c).dev = c.dev := dev_of_mask (l := [.tim]) (by simp) (by decide)
@[simp] theorem updDp_mb (a0 : Nat) (a1 : DpSt → DpSt) (c : Chip) : (updDp a0 a1 c).mb = c.mb := mb_of_mask (l := [.tim]) (by simp) (by decide)
@[simp] theorem updDp_int (a0 : Nat) (a1 : DpSt → DpSt) (c : Chip) : (updDp a0 a1 c).int = c.int := int_of_mask (l := [.tim]) (by simp) (by decide)
@[simp] theorem updDp_nq (a0 : Nat) (a1 : DpSt → DpSt) (c : Chip) : (updDp a0 a1 c).nq = c.nq := nq_of_mask (l := [.tim]) (by simp) (by decide)
@[simp] theorem updDp_oq (a0 : Nat) (a1 : DpSt → DpSt) (c : Chip) : (updDp a0 a1 c).oq = c.oq := oq_of_mask (l := [.tim]) (by simp) (by decide)
@[simp] theorem updDp_notice (a0 : Nat) (a1 : DpSt → DpSt) (c : Chip) : (updDp a0 a1 c).notice = c.notice := notice_of_mask (l := [.tim]) (by simp) (by decide)
@[simp] theorem updDp_taps (a0 : Nat) (a1 : DpSt → DpSt) (c : Chip) : (updDp a0 a1 c).taps = c.taps := taps_of_mask (l := [.tim]) (by simp) (by decide)
@[simp] theorem updDp_host (a0 : Nat) (a1 : DpSt → DpSt) (c : Chip) : (updDp a0 a1 c).host = c.host := host_of_mask (l := [.tim]) (by simp) (by decide)
@[simp] theorem updDp_img (a0 : Nat) (a1 : DpSt → DpSt) (c : Chip) : (updDp a0 a1 c).img = c.img := img_of_mask (l := [.tim]) (by simp) (by decide)
@[simp] theorem updDp_cm (a0 : Nat) (a1 : DpSt → DpSt) (c : Chip) : (updDp a0 a1 c).cm = c.cm := cm_of_mask (l := [.tim]) (by simp) (by decide)
@[simp] theorem updDp_jct (a0 : Nat) (a1 : DpSt → DpSt) (c : Chip) : (updDp a0 a1 c).jct = c.jct := jct_of_mask (l := [.tim]) (by simp) (by decide)
@[simp] theorem updDp_eng (a0 : Nat) (a1 : DpSt → DpSt) (c : Chip) : (updDp a0 a1 c).eng = c.eng := eng_of_mask (l := [.tim]) (by simp) (by decide)
@[simp] theorem updDp_isl (a0 : Nat) (a1 : DpSt → DpSt) (c : Chip) : (updDp a0 a1 c).isl = c.isl := isl_of_mask (l := [.tim]) (by simp) (by decide)
@[simp] theorem updDp_cwy (a0 : Nat) (a1 : DpSt → DpSt) (c : Chip) : (updDp a0 a1 c).cwy = c.cwy := cwy_of_mask (l := [.tim]) (by simp) (by decide)
@[simp] theorem updDp_ctx (a0 : Nat) (a1 : DpSt → DpSt) (c : Chip) : (updDp a0 a1 c).ctx = c.ctx := ctx_of_mask (l := [.tim]) (by simp) (by decide)
@[simp] theorem updDp_line (a0 : Nat) (a1 : DpSt → DpSt) (c : Chip) : (updDp a0 a1 c).line = c.line := line_of_mask (l := [.tim]) (by simp) (by decide)
@[simp] theorem updDp_power (a0 : Nat) (a1 : DpSt → DpSt) (c : Chip) : (updDp a0 a1 c).power = c.power := power_of_mask (l := [.tim]) (by simp) (by decide)
@[simp] theorem updDp_dfx (a0 : Nat) (a1 : DpSt → DpSt) (c : Chip) : (updDp a0 a1 c).dfx = c.dfx := dfx_of_mask (l := [.tim]) (by simp) (by decide)
@[simp] theorem updDp_pm (a0 : Nat) (a1 : DpSt → DpSt) (c : Chip) : (updDp a0 a1 c).pm = c.pm := pm_of_mask (l := [.tim]) (by simp) (by decide)
@[simp] theorem updDp_prot (a0 : Nat) (a1 : DpSt → DpSt) (c : Chip) : (updDp a0 a1 c).prot = c.prot := prot_of_mask (l := [.tim]) (by simp) (by decide)
@[simp] theorem updDp_upd (a0 : Nat) (a1 : DpSt → DpSt) (c : Chip) : (updDp a0 a1 c).upd = c.upd := upd_of_mask (l := [.tim]) (by simp) (by decide)
@[simp] theorem updDp_pair (a0 : Nat) (a1 : DpSt → DpSt) (c : Chip) : (updDp a0 a1 c).pair = c.pair := pair_of_mask (l := [.tim]) (by simp) (by decide)
@[simp] theorem updDp_dep (a0 : Nat) (a1 : DpSt → DpSt) (c : Chip) : (updDp a0 a1 c).dep = c.dep := dep_of_mask (l := [.tim]) (by simp) (by decide)
@[simp] theorem updDp_free (a0 : Nat) (a1 : DpSt → DpSt) (c : Chip) : (updDp a0 a1 c).free = c.free := free_of_mask (l := [.tim]) (by simp) (by decide)
@[simp] theorem updIn_dev (a0 : Nat) (a1 : InSt → InSt) (c : Chip) : (updIn a0 a1 c).dev = c.dev := dev_of_mask (l := [.tim]) (by simp) (by decide)
@[simp] theorem updIn_mb (a0 : Nat) (a1 : InSt → InSt) (c : Chip) : (updIn a0 a1 c).mb = c.mb := mb_of_mask (l := [.tim]) (by simp) (by decide)
@[simp] theorem updIn_int (a0 : Nat) (a1 : InSt → InSt) (c : Chip) : (updIn a0 a1 c).int = c.int := int_of_mask (l := [.tim]) (by simp) (by decide)
@[simp] theorem updIn_nq (a0 : Nat) (a1 : InSt → InSt) (c : Chip) : (updIn a0 a1 c).nq = c.nq := nq_of_mask (l := [.tim]) (by simp) (by decide)
@[simp] theorem updIn_oq (a0 : Nat) (a1 : InSt → InSt) (c : Chip) : (updIn a0 a1 c).oq = c.oq := oq_of_mask (l := [.tim]) (by simp) (by decide)
@[simp] theorem updIn_notice (a0 : Nat) (a1 : InSt → InSt) (c : Chip) : (updIn a0 a1 c).notice = c.notice := notice_of_mask (l := [.tim]) (by simp) (by decide)
@[simp] theorem updIn_taps (a0 : Nat) (a1 : InSt → InSt) (c : Chip) : (updIn a0 a1 c).taps = c.taps := taps_of_mask (l := [.tim]) (by simp) (by decide)
@[simp] theorem updIn_host (a0 : Nat) (a1 : InSt → InSt) (c : Chip) : (updIn a0 a1 c).host = c.host := host_of_mask (l := [.tim]) (by simp) (by decide)
@[simp] theorem updIn_img (a0 : Nat) (a1 : InSt → InSt) (c : Chip) : (updIn a0 a1 c).img = c.img := img_of_mask (l := [.tim]) (by simp) (by decide)
@[simp] theorem updIn_cm (a0 : Nat) (a1 : InSt → InSt) (c : Chip) : (updIn a0 a1 c).cm = c.cm := cm_of_mask (l := [.tim]) (by simp) (by decide)
@[simp] theorem updIn_jct (a0 : Nat) (a1 : InSt → InSt) (c : Chip) : (updIn a0 a1 c).jct = c.jct := jct_of_mask (l := [.tim]) (by simp) (by decide)
@[simp] theorem updIn_eng (a0 : Nat) (a1 : InSt → InSt) (c : Chip) : (updIn a0 a1 c).eng = c.eng := eng_of_mask (l := [.tim]) (by simp) (by decide)
@[simp] theorem updIn_isl (a0 : Nat) (a1 : InSt → InSt) (c : Chip) : (updIn a0 a1 c).isl = c.isl := isl_of_mask (l := [.tim]) (by simp) (by decide)
@[simp] theorem updIn_cwy (a0 : Nat) (a1 : InSt → InSt) (c : Chip) : (updIn a0 a1 c).cwy = c.cwy := cwy_of_mask (l := [.tim]) (by simp) (by decide)
@[simp] theorem updIn_ctx (a0 : Nat) (a1 : InSt → InSt) (c : Chip) : (updIn a0 a1 c).ctx = c.ctx := ctx_of_mask (l := [.tim]) (by simp) (by decide)
@[simp] theorem updIn_line (a0 : Nat) (a1 : InSt → InSt) (c : Chip) : (updIn a0 a1 c).line = c.line := line_of_mask (l := [.tim]) (by simp) (by decide)
@[simp] theorem updIn_power (a0 : Nat) (a1 : InSt → InSt) (c : Chip) : (updIn a0 a1 c).power = c.power := power_of_mask (l := [.tim]) (by simp) (by decide)
@[simp] theorem updIn_dfx (a0 : Nat) (a1 : InSt → InSt) (c : Chip) : (updIn a0 a1 c).dfx = c.dfx := dfx_of_mask (l := [.tim]) (by simp) (by decide)
@[simp] theorem updIn_pm (a0 : Nat) (a1 : InSt → InSt) (c : Chip) : (updIn a0 a1 c).pm = c.pm := pm_of_mask (l := [.tim]) (by simp) (by decide)
@[simp] theorem updIn_prot (a0 : Nat) (a1 : InSt → InSt) (c : Chip) : (updIn a0 a1 c).prot = c.prot := prot_of_mask (l := [.tim]) (by simp) (by decide)
@[simp] theorem updIn_upd (a0 : Nat) (a1 : InSt → InSt) (c : Chip) : (updIn a0 a1 c).upd = c.upd := upd_of_mask (l := [.tim]) (by simp) (by decide)
@[simp] theorem updIn_pair (a0 : Nat) (a1 : InSt → InSt) (c : Chip) : (updIn a0 a1 c).pair = c.pair := pair_of_mask (l := [.tim]) (by simp) (by decide)
@[simp] theorem updIn_dep (a0 : Nat) (a1 : InSt → InSt) (c : Chip) : (updIn a0 a1 c).dep = c.dep := dep_of_mask (l := [.tim]) (by simp) (by decide)
@[simp] theorem updIn_free (a0 : Nat) (a1 : InSt → InSt) (c : Chip) : (updIn a0 a1 c).free = c.free := free_of_mask (l := [.tim]) (by simp) (by decide)
@[simp] theorem updGrp_dev (a0 : Nat) (a1 : GrpSt → GrpSt) (c : Chip) : (updGrp a0 a1 c).dev = c.dev := dev_of_mask (l := [.prot]) (by simp) (by decide)
@[simp] theorem updGrp_mb (a0 : Nat) (a1 : GrpSt → GrpSt) (c : Chip) : (updGrp a0 a1 c).mb = c.mb := mb_of_mask (l := [.prot]) (by simp) (by decide)
@[simp] theorem updGrp_int (a0 : Nat) (a1 : GrpSt → GrpSt) (c : Chip) : (updGrp a0 a1 c).int = c.int := int_of_mask (l := [.prot]) (by simp) (by decide)
@[simp] theorem updGrp_nq (a0 : Nat) (a1 : GrpSt → GrpSt) (c : Chip) : (updGrp a0 a1 c).nq = c.nq := nq_of_mask (l := [.prot]) (by simp) (by decide)
@[simp] theorem updGrp_oq (a0 : Nat) (a1 : GrpSt → GrpSt) (c : Chip) : (updGrp a0 a1 c).oq = c.oq := oq_of_mask (l := [.prot]) (by simp) (by decide)
@[simp] theorem updGrp_notice (a0 : Nat) (a1 : GrpSt → GrpSt) (c : Chip) : (updGrp a0 a1 c).notice = c.notice := notice_of_mask (l := [.prot]) (by simp) (by decide)
@[simp] theorem updGrp_taps (a0 : Nat) (a1 : GrpSt → GrpSt) (c : Chip) : (updGrp a0 a1 c).taps = c.taps := taps_of_mask (l := [.prot]) (by simp) (by decide)
@[simp] theorem updGrp_host (a0 : Nat) (a1 : GrpSt → GrpSt) (c : Chip) : (updGrp a0 a1 c).host = c.host := host_of_mask (l := [.prot]) (by simp) (by decide)
@[simp] theorem updGrp_img (a0 : Nat) (a1 : GrpSt → GrpSt) (c : Chip) : (updGrp a0 a1 c).img = c.img := img_of_mask (l := [.prot]) (by simp) (by decide)
@[simp] theorem updGrp_cm (a0 : Nat) (a1 : GrpSt → GrpSt) (c : Chip) : (updGrp a0 a1 c).cm = c.cm := cm_of_mask (l := [.prot]) (by simp) (by decide)
@[simp] theorem updGrp_jct (a0 : Nat) (a1 : GrpSt → GrpSt) (c : Chip) : (updGrp a0 a1 c).jct = c.jct := jct_of_mask (l := [.prot]) (by simp) (by decide)
@[simp] theorem updGrp_eng (a0 : Nat) (a1 : GrpSt → GrpSt) (c : Chip) : (updGrp a0 a1 c).eng = c.eng := eng_of_mask (l := [.prot]) (by simp) (by decide)
@[simp] theorem updGrp_isl (a0 : Nat) (a1 : GrpSt → GrpSt) (c : Chip) : (updGrp a0 a1 c).isl = c.isl := isl_of_mask (l := [.prot]) (by simp) (by decide)
@[simp] theorem updGrp_cwy (a0 : Nat) (a1 : GrpSt → GrpSt) (c : Chip) : (updGrp a0 a1 c).cwy = c.cwy := cwy_of_mask (l := [.prot]) (by simp) (by decide)
@[simp] theorem updGrp_ctx (a0 : Nat) (a1 : GrpSt → GrpSt) (c : Chip) : (updGrp a0 a1 c).ctx = c.ctx := ctx_of_mask (l := [.prot]) (by simp) (by decide)
@[simp] theorem updGrp_line (a0 : Nat) (a1 : GrpSt → GrpSt) (c : Chip) : (updGrp a0 a1 c).line = c.line := line_of_mask (l := [.prot]) (by simp) (by decide)
@[simp] theorem updGrp_power (a0 : Nat) (a1 : GrpSt → GrpSt) (c : Chip) : (updGrp a0 a1 c).power = c.power := power_of_mask (l := [.prot]) (by simp) (by decide)
@[simp] theorem updGrp_dfx (a0 : Nat) (a1 : GrpSt → GrpSt) (c : Chip) : (updGrp a0 a1 c).dfx = c.dfx := dfx_of_mask (l := [.prot]) (by simp) (by decide)
@[simp] theorem updGrp_pm (a0 : Nat) (a1 : GrpSt → GrpSt) (c : Chip) : (updGrp a0 a1 c).pm = c.pm := pm_of_mask (l := [.prot]) (by simp) (by decide)
@[simp] theorem updGrp_tim (a0 : Nat) (a1 : GrpSt → GrpSt) (c : Chip) : (updGrp a0 a1 c).tim = c.tim := tim_of_mask (l := [.prot]) (by simp) (by decide)
@[simp] theorem updGrp_upd (a0 : Nat) (a1 : GrpSt → GrpSt) (c : Chip) : (updGrp a0 a1 c).upd = c.upd := upd_of_mask (l := [.prot]) (by simp) (by decide)
@[simp] theorem updGrp_pair (a0 : Nat) (a1 : GrpSt → GrpSt) (c : Chip) : (updGrp a0 a1 c).pair = c.pair := pair_of_mask (l := [.prot]) (by simp) (by decide)
@[simp] theorem updGrp_dep (a0 : Nat) (a1 : GrpSt → GrpSt) (c : Chip) : (updGrp a0 a1 c).dep = c.dep := dep_of_mask (l := [.prot]) (by simp) (by decide)
@[simp] theorem updGrp_free (a0 : Nat) (a1 : GrpSt → GrpSt) (c : Chip) : (updGrp a0 a1 c).free = c.free := free_of_mask (l := [.prot]) (by simp) (by decide)
@[simp] theorem setInt_dev (a0 : Nat) (c : Chip) : (setInt a0 c).dev = c.dev := dev_of_mask (l := [.int, .host]) (by simp) (by decide)
@[simp] theorem setInt_mb (a0 : Nat) (c : Chip) : (setInt a0 c).mb = c.mb := mb_of_mask (l := [.int, .host]) (by simp) (by decide)
@[simp] theorem setInt_nq (a0 : Nat) (c : Chip) : (setInt a0 c).nq = c.nq := nq_of_mask (l := [.int, .host]) (by simp) (by decide)
@[simp] theorem setInt_oq (a0 : Nat) (c : Chip) : (setInt a0 c).oq = c.oq := oq_of_mask (l := [.int, .host]) (by simp) (by decide)
@[simp] theorem setInt_notice (a0 : Nat) (c : Chip) : (setInt a0 c).notice = c.notice := notice_of_mask (l := [.int, .host]) (by simp) (by decide)
@[simp] theorem setInt_taps (a0 : Nat) (c : Chip) : (setInt a0 c).taps = c.taps := taps_of_mask (l := [.int, .host]) (by simp) (by decide)
@[simp] theorem setInt_img (a0 : Nat) (c : Chip) : (setInt a0 c).img = c.img := img_of_mask (l := [.int, .host]) (by simp) (by decide)
@[simp] theorem setInt_cm (a0 : Nat) (c : Chip) : (setInt a0 c).cm = c.cm := cm_of_mask (l := [.int, .host]) (by simp) (by decide)
@[simp] theorem setInt_jct (a0 : Nat) (c : Chip) : (setInt a0 c).jct = c.jct := jct_of_mask (l := [.int, .host]) (by simp) (by decide)
@[simp] theorem setInt_eng (a0 : Nat) (c : Chip) : (setInt a0 c).eng = c.eng := eng_of_mask (l := [.int, .host]) (by simp) (by decide)
@[simp] theorem setInt_isl (a0 : Nat) (c : Chip) : (setInt a0 c).isl = c.isl := isl_of_mask (l := [.int, .host]) (by simp) (by decide)
@[simp] theorem setInt_cwy (a0 : Nat) (c : Chip) : (setInt a0 c).cwy = c.cwy := cwy_of_mask (l := [.int, .host]) (by simp) (by decide)
@[simp] theorem setInt_ctx (a0 : Nat) (c : Chip) : (setInt a0 c).ctx = c.ctx := ctx_of_mask (l := [.int, .host]) (by simp) (by decide)
@[simp] theorem setInt_line (a0 : Nat) (c : Chip) : (setInt a0 c).line = c.line := line_of_mask (l := [.int, .host]) (by simp) (by decide)
@[simp] theorem setInt_power (a0 : Nat) (c : Chip) : (setInt a0 c).power = c.power := power_of_mask (l := [.int, .host]) (by simp) (by decide)
@[simp] theorem setInt_dfx (a0 : Nat) (c : Chip) : (setInt a0 c).dfx = c.dfx := dfx_of_mask (l := [.int, .host]) (by simp) (by decide)
@[simp] theorem setInt_pm (a0 : Nat) (c : Chip) : (setInt a0 c).pm = c.pm := pm_of_mask (l := [.int, .host]) (by simp) (by decide)
@[simp] theorem setInt_prot (a0 : Nat) (c : Chip) : (setInt a0 c).prot = c.prot := prot_of_mask (l := [.int, .host]) (by simp) (by decide)
@[simp] theorem setInt_tim (a0 : Nat) (c : Chip) : (setInt a0 c).tim = c.tim := tim_of_mask (l := [.int, .host]) (by simp) (by decide)
@[simp] theorem setInt_upd (a0 : Nat) (c : Chip) : (setInt a0 c).upd = c.upd := upd_of_mask (l := [.int, .host]) (by simp) (by decide)
@[simp] theorem setInt_pair (a0 : Nat) (c : Chip) : (setInt a0 c).pair = c.pair := pair_of_mask (l := [.int, .host]) (by simp) (by decide)
@[simp] theorem setInt_dep (a0 : Nat) (c : Chip) : (setInt a0 c).dep = c.dep := dep_of_mask (l := [.int, .host]) (by simp) (by decide)
@[simp] theorem setInt_free (a0 : Nat) (c : Chip) : (setInt a0 c).free = c.free := free_of_mask (l := [.int, .host]) (by simp) (by decide)
@[simp] theorem sendVector_dev (a0 : Nat) (c : Chip) : (sendVector a0 c).dev = c.dev := dev_of_mask (l := [.int, .host]) (by simp) (by decide)
@[simp] theorem sendVector_mb (a0 : Nat) (c : Chip) : (sendVector a0 c).mb = c.mb := mb_of_mask (l := [.int, .host]) (by simp) (by decide)
@[simp] theorem sendVector_nq (a0 : Nat) (c : Chip) : (sendVector a0 c).nq = c.nq := nq_of_mask (l := [.int, .host]) (by simp) (by decide)
@[simp] theorem sendVector_oq (a0 : Nat) (c : Chip) : (sendVector a0 c).oq = c.oq := oq_of_mask (l := [.int, .host]) (by simp) (by decide)
@[simp] theorem sendVector_notice (a0 : Nat) (c : Chip) : (sendVector a0 c).notice = c.notice := notice_of_mask (l := [.int, .host]) (by simp) (by decide)
@[simp] theorem sendVector_taps (a0 : Nat) (c : Chip) : (sendVector a0 c).taps = c.taps := taps_of_mask (l := [.int, .host]) (by simp) (by decide)
@[simp] theorem sendVector_img (a0 : Nat) (c : Chip) : (sendVector a0 c).img = c.img := img_of_mask (l := [.int, .host]) (by simp) (by decide)
@[simp] theorem sendVector_cm (a0 : Nat) (c : Chip) : (sendVector a0 c).cm = c.cm := cm_of_mask (l := [.int, .host]) (by simp) (by decide)
@[simp] theorem sendVector_jct (a0 : Nat) (c : Chip) : (sendVector a0 c).jct = c.jct := jct_of_mask (l := [.int, .host]) (by simp) (by decide)
@[simp] theorem sendVector_eng (a0 : Nat) (c : Chip) : (sendVector a0 c).eng = c.eng := eng_of_mask (l := [.int, .host]) (by simp) (by decide)
@[simp] theorem sendVector_isl (a0 : Nat) (c : Chip) : (sendVector a0 c).isl = c.isl := isl_of_mask (l := [.int, .host]) (by simp) (by decide)
@[simp] theorem sendVector_cwy (a0 : Nat) (c : Chip) : (sendVector a0 c).cwy = c.cwy := cwy_of_mask (l := [.int, .host]) (by simp) (by decide)
@[simp] theorem sendVector_ctx (a0 : Nat) (c : Chip) : (sendVector a0 c).ctx = c.ctx := ctx_of_mask (l := [.int, .host]) (by simp) (by decide)
@[simp] theorem sendVector_line (a0 : Nat) (c : Chip) : (sendVector a0 c).line = c.line := line_of_mask (l := [.int, .host]) (by simp) (by decide)
@[simp] theorem sendVector_power (a0 : Nat) (c : Chip) : (sendVector a0 c).power = c.power := power_of_mask (l := [.int, .host]) (by simp) (by decide)
@[simp] theorem sendVector_dfx (a0 : Nat) (c : Chip) : (sendVector a0 c).dfx = c.dfx := dfx_of_mask (l := [.int, .host]) (by simp) (by decide)
@[simp] theorem sendVector_pm (a0 : Nat) (c : Chip) : (sendVector a0 c).pm = c.pm := pm_of_mask (l := [.int, .host]) (by simp) (by decide)
@[simp] theorem sendVector_prot (a0 : Nat) (c : Chip) : (sendVector a0 c).prot = c.prot := prot_of_mask (l := [.int, .host]) (by simp) (by decide)
@[simp] theorem sendVector_tim (a0 : Nat) (c : Chip) : (sendVector a0 c).tim = c.tim := tim_of_mask (l := [.int, .host]) (by simp) (by decide)
@[simp] theorem sendVector_upd (a0 : Nat) (c : Chip) : (sendVector a0 c).upd = c.upd := upd_of_mask (l := [.int, .host]) (by simp) (by decide)
@[simp] theorem sendVector_pair (a0 : Nat) (c : Chip) : (sendVector a0 c).pair = c.pair := pair_of_mask (l := [.int, .host]) (by simp) (by decide)
@[simp] theorem sendVector_dep (a0 : Nat) (c : Chip) : (sendVector a0 c).dep = c.dep := dep_of_mask (l := [.int, .host]) (by simp) (by decide)
@[simp] theorem sendVector_free (a0 : Nat) (c : Chip) : (sendVector a0 c).free = c.free := free_of_mask (l := [.int, .host]) (by simp) (by decide)
@[simp] theorem resend_dev  (c : Chip) : (resend  c).dev = c.dev := dev_of_mask (l := [.int, .host]) (by simp) (by decide)
@[simp] theorem resend_mb  (c : Chip) : (resend  c).mb = c.mb := mb_of_mask (l := [.int, .host]) (by simp) (by decide)
@[simp] theorem resend_nq  (c : Chip) : (resend  c).nq = c.nq := nq_of_mask (l := [.int, .host]) (by simp) (by decide)
@[simp] theorem resend_oq  (c : Chip) : (resend  c).oq = c.oq := oq_of_mask (l := [.int, .host]) (by simp) (by decide)
@[simp] theorem resend_notice  (c : Chip) : (resend  c).notice = c.notice := notice_of_mask (l := [.int, .host]) (by simp) (by decide)
@[simp] theorem resend_taps  (c : Chip) : (resend  c).taps = c.taps := taps_of_mask (l := [.int, .host]) (by simp) (by decide)
@[simp] theorem resend_img  (c : Chip) : (resend  c).img = c.img := img_of_mask (l := [.int, .host]) (by simp) (by decide)
@[simp] theorem resend_cm  (c : Chip) : (resend  c).cm = c.cm := cm_of_mask (l := [.int, .host]) (by simp) (by decide)
@[simp] theorem resend_jct  (c : Chip) : (resend  c).jct = c.jct := jct_of_mask (l := [.int, .host]) (by simp) (by decide)
@[simp] theorem resend_eng  (c : Chip) : (resend  c).eng = c.eng := eng_of_mask (l := [.int, .host]) (by simp) (by decide)
@[simp] theorem resend_isl  (c : Chip) : (resend  c).isl = c.isl := isl_of_mask (l := [.int, .host]) (by simp) (by decide)
@[simp] theorem resend_cwy  (c : Chip) : (resend  c).cwy = c.cwy := cwy_of_mask (l := [.int, .host]) (by simp) (by decide)
@[simp] theorem resend_ctx  (c : Chip) : (resend  c).ctx = c.ctx := ctx_of_mask (l := [.int, .host]) (by simp) (by decide)
@[simp] theorem resend_line  (c : Chip) : (resend  c).line = c.line := line_of_mask (l := [.int, .host]) (by simp) (by decide)
@[simp] theorem resend_power  (c : Chip) : (resend  c).power = c.power := power_of_mask (l := [.int, .host]) (by simp) (by decide)
@[simp] theorem resend_dfx  (c : Chip) : (resend  c).dfx = c.dfx := dfx_of_mask (l := [.int, .host]) (by simp) (by decide)
@[simp] theorem resend_pm  (c : Chip) : (resend  c).pm = c.pm := pm_of_mask (l := [.int, .host]) (by simp) (by decide)
@[simp] theorem resend_prot  (c : Chip) : (resend  c).prot = c.prot := prot_of_mask (l := [.int, .host]) (by simp) (by decide)
@[simp] theorem resend_tim  (c : Chip) : (resend  c).tim = c.tim := tim_of_mask (l := [.int, .host]) (by simp) (by decide)
@[simp] theorem resend_upd  (c : Chip) : (resend  c).upd = c.upd := upd_of_mask (l := [.int, .host]) (by simp) (by decide)
@[simp] theorem resend_pair  (c : Chip) : (resend  c).pair = c.pair := pair_of_mask (l := [.int, .host]) (by simp) (by decide)
@[simp] theorem resend_dep  (c : Chip) : (resend  c).dep = c.dep := dep_of_mask (l := [.int, .host]) (by simp) (by decide)
@[simp] theorem resend_free  (c : Chip) : (resend  c).free = c.free := free_of_mask (l := [.int, .host]) (by simp) (by decide)
@[simp] theorem setDev_mb (a0 : DevState) (c : Chip) : (setDev a0 c).mb = c.mb := mb_of_mask (l := [.dev, .int, .host]) (by simp) (by decide)
@[simp] theorem setDev_nq (a0 : DevState) (c : Chip) : (setDev a0 c).nq = c.nq := nq_of_mask (l := [.dev, .int, .host]) (by simp) (by decide)
@[simp] theorem setDev_oq (a0 : DevState) (c : Chip) : (setDev a0 c).oq = c.oq := oq_of_mask (l := [.dev, .int, .host]) (by simp) (by decide)
@[simp] theorem setDev_notice (a0 : DevState) (c : Chip) : (setDev a0 c).notice = c.notice := notice_of_mask (l := [.dev, .int, .host]) (by simp) (by decide)
@[simp] theorem setDev_taps (a0 : DevState) (c : Chip) : (setDev a0 c).taps = c.taps := taps_of_mask (l := [.dev, .int, .host]) (by simp) (by decide)
@[simp] theorem setDev_img (a0 : DevState) (c : Chip) : (setDev a0 c).img = c.img := img_of_mask (l := [.dev, .int, .host]) (by simp) (by decide)
@[simp] theorem setDev_cm (a0 : DevState) (c : Chip) : (setDev a0 c).cm = c.cm := cm_of_mask (l := [.dev, .int, .host]) (by simp) (by decide)
@[simp] theorem setDev_jct (a0 : DevState) (c : Chip) : (setDev a0 c).jct = c.jct := jct_of_mask (l := [.dev, .int, .host]) (by simp) (by decide)
@[simp] theorem setDev_eng (a0 : DevState) (c : Chip) : (setDev a0 c).eng = c.eng := eng_of_mask (l := [.dev, .int, .host]) (by simp) (by decide)
@[simp] theorem setDev_isl (a0 : DevState) (c : Chip) : (setDev a0 c).isl = c.isl := isl_of_mask (l := [.dev, .int, .host]) (by simp) (by decide)
@[simp] theorem setDev_cwy (a0 : DevState) (c : Chip) : (setDev a0 c).cwy = c.cwy := cwy_of_mask (l := [.dev, .int, .host]) (by simp) (by decide)
@[simp] theorem setDev_ctx (a0 : DevState) (c : Chip) : (setDev a0 c).ctx = c.ctx := ctx_of_mask (l := [.dev, .int, .host]) (by simp) (by decide)
@[simp] theorem setDev_line (a0 : DevState) (c : Chip) : (setDev a0 c).line = c.line := line_of_mask (l := [.dev, .int, .host]) (by simp) (by decide)
@[simp] theorem setDev_power (a0 : DevState) (c : Chip) : (setDev a0 c).power = c.power := power_of_mask (l := [.dev, .int, .host]) (by simp) (by decide)
@[simp] theorem setDev_dfx (a0 : DevState) (c : Chip) : (setDev a0 c).dfx = c.dfx := dfx_of_mask (l := [.dev, .int, .host]) (by simp) (by decide)
@[simp] theorem setDev_pm (a0 : DevState) (c : Chip) : (setDev a0 c).pm = c.pm := pm_of_mask (l := [.dev, .int, .host]) (by simp) (by decide)
@[simp] theorem setDev_prot (a0 : DevState) (c : Chip) : (setDev a0 c).prot = c.prot := prot_of_mask (l := [.dev, .int, .host]) (by simp) (by decide)
@[simp] theorem setDev_tim (a0 : DevState) (c : Chip) : (setDev a0 c).tim = c.tim := tim_of_mask (l := [.dev, .int, .host]) (by simp) (by decide)
@[simp] theorem setDev_upd (a0 : DevState) (c : Chip) : (setDev a0 c).upd = c.upd := upd_of_mask (l := [.dev, .int, .host]) (by simp) (by decide)
@[simp] theorem setDev_pair (a0 : DevState) (c : Chip) : (setDev a0 c).pair = c.pair := pair_of_mask (l := [.dev, .int, .host]) (by simp) (by decide)
@[simp] theorem setDev_dep (a0 : DevState) (c : Chip) : (setDev a0 c).dep = c.dep := dep_of_mask (l := [.dev, .int, .host]) (by simp) (by decide)
@[simp] theorem setDev_free (a0 : DevState) (c : Chip) : (setDev a0 c).free = c.free := free_of_mask (l := [.dev, .int, .host]) (by simp) (by decide)
@[simp] theorem countEvent_dev (a0 : Nat) (a1 : Nat) (a2 : Nat) (c : Chip) : (countEvent a0 a1 a2 c).dev = c.dev := dev_of_mask (l := [.dep]) (by simp) (by decide)
@[simp] theorem countEvent_mb (a0 : Nat) (a1 : Nat) (a2 : Nat) (c : Chip) : (countEvent a0 a1 a2 c).mb = c.mb := mb_of_mask (l := [.dep]) (by simp) (by decide)
@[simp] theorem countEvent_int (a0 : Nat) (a1 : Nat) (a2 : Nat) (c : Chip) : (countEvent a0 a1 a2 c).int = c.int := int_of_mask (l := [.dep]) (by simp) (by decide)
@[simp] theorem countEvent_nq (a0 : Nat) (a1 : Nat) (a2 : Nat) (c : Chip) : (countEvent a0 a1 a2 c).nq = c.nq := nq_of_mask (l := [.dep]) (by simp) (by decide)
@[simp] theorem countEvent_oq (a0 : Nat) (a1 : Nat) (a2 : Nat) (c : Chip) : (countEvent a0 a1 a2 c).oq = c.oq := oq_of_mask (l := [.dep]) (by simp) (by decide)
@[simp] theorem countEvent_notice (a0 : Nat) (a1 : Nat) (a2 : Nat) (c : Chip) : (countEvent a0 a1 a2 c).notice = c.notice := notice_of_mask (l := [.dep]) (by simp) (by decide)
@[simp] theorem countEvent_taps (a0 : Nat) (a1 : Nat) (a2 : Nat) (c : Chip) : (countEvent a0 a1 a2 c).taps = c.taps := taps_of_mask (l := [.dep]) (by simp) (by decide)
@[simp] theorem countEvent_host (a0 : Nat) (a1 : Nat) (a2 : Nat) (c : Chip) : (countEvent a0 a1 a2 c).host = c.host := host_of_mask (l := [.dep]) (by simp) (by decide)
@[simp] theorem countEvent_img (a0 : Nat) (a1 : Nat) (a2 : Nat) (c : Chip) : (countEvent a0 a1 a2 c).img = c.img := img_of_mask (l := [.dep]) (by simp) (by decide)
@[simp] theorem countEvent_cm (a0 : Nat) (a1 : Nat) (a2 : Nat) (c : Chip) : (countEvent a0 a1 a2 c).cm = c.cm := cm_of_mask (l := [.dep]) (by simp) (by decide)
@[simp] theorem countEvent_jct (a0 : Nat) (a1 : Nat) (a2 : Nat) (c : Chip) : (countEvent a0 a1 a2 c).jct = c.jct := jct_of_mask (l := [.dep]) (by simp) (by decide)
@[simp] theorem countEvent_eng (a0 : Nat) (a1 : Nat) (a2 : Nat) (c : Chip) : (countEvent a0 a1 a2 c).eng = c.eng := eng_of_mask (l := [.dep]) (by simp) (by decide)
@[simp] theorem countEvent_isl (a0 : Nat) (a1 : Nat) (a2 : Nat) (c : Chip) : (countEvent a0 a1 a2 c).isl = c.isl := isl_of_mask (l := [.dep]) (by simp) (by decide)
@[simp] theorem countEvent_cwy (a0 : Nat) (a1 : Nat) (a2 : Nat) (c : Chip) : (countEvent a0 a1 a2 c).cwy = c.cwy := cwy_of_mask (l := [.dep]) (by simp) (by decide)
@[simp] theorem countEvent_ctx (a0 : Nat) (a1 : Nat) (a2 : Nat) (c : Chip) : (countEvent a0 a1 a2 c).ctx = c.ctx := ctx_of_mask (l := [.dep]) (by simp) (by decide)
@[simp] theorem countEvent_line (a0 : Nat) (a1 : Nat) (a2 : Nat) (c : Chip) : (countEvent a0 a1 a2 c).line = c.line := line_of_mask (l := [.dep]) (by simp) (by decide)
@[simp] theorem countEvent_power (a0 : Nat) (a1 : Nat) (a2 : Nat) (c : Chip) : (countEvent a0 a1 a2 c).power = c.power := power_of_mask (l := [.dep]) (by simp) (by decide)
@[simp] theorem countEvent_dfx (a0 : Nat) (a1 : Nat) (a2 : Nat) (c : Chip) : (countEvent a0 a1 a2 c).dfx = c.dfx := dfx_of_mask (l := [.dep]) (by simp) (by decide)
@[simp] theorem countEvent_pm (a0 : Nat) (a1 : Nat) (a2 : Nat) (c : Chip) : (countEvent a0 a1 a2 c).pm = c.pm := pm_of_mask (l := [.dep]) (by simp) (by decide)
@[simp] theorem countEvent_prot (a0 : Nat) (a1 : Nat) (a2 : Nat) (c : Chip) : (countEvent a0 a1 a2 c).prot = c.prot := prot_of_mask (l := [.dep]) (by simp) (by decide)
@[simp] theorem countEvent_tim (a0 : Nat) (a1 : Nat) (a2 : Nat) (c : Chip) : (countEvent a0 a1 a2 c).tim = c.tim := tim_of_mask (l := [.dep]) (by simp) (by decide)
@[simp] theorem countEvent_upd (a0 : Nat) (a1 : Nat) (a2 : Nat) (c : Chip) : (countEvent a0 a1 a2 c).upd = c.upd := upd_of_mask (l := [.dep]) (by simp) (by decide)
@[simp] theorem countEvent_pair (a0 : Nat) (a1 : Nat) (a2 : Nat) (c : Chip) : (countEvent a0 a1 a2 c).pair = c.pair := pair_of_mask (l := [.dep]) (by simp) (by decide)
@[simp] theorem countEvent_free (a0 : Nat) (a1 : Nat) (a2 : Nat) (c : Chip) : (countEvent a0 a1 a2 c).free = c.free := free_of_mask (l := [.dep]) (by simp) (by decide)
@[simp] theorem drainNotices_dev  (c : Chip) : (drainNotices  c).dev = c.dev := dev_of_mask (l := [.nq, .notice, .dep]) (by simp) (by decide)
@[simp] theorem drainNotices_mb  (c : Chip) : (drainNotices  c).mb = c.mb := mb_of_mask (l := [.nq, .notice, .dep]) (by simp) (by decide)
@[simp] theorem drainNotices_int  (c : Chip) : (drainNotices  c).int = c.int := int_of_mask (l := [.nq, .notice, .dep]) (by simp) (by decide)
@[simp] theorem drainNotices_oq  (c : Chip) : (drainNotices  c).oq = c.oq := oq_of_mask (l := [.nq, .notice, .dep]) (by simp) (by decide)
@[simp] theorem drainNotices_taps  (c : Chip) : (drainNotices  c).taps = c.taps := taps_of_mask (l := [.nq, .notice, .dep]) (by simp) (by decide)
@[simp] theorem drainNotices_host  (c : Chip) : (drainNotices  c).host = c.host := host_of_mask (l := [.nq, .notice, .dep]) (by simp) (by decide)
@[simp] theorem drainNotices_img  (c : Chip) : (drainNotices  c).img = c.img := img_of_mask (l := [.nq, .notice, .dep]) (by simp) (by decide)
@[simp] theorem drainNotices_cm  (c : Chip) : (drainNotices  c).cm = c.cm := cm_of_mask (l := [.nq, .notice, .dep]) (by simp) (by decide)
@[simp] theorem drainNotices_jct  (c : Chip) : (drainNotices  c).jct = c.jct := jct_of_mask (l := [.nq, .notice, .dep]) (by simp) (by decide)
@[simp] theorem drainNotices_eng  (c : Chip) : (drainNotices  c).eng = c.eng := eng_of_mask (l := [.nq, .notice, .dep]) (by simp) (by decide)
@[simp] theorem drainNotices_isl  (c : Chip) : (drainNotices  c).isl = c.isl := isl_of_mask (l := [.nq, .notice, .dep]) (by simp) (by decide)
@[simp] theorem drainNotices_cwy  (c : Chip) : (drainNotices  c).cwy = c.cwy := cwy_of_mask (l := [.nq, .notice, .dep]) (by simp) (by decide)
@[simp] theorem drainNotices_ctx  (c : Chip) : (drainNotices  c).ctx = c.ctx := ctx_of_mask (l := [.nq, .notice, .dep]) (by simp) (by decide)
@[simp] theorem drainNotices_line  (c : Chip) : (drainNotices  c).line = c.line := line_of_mask (l := [.nq, .notice, .dep]) (by simp) (by decide)
@[simp] theorem drainNotices_power  (c : Chip) : (drainNotices  c).power = c.power := power_of_mask (l := [.nq, .notice, .dep]) (by simp) (by decide)
@[simp] theorem drainNotices_dfx  (c : Chip) : (drainNotices  c).dfx = c.dfx := dfx_of_mask (l := [.nq, .notice, .dep]) (by simp) (by decide)
@[simp] theorem drainNotices_pm  (c : Chip) : (drainNotices  c).pm = c.pm := pm_of_mask (l := [.nq, .notice, .dep]) (by simp) (by decide)
@[simp] theorem drainNotices_prot  (c : Chip) : (drainNotices  c).prot = c.prot := prot_of_mask (l := [.nq, .notice, .dep]) (by simp) (by decide)
@[simp] theorem drainNotices_tim  (c : Chip) : (drainNotices  c).tim = c.tim := tim_of_mask (l := [.nq, .notice, .dep]) (by simp) (by decide)
@[simp] theorem drainNotices_upd  (c : Chip) : (drainNotices  c).upd = c.upd := upd_of_mask (l := [.nq, .notice, .dep]) (by simp) (by decide)
@[simp] theorem drainNotices_pair  (c : Chip) : (drainNotices  c).pair = c.pair := pair_of_mask (l := [.nq, .notice, .dep]) (by simp) (by decide)
@[simp] theorem drainNotices_free  (c : Chip) : (drainNotices  c).free = c.free := free_of_mask (l := [.nq, .notice, .dep]) (by simp) (by decide)
@[simp] theorem notify_dev (a0 : Notice) (c : Chip) : (notify a0 c).dev = c.dev := dev_of_mask (l := [.nq, .notice, .dep]) (by simp) (by decide)
@[simp] theorem notify_mb (a0 : Notice) (c : Chip) : (notify a0 c).mb = c.mb := mb_of_mask (l := [.nq, .notice, .dep]) (by simp) (by decide)
@[simp] theorem notify_int (a0 : Notice) (c : Chip) : (notify a0 c).int = c.int := int_of_mask (l := [.nq, .notice, .dep]) (by simp) (by decide)
@[simp] theorem notify_oq (a0 : Notice) (c : Chip) : (notify a0 c).oq = c.oq := oq_of_mask (l := [.nq, .notice, .dep]) (by simp) (by decide)
@[simp] theorem notify_taps (a0 : Notice) (c : Chip) : (notify a0 c).taps = c.taps := taps_of_mask (l := [.nq, .notice, .dep]) (by simp) (by decide)
@[simp] theorem notify_host (a0 : Notice) (c : Chip) : (notify a0 c).host = c.host := host_of_mask (l := [.nq, .notice, .dep]) (by simp) (by decide)
@[simp] theorem notify_img (a0 : Notice) (c : Chip) : (notify a0 c).img = c.img := img_of_mask (l := [.nq, .notice, .dep]) (by simp) (by decide)
@[simp] theorem notify_cm (a0 : Notice) (c : Chip) : (notify a0 c).cm = c.cm := cm_of_mask (l := [.nq, .notice, .dep]) (by simp) (by decide)
@[simp] theorem notify_jct (a0 : Notice) (c : Chip) : (notify a0 c).jct = c.jct := jct_of_mask (l := [.nq, .notice, .dep]) (by simp) (by decide)
@[simp] theorem notify_eng (a0 : Notice) (c : Chip) : (notify a0 c).eng = c.eng := eng_of_mask (l := [.nq, .notice, .dep]) (by simp) (by decide)
@[simp] theorem notify_isl (a0 : Notice) (c : Chip) : (notify a0 c).isl = c.isl := isl_of_mask (l := [.nq, .notice, .dep]) (by simp) (by decide)
@[simp] theorem notify_cwy (a0 : Notice) (c : Chip) : (notify a0 c).cwy = c.cwy := cwy_of_mask (l := [.nq, .notice, .dep]) (by simp) (by decide)
@[simp] theorem notify_ctx (a0 : Notice) (c : Chip) : (notify a0 c).ctx = c.ctx := ctx_of_mask (l := [.nq, .notice, .dep]) (by simp) (by decide)
@[simp] theorem notify_line (a0 : Notice) (c : Chip) : (notify a0 c).line = c.line := line_of_mask (l := [.nq, .notice, .dep]) (by simp) (by decide)
@[simp] theorem notify_power (a0 : Notice) (c : Chip) : (notify a0 c).power = c.power := power_of_mask (l := [.nq, .notice, .dep]) (by simp) (by decide)
@[simp] theorem notify_dfx (a0 : Notice) (c : Chip) : (notify a0 c).dfx = c.dfx := dfx_of_mask (l := [.nq, .notice, .dep]) (by simp) (by decide)
@[simp] theorem notify_pm (a0 : Notice) (c : Chip) : (notify a0 c).pm = c.pm := pm_of_mask (l := [.nq, .notice, .dep]) (by simp) (by decide)
@[simp] theorem notify_prot (a0 : Notice) (c : Chip) : (notify a0 c).prot = c.prot := prot_of_mask (l := [.nq, .notice, .dep]) (by simp) (by decide)
@[simp] theorem notify_tim (a0 : Notice) (c : Chip) : (notify a0 c).tim = c.tim := tim_of_mask (l := [.nq, .notice, .dep]) (by simp) (by decide)
@[simp] theorem notify_upd (a0 : Notice) (c : Chip) : (notify a0 c).upd = c.upd := upd_of_mask (l := [.nq, .notice, .dep]) (by simp) (by decide)
@[simp] theorem notify_pair (a0 : Notice) (c : Chip) : (notify a0 c).pair = c.pair := pair_of_mask (l := [.nq, .notice, .dep]) (by simp) (by decide)
@[simp] theorem notify_free (a0 : Notice) (c : Chip) : (notify a0 c).free = c.free := free_of_mask (l := [.nq, .notice, .dep]) (by simp) (by decide)
@[simp] theorem notifyClass_dev (a0 : Nat) (a1 : Notice) (c : Chip) : (notifyClass a0 a1 c).dev = c.dev := dev_of_mask (l := [.nq, .notice, .dep]) (by simp) (by decide)
@[simp] theorem notifyClass_mb (a0 : Nat) (a1 : Notice) (c : Chip) : (notifyClass a0 a1 c).mb = c.mb := mb_of_mask (l := [.nq, .notice, .dep]) (by simp) (by decide)
@[simp] theorem notifyClass_int (a0 : Nat) (a1 : Notice) (c : Chip) : (notifyClass a0 a1 c).int = c.int := int_of_mask (l := [.nq, .notice, .dep]) (by simp) (by decide)
@[simp] theorem notifyClass_oq (a0 : Nat) (a1 : Notice) (c : Chip) : (notifyClass a0 a1 c).oq = c.oq := oq_of_mask (l := [.nq, .notice, .dep]) (by simp) (by decide)
@[simp] theorem notifyClass_taps (a0 : Nat) (a1 : Notice) (c : Chip) : (notifyClass a0 a1 c).taps = c.taps := taps_of_mask (l := [.nq, .notice, .dep]) (by simp) (by decide)
@[simp] theorem notifyClass_host (a0 : Nat) (a1 : Notice) (c : Chip) : (notifyClass a0 a1 c).host = c.host := host_of_mask (l := [.nq, .notice, .dep]) (by simp) (by decide)
@[simp] theorem notifyClass_img (a0 : Nat) (a1 : Notice) (c : Chip) : (notifyClass a0 a1 c).img = c.img := img_of_mask (l := [.nq, .notice, .dep]) (by simp) (by decide)
@[simp] theorem notifyClass_cm (a0 : Nat) (a1 : Notice) (c : Chip) : (notifyClass a0 a1 c).cm = c.cm := cm_of_mask (l := [.nq, .notice, .dep]) (by simp) (by decide)
@[simp] theorem notifyClass_jct (a0 : Nat) (a1 : Notice) (c : Chip) : (notifyClass a0 a1 c).jct = c.jct := jct_of_mask (l := [.nq, .notice, .dep]) (by simp) (by decide)
@[simp] theorem notifyClass_eng (a0 : Nat) (a1 : Notice) (c : Chip) : (notifyClass a0 a1 c).eng = c.eng := eng_of_mask (l := [.nq, .notice, .dep]) (by simp) (by decide)
@[simp] theorem notifyClass_isl (a0 : Nat) (a1 : Notice) (c : Chip) : (notifyClass a0 a1 c).isl = c.isl := isl_of_mask (l := [.nq, .notice, .dep]) (by simp) (by decide)
@[simp] theorem notifyClass_cwy (a0 : Nat) (a1 : Notice) (c : Chip) : (notifyClass a0 a1 c).cwy = c.cwy := cwy_of_mask (l := [.nq, .notice, .dep]) (by simp) (by decide)
@[simp] theorem notifyClass_ctx (a0 : Nat) (a1 : Notice) (c : Chip) : (notifyClass a0 a1 c).ctx = c.ctx := ctx_of_mask (l := [.nq, .notice, .dep]) (by simp) (by decide)
@[simp] theorem notifyClass_line (a0 : Nat) (a1 : Notice) (c : Chip) : (notifyClass a0 a1 c).line = c.line := line_of_mask (l := [.nq, .notice, .dep]) (by simp) (by decide)
@[simp] theorem notifyClass_power (a0 : Nat) (a1 : Notice) (c : Chip) : (notifyClass a0 a1 c).power = c.power := power_of_mask (l := [.nq, .notice, .dep]) (by simp) (by decide)
@[simp] theorem notifyClass_dfx (a0 : Nat) (a1 : Notice) (c : Chip) : (notifyClass a0 a1 c).dfx = c.dfx := dfx_of_mask (l := [.nq, .notice, .dep]) (by simp) (by decide)
@[simp] theorem notifyClass_pm (a0 : Nat) (a1 : Notice) (c : Chip) : (notifyClass a0 a1 c).pm = c.pm := pm_of_mask (l := [.nq, .notice, .dep]) (by simp) (by decide)
@[simp] theorem notifyClass_prot (a0 : Nat) (a1 : Notice) (c : Chip) : (notifyClass a0 a1 c).prot = c.prot := prot_of_mask (l := [.nq, .notice, .dep]) (by simp) (by decide)
@[simp] theorem notifyClass_tim (a0 : Nat) (a1 : Notice) (c : Chip) : (notifyClass a0 a1 c).tim = c.tim := tim_of_mask (l := [.nq, .notice, .dep]) (by simp) (by decide)
@[simp] theorem notifyClass_upd (a0 : Nat) (a1 : Notice) (c : Chip) : (notifyClass a0 a1 c).upd = c.upd := upd_of_mask (l := [.nq, .notice, .dep]) (by simp) (by decide)
@[simp] theorem notifyClass_pair (a0 : Nat) (a1 : Notice) (c : Chip) : (notifyClass a0 a1 c).pair = c.pair := pair_of_mask (l := [.nq, .notice, .dep]) (by simp) (by decide)
@[simp] theorem notifyClass_free (a0 : Nat) (a1 : Notice) (c : Chip) : (notifyClass a0 a1 c).free = c.free := free_of_mask (l := [.nq, .notice, .dep]) (by simp) (by decide)
@[simp] theorem jnlWrite_dev (a0 : Nat) (a1 : Word) (c : Chip) : (jnlWrite a0 a1 c).dev = c.dev := dev_of_mask (l := [.pair]) (by simp) (by decide)
@[simp] theorem jnlWrite_mb (a0 : Nat) (a1 : Word) (c : Chip) : (jnlWrite a0 a1 c).mb = c.mb := mb_of_mask (l := [.pair]) (by simp) (by decide)
@[simp] theorem jnlWrite_int (a0 : Nat) (a1 : Word) (c : Chip) : (jnlWrite a0 a1 c).int = c.int := int_of_mask (l := [.pair]) (by simp) (by decide)
@[simp] theorem jnlWrite_nq (a0 : Nat) (a1 : Word) (c : Chip) : (jnlWrite a0 a1 c).nq = c.nq := nq_of_mask (l := [.pair]) (by simp) (by decide)
@[simp] theorem jnlWrite_oq (a0 : Nat) (a1 : Word) (c : Chip) : (jnlWrite a0 a1 c).oq = c.oq := oq_of_mask (l := [.pair]) (by simp) (by decide)
@[simp] theorem jnlWrite_notice (a0 : Nat) (a1 : Word) (c : Chip) : (jnlWrite a0 a1 c).notice = c.notice := notice_of_mask (l := [.pair]) (by simp) (by decide)
@[simp] theorem jnlWrite_taps (a0 : Nat) (a1 : Word) (c : Chip) : (jnlWrite a0 a1 c).taps = c.taps := taps_of_mask (l := [.pair]) (by simp) (by decide)
@[simp] theorem jnlWrite_host (a0 : Nat) (a1 : Word) (c : Chip) : (jnlWrite a0 a1 c).host = c.host := host_of_mask (l := [.pair]) (by simp) (by decide)
@[simp] theorem jnlWrite_img (a0 : Nat) (a1 : Word) (c : Chip) : (jnlWrite a0 a1 c).img = c.img := img_of_mask (l := [.pair]) (by simp) (by decide)
@[simp] theorem jnlWrite_cm (a0 : Nat) (a1 : Word) (c : Chip) : (jnlWrite a0 a1 c).cm = c.cm := cm_of_mask (l := [.pair]) (by simp) (by decide)
@[simp] theorem jnlWrite_jct (a0 : Nat) (a1 : Word) (c : Chip) : (jnlWrite a0 a1 c).jct = c.jct := jct_of_mask (l := [.pair]) (by simp) (by decide)
@[simp] theorem jnlWrite_eng (a0 : Nat) (a1 : Word) (c : Chip) : (jnlWrite a0 a1 c).eng = c.eng := eng_of_mask (l := [.pair]) (by simp) (by decide)
@[simp] theorem jnlWrite_isl (a0 : Nat) (a1 : Word) (c : Chip) : (jnlWrite a0 a1 c).isl = c.isl := isl_of_mask (l := [.pair]) (by simp) (by decide)
@[simp] theorem jnlWrite_cwy (a0 : Nat) (a1 : Word) (c : Chip) : (jnlWrite a0 a1 c).cwy = c.cwy := cwy_of_mask (l := [.pair]) (by simp) (by decide)
@[simp] theorem jnlWrite_ctx (a0 : Nat) (a1 : Word) (c : Chip) : (jnlWrite a0 a1 c).ctx = c.ctx := ctx_of_mask (l := [.pair]) (by simp) (by decide)
@[simp] theorem jnlWrite_line (a0 : Nat) (a1 : Word) (c : Chip) : (jnlWrite a0 a1 c).line = c.line := line_of_mask (l := [.pair]) (by simp) (by decide)
@[simp] theorem jnlWrite_power (a0 : Nat) (a1 : Word) (c : Chip) : (jnlWrite a0 a1 c).power = c.power := power_of_mask (l := [.pair]) (by simp) (by decide)
@[simp] theorem jnlWrite_dfx (a0 : Nat) (a1 : Word) (c : Chip) : (jnlWrite a0 a1 c).dfx = c.dfx := dfx_of_mask (l := [.pair]) (by simp) (by decide)
@[simp] theorem jnlWrite_pm (a0 : Nat) (a1 : Word) (c : Chip) : (jnlWrite a0 a1 c).pm = c.pm := pm_of_mask (l := [.pair]) (by simp) (by decide)
@[simp] theorem jnlWrite_prot (a0 : Nat) (a1 : Word) (c : Chip) : (jnlWrite a0 a1 c).prot = c.prot := prot_of_mask (l := [.pair]) (by simp) (by decide)
@[simp] theorem jnlWrite_tim (a0 : Nat) (a1 : Word) (c : Chip) : (jnlWrite a0 a1 c).tim = c.tim := tim_of_mask (l := [.pair]) (by simp) (by decide)
@[simp] theorem jnlWrite_upd (a0 : Nat) (a1 : Word) (c : Chip) : (jnlWrite a0 a1 c).upd = c.upd := upd_of_mask (l := [.pair]) (by simp) (by decide)
@[simp] theorem jnlWrite_dep (a0 : Nat) (a1 : Word) (c : Chip) : (jnlWrite a0 a1 c).dep = c.dep := dep_of_mask (l := [.pair]) (by simp) (by decide)
@[simp] theorem jnlWrite_free (a0 : Nat) (a1 : Word) (c : Chip) : (jnlWrite a0 a1 c).free = c.free := free_of_mask (l := [.pair]) (by simp) (by decide)
@[simp] theorem jnlCmd_dev (a0 : Word) (c : Chip) : (jnlCmd a0 c).dev = c.dev := dev_of_mask (l := [.pair]) (by simp) (by decide)
@[simp] theorem jnlCmd_mb (a0 : Word) (c : Chip) : (jnlCmd a0 c).mb = c.mb := mb_of_mask (l := [.pair]) (by simp) (by decide)
@[simp] theorem jnlCmd_int (a0 : Word) (c : Chip) : (jnlCmd a0 c).int = c.int := int_of_mask (l := [.pair]) (by simp) (by decide)
@[simp] theorem jnlCmd_nq (a0 : Word) (c : Chip) : (jnlCmd a0 c).nq = c.nq := nq_of_mask (l := [.pair]) (by simp) (by decide)
@[simp] theorem jnlCmd_oq (a0 : Word) (c : Chip) : (jnlCmd a0 c).oq = c.oq := oq_of_mask (l := [.pair]) (by simp) (by decide)
@[simp] theorem jnlCmd_notice (a0 : Word) (c : Chip) : (jnlCmd a0 c).notice = c.notice := notice_of_mask (l := [.pair]) (by simp) (by decide)
@[simp] theorem jnlCmd_taps (a0 : Word) (c : Chip) : (jnlCmd a0 c).taps = c.taps := taps_of_mask (l := [.pair]) (by simp) (by decide)
@[simp] theorem jnlCmd_host (a0 : Word) (c : Chip) : (jnlCmd a0 c).host = c.host := host_of_mask (l := [.pair]) (by simp) (by decide)
@[simp] theorem jnlCmd_img (a0 : Word) (c : Chip) : (jnlCmd a0 c).img = c.img := img_of_mask (l := [.pair]) (by simp) (by decide)
@[simp] theorem jnlCmd_cm (a0 : Word) (c : Chip) : (jnlCmd a0 c).cm = c.cm := cm_of_mask (l := [.pair]) (by simp) (by decide)
@[simp] theorem jnlCmd_jct (a0 : Word) (c : Chip) : (jnlCmd a0 c).jct = c.jct := jct_of_mask (l := [.pair]) (by simp) (by decide)
@[simp] theorem jnlCmd_eng (a0 : Word) (c : Chip) : (jnlCmd a0 c).eng = c.eng := eng_of_mask (l := [.pair]) (by simp) (by decide)
@[simp] theorem jnlCmd_isl (a0 : Word) (c : Chip) : (jnlCmd a0 c).isl = c.isl := isl_of_mask (l := [.pair]) (by simp) (by decide)
@[simp] theorem jnlCmd_cwy (a0 : Word) (c : Chip) : (jnlCmd a0 c).cwy = c.cwy := cwy_of_mask (l := [.pair]) (by simp) (by decide)
@[simp] theorem jnlCmd_ctx (a0 : Word) (c : Chip) : (jnlCmd a0 c).ctx = c.ctx := ctx_of_mask (l := [.pair]) (by simp) (by decide)
@[simp] theorem jnlCmd_line (a0 : Word) (c : Chip) : (jnlCmd a0 c).line = c.line := line_of_mask (l := [.pair]) (by simp) (by decide)
@[simp] theorem jnlCmd_power (a0 : Word) (c : Chip) : (jnlCmd a0 c).power = c.power := power_of_mask (l := [.pair]) (by simp) (by decide)
@[simp] theorem jnlCmd_dfx (a0 : Word) (c : Chip) : (jnlCmd a0 c).dfx = c.dfx := dfx_of_mask (l := [.pair]) (by simp) (by decide)
@[simp] theorem jnlCmd_pm (a0 : Word) (c : Chip) : (jnlCmd a0 c).pm = c.pm := pm_of_mask (l := [.pair]) (by simp) (by decide)
@[simp] theorem jnlCmd_prot (a0 : Word) (c : Chip) : (jnlCmd a0 c).prot = c.prot := prot_of_mask (l := [.pair]) (by simp) (by decide)
@[simp] theorem jnlCmd_tim (a0 : Word) (c : Chip) : (jnlCmd a0 c).tim = c.tim := tim_of_mask (l := [.pair]) (by simp) (by decide)
@[simp] theorem jnlCmd_upd (a0 : Word) (c : Chip) : (jnlCmd a0 c).upd = c.upd := upd_of_mask (l := [.pair]) (by simp) (by decide)
@[simp] theorem jnlCmd_dep (a0 : Word) (c : Chip) : (jnlCmd a0 c).dep = c.dep := dep_of_mask (l := [.pair]) (by simp) (by decide)
@[simp] theorem jnlCmd_free (a0 : Word) (c : Chip) : (jnlCmd a0 c).free = c.free := free_of_mask (l := [.pair]) (by simp) (by decide)
@[simp] theorem mbDeliver_dev (a0 : MbReply) (c : Chip) : (mbDeliver a0 c).dev = c.dev := dev_of_mask (l := [.mb, .int, .host]) (by simp) (by decide)
@[simp] theorem mbDeliver_nq (a0 : MbReply) (c : Chip) : (mbDeliver a0 c).nq = c.nq := nq_of_mask (l := [.mb, .int, .host]) (by simp) (by decide)
@[simp] theorem mbDeliver_oq (a0 : MbReply) (c : Chip) : (mbDeliver a0 c).oq = c.oq := oq_of_mask (l := [.mb, .int, .host]) (by simp) (by decide)
@[simp] theorem mbDeliver_notice (a0 : MbReply) (c : Chip) : (mbDeliver a0 c).notice = c.notice := notice_of_mask (l := [.mb, .int, .host]) (by simp) (by decide)
@[simp] theorem mbDeliver_taps (a0 : MbReply) (c : Chip) : (mbDeliver a0 c).taps = c.taps := taps_of_mask (l := [.mb, .int, .host]) (by simp) (by decide)
@[simp] theorem mbDeliver_img (a0 : MbReply) (c : Chip) : (mbDeliver a0 c).img = c.img := img_of_mask (l := [.mb, .int, .host]) (by simp) (by decide)
@[simp] theorem mbDeliver_cm (a0 : MbReply) (c : Chip) : (mbDeliver a0 c).cm = c.cm := cm_of_mask (l := [.mb, .int, .host]) (by simp) (by decide)
@[simp] theorem mbDeliver_jct (a0 : MbReply) (c : Chip) : (mbDeliver a0 c).jct = c.jct := jct_of_mask (l := [.mb, .int, .host]) (by simp) (by decide)
@[simp] theorem mbDeliver_eng (a0 : MbReply) (c : Chip) : (mbDeliver a0 c).eng = c.eng := eng_of_mask (l := [.mb, .int, .host]) (by simp) (by decide)
@[simp] theorem mbDeliver_isl (a0 : MbReply) (c : Chip) : (mbDeliver a0 c).isl = c.isl := isl_of_mask (l := [.mb, .int, .host]) (by simp) (by decide)
@[simp] theorem mbDeliver_cwy (a0 : MbReply) (c : Chip) : (mbDeliver a0 c).cwy = c.cwy := cwy_of_mask (l := [.mb, .int, .host]) (by simp) (by decide)
@[simp] theorem mbDeliver_ctx (a0 : MbReply) (c : Chip) : (mbDeliver a0 c).ctx = c.ctx := ctx_of_mask (l := [.mb, .int, .host]) (by simp) (by decide)
@[simp] theorem mbDeliver_line (a0 : MbReply) (c : Chip) : (mbDeliver a0 c).line = c.line := line_of_mask (l := [.mb, .int, .host]) (by simp) (by decide)
@[simp] theorem mbDeliver_power (a0 : MbReply) (c : Chip) : (mbDeliver a0 c).power = c.power := power_of_mask (l := [.mb, .int, .host]) (by simp) (by decide)
@[simp] theorem mbDeliver_dfx (a0 : MbReply) (c : Chip) : (mbDeliver a0 c).dfx = c.dfx := dfx_of_mask (l := [.mb, .int, .host]) (by simp) (by decide)
@[simp] theorem mbDeliver_pm (a0 : MbReply) (c : Chip) : (mbDeliver a0 c).pm = c.pm := pm_of_mask (l := [.mb, .int, .host]) (by simp) (by decide)
@[simp] theorem mbDeliver_prot (a0 : MbReply) (c : Chip) : (mbDeliver a0 c).prot = c.prot := prot_of_mask (l := [.mb, .int, .host]) (by simp) (by decide)
@[simp] theorem mbDeliver_tim (a0 : MbReply) (c : Chip) : (mbDeliver a0 c).tim = c.tim := tim_of_mask (l := [.mb, .int, .host]) (by simp) (by decide)
@[simp] theorem mbDeliver_upd (a0 : MbReply) (c : Chip) : (mbDeliver a0 c).upd = c.upd := upd_of_mask (l := [.mb, .int, .host]) (by simp) (by decide)
@[simp] theorem mbDeliver_pair (a0 : MbReply) (c : Chip) : (mbDeliver a0 c).pair = c.pair := pair_of_mask (l := [.mb, .int, .host]) (by simp) (by decide)
@[simp] theorem mbDeliver_dep (a0 : MbReply) (c : Chip) : (mbDeliver a0 c).dep = c.dep := dep_of_mask (l := [.mb, .int, .host]) (by simp) (by decide)
@[simp] theorem mbDeliver_free (a0 : MbReply) (c : Chip) : (mbDeliver a0 c).free = c.free := free_of_mask (l := [.mb, .int, .host]) (by simp) (by decide)
@[simp] theorem mbReply_dev (a0 : Nat) (a1 : Nat) (a2 : Nat) (c : Chip) : (mbReply a0 a1 a2 c).dev = c.dev := dev_of_mask (l := [.mb, .int, .host]) (by simp) (by decide)
@[simp] theorem mbReply_nq (a0 : Nat) (a1 : Nat) (a2 : Nat) (c : Chip) : (mbReply a0 a1 a2 c).nq = c.nq := nq_of_mask (l := [.mb, .int, .host]) (by simp) (by decide)
@[simp] theorem mbReply_oq (a0 : Nat) (a1 : Nat) (a2 : Nat) (c : Chip) : (mbReply a0 a1 a2 c).oq = c.oq := oq_of_mask (l := [.mb, .int, .host]) (by simp) (by decide)
@[simp] theorem mbReply_notice (a0 : Nat) (a1 : Nat) (a2 : Nat) (c : Chip) : (mbReply a0 a1 a2 c).notice = c.notice := notice_of_mask (l := [.mb, .int, .host]) (by simp) (by decide)
@[simp] theorem mbReply_taps (a0 : Nat) (a1 : Nat) (a2 : Nat) (c : Chip) : (mbReply a0 a1 a2 c).taps = c.taps := taps_of_mask (l := [.mb, .int, .host]) (by simp) (by decide)
@[simp] theorem mbReply_img (a0 : Nat) (a1 : Nat) (a2 : Nat) (c : Chip) : (mbReply a0 a1 a2 c).img = c.img := img_of_mask (l := [.mb, .int, .host]) (by simp) (by decide)
@[simp] theorem mbReply_cm (a0 : Nat) (a1 : Nat) (a2 : Nat) (c : Chip) : (mbReply a0 a1 a2 c).cm = c.cm := cm_of_mask (l := [.mb, .int, .host]) (by simp) (by decide)
@[simp] theorem mbReply_jct (a0 : Nat) (a1 : Nat) (a2 : Nat) (c : Chip) : (mbReply a0 a1 a2 c).jct = c.jct := jct_of_mask (l := [.mb, .int, .host]) (by simp) (by decide)
@[simp] theorem mbReply_eng (a0 : Nat) (a1 : Nat) (a2 : Nat) (c : Chip) : (mbReply a0 a1 a2 c).eng = c.eng := eng_of_mask (l := [.mb, .int, .host]) (by simp) (by decide)
@[simp] theorem mbReply_isl (a0 : Nat) (a1 : Nat) (a2 : Nat) (c : Chip) : (mbReply a0 a1 a2 c).isl = c.isl := isl_of_mask (l := [.mb, .int, .host]) (by simp) (by decide)
@[simp] theorem mbReply_cwy (a0 : Nat) (a1 : Nat) (a2 : Nat) (c : Chip) : (mbReply a0 a1 a2 c).cwy = c.cwy := cwy_of_mask (l := [.mb, .int, .host]) (by simp) (by decide)
@[simp] theorem mbReply_ctx (a0 : Nat) (a1 : Nat) (a2 : Nat) (c : Chip) : (mbReply a0 a1 a2 c).ctx = c.ctx := ctx_of_mask (l := [.mb, .int, .host]) (by simp) (by decide)
@[simp] theorem mbReply_line (a0 : Nat) (a1 : Nat) (a2 : Nat) (c : Chip) : (mbReply a0 a1 a2 c).line = c.line := line_of_mask (l := [.mb, .int, .host]) (by simp) (by decide)
@[simp] theorem mbReply_power (a0 : Nat) (a1 : Nat) (a2 : Nat) (c : Chip) : (mbReply a0 a1 a2 c).power = c.power := power_of_mask (l := [.mb, .int, .host]) (by simp) (by decide)
@[simp] theorem mbReply_dfx (a0 : Nat) (a1 : Nat) (a2 : Nat) (c : Chip) : (mbReply a0 a1 a2 c).dfx = c.dfx := dfx_of_mask (l := [.mb, .int, .host]) (by simp) (by decide)
@[simp] theorem mbReply_pm (a0 : Nat) (a1 : Nat) (a2 : Nat) (c : Chip) : (mbReply a0 a1 a2 c).pm = c.pm := pm_of_mask (l := [.mb, .int, .host]) (by simp) (by decide)
@[simp] theorem mbReply_prot (a0 : Nat) (a1 : Nat) (a2 : Nat) (c : Chip) : (mbReply a0 a1 a2 c).prot = c.prot := prot_of_mask (l := [.mb, .int, .host]) (by simp) (by decide)
@[simp] theorem mbReply_tim (a0 : Nat) (a1 : Nat) (a2 : Nat) (c : Chip) : (mbReply a0 a1 a2 c).tim = c.tim := tim_of_mask (l := [.mb, .int, .host]) (by simp) (by decide)
@[simp] theorem mbReply_upd (a0 : Nat) (a1 : Nat) (a2 : Nat) (c : Chip) : (mbReply a0 a1 a2 c).upd = c.upd := upd_of_mask (l := [.mb, .int, .host]) (by simp) (by decide)
@[simp] theorem mbReply_pair (a0 : Nat) (a1 : Nat) (a2 : Nat) (c : Chip) : (mbReply a0 a1 a2 c).pair = c.pair := pair_of_mask (l := [.mb, .int, .host]) (by simp) (by decide)
@[simp] theorem mbReply_dep (a0 : Nat) (a1 : Nat) (a2 : Nat) (c : Chip) : (mbReply a0 a1 a2 c).dep = c.dep := dep_of_mask (l := [.mb, .int, .host]) (by simp) (by decide)
@[simp] theorem mbReply_free (a0 : Nat) (a1 : Nat) (a2 : Nat) (c : Chip) : (mbReply a0 a1 a2 c).free = c.free := free_of_mask (l := [.mb, .int, .host]) (by simp) (by decide)
@[simp] theorem mbCode_dev (a0 : Nat) (c : Chip) : (mbCode a0 c).dev = c.dev := dev_of_mask (l := [.mb, .int, .host]) (by simp) (by decide)
@[simp] theorem mbCode_nq (a0 : Nat) (c : Chip) : (mbCode a0 c).nq = c.nq := nq_of_mask (l := [.mb, .int, .host]) (by simp) (by decide)
@[simp] theorem mbCode_oq (a0 : Nat) (c : Chip) : (mbCode a0 c).oq = c.oq := oq_of_mask (l := [.mb, .int, .host]) (by simp) (by decide)
@[simp] theorem mbCode_notice (a0 : Nat) (c : Chip) : (mbCode a0 c).notice = c.notice := notice_of_mask (l := [.mb, .int, .host]) (by simp) (by decide)
@[simp] theorem mbCode_taps (a0 : Nat) (c : Chip) : (mbCode a0 c).taps = c.taps := taps_of_mask (l := [.mb, .int, .host]) (by simp) (by decide)
@[simp] theorem mbCode_img (a0 : Nat) (c : Chip) : (mbCode a0 c).img = c.img := img_of_mask (l := [.mb, .int, .host]) (by simp) (by decide)
@[simp] theorem mbCode_cm (a0 : Nat) (c : Chip) : (mbCode a0 c).cm = c.cm := cm_of_mask (l := [.mb, .int, .host]) (by simp) (by decide)
@[simp] theorem mbCode_jct (a0 : Nat) (c : Chip) : (mbCode a0 c).jct = c.jct := jct_of_mask (l := [.mb, .int, .host]) (by simp) (by decide)
@[simp] theorem mbCode_eng (a0 : Nat) (c : Chip) : (mbCode a0 c).eng = c.eng := eng_of_mask (l := [.mb, .int, .host]) (by simp) (by decide)
@[simp] theorem mbCode_isl (a0 : Nat) (c : Chip) : (mbCode a0 c).isl = c.isl := isl_of_mask (l := [.mb, .int, .host]) (by simp) (by decide)
@[simp] theorem mbCode_cwy (a0 : Nat) (c : Chip) : (mbCode a0 c).cwy = c.cwy := cwy_of_mask (l := [.mb, .int, .host]) (by simp) (by decide)
@[simp] theorem mbCode_ctx (a0 : Nat) (c : Chip) : (mbCode a0 c).ctx = c.ctx := ctx_of_mask (l := [.mb, .int, .host]) (by simp) (by decide)
@[simp] theorem mbCode_line (a0 : Nat) (c : Chip) : (mbCode a0 c).line = c.line := line_of_mask (l := [.mb, .int, .host]) (by simp) (by decide)
@[simp] theorem mbCode_power (a0 : Nat) (c : Chip) : (mbCode a0 c).power = c.power := power_of_mask (l := [.mb, .int, .host]) (by simp) (by decide)
@[simp] theorem mbCode_dfx (a0 : Nat) (c : Chip) : (mbCode a0 c).dfx = c.dfx := dfx_of_mask (l := [.mb, .int, .host]) (by simp) (by decide)
@[simp] theorem mbCode_pm (a0 : Nat) (c : Chip) : (mbCode a0 c).pm = c.pm := pm_of_mask (l := [.mb, .int, .host]) (by simp) (by decide)
@[simp] theorem mbCode_prot (a0 : Nat) (c : Chip) : (mbCode a0 c).prot = c.prot := prot_of_mask (l := [.mb, .int, .host]) (by simp) (by decide)
@[simp] theorem mbCode_tim (a0 : Nat) (c : Chip) : (mbCode a0 c).tim = c.tim := tim_of_mask (l := [.mb, .int, .host]) (by simp) (by decide)
@[simp] theorem mbCode_upd (a0 : Nat) (c : Chip) : (mbCode a0 c).upd = c.upd := upd_of_mask (l := [.mb, .int, .host]) (by simp) (by decide)
@[simp] theorem mbCode_pair (a0 : Nat) (c : Chip) : (mbCode a0 c).pair = c.pair := pair_of_mask (l := [.mb, .int, .host]) (by simp) (by decide)
@[simp] theorem mbCode_dep (a0 : Nat) (c : Chip) : (mbCode a0 c).dep = c.dep := dep_of_mask (l := [.mb, .int, .host]) (by simp) (by decide)
@[simp] theorem mbCode_free (a0 : Nat) (c : Chip) : (mbCode a0 c).free = c.free := free_of_mask (l := [.mb, .int, .host]) (by simp) (by decide)
@[simp] theorem imgFinal_dev (a0 : Nat) (c : Chip) : (imgFinal a0 c).dev = c.dev := dev_of_mask (l := [.mb, .int, .host]) (by simp) (by decide)
@[simp] theorem imgFinal_nq (a0 : Nat) (c : Chip) : (imgFinal a0 c).nq = c.nq := nq_of_mask (l := [.mb, .int, .host]) (by simp) (by decide)
@[simp] theorem imgFinal_oq (a0 : Nat) (c : Chip) : (imgFinal a0 c).oq = c.oq := oq_of_mask (l := [.mb, .int, .host]) (by simp) (by decide)
@[simp] theorem imgFinal_notice (a0 : Nat) (c : Chip) : (imgFinal a0 c).notice = c.notice := notice_of_mask (l := [.mb, .int, .host]) (by simp) (by decide)
@[simp] theorem imgFinal_taps (a0 : Nat) (c : Chip) : (imgFinal a0 c).taps = c.taps := taps_of_mask (l := [.mb, .int, .host]) (by simp) (by decide)
@[simp] theorem imgFinal_img (a0 : Nat) (c : Chip) : (imgFinal a0 c).img = c.img := img_of_mask (l := [.mb, .int, .host]) (by simp) (by decide)
@[simp] theorem imgFinal_cm (a0 : Nat) (c : Chip) : (imgFinal a0 c).cm = c.cm := cm_of_mask (l := [.mb, .int, .host]) (by simp) (by decide)
@[simp] theorem imgFinal_jct (a0 : Nat) (c : Chip) : (imgFinal a0 c).jct = c.jct := jct_of_mask (l := [.mb, .int, .host]) (by simp) (by decide)
@[simp] theorem imgFinal_eng (a0 : Nat) (c : Chip) : (imgFinal a0 c).eng = c.eng := eng_of_mask (l := [.mb, .int, .host]) (by simp) (by decide)
@[simp] theorem imgFinal_isl (a0 : Nat) (c : Chip) : (imgFinal a0 c).isl = c.isl := isl_of_mask (l := [.mb, .int, .host]) (by simp) (by decide)
@[simp] theorem imgFinal_cwy (a0 : Nat) (c : Chip) : (imgFinal a0 c).cwy = c.cwy := cwy_of_mask (l := [.mb, .int, .host]) (by simp) (by decide)
@[simp] theorem imgFinal_ctx (a0 : Nat) (c : Chip) : (imgFinal a0 c).ctx = c.ctx := ctx_of_mask (l := [.mb, .int, .host]) (by simp) (by decide)
@[simp] theorem imgFinal_line (a0 : Nat) (c : Chip) : (imgFinal a0 c).line = c.line := line_of_mask (l := [.mb, .int, .host]) (by simp) (by decide)
@[simp] theorem imgFinal_power (a0 : Nat) (c : Chip) : (imgFinal a0 c).power = c.power := power_of_mask (l := [.mb, .int, .host]) (by simp) (by decide)
@[simp] theorem imgFinal_dfx (a0 : Nat) (c : Chip) : (imgFinal a0 c).dfx = c.dfx := dfx_of_mask (l := [.mb, .int, .host]) (by simp) (by decide)
@[simp] theorem imgFinal_pm (a0 : Nat) (c : Chip) : (imgFinal a0 c).pm = c.pm := pm_of_mask (l := [.mb, .int, .host]) (by simp) (by decide)
@[simp] theorem imgFinal_prot (a0 : Nat) (c : Chip) : (imgFinal a0 c).prot = c.prot := prot_of_mask (l := [.mb, .int, .host]) (by simp) (by decide)
@[simp] theorem imgFinal_tim (a0 : Nat) (c : Chip) : (imgFinal a0 c).tim = c.tim := tim_of_mask (l := [.mb, .int, .host]) (by simp) (by decide)
@[simp] theorem imgFinal_upd (a0 : Nat) (c : Chip) : (imgFinal a0 c).upd = c.upd := upd_of_mask (l := [.mb, .int, .host]) (by simp) (by decide)
@[simp] theorem imgFinal_pair (a0 : Nat) (c : Chip) : (imgFinal a0 c).pair = c.pair := pair_of_mask (l := [.mb, .int, .host]) (by simp) (by decide)
@[simp] theorem imgFinal_dep (a0 : Nat) (c : Chip) : (imgFinal a0 c).dep = c.dep := dep_of_mask (l := [.mb, .int, .host]) (by simp) (by decide)
@[simp] theorem imgFinal_free (a0 : Nat) (c : Chip) : (imgFinal a0 c).free = c.free := free_of_mask (l := [.mb, .int, .host]) (by simp) (by decide)
@[simp] theorem updFinal_dev (a0 : Nat) (c : Chip) : (updFinal a0 c).dev = c.dev := dev_of_mask (l := [.mb, .int, .host]) (by simp) (by decide)
@[simp] theorem updFinal_nq (a0 : Nat) (c : Chip) : (updFinal a0 c).nq = c.nq := nq_of_mask (l := [.mb, .int, .host]) (by simp) (by decide)
@[simp] theorem updFinal_oq (a0 : Nat) (c : Chip) : (updFinal a0 c).oq = c.oq := oq_of_mask (l := [.mb, .int, .host]) (by simp) (by decide)
@[simp] theorem updFinal_notice (a0 : Nat) (c : Chip) : (updFinal a0 c).notice = c.notice := notice_of_mask (l := [.mb, .int, .host]) (by simp) (by decide)
@[simp] theorem updFinal_taps (a0 : Nat) (c : Chip) : (updFinal a0 c).taps = c.taps := taps_of_mask (l := [.mb, .int, .host]) (by simp) (by decide)
@[simp] theorem updFinal_img (a0 : Nat) (c : Chip) : (updFinal a0 c).img = c.img := img_of_mask (l := [.mb, .int, .host]) (by simp) (by decide)
@[simp] theorem updFinal_cm (a0 : Nat) (c : Chip) : (updFinal a0 c).cm = c.cm := cm_of_mask (l := [.mb, .int, .host]) (by simp) (by decide)
@[simp] theorem updFinal_jct (a0 : Nat) (c : Chip) : (updFinal a0 c).jct = c.jct := jct_of_mask (l := [.mb, .int, .host]) (by simp) (by decide)
@[simp] theorem updFinal_eng (a0 : Nat) (c : Chip) : (updFinal a0 c).eng = c.eng := eng_of_mask (l := [.mb, .int, .host]) (by simp) (by decide)
@[simp] theorem updFinal_isl (a0 : Nat) (c : Chip) : (updFinal a0 c).isl = c.isl := isl_of_mask (l := [.mb, .int, .host]) (by simp) (by decide)
@[simp] theorem updFinal_cwy (a0 : Nat) (c : Chip) : (updFinal a0 c).cwy = c.cwy := cwy_of_mask (l := [.mb, .int, .host]) (by simp) (by decide)
@[simp] theorem updFinal_ctx (a0 : Nat) (c : Chip) : (updFinal a0 c).ctx = c.ctx := ctx_of_mask (l := [.mb, .int, .host]) (by simp) (by decide)
@[simp] theorem updFinal_line (a0 : Nat) (c : Chip) : (updFinal a0 c).line = c.line := line_of_mask (l := [.mb, .int, .host]) (by simp) (by decide)
@[simp] theorem updFinal_power (a0 : Nat) (c : Chip) : (updFinal a0 c).power = c.power := power_of_mask (l := [.mb, .int, .host]) (by simp) (by decide)
@[simp] theorem updFinal_dfx (a0 : Nat) (c : Chip) : (updFinal a0 c).dfx = c.dfx := dfx_of_mask (l := [.mb, .int, .host]) (by simp) (by decide)
@[simp] theorem updFinal_pm (a0 : Nat) (c : Chip) : (updFinal a0 c).pm = c.pm := pm_of_mask (l := [.mb, .int, .host]) (by simp) (by decide)
@[simp] theorem updFinal_prot (a0 : Nat) (c : Chip) : (updFinal a0 c).prot = c.prot := prot_of_mask (l := [.mb, .int, .host]) (by simp) (by decide)
@[simp] theorem updFinal_tim (a0 : Nat) (c : Chip) : (updFinal a0 c).tim = c.tim := tim_of_mask (l := [.mb, .int, .host]) (by simp) (by decide)
@[simp] theorem updFinal_upd (a0 : Nat) (c : Chip) : (updFinal a0 c).upd = c.upd := upd_of_mask (l := [.mb, .int, .host]) (by simp) (by decide)
@[simp] theorem updFinal_pair (a0 : Nat) (c : Chip) : (updFinal a0 c).pair = c.pair := pair_of_mask (l := [.mb, .int, .host]) (by simp) (by decide)
@[simp] theorem updFinal_dep (a0 : Nat) (c : Chip) : (updFinal a0 c).dep = c.dep := dep_of_mask (l := [.mb, .int, .host]) (by simp) (by decide)
@[simp] theorem updFinal_free (a0 : Nat) (c : Chip) : (updFinal a0 c).free = c.free := free_of_mask (l := [.mb, .int, .host]) (by simp) (by decide)
@[simp] theorem msixWrite_dev (a0 : Nat) (a1 : MsixEnt) (c : Chip) : (msixWrite a0 a1 c).dev = c.dev := dev_of_mask (l := [.int, .host]) (by simp) (by decide)
@[simp] theorem msixWrite_mb (a0 : Nat) (a1 : MsixEnt) (c : Chip) : (msixWrite a0 a1 c).mb = c.mb := mb_of_mask (l := [.int, .host]) (by simp) (by decide)
@[simp] theorem msixWrite_nq (a0 : Nat) (a1 : MsixEnt) (c : Chip) : (msixWrite a0 a1 c).nq = c.nq := nq_of_mask (l := [.int, .host]) (by simp) (by decide)
@[simp] theorem msixWrite_oq (a0 : Nat) (a1 : MsixEnt) (c : Chip) : (msixWrite a0 a1 c).oq = c.oq := oq_of_mask (l := [.int, .host]) (by simp) (by decide)
@[simp] theorem msixWrite_notice (a0 : Nat) (a1 : MsixEnt) (c : Chip) : (msixWrite a0 a1 c).notice = c.notice := notice_of_mask (l := [.int, .host]) (by simp) (by decide)
@[simp] theorem msixWrite_taps (a0 : Nat) (a1 : MsixEnt) (c : Chip) : (msixWrite a0 a1 c).taps = c.taps := taps_of_mask (l := [.int, .host]) (by simp) (by decide)
@[simp] theorem msixWrite_img (a0 : Nat) (a1 : MsixEnt) (c : Chip) : (msixWrite a0 a1 c).img = c.img := img_of_mask (l := [.int, .host]) (by simp) (by decide)
@[simp] theorem msixWrite_cm (a0 : Nat) (a1 : MsixEnt) (c : Chip) : (msixWrite a0 a1 c).cm = c.cm := cm_of_mask (l := [.int, .host]) (by simp) (by decide)
@[simp] theorem msixWrite_jct (a0 : Nat) (a1 : MsixEnt) (c : Chip) : (msixWrite a0 a1 c).jct = c.jct := jct_of_mask (l := [.int, .host]) (by simp) (by decide)
@[simp] theorem msixWrite_eng (a0 : Nat) (a1 : MsixEnt) (c : Chip) : (msixWrite a0 a1 c).eng = c.eng := eng_of_mask (l := [.int, .host]) (by simp) (by decide)
@[simp] theorem msixWrite_isl (a0 : Nat) (a1 : MsixEnt) (c : Chip) : (msixWrite a0 a1 c).isl = c.isl := isl_of_mask (l := [.int, .host]) (by simp) (by decide)
@[simp] theorem msixWrite_cwy (a0 : Nat) (a1 : MsixEnt) (c : Chip) : (msixWrite a0 a1 c).cwy = c.cwy := cwy_of_mask (l := [.int, .host]) (by simp) (by decide)
@[simp] theorem msixWrite_ctx (a0 : Nat) (a1 : MsixEnt) (c : Chip) : (msixWrite a0 a1 c).ctx = c.ctx := ctx_of_mask (l := [.int, .host]) (by simp) (by decide)
@[simp] theorem msixWrite_line (a0 : Nat) (a1 : MsixEnt) (c : Chip) : (msixWrite a0 a1 c).line = c.line := line_of_mask (l := [.int, .host]) (by simp) (by decide)
@[simp] theorem msixWrite_power (a0 : Nat) (a1 : MsixEnt) (c : Chip) : (msixWrite a0 a1 c).power = c.power := power_of_mask (l := [.int, .host]) (by simp) (by decide)
@[simp] theorem msixWrite_dfx (a0 : Nat) (a1 : MsixEnt) (c : Chip) : (msixWrite a0 a1 c).dfx = c.dfx := dfx_of_mask (l := [.int, .host]) (by simp) (by decide)
@[simp] theorem msixWrite_pm (a0 : Nat) (a1 : MsixEnt) (c : Chip) : (msixWrite a0 a1 c).pm = c.pm := pm_of_mask (l := [.int, .host]) (by simp) (by decide)
@[simp] theorem msixWrite_prot (a0 : Nat) (a1 : MsixEnt) (c : Chip) : (msixWrite a0 a1 c).prot = c.prot := prot_of_mask (l := [.int, .host]) (by simp) (by decide)
@[simp] theorem msixWrite_tim (a0 : Nat) (a1 : MsixEnt) (c : Chip) : (msixWrite a0 a1 c).tim = c.tim := tim_of_mask (l := [.int, .host]) (by simp) (by decide)
@[simp] theorem msixWrite_upd (a0 : Nat) (a1 : MsixEnt) (c : Chip) : (msixWrite a0 a1 c).upd = c.upd := upd_of_mask (l := [.int, .host]) (by simp) (by decide)
@[simp] theorem msixWrite_pair (a0 : Nat) (a1 : MsixEnt) (c : Chip) : (msixWrite a0 a1 c).pair = c.pair := pair_of_mask (l := [.int, .host]) (by simp) (by decide)
@[simp] theorem msixWrite_dep (a0 : Nat) (a1 : MsixEnt) (c : Chip) : (msixWrite a0 a1 c).dep = c.dep := dep_of_mask (l := [.int, .host]) (by simp) (by decide)
@[simp] theorem msixWrite_free (a0 : Nat) (a1 : MsixEnt) (c : Chip) : (msixWrite a0 a1 c).free = c.free := free_of_mask (l := [.int, .host]) (by simp) (by decide)
@[simp] theorem pcntAdd_dev (a0 : Nat) (a1 : Nat) (c : Chip) : (pcntAdd a0 a1 c).dev = c.dev := dev_of_mask (l := [.dep]) (by simp) (by decide)
@[simp] theorem pcntAdd_mb (a0 : Nat) (a1 : Nat) (c : Chip) : (pcntAdd a0 a1 c).mb = c.mb := mb_of_mask (l := [.dep]) (by simp) (by decide)
@[simp] theorem pcntAdd_int (a0 : Nat) (a1 : Nat) (c : Chip) : (pcntAdd a0 a1 c).int = c.int := int_of_mask (l := [.dep]) (by simp) (by decide)
@[simp] theorem pcntAdd_nq (a0 : Nat) (a1 : Nat) (c : Chip) : (pcntAdd a0 a1 c).nq = c.nq := nq_of_mask (l := [.dep]) (by simp) (by decide)
@[simp] theorem pcntAdd_oq (a0 : Nat) (a1 : Nat) (c : Chip) : (pcntAdd a0 a1 c).oq = c.oq := oq_of_mask (l := [.dep]) (by simp) (by decide)
@[simp] theorem pcntAdd_notice (a0 : Nat) (a1 : Nat) (c : Chip) : (pcntAdd a0 a1 c).notice = c.notice := notice_of_mask (l := [.dep]) (by simp) (by decide)
@[simp] theorem pcntAdd_taps (a0 : Nat) (a1 : Nat) (c : Chip) : (pcntAdd a0 a1 c).taps = c.taps := taps_of_mask (l := [.dep]) (by simp) (by decide)
@[simp] theorem pcntAdd_host (a0 : Nat) (a1 : Nat) (c : Chip) : (pcntAdd a0 a1 c).host = c.host := host_of_mask (l := [.dep]) (by simp) (by decide)
@[simp] theorem pcntAdd_img (a0 : Nat) (a1 : Nat) (c : Chip) : (pcntAdd a0 a1 c).img = c.img := img_of_mask (l := [.dep]) (by simp) (by decide)
@[simp] theorem pcntAdd_cm (a0 : Nat) (a1 : Nat) (c : Chip) : (pcntAdd a0 a1 c).cm = c.cm := cm_of_mask (l := [.dep]) (by simp) (by decide)
@[simp] theorem pcntAdd_jct (a0 : Nat) (a1 : Nat) (c : Chip) : (pcntAdd a0 a1 c).jct = c.jct := jct_of_mask (l := [.dep]) (by simp) (by decide)
@[simp] theorem pcntAdd_eng (a0 : Nat) (a1 : Nat) (c : Chip) : (pcntAdd a0 a1 c).eng = c.eng := eng_of_mask (l := [.dep]) (by simp) (by decide)
@[simp] theorem pcntAdd_isl (a0 : Nat) (a1 : Nat) (c : Chip) : (pcntAdd a0 a1 c).isl = c.isl := isl_of_mask (l := [.dep]) (by simp) (by decide)
@[simp] theorem pcntAdd_cwy (a0 : Nat) (a1 : Nat) (c : Chip) : (pcntAdd a0 a1 c).cwy = c.cwy := cwy_of_mask (l := [.dep]) (by simp) (by decide)
@[simp] theorem pcntAdd_ctx (a0 : Nat) (a1 : Nat) (c : Chip) : (pcntAdd a0 a1 c).ctx = c.ctx := ctx_of_mask (l := [.dep]) (by simp) (by decide)
@[simp] theorem pcntAdd_line (a0 : Nat) (a1 : Nat) (c : Chip) : (pcntAdd a0 a1 c).line = c.line := line_of_mask (l := [.dep]) (by simp) (by decide)
@[simp] theorem pcntAdd_power (a0 : Nat) (a1 : Nat) (c : Chip) : (pcntAdd a0 a1 c).power = c.power := power_of_mask (l := [.dep]) (by simp) (by decide)
@[simp] theorem pcntAdd_dfx (a0 : Nat) (a1 : Nat) (c : Chip) : (pcntAdd a0 a1 c).dfx = c.dfx := dfx_of_mask (l := [.dep]) (by simp) (by decide)
@[simp] theorem pcntAdd_pm (a0 : Nat) (a1 : Nat) (c : Chip) : (pcntAdd a0 a1 c).pm = c.pm := pm_of_mask (l := [.dep]) (by simp) (by decide)
@[simp] theorem pcntAdd_prot (a0 : Nat) (a1 : Nat) (c : Chip) : (pcntAdd a0 a1 c).prot = c.prot := prot_of_mask (l := [.dep]) (by simp) (by decide)
@[simp] theorem pcntAdd_tim (a0 : Nat) (a1 : Nat) (c : Chip) : (pcntAdd a0 a1 c).tim = c.tim := tim_of_mask (l := [.dep]) (by simp) (by decide)
@[simp] theorem pcntAdd_upd (a0 : Nat) (a1 : Nat) (c : Chip) : (pcntAdd a0 a1 c).upd = c.upd := upd_of_mask (l := [.dep]) (by simp) (by decide)
@[simp] theorem pcntAdd_pair (a0 : Nat) (a1 : Nat) (c : Chip) : (pcntAdd a0 a1 c).pair = c.pair := pair_of_mask (l := [.dep]) (by simp) (by decide)
@[simp] theorem pcntAdd_free (a0 : Nat) (a1 : Nat) (c : Chip) : (pcntAdd a0 a1 c).free = c.free := free_of_mask (l := [.dep]) (by simp) (by decide)
@[simp] theorem setCm_cm (a0 : CommitSt) (c : Chip) : (setCm a0 c).cm = a0 := rfl
@[simp] theorem setDep_dep (a0 : DepSt) (c : Chip) : (setDep a0 c).dep = a0 := rfl
@[simp] theorem setJct_jct (a0 : JunctionSt) (c : Chip) : (setJct a0 c).jct = a0 := rfl
@[simp] theorem setPair_pair (a0 : PairSt) (c : Chip) : (setPair a0 c).pair = a0 := rfl
@[simp] theorem setPm_pm (a0 : PmSt) (c : Chip) : (setPm a0 c).pm = a0 := rfl
@[simp] theorem setPower_power (a0 : PowerSt) (c : Chip) : (setPower a0 c).power = a0 := rfl
@[simp] theorem setTim_tim (a0 : TimSt) (c : Chip) : (setTim a0 c).tim = a0 := rfl
@[simp] theorem setUpd_upd (a0 : UpdSt) (c : Chip) : (setUpd a0 c).upd = a0 := rfl
@[simp] theorem setMirror_mirror (m : MirrorSt) (c : Chip) : (setMirror m c).pair.mirror = m := rfl
@[simp] theorem setCounters_count (t : CountSt) (c : Chip) : (setCounters t c).dep.count = t := rfl
@[simp] theorem setT1_t1 (t : T1St) (c : Chip) : (setT1 t c).tim.t1 = t := rfl
@[simp] theorem setOsc_osc (o : OscSt) (c : Chip) : (setOsc o c).tim.osc = o := rfl
@[simp] theorem setRoots_roots (l : List Root) (c : Chip) : (setRoots l c).dfx.roots = l := rfl
@[simp] theorem setGroups_groups (m : FMap GrpSt) (c : Chip) : (setGroups m c).prot.groups = m := rfl
@[simp] theorem emit_out (o : Output) (c : Chip) : (emit o c).host.out = c.host.out ++ [o] := rfl
@[simp] theorem emit_readData (o : Output) (c : Chip) : (emit o c).host.readData = c.host.readData := rfl

/-- What no turn of a loop changes, the loop does not change. -/
theorem forEach_keeps {α β : Type} (g : Chip → β) {f : α → Chip → Chip} (h : ∀ a c, g (f a c) = g c) (xs : List α) (c : Chip) :
    g (forEach xs f c) = g c :=
  match xs with
  | [] => rfl
  | x :: t => (forEach_keeps g h t (f x c)).trans (h x c)
theorem forEach_dev {α : Type} {f : α → Chip → Chip} (h : ∀ a c, (f a c).dev = c.dev) (xs : List α) (c : Chip) : (forEach xs f c).dev = c.dev := forEach_keeps Chip.dev h xs c
theorem forEach_mb {α : Type} {f : α → Chip → Chip} (h : ∀ a c, (f a c).mb = c.mb) (xs : List α) (c : Chip) : (forEach xs f c).mb = c.mb := forEach_keeps Chip.mb h xs c
theorem forEach_int {α : Type} {f : α → Chip → Chip} (h : ∀ a c, (f a c).int = c.int) (xs : List α) (c : Chip) : (forEach xs f c).int = c.int := forEach_keeps Chip.int h xs c
theorem forEach_nq {α : Type} {f : α → Chip → Chip} (h : ∀ a c, (f a c).nq = c.nq) (xs : List α) (c : Chip) : (forEach xs f c).nq = c.nq := forEach_keeps Chip.nq h xs c
theorem forEach_oq {α : Type} {f : α → Chip → Chip} (h : ∀ a c, (f a c).oq = c.oq) (xs : List α) (c : Chip) : (forEach xs f c).oq = c.oq := forEach_keeps Chip.oq h xs c
theorem forEach_notice {α : Type} {f : α → Chip → Chip} (h : ∀ a c, (f a c).notice = c.notice) (xs : List α) (c : Chip) : (forEach xs f c).notice = c.notice := forEach_keeps Chip.notice h xs c
theorem forEach_taps {α : Type} {f : α → Chip → Chip} (h : ∀ a c, (f a c).taps = c.taps) (xs : List α) (c : Chip) : (forEach xs f c).taps = c.taps := forEach_keeps Chip.taps h xs c
theorem forEach_host {α : Type} {f : α → Chip → Chip} (h : ∀ a c, (f a c).host = c.host) (xs : List α) (c : Chip) : (forEach xs f c).host = c.host := forEach_keeps Chip.host h xs c
theorem forEach_img {α : Type} {f : α → Chip → Chip} (h : ∀ a c, (f a c).img = c.img) (xs : List α) (c : Chip) : (forEach xs f c).img = c.img := forEach_keeps Chip.img h xs c
theorem forEach_cm {α : Type} {f : α → Chip → Chip} (h : ∀ a c, (f a c).cm = c.cm) (xs : List α) (c : Chip) : (forEach xs f c).cm = c.cm := forEach_keeps Chip.cm h xs c
theorem forEach_jct {α : Type} {f : α → Chip → Chip} (h : ∀ a c, (f a c).jct = c.jct) (xs : List α) (c : Chip) : (forEach xs f c).jct = c.jct := forEach_keeps Chip.jct h xs c
theorem forEach_eng {α : Type} {f : α → Chip → Chip} (h : ∀ a c, (f a c).eng = c.eng) (xs : List α) (c : Chip) : (forEach xs f c).eng = c.eng := forEach_keeps Chip.eng h xs c
theorem forEach_isl {α : Type} {f : α → Chip → Chip} (h : ∀ a c, (f a c).isl = c.isl) (xs : List α) (c : Chip) : (forEach xs f c).isl = c.isl := forEach_keeps Chip.isl h xs c
theorem forEach_cwy {α : Type} {f : α → Chip → Chip} (h : ∀ a c, (f a c).cwy = c.cwy) (xs : List α) (c : Chip) : (forEach xs f c).cwy = c.cwy := forEach_keeps Chip.cwy h xs c
theorem forEach_ctx {α : Type} {f : α → Chip → Chip} (h : ∀ a c, (f a c).ctx = c.ctx) (xs : List α) (c : Chip) : (forEach xs f c).ctx = c.ctx := forEach_keeps Chip.ctx h xs c
theorem forEach_line {α : Type} {f : α → Chip → Chip} (h : ∀ a c, (f a c).line = c.line) (xs : List α) (c : Chip) : (forEach xs f c).line = c.line := forEach_keeps Chip.line h xs c
theorem forEach_power {α : Type} {f : α → Chip → Chip} (h : ∀ a c, (f a c).power = c.power) (xs : List α) (c : Chip) : (forEach xs f c).power = c.power := forEach_keeps Chip.power h xs c
theorem forEach_dfx {α : Type} {f : α → Chip → Chip} (h : ∀ a c, (f a c).dfx = c.dfx) (xs : List α) (c : Chip) : (forEach xs f c).dfx = c.dfx := forEach_keeps Chip.dfx h xs c
theorem forEach_pm {α : Type} {f : α → Chip → Chip} (h : ∀ a c, (f a c).pm = c.pm) (xs : List α) (c : Chip) : (forEach xs f c).pm = c.pm := forEach_keeps Chip.pm h xs c
theorem forEach_prot {α : Type} {f : α → Chip → Chip} (h : ∀ a c, (f a c).prot = c.prot) (xs : List α) (c : Chip) : (forEach xs f c).prot = c.prot := forEach_keeps Chip.prot h xs c
theorem forEach_tim {α : Type} {f : α → Chip → Chip} (h : ∀ a c, (f a c).tim = c.tim) (xs : List α) (c : Chip) : (forEach xs f c).tim = c.tim := forEach_keeps Chip.tim h xs c
theorem forEach_upd {α : Type} {f : α → Chip → Chip} (h : ∀ a c, (f a c).upd = c.upd) (xs : List α) (c : Chip) : (forEach xs f c).upd = c.upd := forEach_keeps Chip.upd h xs c
theorem forEach_pair {α : Type} {f : α → Chip → Chip} (h : ∀ a c, (f a c).pair = c.pair) (xs : List α) (c : Chip) : (forEach xs f c).pair = c.pair := forEach_keeps Chip.pair h xs c
theorem forEach_dep {α : Type} {f : α → Chip → Chip} (h : ∀ a c, (f a c).dep = c.dep) (xs : List α) (c : Chip) : (forEach xs f c).dep = c.dep := forEach_keeps Chip.dep h xs c
theorem forEach_free {α : Type} {f : α → Chip → Chip} (h : ∀ a c, (f a c).free = c.free) (xs : List α) (c : Chip) : (forEach xs f c).free = c.free := forEach_keeps Chip.free h xs c

end Sys2Proof.Machine
end

