-- ==== Sys2Proof/Laws/Access.lean ====
section
/-!
SUPPORT. Each table of the state: what its entry reads as after a change of that entry, and that other entries stay.
-/
namespace Sys2Proof.Machine
open Sys2Proof

@[simp] theorem updDepot_get (i : Nat) (f : DepotSt → DepotSt) (c : Chip) : getDepot (updDepot i f c) i = f (getDepot c i) := by
  simp [getDepot, updDepot]
theorem updDepot_get_other {i j : Nat} (f : DepotSt → DepotSt) (c : Chip) (h : j ≠ i) : getDepot (updDepot i f c) j = getDepot c j := by
  simp [getDepot, updDepot, tget_tupd_other _ _ f h]
@[simp] theorem updScan_get (i : Nat) (f : ScanSt → ScanSt) (c : Chip) : getScan (updScan i f c) i = f (getScan c i) := by
  simp [getScan, updScan]
theorem updScan_get_other {i j : Nat} (f : ScanSt → ScanSt) (c : Chip) (h : j ≠ i) : getScan (updScan i f c) j = getScan c j := by
  simp [getScan, updScan, tget_tupd_other _ _ f h]
@[simp] theorem updEng_get (i : Nat) (f : EngSt → EngSt) (c : Chip) : getEng (updEng i f c) i = f (getEng c i) := by
  simp [getEng, updEng]
theorem updEng_get_other {i j : Nat} (f : EngSt → EngSt) (c : Chip) (h : j ≠ i) : getEng (updEng i f c) j = getEng c j := by
  simp [getEng, updEng, tget_tupd_other _ _ f h]
@[simp] theorem updIsl_get (i : Nat) (f : IslSt → IslSt) (c : Chip) : getIsl (updIsl i f c) i = f (getIsl c i) := by
  simp [getIsl, updIsl]
theorem updIsl_get_other {i j : Nat} (f : IslSt → IslSt) (c : Chip) (h : j ≠ i) : getIsl (updIsl i f c) j = getIsl c j := by
  simp [getIsl, updIsl, tget_tupd_other _ _ f h]
@[simp] theorem updTrace_get (i : Nat) (f : TraceSt → TraceSt) (c : Chip) : getTrace (updTrace i f c) i = f (getTrace c i) := by
  simp [getTrace, updTrace]
theorem updTrace_get_other {i j : Nat} (f : TraceSt → TraceSt) (c : Chip) (h : j ≠ i) : getTrace (updTrace i f c) j = getTrace c j := by
  simp [getTrace, updTrace, tget_tupd_other _ _ f h]
@[simp] theorem updTap_get (i : Nat) (f : TapSt → TapSt) (c : Chip) : getTap (updTap i f c) i = f (getTap c i) := by
  simp [getTap, updTap]
theorem updTap_get_other {i j : Nat} (f : TapSt → TapSt) (c : Chip) (h : j ≠ i) : getTap (updTap i f c) j = getTap c j := by
  simp [getTap, updTap, tget_tupd_other _ _ f h]
@[simp] theorem updInj_get (i : Nat) (f : InjSlot → InjSlot) (c : Chip) : getInj (updInj i f c) i = f (getInj c i) := by
  simp [getInj, updInj]
theorem updInj_get_other {i j : Nat} (f : InjSlot → InjSlot) (c : Chip) (h : j ≠ i) : getInj (updInj i f c) j = getInj c j := by
  simp [getInj, updInj, tget_tupd_other _ _ f h]
@[simp] theorem updCwy_get (i : Nat) (f : CwySt → CwySt) (c : Chip) : getCwy (updCwy i f c) i = f (getCwy c i) := by
  simp [getCwy, updCwy]
theorem updCwy_get_other {i j : Nat} (f : CwySt → CwySt) (c : Chip) (h : j ≠ i) : getCwy (updCwy i f c) j = getCwy c j := by
  simp [getCwy, updCwy, tget_tupd_other _ _ f h]
@[simp] theorem updLane_get (i : Nat) (f : LaneSt → LaneSt) (c : Chip) : getLane (updLane i f c) i = f (getLane c i) := by
  simp [getLane, updLane]
theorem updLane_get_other {i j : Nat} (f : LaneSt → LaneSt) (c : Chip) (h : j ≠ i) : getLane (updLane i f c) j = getLane c j := by
  simp [getLane, updLane, tget_tupd_other _ _ f h]
@[simp] theorem updOh_get (i : Nat) (f : OhPortSt → OhPortSt) (c : Chip) : getOh (updOh i f c) i = f (getOh c i) := by
  simp [getOh, updOh]
theorem updOh_get_other {i j : Nat} (f : OhPortSt → OhPortSt) (c : Chip) (h : j ≠ i) : getOh (updOh i f c) j = getOh c j := by
  simp [getOh, updOh, tget_tupd_other _ _ f h]
@[simp] theorem updSel_get (i : Nat) (f : SelSt → SelSt) (c : Chip) : getSel (updSel i f c) i = f (getSel c i) := by
  simp [getSel, updSel]
theorem updSel_get_other {i j : Nat} (f : SelSt → SelSt) (c : Chip) (h : j ≠ i) : getSel (updSel i f c) j = getSel c j := by
  simp [getSel, updSel, tget_tupd_other _ _ f h]
theorem getGroup_eq (c : Chip) (g : Nat) : getGroup c g = tget (groupDflt g) c.power.groups g := (tget_eq_lookup _ _ _).symm
@[simp] theorem updGroup_get (i : Nat) (f : GroupSt → GroupSt) (c : Chip) : getGroup (updGroup i f c) i = f (getGroup c i) := by
  rw [getGroup_eq, updGroup]
  exact tget_tset_same _ _ _ _
theorem updGroup_get_other {i j : Nat} (f : GroupSt → GroupSt) (c : Chip) (h : j ≠ i) : getGroup (updGroup i f c) j = getGroup c j := by
  rw [getGroup_eq, getGroup_eq, updGroup]
  unfold tset
  split
  · exact tget_tdel_other _ _ h
  · exact tget_tput_other _ _ _ h
theorem updIn_lookup (i : Nat) (f : InSt → InSt) (c : Chip) : (updIn i f c).tim.ins.lookup i = (c.tim.ins.lookup i).map f := by
  unfold updIn
  split <;> rename_i h <;> simp [h, setTim]
theorem updDp_lookup (i : Nat) (f : DpSt → DpSt) (c : Chip) : (updDp i f c).tim.dps.lookup i = (c.tim.dps.lookup i).map f := by
  unfold updDp
  split <;> rename_i h <;> simp [h, setTim]
theorem updGrp_lookup (i : Nat) (f : GrpSt → GrpSt) (c : Chip) : (updGrp i f c).prot.groups.lookup i = (c.prot.groups.lookup i).map f := by
  unfold updGrp
  split <;> rename_i h <;> simp [h, setGroups]
theorem updCtx_get {i : Nat} (f : CtxSt → CtxSt) {c : Chip} (h : (c.img.place.tribs.lookup i).isSome = true) : getCtx (updCtx i f c) i = f (getCtx c i) := by
  simp [getCtx, updCtx, h]
theorem updCtx_get_other {i j : Nat} (f : CtxSt → CtxSt) (c : Chip) (h : j ≠ i) : getCtx (updCtx i f c) j = getCtx c j := by
  unfold updCtx
  split
  · exact tget_tupd_other _ _ f h
  · rfl
@[simp] theorem updUnit_get (p u : Nat) (f : AlignSt → AlignSt) (c : Chip) : getUnit (updUnit p u f c) p u = f (getUnit c p u) := by
  simp [getUnit, updUnit]
@[simp] theorem setLaser_get (i : Nat) (v : LaserSt) (c : Chip) : getLaser (setLaser i v c) i = v := by
  simp [getLaser, setLaser]
@[simp] theorem setSkew_get (i : Nat) (v : SkewSt) (c : Chip) : getSkew (setSkew i v c) i = v := by
  simp [getSkew, setSkew]
@[simp] theorem setOut_get (i : Nat) (v : OutSt) (c : Chip) : getOut (setOut i v c) i = v := by
  simp [getOut, setOut]

end Sys2Proof.Machine
end

