-- ==== Sys2Proof/Laws/Shared.lean ====
section
/-!
SUPPORT. What the shared operations do: interrupts (R422, R424), notices (R243), mailbox replies (R425 to R428, R431).
-/
namespace Sys2Proof.Machine
open Sys2Proof

/-! ### Bits -/

/-- A bit set in a value: what the value becomes. -/
theorem setBits_one {n : Nat} (x : BitVec n) (k : Nat) (h : k < n) :
    (setBits x k 1 1).toNat = 2 ^ k * (2 * (x.toNat / 2 ^ k / 2) + 1) + x.toNat % 2 ^ k := by
  have hx : x.toNat < 2 ^ n := x.isLt
  simp only [setBits, Nat.shiftRight_eq_div_pow, Nat.pow_one]
  have hp : 0 < 2 ^ k := Nat.two_pow_pos k
  have hs : (2 : Nat) ^ n = 2 ^ (n - k - 1) * (2 * 2 ^ k) := by
    rw [← Nat.pow_succ', ← Nat.pow_add]; congr 1; omega
  generalize hq : x.toNat / 2 ^ k = q
  generalize hr : x.toNat % 2 ^ k = r
  have hxe : x.toNat = 2 ^ k * q + r := by rw [← hq, ← hr]; exact (Nat.div_add_mod _ _).symm
  have hrl : r < 2 ^ k := hr ▸ Nat.mod_lt _ hp
  have hq2 : q = 2 * (q / 2) + q % 2 := (Nat.div_add_mod q 2).symm
  have e : x.toNat - q % 2 * 2 ^ k + 1 % 2 * 2 ^ k = 2 ^ k * (2 * (q / 2) + 1) + r := by
    have : x.toNat = 2 ^ k * (2 * (q / 2)) + q % 2 * 2 ^ k + r := by
      rw [hxe]; conv => lhs; rw [hq2]
      rw [Nat.mul_add, Nat.mul_comm (q % 2)]
    rw [this, Nat.mul_add]; omega
  rw [e]
  have hb : 2 ^ k * (2 * (q / 2) + 1) + r < 2 ^ n := by
    have h2 : q / 2 < 2 ^ (n - k - 1) := by
      rw [Nat.div_lt_iff_lt_mul (by omega), ← hq, Nat.div_lt_iff_lt_mul hp]
      rw [hs] at hx; rw [Nat.mul_assoc]; exact hx
    have h3 : q / 2 + 1 ≤ 2 ^ (n - k - 1) := h2
    calc 2 ^ k * (2 * (q / 2) + 1) + r < 2 ^ k * (2 * (q / 2) + 1) + 2 ^ k := by omega
      _ = (q / 2 + 1) * (2 * 2 ^ k) := by
        rw [← Nat.mul_succ, Nat.mul_left_comm, Nat.mul_comm (2 ^ k)]; rw [show (2 * (q / 2) + 1).succ = 2 * (q / 2 + 1) by omega, Nat.mul_assoc, Nat.mul_left_comm]
      _ ≤ 2 ^ (n - k - 1) * (2 * 2 ^ k) := Nat.mul_le_mul_right _ h3
      _ = 2 ^ n := hs.symm
  rw [BitVec.toNat_ofNat, Nat.mod_eq_of_lt hb]

theorem bitAt_setBits_same {n : Nat} (x : BitVec n) (k : Nat) (h : k < n) : bitAt (setBits x k 1 1) k = true := by
  simp only [bitAt, Nat.shiftRight_eq_div_pow, beq_iff_eq]
  rw [setBits_one x k h, Nat.mul_add_div (Nat.two_pow_pos k), Nat.div_eq_of_lt (Nat.mod_lt _ (Nat.two_pow_pos k))]
  omega

theorem bitAt_setBits_other {n : Nat} (x : BitVec n) {k j : Nat} (h : k < n) (hj : j ≠ k) :
    bitAt (setBits x k 1 1) j = bitAt x j := by
  simp only [bitAt, Nat.shiftRight_eq_div_pow]
  rw [setBits_one x k h]
  have hx : x.toNat = 2 ^ k * (x.toNat / 2 ^ k) + x.toNat % 2 ^ k := (Nat.div_add_mod _ _).symm
  have hr : x.toNat % 2 ^ k < 2 ^ k := Nat.mod_lt _ (Nat.two_pow_pos k)
  generalize x.toNat / 2 ^ k = q at *
  generalize x.toNat % 2 ^ k = r at *
  rw [hx]
  rcases Nat.lt_or_gt_of_ne hj with h1 | h1
  · obtain ⟨d, rfl⟩ : ∃ d, k = j + 1 + d := ⟨k - j - 1, by omega⟩
    have e : ∀ a, 2 ^ (j + 1 + d) * a + r = 2 ^ j * (2 * (2 ^ d * a)) + r := by
      intro a; rw [Nat.pow_add, Nat.pow_succ, Nat.mul_assoc, Nat.mul_assoc]
    rw [e, e, Nat.mul_add_div (Nat.two_pow_pos j), Nat.mul_add_div (Nat.two_pow_pos j)]
    congr 1
    omega
  · obtain ⟨d, rfl⟩ : ∃ d, j = k + (1 + d) := ⟨j - k - 1, by omega⟩
    have e : ∀ a, (2 ^ k * a + r) / 2 ^ (k + (1 + d)) = a / 2 / 2 ^ d := by
      intro a
      rw [Nat.pow_add, ← Nat.div_div_eq_div_mul, Nat.mul_add_div (Nat.two_pow_pos k), Nat.div_eq_of_lt hr, Nat.add_zero, Nat.pow_add, Nat.pow_one, Nat.div_div_eq_div_mul]
    rw [e, e]
    congr 3
    omega

/-! ### Loops and conditions -/

theorem awake_of {s : State} (h : s.c.dev.state ≠ .cold) : awake s.c = true := by simp [awake, h]

/-- What every turn of a loop keeps, the loop keeps. -/
theorem forEach_ind {α : Type} {Q : Chip → Prop} {f : α → Chip → Chip} (h : ∀ a c, Q c → Q (f a c)) (xs : List α) (c : Chip)
    (hc : Q c) : Q (forEach xs f c) := by
  induction xs generalizing c with
  | nil => exact hc
  | cons x t ih => exact ih _ (h x c hc)

/-- What each turn establishes for its own element and the others keep holds of every element at the end. -/
theorem forEach_all {α : Type} {Q : α → Chip → Prop} {f : α → Chip → Chip} (h1 : ∀ a c, Q a (f a c))
    (h2 : ∀ a b c, Q b c → Q b (f a c)) (xs : List α) (c : Chip) : ∀ x, x ∈ xs → Q x (forEach xs f c) := by
  induction xs generalizing c with
  | nil => intro x hx; simp at hx
  | cons y t ih =>
    intro x hx
    rw [forEach_cons]
    rcases List.mem_cons.1 hx with rfl | h
    · exact forEach_ind (fun a c hc => h2 a x c hc) t _ (h1 x c)
    · exact ih _ x h

theorem mem_tkeys {α : Type} (m : FMap α) (k : Nat) (r : α) (h : m.lookup k = some r) : k ∈ tkeys m := by
  match m with
  | (i, v) :: t =>
    rw [lookup_first] at h
    by_cases hk : k = i
    · exact List.mem_cons.2 (.inl hk)
    · exact List.mem_cons_of_mem _ (mem_tkeys t k r ((if_neg hk).symm.trans h))

/-- An ascending list with a number inserted holds that number and what it held. -/
theorem mem_insAsc (l : List Nat) (k j : Nat) : j ∈ insAsc l k ↔ j = k ∨ j ∈ l := by
  induction l, k using insAsc.induct with
  | case4 y t x h1 h2 ih => rw [insAsc, if_neg h1, if_neg h2, List.mem_cons, List.mem_cons, ih, or_left_comm]
  | _ => simp_all [insAsc]

/-! ### Interrupts -/

@[simp] theorem sendVector_status (v : Nat) (c : Chip) : (sendVector v c).int.status = c.int.status := by
  unfold sendVector
  dsimp only
  split <;> simp

/-- A source set by hardware stands (R422). -/
@[simp] theorem setInt_set {src : Nat} (h : src < 8) (c : Chip) : IntSet src (setInt src c) := by
  unfold IntSet setInt
  split
  · assumption
  · dsimp only
    split
    · rw [sendVector_status]; exact bitAt_setBits_same _ _ h
    · exact bitAt_setBits_same _ _ h

/-- A source that stands keeps standing when another is set. -/
theorem IntSet_setInt {j src : Nat} (hs : src < 8) {c : Chip} (h : IntSet j c) : IntSet j (setInt src c) := by
  by_cases hj : j = src
  · subst hj
    exact setInt_set hs c
  · unfold IntSet setInt at *
    split
    · exact h
    · dsimp only
      split
      · rw [sendVector_status]; exact (bitAt_setBits_other _ hs hj).trans h
      · exact (bitAt_setBits_other _ hs hj).trans h

/-- Entering a state shows in `DEV_STATE` and changes nothing else of the device. -/
@[simp] theorem setDev_dev (st : DevState) (c : Chip) : (setDev st c).dev = { c.dev with state := st } := by
  unfold setDev
  split
  · rename_i h
    rw [← h]
  · simp

/-- A state entered anew sets `STATE_CHANGE` (R422). -/
theorem setDev_int {st : DevState} {c : Chip} (h : c.dev.state ≠ st) : IntSet 4 (setDev st c) := by
  unfold setDev
  rw [if_neg h]
  exact setInt_set (by decide) _

/-! ### Notices -/

theorem drainList_keeps (n : Notice) (l : List Notice) (q : QueueSt) (h : n ∈ l ∨ noticeItem n ∈ q.items) :
    noticeItem n ∈ (drainList l q).2.items ∨ n ∈ (drainList l q).1 := by
  induction l generalizing q with
  | nil => exact .inl (h.resolve_left (by simp))
  | cons m t ih =>
    rw [drainList]
    split
    · refine ih _ ?_
      rcases h with h | h
      · rcases List.mem_cons.1 h with h | h
        · exact .inr (by simp [h])
        · exact .inl h
      · exact .inr (by simp [h])
    · rcases h with h | h
      · exact .inr h
      · exact .inl h

theorem drainList_length (l : List Notice) (q : QueueSt) : (drainList l q).1.length ≤ l.length := by
  induction l generalizing q with
  | nil => exact Nat.le_refl _
  | cons m t ih =>
    rw [drainList]
    split
    · exact Nat.le_succ_of_le (ih _)
    · exact Nat.le_refl _

/-- What has been raised stays raised while the signal box moves notices on (R243). -/
theorem Raised_drain {n : Notice} {c : Chip} (h : Raised n c) : Raised n (drainNotices c) := by
  unfold drainNotices
  split
  · exact h
  · simpa only [Raised, countEvent_nq, countEvent_notice] using drainList_keeps n _ _ h.symm

theorem drain_room {k : Nat} {c : Chip} (h : NoticeRoom k c) : NoticeRoom k (drainNotices c) := by
  unfold drainNotices
  split
  · exact h
  · simp only [NoticeRoom, countEvent_notice] at *
    have := drainList_length c.notice.held c.nq
    omega

/-- A notice raised while there is room is raised (R240, R243). -/
theorem notify_raised (n : Notice) {c : Chip} (h : NoticeRoom 1 c) : Raised n (notify n c) := by
  refine Raised_drain (.inr ?_)
  have hl : (c.notice.held ++ [n]).length ≤ heldRoom := by simpa [NoticeRoom] using h
  simp only [holdNotice, if_pos hl]
  simp

/-- A further notice leaves those raised before. -/
theorem Raised_notify {m : Notice} (n : Notice) {c : Chip} (h : Raised m c) (hr : NoticeRoom 1 c) : Raised m (notify n c) := by
  refine Raised_drain ?_
  have hl : (c.notice.held ++ [n]).length ≤ heldRoom := by simpa [NoticeRoom] using hr
  simp only [holdNotice, if_pos hl, Raised]
  rcases h with h | h
  · exact .inl h
  · exact .inr (by simp [h])

/-- One notice uses up room for one. -/
theorem notify_room {k : Nat} (n : Notice) {c : Chip} (h : NoticeRoom (k + 1) c) : NoticeRoom k (notify n c) := by
  refine drain_room ?_
  have hl : (c.notice.held ++ [n]).length ≤ heldRoom := by simp only [NoticeRoom, List.length_append, List.length_singleton] at *; omega
  have e : holdNotice n c.notice = { c.notice with held := c.notice.held ++ [n] } := by simp only [holdNotice, if_pos hl]
  simp only [NoticeRoom] at *
  rw [e]
  simp only [List.length_append, List.length_singleton]
  omega

/-- What is raised, and the room left, stand through an operation that leaves queue and held notices. -/
theorem Raised_congr {n : Notice} {a b : Chip} (h1 : a.nq = b.nq) (h2 : a.notice = b.notice) : Raised n a ↔ Raised n b := by
  unfold Raised
  rw [h1, h2]

@[simp] theorem Raised_setInt (n : Notice) (src : Nat) (c : Chip) : Raised n (setInt src c) ↔ Raised n c :=
  Raised_congr (by simp) (by simp)

/-! ### Mailbox -/

/-- A reply delivered ends the command (R425, R426): `BUSY` falls, `DONE` rises with its interrupt. -/
theorem mbDeliver_mb {c : Chip} {k : MbCur} (r : MbReply) (h : c.mb.cur = some k) :
    (mbDeliver r c).mb = { c.mb with cur := none, held := none, done := true, code := BitVec.ofNat 12 k.code, tag := k.tag, result := BitVec.ofNat 8 r.result, reply0 := r.r0, reply1 := r.r1 } ∧
    IntSet 0 (mbDeliver r c) := by
  unfold mbDeliver
  simp only [h]
  exact ⟨setInt_mb _ _, setInt_set (by decide) _⟩

/-- A reply is delivered at once while the signal box is up (R431). -/
theorem mbReply_up {c : Chip} (h : c.dev.sbDown = false) (result r0 r1 : Nat) :
    mbReply result r0 r1 c = mbDeliver { result := result, r0 := BitVec.ofNat 32 r0, r1 := BitVec.ofNat 32 r1 } c := by
  simp [mbReply, h]

end Sys2Proof.Machine
end

