-- ==== Sys2Proof/Machine/Client.lean ====
section
/-!
DEFINITION. Client blocks of Ethernet and FlexE clients (R154, R179): idle deletion and reinsertion, the 257-bit transcoding, the
overhead-block lookalike. A block is its sync header's second bit (1 data, 0 control) and its 64 payload bits, bit 0 the first sent.
The payload of a tributary is symbolic elsewhere (log 7); these functions are what the mapping does to it.
-/
namespace Sys2Proof.Machine
open Sys2Proof

/-- A 66-bit block: whether it is a data block, and its payload. -/
abbrev Block66 : Type := Bool × BitVec 64

/-- An idle block: block type 0x1E with eight idle codes. -/
def idleBlock : Block66 := (false, 0x1E)

/-- An error block: block type 0x1E with eight error codes of 7 bits. PRESUMED (log 51): IEEE 802.3. -/
def errorBlock : Block66 := (false, BitVec.ofNat 64 (0x1E + 256 * ((upto 8).foldl (fun a k => a + 0x1E * 128 ^ k) 0)))

/-- A control block of type 0x4B with O-code 0x5 (R154): the O-code follows the type and three bytes. PRESUMED (log 51): IEEE 802.3. -/
def overheadLookalike (b : Block66) : Bool := !b.1 && bits b.2 0 8 = 0x4B && bits b.2 32 4 = 5

/-- What a client's blocks become on the way into the calendar, and how many were replaced (R154). -/
def egressBlocks (l : List Block66) : List Block66 × Nat :=
  (l.map (fun b => if overheadLookalike b then errorBlock else b), (l.filter overheadLookalike).length)

/-- Blocks of 66 bits that n berths of 3,200 bytes carry at most in a tick, four to each 257 bits (R179). -/
def berthBlocks (n : Nat) : Nat := 4 * (n * 25600 / 257)

/-- A tick of the ingress function (R179): idle blocks are deleted, the rest goes on behind what the ring holds; what n berths do not
carry is held back. -/
def ingressTick (n : Nat) (held new : List Block66) : List Block66 × List Block66 :=
  let l := held ++ new.filter (· ≠ idleBlock)
  (l.take (berthBlocks n), l.drop (berthBlocks n))

/-- The egress function fills the server's rate with idle blocks (R179). -/
def egressTick (room : Nat) (l : List Block66) : List Block66 := l ++ List.replicate (room - l.length) idleBlock

/-- The payload bits of a block, first sent first, from bit k on. -/
def payloadBits (k : Nat) (b : Block66) : List Bool := ((upto 64).drop k).map (fun i => bitAt b.2 i)

/-- Four blocks as 257 bits (R179). PRESUMED (log 51): IEEE 802.3 clause 91. Of the first control block the second nibble of its type is left out. -/
def transcode (l : List Block66) : List Bool :=
  if l.all (·.1) then true :: (l.map (payloadBits 0)).flatten
  else
    let first := (l.takeWhile (·.1)).length
    false :: l.map (·.1) ++ ((upto l.length).map (fun k =>
      let b := l.getD k idleBlock
      if k = first then (payloadBits 0 b).take 4 ++ payloadBits 8 b else payloadBits 0 b)).flatten

end Sys2Proof.Machine
end

