-- ==== Sys2Proof/Machine/Transmit.lean ====
section
/-!
DEFINITION. What the part sends on its lines in the present tick (R49, R50, R151, R159 to R164, R185, R196, R203, R229). No register shows it;
each is a function of the state. Fields the tables call zero, and those passed through, are in none of them.
-/
namespace Sys2Proof.Machine
open Sys2Proof

/-! ### Signals -/

/-- The tributary whose data a destination takes (R196, R204): its feeding source, or the member of the feeding group that SELECT names. -/
def takenSource (c : Chip) (t : Nat) : Option Nat :=
  (feedOf (theImage c) (t % 0x20000)).map (fun f =>
    match groupRec (theImage c) f.2 with
    | some r => if (getSel c f.2).select then protP r else protW r
    | none => f.1)

/-- A tributary is the protection member of a 1:1 group whose bridged signal is 0, so that its egress function sends the null signal (R280). -/
def sendsNull (c : Chip) (t : Nat) : Bool :=
  c.prot.groups.any (fun e => match protRec c e.1 with | some r => protKind r ≤ 2 && protArch r = 1 && protP r = t && !e.2.bridged | none => false)

/-- What a tributary's egress function sends on its line (R49, R50, R196, R203, R280): its own replacement signal, the null signal, the
open-connection signal, or what the source it takes carries. -/
def lineSignal (c : Chip) (t : Nat) : Signal :=
  let ty := tribType (tribOf c t)
  if replacedNow c t then replSignal ty
  else if sendsNull c t then .nullOdu
  else match takenSource c t with
    | none => openSignal ty
    | some s => berthSignal c s false

/-! ### BIP and BEI -/

/-- BIP-8 of a frame's bytes (R160): even parity, bit by bit. -/
def bip8 (l : List Byte) : Byte := l.foldl (· ^^^ ·) 0

/-- The violations a received BIP-8 shows, which a slice's own BEI sends back (R160). -/
def beiOf (received computed : Byte) : Nat := ((upto 8).filter (fun k => bitAt received k ≠ bitAt computed k)).length

/-- The OTUCn block of one frame period is errored (R160): at the near end when any slice's BIP-8 is violated, at the far end when any
slice's BEI lies in 1 to 8. -/
def blockNear (slices : List Nat) : Bool := slices.any (· ≠ 0)
def blockFar (beis : List Nat) : Bool := beis.any (fun v => 1 ≤ v && v ≤ 8)

/-! ### Section overhead -/

/-- The identities a port sends (R151, R162): a FlexO instance's GID, PID and MAP; a FlexE instance's group, PHY number and PHY map. -/
def idsSent (c : Chip) (p : Nat) : List (Nat × Nat × Nat) :=
  let im := theImage c
  let n := portRate im p / 100
  let r := stackRec c p
  if portStack im p = 1 then (upto n).map (fun j => (p + 1, j + 1, mapOf ((upto n).map (· + 1))))
  else if portStack im p = 0x20 then List.replicate n (stackGroup r, stackPhy r, groupMap im (stackGroup r))
  else []

/-- The APS value of the MSP group of a port (R161, R279): sent on the protection line. -/
def mspSent (c : Chip) (p : Nat) : Option Word :=
  (c.prot.groups.find? (fun e => match (theImage c).getRec 5 e.1 with | some r => protKind r = 4 && protP r = p && grpSends r | none => false)).map (·.2.sent)

/-- The S1 bits of an SDH port (R161, R297): the QL that the part sends, and DNU on the port that times it. -/
def s1Sent (c : Chip) (p : Nat) : Nat := if c.tim.loop = p then 15 else ssmOfQl c.tim.ql

/-- A port's section overhead (R151, R159, R161, R162, R164, R229). -/
def txSection (c : Chip) (p : Nat) : TxSection :=
  let st := portStack (theImage c) p
  { ids := idsSent c p, trace := traceSent (getTrace c p), remote := c.dfx.ind.contains (262144 + p), errors := tget 0 c.dfx.rei (262144 + p), s1 := if isSdh st then some (s1Sent c p) else none, aps := mspSent c p, fill := channelFill st, cal := if st = 0x20 then some (getCal c (stackGroup (stackRec c p))).inUse else none }

/-- The TTI, BDI, IAE and GCC0 of the slices of an OTUCn (R160): the first three in every slice, GCC0 in slice 1 only. -/
def sliceTx (c : Chip) (p slice : Nat) : BitVec 512 × Bool × Bool := ((txSection c p).trace, (txSection c p).remote, slice = 1)

/-! ### Path overhead -/

/-- The MSI an ODU is sent with (R185): the `TPN` of the child in each slot. -/
def msiTable (im : Image) (t : Nat) : List (Nat × Nat) :=
  ((tribChildren im t).map (fun k => match tribRec im k with | some r => (tribSlots r).map (fun s => (s, tribTpn r)) | none => [])).flatten

/-- The trace of a path point (R164). -/
def pathTrace (c : Chip) (t : Nat) : BitVec 512 :=
  match traceEntry c 4 t 0 with
  | some e => traceSent (getTrace c e)
  | none => 0

/-- The APS value of the SNC group whose protection member a tributary is (R279). -/
def sncSent (c : Chip) (t : Nat) : Option Word :=
  (c.prot.groups.find? (fun e => match (theImage c).getRec 5 e.1 with | some r => protKind r ≤ 2 && protP r = t && grpSends r | none => false)).map (·.2.sent)

/-- GMP sends CnD unless `CND_OFF` (R181, R191). -/
def sendsCnd (r : Rec) : Bool := (tribFunc r = 0x010 || tribFunc r = 0x020) && tribParam r % 2 = 0

/-- A tributary's overhead as the part writes it (R159, R161, R185, R191, R229). -/
def txPath (c : Chip) (t : Nat) : TxPath :=
  { trace := pathTrace c t, remote := c.dfx.ind.contains (524288 + t), errors := tget 0 c.dfx.rei (524288 + t), payload := if sendsNull c t then some 0xFD else if isOdu (tribType (tribOf c t)) then payloadSent (theImage c) t else none, msi := if isOdu (tribType (tribOf c t)) then msiTable (theImage c) t else [], cnd := sendsCnd (tribOf c t), aps := sncSent c t }

end Sys2Proof.Machine
end

