-- ==== Sys2Proof/Tests/Slice0.lean ====
section
/-!
SUPPORT. Own tests: the ill-formed terms that WellFormed refuses, the spec's worked examples, a few single steps, and for
every clause of every obligation that has hypotheses a state and operands that meet them all.
-/
namespace Sys2Proof.Tests
open Sys2Proof Sys2Proof.Machine

/-! ### States and records the witnesses are built from -/

def tRec (l : List (Nat × Nat)) : Rec := BitVec.ofNat 384 (l.foldl (fun a e => a + e.2 * 2 ^ e.1) 0)

/-- Ports 4 (Ethernet), 255 (OTUC4) and 319 (electrical, framed lane); tributaries of port 255; a 1+1 group; inputs 8 and 47; outputs. -/
def tSecs (pair : Bool) : FMap (FMap Rec) :=
  [(1, [(4, tRec [(0, 4), (12, 1), (23, 1)]), (255, tRec [(0, 255), (23, 1)]), (319, tRec [(0, 319), (12, 5), (15, 0x24), (23, 1)])]),
   (2, [(4, tRec [(0, 4), (16, 0x10), (64, 0xFF)]), (255, tRec [(0, 255), (16, 1)]), (319, tRec [(0, 319), (16, 0x10)])]),
   (3, [(5, tRec [(0, 5), (18, 255), (35, 8), (43, 3)]), (6, tRec [(0, 6), (18, 4), (35, 0x20), (43, 6)])]),
   (5, (0xFFFF, tRec [(0, 0xFFFF), (20, 1), (22, 5), (39, 6), (64, 1)]) ::
     (if pair then [(0x10000, tRec [(16, 7), (19, 1), (20, 8), (32, 4), (44, 4)])] else [])),
   (6, [(0x108, tRec [(0, 1), (8, 8), (16, 1), (21, 1), (22, 1), (96, 1), (116, 15)]), (0x12F, tRec [(0, 1), (8, 47), (16, 1), (21, 1), (23, 4), (116, 15)]),
     (0x30B, tRec [(0, 3), (8, 0xB), (16, 1), (17, 1), (32, 1)])]),
   (7, [(0x44, tRec [(0, 0x44), (8, 0xFFFFFF)])])]

def tImg (pair : Bool) : Image := { secs := tSecs pair, seq := 7, build := 0, minor := 0 }

def tPlc : Plc := { island := 63, lists := [0], ctx := 1, base := 2320, units := 1, n := 1, seg := 1, src := [0], egr := [0], pm := [], ing := 0, jct := 0, egrc := 0, express := false, pinned := false }

def tUnit : AlignSt := { alignDflt with state := .inFrame, mf := { mfDflt with isIn := true }, smf := { mfDflt with isIn := true } }

/-- A part in a state at tick 100,000 with that image: every lane locked, every unit in frame, everything awake. -/
def tChip (st : DevState) (pair : Bool) : Chip :=
  { chipReset with
    dev := { devReset with state := st, tick := 100000, lit := decide (st = .running) }
    img := { image := some (tImg pair), place := { placeReset with tribs := [(5, tPlc), (6, tPlc)] }, shadow := placeReset }
    line := { lineReset with
      lanes := [(4, { laneDflt with rx := .locked }), (255, { laneDflt with rx := .locked }), (319, { laneDflt with rx := .locked })]
      align := [(256, tUnit), (16320, tUnit), (16321, tUnit), (16322, tUnit), (16323, tUnit)] }
    power := { powerReset with groups := [(0x40, { groupDflt 0x40 with state := 0 }), (0x4F, { groupDflt 0x4F with state := 0 }), (0x5F, { groupDflt 0x5F with state := 0 })], resetLow := false }
    prot := { protReset with groups := [(0xFFFF, { grpNew 0 0 with select := true })] }
    tim := { timReset with ins := [(8, inDflt), (47, inDflt)], dps := [(0, dpDflt), (1, dpDflt), (3, dpDflt)] }
    pair := { pairReset with holder := decide (st = .running) } }

/-- Running, alone and paired. -/
def tRun : Chip := tChip .running false
def tPair : Chip := tChip .running true
def tStby : Chip := tChip .standby true

def tState (c : Chip) : State := { c := c, mem := [], pending := [] }

/-- The mailbox parameters. -/
def tMb (p0 p1 p2 p3 : Word) (c : Chip) : Chip := { c with mb := { c.mb with p0 := p0, p1 := p1, p2 := p2, p3 := p3 } }

/-- A protection group's state, DPLL 3's and input 8's. -/
def tGrp (x : GrpSt) : Chip := { tRun with prot.groups := [(0xFFFF, x)] }
def tDp (x : DpSt) : Chip := { tRun with tim.dps := [(1, dpDflt), (3, x)] }
def tIn (x : InSt) : Chip := { tRun with tim.ins := [(8, x), (47, x)] }

def tHdr : HokuaHdr := { txTick := 1, epoch := 3, seq := 1, imgSeq := 7, devState := 6, holder := true, pairId := false }
def tAct : ActSt := { fallback := false, trial := false, comp := 1, phase := 0, handed := 0, confirmed := 0, since := 0, goodFrom := none, dps := [], lanes := [], power := [], trouble := 0, mcNew := [], mcDone := [], mcHits := [], mcStart := 0, mcAt := 0, old := [] }
def tChange : Change := { kind := 2, accept := 0, repack := false, bytes := imageOut { imageEmpty with seq := 8, secs := [(1, [(0, tRec [(0, 0)])]), (6, [(0x300, tRec [(0, 3)])])] }, image := none, place := none, outMap := [], commitAt := none, deferred := false, woken := false }
def tFrame : FrameRep := plainFrame 4 0 0

/-- What stands at a position: nothing, and the patterns of a FlexO instance. -/
def tNothing : PatternRep := { field := 0, errors := [], good := 0, tag := 0, block := (0, 0, false), sync := 0, comma := false, crcOk := false, parity := 0 }
def tMarkers : PatternRep := { tNothing with errors := List.replicate 20 0, good := 128, crcOk := true }

def tProtRec : Rec := tRec [(0, 0xFFFF), (20, 1), (22, 5), (39, 6), (64, 1)]
def tReady : TwinSt := { twinReset with state := 7, imgSeq := 7, ready := true, warm := true, statTick := some 99992 }
def tDrill : DrillSt := { swap := 100000, ret := 65535, acked := false, mailbox := true }
def tCur (code : Nat) (p0 : Word) : MbCur := { code := code, tag := 1, accept := 99000, p0 := p0, p1 := 0, p2 := 0, p3 := 0 }

/-- A bundle of one chunk of 16 bytes: its header of 128 bytes, one wrap record and its signature block. -/
def tHead : List Byte := leBytes 3 0x424B53 ++ [1] ++ leBytes 4 0x2304 ++ leBytes 4 9 ++ leBytes 4 0 ++ leBytes 4 16 ++ leBytes 2 1 ++ [1, 0] ++ List.replicate 456 0
/-- The inactive slot in a state, with that bundle. -/
def tSlot (st : Nat) : Chip := { tRun with upd.slotB := { slotEmpty with state := st, header := tHead.take 128, head2 := tHead.drop 128 } }
def tSd : UpdSt := (bundleBegin tHead { updReset with file := some tHead }).2
def tAllAwake (c : Chip) : Chip := { c with power.groups := (upto 0x61).map (fun g => (g, { groupDflt g with state := 0 })) }
def tWith (k : Change) (c : Chip) : Chip := { c with cm := { c.cm with change := some k, pending := true } }
def tHo : HoSt := { h := 0, e := 0, base := 0, ub := 0, thB := 0, used := 0, ext := false, p0 := 0, tsum := 0, pred := 0 }
/-- Every engine of every island out. -/
def tDead : FMap IslSt := (upto 64).map (fun i => (i, { islDflt with engOut := 0xFFFF }))
def tNoPlace : Option ImgFail × Option Placement :=
  feasible (placeIn (tImg false) { tChange with kind := 1, image := some (tImg false) }
    (addFaults [1023] [] (tWith { tChange with kind := 1, image := some (tImg false) } { tChip .starting false with img := imageReset, isl := tDead })))
/-- A part without an image that holds a verified bundle. -/
def tIdle : Chip := { chipReset with dev.state := .awaitImage, upd.slotB := { slotEmpty with state := 3, verified := true } }

/-- Port B of a depot does nothing. -/
def tPort : PortBRep := { kind := 0, second := false, off := 0, len := 0 }
/-- A window of QIC_HUNT in which hypothesis h counted n and every other one none. -/
def tCounts (h n : Nat) : List (Nat × Nat) := (upto 1024).map (fun k => (k, if k = h then n else 0))
/-- A PTP message in a frame of its own Ethertype, and an ESMC frame. -/
def tPtp : List Byte := List.replicate 12 0 ++ [0x88, 0xF7, 0]
def tEsmc : List Byte := List.replicate 12 0 ++ [0x88, 0x09, 0x0A]
/-- Port 255 as an STM-256. -/
def tSdh : Chip := { tRun with img.image := some { tImg false with secs := [(1, [(255, tRec [(0, 255), (23, 1)])]), (2, [(255, tRec [(0, 255), (16, 0x32)])])] } }
def tSdCard : UpdSt := (bundleBegin tHead { updReset with live := { updReset.live with sdAuto := true }, cardIn := true, file := some tHead }).2

/-! ### WellFormed: every check refuses an ill-formed term -/

def tTick : TickRep := { engines := [], lanes := [], ports := [], pm := [], refs := [], loops := [], feeds := [], corrected := [], events := [], t1Step := 500000 }
def tBoot : BootRep := { selfTestOk := true, enginesOut := [], regionsOut := [], depotSpare := 4, hubSpare := 4, legacyKeys := [], legacyOsc := [], legacyPm := [], legacy := false, sdCard := false }
def tLane : LaneRep := { lane := 0, snr := 0, rsUncorr := 0, rsCorr := 0, rsCw := 0, qicUncorr := 0, qicCorr := 0, qicCw := 0, rxPower := 0, txPower := 0 }
def tRef : RefRep := { input := 8, offset := 0, fullWindow := true, timeOffset := 0 }
def tPm : PmRep := { point := 0, blocks := 0, neErr := 0, feErr := 0, bip := 0 }
def tHello : HelloBody := { digest := 0, rev := 1, vers := [], pairRec := 0, unproven := false, yielded := false, ready := true, fp := 0 }
def tStatus : StatusBody := { ready := true, ownCond := false, unproven := false, warm := true, intlk := false, echo := false, lastGen := 0, lastJournal := 0 }
def tBad : HokuaHdr := { tHdr with devState := 9 }

/-- Ill-formed operands of reports. -/
def tIllReports : List Instr :=
  [.supplyFault 0, .bootCompletes { tBoot with enginesOut := [1024] }, .bootCompletes { tBoot with regionsOut := [(63, 1024)] },
   .bootCompletes { tBoot with depotSpare := 5 }, .tickBoundary { tTick with engines := [{ engine := 1024, done := 0, finish := 0 }] },
   .tickBoundary { tTick with engines := [{ engine := 0, done := 0, finish := 375001 }] }, .tickBoundary { tTick with lanes := [{ tLane with lane := 320 }] },
   .tickBoundary { tTick with ports := [{ port := 320, rxBytes := 0, txBytes := 0, b2 := 0 }] }, .tickBoundary { tTick with pm := [{ tPm with point := 0x40280 }] },
   .tickBoundary { tTick with refs := [{ tRef with input := 12 }] }, .tickBoundary { tTick with loops := [{ dpll := 4, phaseErr := 0, rate := 0, ffo := 0 }] },
   .frameReceived { tFrame with unit := 64 }, .frameReceived { tFrame with layer := 6 }, .timingSecondBoundary [{ tRef with input := 48 }]]
/-- Ill-formed engines, tributaries, causeways, regions, windows, groups and inputs. -/
def tIllInside : List Instr :=
  [.heartbeatTimeout 1024, .scratchpadUncorrectable 1024 0, .engineDeath 1024, .sidingReassignment 1024, .engineWriteArrival 0 0 4 0 1 tPort false,
   .engineWriteArrival 0 0 0 0 1 { tPort with kind := 3 } false, .engineItemComplete 0x40000 0 0 0 0, .ringSlip 0x40000 0, .oorClear 0x40000, .causewayFlitUncorrectable 8 0 0 0,
   .causewayFlitUncorrectable 0 2 0 0, .causewayFlitUncorrectable 0 0 64 0, .causewayFlitUncorrectable 0 0 0 15000, .causewayRetransmission 8,
   .causewayLaneBad 8, .spareLaneSubstitution 8, .causewayRestored 8, .wakeFault [1024] [], .wakeFault [] [(64, 0)], .egressWindowServe 64 0 0 0 0 0,
   .egressWindowServe 0 15000 0 0 0 0, .egressWindowServe 0 0 3 0 0 0, .timetableShadowScrub [960000], .protSelRestore 65536 0, .protSelRestore 0 2]
/-- Ill-formed lanes, ports, units, DPLLs, outputs, entries and registers. -/
def tIllLine : List Instr :=
  [.laserFeedLoss 32, .feedRestoreCountEnd 32, .recalibrationComplete 32, .signalDetect 320, .cdrLock 320 0, .cdrLoss 320, .signalAbsent 320,
   .laneFrameLock 0 [47] 0, .laneFrameLockLoss 320 [], .qicWindowEnd 0 [(0, 513)] 0, .qicWindowEnd 0 [(1024, 64)] 0, .qicHuntTimeout 320, .laneEqWrite 320 0,
   .ogWakeStart 0x3F, .ogCalibrationStart 0x50, .ogReceiversEnable 0x50, .ogQicHuntPhase 0x3F, .groupWakeComplete 0x61, .groupStateChange 0x61,
   .framePatternHit 320 0 0 tNothing, .candidateExpectedPosition 0 64 0 tNothing, .settleWindowEnd 320 0 0, .arbitrationEnd 0 64, .lofDeclared 320 0,
   .lofCleared 320 0, .lossOfMultiframe 0 64, .ptpMessageReceived 320 false 0 [], .esmcPduReceived 0 16 [], .esmcTimeout 8, .ohItemEnqueue 64,
   .ohTxProduce 320 0, .ohTxTake 320 true 0, .ohTxPacketTimeout 320, .ptpTxTimestamp 320, .traceWrite 262464 0 [], .traceWrite 0 256 [0], .flexeCalendarSwitch 0x100000]
def tIllRest : List Instr :=
  [.failureDeclared 6 0 0 0, .failureCleared 0 131072 0 0, .corrWindowEnd 16 0, .holdoffExpiry 65536 0, .holdoffExpiry 0 2, .wtrExpiry 65536, .fopNrTimeout 65536,
   .selectorChange 65536, .todMessageReceived 7 (List.replicate 16 0), .todMessageReceived 8 [], .todTimeout 12, .inputNoActivity 15, .inputActivity 48,
   .refWtrExpiry 4, .driftEvaluation 12, .minuteRecord 4, .dpllLock 4, .dpllLockLoss 4, .switchSpanEnd 4 0, .holdoverLost 4, .outputAlignEnd 0x14, .tsPortWrite 320 0]
/-- Ill-formed messages of the twin and accesses of the host. -/
def tIllHost : List Instr :=
  [.helloReceived tBad tHello, .statusReceived tBad tStatus, .leaseRenewReceived tBad, .leaseAckReceived tBad 0, .releaseReceived tHdr 0, .releaseReceived tHdr 11,
   .takenReceived tHdr 6, .faultMapReceived tHdr [(64, 0)] [], .faultMapReceived tHdr [] [(0, 1024)], .genEndReceived tBad 0 0, .drillReqReceived tHdr 0 65536,
   .registerWrite 3 0 [0], .registerWrite 0 0 [], .registerWrite 0 0x10000000 [0], .w1cClear 2 0 0, .nqPop 3 false, .oqPop 3 false, .latchedRead 3 0 4 0, .latchedRead 0 0 0 0,
   .latchedRead 0 0 4 375000, .depotUncorrectableRead 0 0 3 0 0, .patrolRegionStart 64, .patrolWriteBack 64 false, .scanStart 4 0, .pcntSelWrite 256 0 0, .sensorRead [(21, 0)], .thermalTrip 21 0,
   .injectionArm 16, .injectionStart 16, .injectionEnd 16, .tablePortGo 4 0, .tablePortDone 4, .coldSensorRead [(21, 0)], .refinPulse 12]

theorem test_wf_reports : tIllReports.all (fun i => !i.wf) = true := by decide
theorem test_wf_inside : tIllInside.all (fun i => !i.wf) = true := by decide
theorem test_wf_line : tIllLine.all (fun i => !i.wf) = true := by decide
theorem test_wf_rest : tIllRest.all (fun i => !i.wf) = true := by decide
theorem test_wf_host : tIllHost.all (fun i => !i.wf) = true := by decide
/-- Terms at the ends of their ranges stand. -/
theorem test_wf_accepts : [Instr.supplyFault 1, .bootCompletes tBoot, .tickBoundary { tTick with refs := [{ tRef with input := 47 }] },
    .causewayFlitUncorrectable 7 1 63 14999, .ogWakeStart 0x4F, .outputAlignEnd 0x2B, .todTimeout 11, .inputActivity 11, .frameReceived tFrame,
    .helloReceived tHdr tHello, .latchedRead 2 0 4096 374999].all Instr.wf = true := by decide

/-- No word spells a command: the table gives no row any bits. -/
theorem test_no_words : decodeTableWord 0 0 = none ∧ decodeTableWord 64 0x123456789ABCDEF = none := by decide

/-! ### Worked examples of the spec and single steps -/

/-- Chapter 2's pass-through ODU4 has d = 90 and 2,370 cycles; the ODU0's bound breaks at d = 14,476 and holds at d = 46. -/
theorem test_distance : berthDist 514 14990 = 14476 ∧ entriesLat [(90, 0, none)] = 2370 ∧ entriesLat [(560, 514, none)] = 1270 ∧
    isExpress 355 = true ∧ isExpress 356 = false := by decide

/-- Chapter 8's entry for egress berth 1,300, and its two members' distances. -/
theorem test_timetable_entry : ttEntry true 291 5 1000 = 0xC0246143E8 ∧ berthDist 1000 1300 = 300 ∧ berthDist 1200 1300 = 100 := by decide

/-- Chapter 16's tree root notice as its queue item. -/
theorem test_notice_item :
    noticeItem (event 2 0 0 0 64 1297 1020000 false |> fun n => { n with prio := 2 }) = 0x02B000000100051100000000000F9060 := by decide

/-- Chapter 6's arbitration: T at 126 of 128 wins over L at 61; with L at 111 nobody leads. -/
def tCand (p sc : Nat) : Cand := { pos := p, hits := 2, confirmed := true, rival := false, score := sc, frames := 16, tag := 0, crc := true }
theorem test_arbitration : (winner 3 [tCand 5 61, tCand 0 126]).map (·.pos) = some 0 ∧ winner 3 [tCand 5 111, tCand 0 126] = none := by decide

/-- Chapter 10's point: an end after the seconds from 895 on, of which 895 to 906 are SES. -/
def tEnd (n : Nat) : PmEndSt :=
  (upto n).foldl (fun e k => let q := (895 + k) / 900
    endSecond { tRun with pm.quarter := q } { es := decide (k < 12), ses := decide (k < 12), bbe := 0, q := q, d := 0 } e) endDflt
def tBin (n q : Nat) : Nat × Nat × Nat × Bool := let b := tget binDflt (tEnd n).b15 q; (b.es, b.ses, b.uas, b.late)
theorem test_pm_available : tBin 5 0 = (5, 5, 0, false) ∧ tBin 8 1 = (3, 3, 0, false) := by decide +kernel
theorem test_pm_unavailable : tBin 10 0 = (0, 0, 5, true) ∧ tBin 10 1 = (0, 0, 5, false) ∧ tBin 13 1 = (0, 0, 8, false) ∧
    tBin 22 1 = (0, 0, 7, false) ∧ (tEnd 22).avail = true := by decide +kernel

/-- Chapter 11's group: SF-W at the evaluation, then WTR of 480,000 ticks, then back to working. -/
def tEval (n : Nat) (sf : Bool) (x : GrpSt) : GrpSt := (evalGroup (tRec [(39, 6), (22, 5), (20, 1), (64, 60)]) n none { x with w := { x.w with inSf := sf } }).1
def tSfw : GrpSt := tEval 2000001 true (grpNew 0 0)
def tWtr : GrpSt := tEval 2400152 false tSfw
theorem test_protection : tSfw.state = stSFW ∧ tSfw.decided = some 2000002 ∧ tWtr.state = stWTR ∧ tWtr.wtr = 480000 ∧
    (tEval 2880152 false { tWtr with wtr := 1 }).state = stNR := by decide

/-- Chapter 12's input after m minutes of a drift of 0.2 ppb a minute: 9.84, 10.08 and 12.00 ppb/h. -/
def tDrift (m : Nat) : InSt :=
  { inDflt with mins := (upto 60).map (fun (k : Nat) => let i : Int := (m : Int) - 1 - (k : Int); (60 * (if 0 ≤ i then 310 + 20 * i else 300), 60)) }
theorem test_drift : ownDrift 100000000 (tDrift 46) = some 98400 ∧ ownDrift 100000000 (tDrift 47) = some 100800 ∧
    ownDrift 100000000 (tDrift 106) = some 120000 := by decide +kernel

/-- Chapter 13's baseline with the warning at minute 47 and with none. -/
def tMinRec (s : Nat) (k : Nat) : MinRec :=
  let i : Int := 105 - (k : Int)
  { fin := s + 106 * 480000 - 480000 * k, ctl := if 0 ≤ i then 3100000 + 200000 * i else 3000000, temp := 0, usable := true, hours := 0, period := 0 }
def tBase (w : List Nat) : Option (Int × Bool × Nat) :=
  (baseline (tDp { dpDflt with ring := (upto 160).map (tMinRec 96000000), warns := w }) 3 (96000000 + 106 * 480000)).map (fun h => (h.base, h.ext, h.used))
theorem test_baseline : tBase [96000000 + 47 * 480000] = some (6681666, true, 60) ∧ tBase [] = some (15200000, false, 60) := by decide +kernel

/-- Chapter 18's wake times: an island group from S3, an optical engine group and an electrical quad group from S4. -/
theorem test_wake_times : wakeTicks 12 3 = 16 ∧ wakeTicks 0x43 4 = 6400 ∧ wakeTicks 0x50 4 = 800 := by decide

/-- Chapter 20's addresses, each read through the maps: `PORT_ALIGN` of port 183, counter 37 and its copies, bank 1's entry
of island 40 and berth 90, `TRIB_DEFECT` of 0x1234 and `PM_DATA` of point 1,000. -/
theorem test_addresses : tableFind 0x01BE70D0 tables 0 = some (0, 1560090, 0) ∧ tableFind 0x0A824680 tables 0 = some (5, 0x1234, 0) ∧
    tableFind 0x07027100 tables 0 = some (2, 1000, 0) := by decide
theorem test_counter_addresses : let c : Chip := { tRun with dep.count.cnt := [(37, { pcntDflt with val := 0x123456789A })] }
    readA c 0 0xA250 = 0x3456789A ∧ readC { c with dep.count.userEn := true } 0x250 = 0x3456789A := by decide +kernel

/-- Chapter 5's codeword 0 with d0 = d5 = 1: parity 0x09, sent as 0xBD; an error at d0 gives the syndrome of its column, errors at both a double
error's; and a BER of 2.4e-4 is 0x10F0. -/
def tData : List Bool := (upto 120).map (fun k => k = 0 || k = 5)
theorem test_qic_codeword : natOfBits (qicParity tData) = 0x09 ∧ natOfBits (qicMark 0 (qicParity tData)) = 0xBD ∧
    qicSyndrome ((qicEncode tData).set 0 false) = (0x03, true) ∧ qicSyndrome (((qicEncode tData).set 0 false).set 5 false) = (0x09, false) := by
  decide +kernel
theorem test_ber : berWord 24 100000 = 0x10F0 ∧ berWord 0 100000 = 0 := by decide +kernel

/-! ### Single steps -/

/-- What holds of the next state, false on a fault or a refusal. -/
def tNext (i : Instr) (s : State) (p : Chip → Bool) : Bool := match exec i s with | .next t => p t.c | _ => false

/-- Chapter 16's reads: the root of priority 2 is delivered before the quarter-close notice that arrived first; then idle items. -/
def tQueue : Chip := notify { (event 2 0 0 0 64 1297 1020000 false) with prio := 2 } (notify { (event 0x0C 0 0 0 0 0 900000 false) with prio := 3 } tRun)
theorem test_pop : tNext (.nqPop 0 false) (tState tQueue) (fun c => c.host.readData == leBytes 4 0x02B00000 && readA c 0 0x3004 == 0x01000511 && readA c 0 0x300C == 0x000F9060 && qCount c.nq == 1) = true := by decide
theorem test_pop_idle : tNext (.nqPop 0 false) (tState tRun) (fun c => c.host.readData == leBytes 4 0) = true := by decide

/-- R127: a best count of 64 locks with a lead of 32, not of 31; four windows below 32 lose the lock. -/
def tHunt (st : RxState) (low : Nat) : State := tState { tRun with line.lanes := [(255, { laneDflt with rx := st, lowWin := low })] }
theorem test_qic_lead : tNext (.qicWindowEnd 255 [(5, 64), (9, 33)] 0) (tHunt .qicHunt 0) (fun c => decide ((getLane c 255).rx = .qicHunt)) = true ∧
    tNext (.qicWindowEnd 255 [(5, 64), (9, 32)] 0) (tHunt .qicHunt 0) (fun c => decide ((getLane c 255).rx = .locked)) = true := by decide
theorem test_qic_loss : tNext (.qicWindowEnd 255 [(0, 31)] 0) (tHunt .locked 3) (fun c => decide ((getLane c 255).rx = .qicHunt)) = true ∧
    tNext (.qicWindowEnd 255 [(0, 32)] 0) (tHunt .locked 3) (fun c => decide ((getLane c 255).rx = .locked)) = true := by decide

/-- A boundary advances `TICK` by one and idling by none (R41). -/
theorem test_tick : tNext (.tickBoundary tTick) (tState tRun) (fun c => c.dev.tick == 100001) = true := by decide +kernel
theorem test_idle : step (tState tRun) = .next (tState tRun) := rfl

/-! ### Witnesses of the hypotheses -/

theorem test_inv : StateInv State.reset :=
  { mem := by unfold MemOk; decide, lit := by unfold LitOnlyRunning; decide, held := by decide, image := by decide,
    first := (fun _ h => nomatch h), later := (fun _ h => nomatch h) }

theorem test_others (x : InSt) (j : Nat) (h : j ≠ 8) : qualified (tState { tRun with dev.tick := 480000, tim.ins := [(8, x)] }).c j = false := by
  have e : (j == 8) = false := by simp [h]
  simp [qualified, getIn, tState, List.lookup, e, inDflt, inQualified]

theorem test_regions (i : Nat) : freeRegions tIdle i = freeRegions tIdle 0 := rfl

theorem test_regions_zero : freeRegions tIdle 0 = 879 := by decide +kernel

theorem test_activate : activateRefused (tState tIdle).c = 0 := by
  have e : freeRegions tIdle = fun _ => 879 := funext fun i => (test_regions i).trans test_regions_zero
  show activateRefused tIdle = 0
  unfold activateRefused
  rw [e]
  decide

theorem test_split {α β : Type} (p : α × β) : p = (p.1, p.2) := rfl

theorem test_lookup (l : List Nat) (f : Nat → Nat) (h : Nat) : (l.map (fun k => (k, f k))).lookup h = if h ∈ l then some (f h) else none := by
  induction l with
  | nil => rfl
  | cons a t ih => 
    by_cases e : h = a
    · subst e; simp
    · have e2 : (h == a) = false := by simp [e]
      simp [List.lookup, e, e2, ih]

theorem test_counts (h n k : Nat) : countOf (tCounts h n) k = if k < 1024 ∧ k = h then n else 0 := by
  have e : k ∈ upto 1024 ↔ k < 1024 := by simp [upto]
  unfold countOf tCounts
  rw [test_lookup]
  by_cases a : k < 1024 <;> simp [a, e]

theorem test_counts_keys (h n : Nat) : (tCounts h n).map (·.1) = upto 1024 := by simp [tCounts, List.map_map, Function.comp_def]

theorem test_wit_StepTakesFront :
  (∃ s : State, s.pending = []) ∧
  (∃ s : State, ∃ i, ∃ t, exec i s = .next t) ∧
  (∃ i, mayStop i = false) :=
  ⟨⟨State.reset, by decide⟩,
   ⟨State.reset, .powerOn, _, rfl⟩,
   ⟨.powerOn, by decide⟩⟩

theorem test_wit_ResetState :
  (∃ e, e ∈ resetWords) ∧
  (∃ k j, k < 4 ∧ j < 6) ∧
  (∃ n, n < 256) ∧
  (∃ k j, k < 16 ∧ j < 8) ∧
  (∃ p, p < 320) ∧
  (∃ k j, k < 4 ∧ j < 16) :=
  ⟨⟨(0x0000, 0x23040100), by decide⟩,
   ⟨3, 5, by decide, by decide⟩,
   ⟨255, by decide⟩,
   ⟨15, 7, by decide, by decide⟩,
   ⟨319, by decide⟩,
   ⟨3, 15, by decide, by decide⟩⟩

theorem test_wit_StepKeepsInvariant :
  (∃ s : State, ∃ t, StateInv s ∧ step s = .next t) :=
  ⟨State.reset, _, test_inv, rfl⟩

theorem test_wit_StatesFollowTheTable :
  (∃ s : State, ∃ t, ∃ i, StateInv s ∧ exec i s = .next t) :=
  ⟨State.reset, _, .powerOn, test_inv, rfl⟩

theorem test_wit_TimeAdvances :
  (∃ s : State, s.c.dev.state ≠ .cold) ∧
  (∃ s : State, s.c.dev.state = .cold) ∧
  (∃ s : State, ∃ t, ∃ i, exec i s = .next t) :=
  ⟨⟨tState tRun, by decide⟩,
   ⟨State.reset, by decide⟩,
   ⟨State.reset, _, .powerOn, rfl⟩⟩

theorem test_wit_ColdEntries :
  (∃ s : State, s.c.dev.state ≠ .cold) ∧
  (∃ s : State, ∃ sup, s.c.power.resetLow = false ∧ sup ≠ 0) ∧
  (∃ s : State, ∃ sensor, ∃ temp, s.c.dev.state ≠ .cold ∧ sensor < 21 ∧ (if sensor < 5 then (115 : Int) else 85) ≤ temp) ∧
  (∃ s : State, s.c.dev.state ≠ .cold ∧ s.c.power.armed = true) ∧
  (∃ s : State, s.c.power.armed = false) :=
  ⟨⟨tState tRun, by decide⟩,
   ⟨tState tRun, 15, by decide, by decide⟩,
   ⟨tState tRun, 20, 85, by decide, by decide, by decide⟩,
   ⟨tState ({ tRun with power.armed := true }), by decide, by decide⟩,
   ⟨tState tRun, by decide⟩⟩

theorem test_wit_BootAndSignalBox :
  (∃ s : State, s.c.dev.state = .cold ∧ s.c.power.suppliesOk = true ∧ s.c.power.resetLow = true ∧ bitAt s.c.power.alert 2 = false) ∧
  (∃ s : State, ∃ temps : List (Nat × Int), s.c.dev.state = .cold ∧ s.c.power.hold = true ∧ coolEnough s.c = true ∧ (∀ e, e ∈ temps → e.1 < 21 ∧ e.2 < warnLevel s.c e.1)) ∧
  (∃ s : State, ∃ k, ∃ t : Int, s.c.dev.state = .cold ∧ s.c.power.hold = true ∧ k < 21 ∧ warnLevel s.c k ≤ t) ∧
  (∃ s : State, ∃ rep : BootRep, ∃ r : BootRec, s.c.dev.state = .boot ∧ s.c.upd.bootFail = 0 ∧ bitAt s.c.power.straps 1 = false ∧ recInForce s.c.upd = some r ∧ (slotOf s.c.upd r.slot).verified = true ∧ r.trial = false ∧ rep.selfTestOk = true ∧ rep.legacy = false ∧ rep.sdCard = false) ∧
  (∃ s : State, s.c.dev.state ≠ .cold ∧ s.c.dev.state ≠ .boot) ∧
  (∃ s : State, s.c.dev.sbDown = true ∧ s.c.upd.act = none ∧ s.c.cm.replaceDue = false) :=
  ⟨⟨State.reset, by decide, by decide, by decide, by decide⟩,
   ⟨tState ({ chipReset with power.hold := true }), [(20, 69)], by decide, by decide, by decide, by decide⟩,
   ⟨tState ({ chipReset with power.hold := true }), 20, 70, by decide, by decide, by decide, by decide⟩,
   ⟨tState ({ chipReset with dev.state := .boot }), { selfTestOk := true, enginesOut := [], regionsOut := [], depotSpare := 4, hubSpare := 4, legacyKeys := [], legacyOsc := [], legacyPm := [], legacy := false, sdCard := false }, factoryRec, by decide, by decide, by decide, by decide, by decide, by decide, by decide, by decide, by decide⟩,
   ⟨tState tRun, by decide, by decide⟩,
   ⟨tState ({ tRun with dev.sbDown := true }), by decide, by decide, by decide⟩⟩

theorem test_wit_SensorsAndAlerts :
  (∃ s : State, ∃ k, s.c.dev.state ≠ .cold ∧ k < 21 ∧ NoticeRoom 2 s.c) :=
  ⟨tState tRun, 20, by decide, by decide, by unfold NoticeRoom; decide⟩

theorem test_wit_GroupsWakeAndSleep :
  (∃ s : State, ∃ g, s.c.dev.state ≠ .cold ∧ 0x40 ≤ g ∧ g < 0x50 ∧ wakeWanted s.c g = true ∧ (getGroup s.c g).waking = none) ∧
  (∃ s : State, ∃ g, ∃ w, s.c.dev.state ≠ .cold ∧ 0x40 ≤ g ∧ g < 0x50 ∧ (getGroup s.c g).phase = 1 ∧ (getGroup s.c g).waking = some w ∧ w + 160 ≤ s.c.dev.tick ∧ s.c.dev.tick < w + 1760) ∧
  (∃ s : State, ∃ g, ∃ w, s.c.dev.state ≠ .cold ∧ 0x40 ≤ g ∧ g < 0x50 ∧ (getGroup s.c g).phase = 2 ∧ (getGroup s.c g).waking = some w ∧ w + 1760 ≤ s.c.dev.tick ∧ s.c.dev.tick < w + 5760) ∧
  (∃ s : State, ∃ g, ∃ w, s.c.dev.state ≠ .cold ∧ 0x40 ≤ g ∧ g < 0x50 ∧ (getGroup s.c g).phase = 3 ∧ (getGroup s.c g).waking = some w ∧ w + 5760 ≤ s.c.dev.tick) ∧
  (∃ s : State, ∃ g, s.c.dev.state ≠ .cold ∧ wakeDue s.c g s.c.dev.tick = true) ∧
  (∃ s : State, ∃ g, s.c.dev.state ≠ .cold ∧ g < 0x60 ∧ (getGroup s.c g).waking = none ∧ (getGroup s.c g).state < wantState0 s.c g) :=
  ⟨⟨tState ({ tRun with power.groups := [(0x4F, { groupDflt 0x4F with state := 4 })] }), 0x4F, by decide, by decide, by decide, by decide, by decide⟩,
   ⟨tState ({ tRun with power.groups := [(0x4F, { groupDflt 0x4F with waking := some 99840, phase := 1 })] }), 0x4F, 99840, by decide, by decide, by decide, by decide, by decide, by decide, by decide⟩,
   ⟨tState ({ tRun with power.groups := [(0x4F, { groupDflt 0x4F with waking := some 98240, phase := 2 })] }), 0x4F, 98240, by decide, by decide, by decide, by decide, by decide, by decide, by decide⟩,
   ⟨tState ({ tRun with power.groups := [(0x4F, { groupDflt 0x4F with waking := some 94240, phase := 3 })] }), 0x4F, 94240, by decide, by decide, by decide, by decide, by decide, by decide⟩,
   ⟨tState ({ tRun with power.groups := [(0x5F, { groupDflt 0x5F with waking := some 99200 })] }), 0x5F, by decide, by decide⟩,
   ⟨tState ({ tRun with power.groups := [(0x44, { groupDflt 0x44 with state := 0 })] }), 0x44, by decide, by decide, by decide, by decide⟩⟩

theorem test_wit_PmSecondsAndOrigin :
  (∃ s : State, s.c.dev.state ≠ .cold ∧ s.c.pm.armed = none ∧ ((s.c.dev.tick : Int) - s.c.pm.origin) % 8000 = 0 ∧ 1 ∉ s.c.dev.done) ∧
  (∃ s : State, s.c.dev.state ≠ .cold) ∧
  (∃ s : State, ∃ o, s.c.pm.armed = some o) :=
  ⟨⟨tState ({ tRun with dev.tick := 104000 }), by decide, by decide, by decide, by decide⟩,
   ⟨tState tRun, by decide⟩,
   ⟨tState ({ tRun with pm.armed := some 5 }), 5, by decide⟩⟩

theorem test_wit_EngineTroubles :
  (∃ s : State, ∃ e, s.c.dev.state ≠ .cold ∧ e < 1024 ∧ (getEng s.c e).role ≤ 2) ∧
  (∃ s : State, ∃ e, s.c.dev.state ≠ .cold ∧ e < 1024 ∧ (getEng s.c e).role ≤ 2 ∧ (getEng s.c e).halted = false) :=
  ⟨⟨tState tRun, 1023, by decide, by decide, by decide⟩,
   ⟨tState tRun, 1023, by decide, by decide, by decide, by decide⟩⟩

theorem test_wit_EngineDeathAndSiding :
  (∃ s : State, ∃ e, ∃ l, ∃ f, ∃ rest, s.c.dev.state ≠ .cold ∧ e < 1024 ∧ (getEng s.c e).role ≤ 2 ∧ (getEng s.c e).seen ≠ 0 ∧ NoticeRoom 1 s.c ∧ (getIsl s.c (e / 16)).bind.filter (fun b => b.2 = e || (getEng s.c b.2).role = 3) = [(l, e)] ∧ listItems s.c (e / 16) l ≠ [] ∧ enginesIn s.c (e / 16) 1 = f :: rest ∧ f ≠ e) ∧
  (∃ s : State, ∃ e, s.c.dev.state ≠ .cold ∧ e < 1024) :=
  ⟨⟨tState ({ tRun with eng := [(1022, { engDflt with role := 1 }), (1023, { engDflt with role := 0, seen := 2 })], isl := [(63, { islDflt with bind := [(0, 1023)] })], img.place.items := [(1008, [{ nb := 0, allot := 1, owner := 5, func := 0 }])] }), 1023, 0, 1022, [], by decide, by decide, by decide, by decide, by unfold NoticeRoom; decide, by decide, by decide, by decide, by decide⟩,
   ⟨tState tRun, 1023, by decide, by decide⟩⟩

theorem test_wit_ContextsFollowTheTick :
  (∃ s : State, ∃ t, ∃ p, onImage s.c = true ∧ s.c.img.place.tribs.lookup t = some p ∧ (getCtx s.c t).unf = false ∧ (getCtx s.c t).upd = false ∧ funcAdjusts (tribFunc (tribOf s.c t)) = true ∧ tribFunc (tribOf s.c t) ≠ 0x006) ∧
  (∃ s : State, ∃ t, ∃ off : Int, beyondRange (tribFunc (tribOf s.c t)) (tribType (tribOf s.c t)) off = false) ∧
  (∃ s : State, ∃ t, ∃ p, ∃ off : Int, onImage s.c = true ∧ s.c.img.place.tribs.lookup t = some p ∧ beyondRange (tribFunc (tribOf s.c t)) (tribType (tribOf s.c t)) off = true ∧ ((getCtx s.c t).oor = false ∨ (getCtx s.c t).slip ≠ s.c.dev.tick)) ∧
  (∃ s : State, ∃ t, t < 0x20000 ∧ (getCtx s.c t).oor = true ∧ (getCtx s.c t).slip + 8001 ≤ s.c.dev.tick ∧ (s.c.img.place.tribs.lookup t).isSome = true ∧ (getCtx s.c (t + 0x20000)).oor = false) :=
  ⟨⟨tState tRun, 5, tPlc, by decide, by decide, by decide, by decide, by decide, by decide⟩,
   ⟨tState tRun, 5, 0, by decide⟩,
   ⟨tState tRun, 5, tPlc, 1000000, by decide, by decide, by decide, by decide⟩,
   ⟨tState ({ tRun with ctx := [(5, { ctxDflt with oor := true, slip := 91999 })] }), 5, by decide, by decide, by decide, by decide, by decide⟩⟩

theorem test_wit_EgressWindowServed :
  (∃ s : State, ∃ isl, ∃ w, ∃ si, ∃ sb, ∃ t, onImage s.c = true ∧ isl < 64 ∧ w < 15000 ∧ s.c.cm.lastC ≠ some s.c.dev.tick ∧ hardAt s.c true (15000 * isl + w) = false ∧ entValid (entAt s.c.img.place isl w) = true ∧ entSel (entAt s.c.img.place isl w) = 0x1FFFF ∧ si = entIsl (entAt s.c.img.place isl w) ∧ sb = entBerth (entAt s.c.img.place isl w) ∧ t = (if w ≤ sb then s.c.dev.tick - 1 else s.c.dev.tick) ∧ cwyDown s.c isl = false ∧ cwyDown s.c si = false) ∧
  (∃ s : State, ∃ isl, ∃ w, onImage s.c = true ∧ isl < 64 ∧ w < 15000) :=
  ⟨⟨tState ({ tRun with img.place.tt := [(959999, setBits (setBits (0 : BitVec 40) 39 1 1) 21 17 0x1FFFF)] }), 63, 14999, 0, 0, 100000, by decide, by decide, by decide, by decide, by decide, by decide, by decide, by decide, by decide, by decide, by decide, by decide⟩,
   ⟨tState tRun, 63, 14999, by decide, by decide, by decide⟩⟩

theorem test_wit_JunctionRepairs :
  (∃ s : State, onImage s.c = true ∧ s.c.cm.pending = false) ∧
  (∃ s : State, ∃ g, ∃ x, onImage s.c = true ∧ s.c.prot.groups.lookup g = some x ∧ (getSel s.c g).badSel = true ∧ x.decided = none) ∧
  (∃ s : State, ∃ g, onImage s.c = true ∧ (s.c.prot.groups.lookup g).isSome = true) :=
  ⟨⟨tState tRun, by decide, by decide⟩,
   ⟨tState ({ tRun with jct.sel := [(0xFFFF, { selDflt with badSel := true })] }), 0xFFFF, { grpNew 0 0 with select := true }, by decide, by decide, by decide, by decide⟩,
   ⟨tState tRun, 0xFFFF, by decide, by decide⟩⟩

theorem test_wit_CausewaysCountAndFail :
  (∃ s : State, ∃ q, ∃ isl, ∃ w, s.c.dev.state ≠ .cold ∧ q < 4 ∧ isl / 16 = q ∧ w < 15000) ∧
  (∃ s : State, ∃ q, s.c.dev.state ≠ .cold ∧ q < 8) ∧
  (∃ s : State, ∃ q, s.c.dev.state ≠ .cold ∧ q < 8) ∧
  (∃ s : State, ∃ q, s.c.dev.state ≠ .cold ∧ q < 8) ∧
  (∃ s : State, ∃ q, s.c.dev.state ≠ .cold ∧ q < 8 ∧ (getCwy s.c q).failed = true) :=
  ⟨⟨tState tRun, 3, 63, 14999, by decide, by decide, by decide, by decide⟩,
   ⟨tState tRun, 7, by decide, by decide⟩,
   ⟨tState tRun, 7, by decide, by decide⟩,
   ⟨tState tRun, 7, by decide, by decide⟩,
   ⟨tState ({ tRun with cwy := [(7, { cwyDflt with failed := true })] }), 7, by decide, by decide, by decide⟩⟩

theorem test_wit_EngineWritesGuarded :
  (∃ s : State, ∃ e, ∃ tag, ∃ addr, ∃ n, ∃ b : PortBRep, s.c.dev.state ≠ .cold ∧ e < 1024 ∧ 1 ≤ n ∧ n ≤ 32 ∧ addr + n ≤ 4194304 ∧ tag ≠ 0 ∧ tag = (getEng s.c e).tag ∧ b.kind = 0) ∧
  (∃ s : State, ∃ e, ∃ tag, ∃ addr, ∃ n, ∃ b : PortBRep, s.c.dev.state ≠ .cold ∧ e < 1024 ∧ 1 ≤ n ∧ addr % 32 + n ≤ 32 ∧ addr + n ≤ 4194304 ∧ tag ≠ 0 ∧ tag = (getEng s.c e).tag ∧ b.kind = 2 ∧ b.second = false) ∧
  (∃ s : State, ∃ e, ∃ tag, ∃ target, ∃ addr, ∃ n, ∃ b : PortBRep, s.c.dev.state ≠ .cold ∧ e < 1024 ∧ target < 3 ∧ targetOk target addr n = true ∧ (tag = 0 ∨ tag ≠ (getEng s.c e).tag) ∧ b.kind = 0) ∧
  (∃ s : State, ∃ e, ∃ addr, s.c.dev.state ≠ .cold ∧ e < 1024 ∧ addr < 16384) :=
  ⟨⟨tState ({ tRun with eng := [(1023, { engDflt with tag := 5 })] }), 1023, 5, 4194272, 32, tPort, by decide, by decide, by decide, by decide, by decide, by decide, by decide, by decide⟩,
   ⟨tState ({ tRun with eng := [(1023, { engDflt with tag := 5 })] }), 1023, 5, 4194303, 1, { tPort with kind := 2 }, by decide, by decide, by decide, by decide, by decide, by decide, by decide, by decide, by decide⟩,
   ⟨tState tRun, 1023, 5, 2, 14999, 0, tPort, by decide, by decide, by decide, by decide, by decide, by decide⟩,
   ⟨tState tRun, 1023, 16383, by decide, by decide, by decide⟩⟩

theorem test_wit_DepotPatrol :
  (∃ s : State, ∃ i, ∃ w, ∃ reader, ∃ t, s.c.dev.state ≠ .cold ∧ i < 64 ∧ w < 131072 ∧ reader ≠ 2 ∧ (getDepot s.c i).held = none ∧ NoticeRoom 1 s.c ∧ (s.c.img.place.tribs.lookup t).isSome = true) ∧
  (∃ s : State, ∃ i, ∃ r, s.c.dev.state ≠ .cold ∧ i < 64 ∧ patrolDue s.c i s.c.dev.tick = true ∧ (getDepot s.c i).queue = [] ∧ nextRegion s.c i (getDepot s.c i).next = some r) ∧
  (∃ s : State, ∃ i, ∃ r, s.c.dev.state ≠ .cold ∧ i < 64 ∧ (getDepot s.c i).borrowed = some r ∧ (getDepot s.c i).back = false) ∧
  (∃ s : State, ∃ i, ∃ r, s.c.dev.state ≠ .cold ∧ i < 64 ∧ (getDepot s.c i).borrowed = some r ∧ (getDepot s.c i).back = false ∧ NoticeRoom 1 s.c ∧ r ∉ (getIsl s.c i).regions) :=
  ⟨⟨tState tRun, 63, 1023, 1, 5, by decide, by decide, by decide, by decide, by decide, by unfold NoticeRoom; decide, by decide⟩,
   ⟨tState ({ tRun with power.groups := [(63, { groupDflt 63 with state := 0 })] }), 63, 1, by decide, by decide, by decide, by decide, by decide +kernel⟩,
   ⟨tState ({ tRun with dep.isl := [(63, { depotDflt with borrowed := some 1023 })] }), 63, 1023, by decide, by decide, by decide, by decide⟩,
   ⟨tState ({ tRun with dep.isl := [(63, { depotDflt with borrowed := some 1023 })] }), 63, 1023, by decide, by decide, by decide, by decide, by unfold NoticeRoom; decide, by decide⟩⟩

theorem test_wit_CountersAndSnapshot :
  (∃ s : State, ∃ k, ∃ v : Word, s.c.dev.state ≠ .cold ∧ k < 256 ∧ bits v 10 9 = 0) ∧
  (∃ s : State, s.c.dev.state ≠ .cold) ∧
  (∃ s : State, ∃ a, s.c.dev.state ≠ .cold ∧ s.c.dep.count.armed = some a ∧ a ≤ s.c.dev.tick ∧ s.c.dep.count.every = 0) ∧
  (∃ s : State, s.c.dev.state ≠ .cold ∧ s.c.dev.tick % bits s.c.dep.count.bw.eff 0 19 = 0 ∧ s.c.dep.count.bwLive = true ∧ s.c.dep.count.bwEnd ≠ s.c.dev.tick) :=
  ⟨⟨tState tRun, 255, 0, by decide, by decide, by decide⟩,
   ⟨tState tRun, by decide⟩,
   ⟨tState ({ tRun with dep.count.armed := some 100000 }), 100000, by decide, by decide, by decide, by decide⟩,
   ⟨tState ({ tRun with dev.tick := 104000, dep.count.bwLive := true }), by decide, by decide, by decide, by decide⟩⟩

theorem test_wit_ScansRun :
  (∃ s : State, ∃ k, ∃ v : Word, s.c.dev.state ≠ .cold ∧ k < 4 ∧ (getScan s.c k).busy = false ∧ scanCtrlOk (getScan s.c k) v 268435456 = true) ∧
  (∃ s : State, ∃ k, s.c.dev.state ≠ .cold ∧ k < 4 ∧ (getScan s.c k).busy = true ∧ s.c.power.throt = [] ∧ (getScan s.c k).source = 1 ∧ (getScan s.c k).poly = 0 ∧ (getScan s.c k).cont = false) :=
  ⟨⟨tState tRun, 3, 0x80000000, by decide, by decide, by decide, by decide⟩,
   ⟨tState ({ tRun with dep.scan := [(3, { scanDflt with busy := true, source := 1 })] }), 3, by decide, by decide, by decide, by decide, by decide, by decide, by decide⟩⟩

theorem test_wit_LasersFollowTheFeed :
  (∃ s : State, ∃ i, s.c.dev.state ≠ .cold ∧ i < 32 ∧ groupOn s.c (0x40 + i / 2) = true) ∧
  (∃ s : State, ∃ i, s.c.dev.state ≠ .cold ∧ i < 32 ∧ groupOn s.c (0x40 + i / 2) = true ∧ (getLaser s.c i).lost = true ∧ (getLaser s.c i).recal = false) ∧
  (∃ s : State, ∃ i, s.c.dev.state ≠ .cold ∧ i < 32 ∧ groupOn s.c (0x40 + i / 2) = true ∧ (getLaser s.c i).recal = true) :=
  ⟨⟨tState tRun, 31, by decide, by decide, by decide⟩,
   ⟨tState ({ tRun with line.lasers := [(31, { laserDflt with lost := true })] }), 31, by decide, by decide, by decide, by decide, by decide⟩,
   ⟨tState ({ tRun with line.lasers := [(31, { laserDflt with recal := true })] }), 31, by decide, by decide, by decide, by decide⟩⟩

theorem test_wit_LanesMoveByTheirEvents :
  (∃ s : State, ∃ l, (getLane s.c l).rx = .noSignal ∧ injDrops 1 l s.c = false) ∧
  (∃ s : State, ∃ l, (getLane s.c l).rx = .adapting ∧ (portOfLane (lineImage s.c) l).isSome = true ∧ laneFramed (lineImage s.c) l = false) ∧
  (∃ s : State, ∃ l, ∃ fills : List Nat, (getLane s.c l).rx = .adapting ∧ laneFramed (lineImage s.c) l = true ∧ 64 ≤ fills.length ∧ (∀ k, k < 64 → fills.getD k 0 = 0)) ∧
  (∃ s : State, ∃ l, (getLane s.c l).rx = .locked) ∧
  (∃ s : State, ∃ l, ∃ fills : List Nat, (getLane s.c l).rx = .locked ∧ laneFramed (lineImage s.c) l = true ∧ 16 ≤ fills.length ∧ (∀ k, k < 16 → 8 ≤ fills.getD k 0)) ∧
  (∃ s : State, ∃ l, (getLane s.c l).rx ≠ .off) :=
  ⟨⟨tState ({ tRun with line.lanes := [(319, { laneDflt with rx := .noSignal })] }), 319, by decide, by decide⟩,
   ⟨tState ({ tRun with line.lanes := [(255, { laneDflt with rx := .adapting })] }), 255, by decide, by decide, by decide⟩,
   ⟨tState ({ tRun with line.lanes := [(319, { laneDflt with rx := .adapting })] }), 319, List.replicate 64 0, by decide, by decide, by decide, by decide⟩,
   ⟨tState tRun, 319, by decide⟩,
   ⟨tState tRun, 319, List.replicate 16 8, by decide, by decide, by decide, by decide⟩,
   ⟨tState tRun, 319, by decide⟩⟩

theorem test_wit_QicWindows :
  (∃ s : State, ∃ l, ∃ counts, ∃ h, laneQic (lineImage s.c) l = true ∧ (getLane s.c l).rx = .qicHunt ∧ counts.map (·.1) = upto 1024 ∧ h < 1024 ∧ 64 ≤ countOf counts h ∧ (∀ k, k < 1024 → k ≠ h → countOf counts k + 32 ≤ countOf counts h)) ∧
  (∃ s : State, ∃ l, ∃ counts, laneQic (lineImage s.c) l = true ∧ (getLane s.c l).rx = .qicHunt ∧ counts.map (·.1) = upto 1024 ∧ (∀ h, h < 1024 → countOf counts h < 64 ∨ ∃ k, k < 1024 ∧ k ≠ h ∧ countOf counts h < countOf counts k + 32)) ∧
  (∃ s : State, ∃ l, laneQic (lineImage s.c) l = true ∧ (getLane s.c l).rx = .locked) ∧
  (∃ s : State, ∃ l, (getLane s.c l).rx = .qicHunt ∧ (getLane s.c l).huntTick + 160 ≤ s.c.dev.tick) :=
  ⟨⟨tState ({ tRun with line.lanes := [(255, { laneDflt with rx := .qicHunt })] }), 255, tCounts 1023 64, 1023, by decide, by decide, test_counts_keys _ _, by decide, by rw [test_counts]; decide, fun k _ h => by rw [test_counts, test_counts, if_neg (fun a => h a.2)]; decide⟩,
   ⟨tState ({ tRun with line.lanes := [(255, { laneDflt with rx := .qicHunt })] }), 255, tCounts 1023 63, by decide, by decide, test_counts_keys _ _, fun h _ => .inl (by rw [test_counts]; split <;> decide)⟩,
   ⟨tState tRun, 255, by decide, by decide⟩,
   ⟨tState ({ tRun with line.lanes := [(255, { laneDflt with rx := .qicHunt, huntTick := 99840 })] }), 255, by decide, by decide⟩⟩

theorem test_wit_TimedEntriesAreHeld :
  (∃ s : State, ∃ l, ∃ v : Word64, s.c.dev.state ≠ .cold ∧ l < 320 ∧ bits v 33 31 = 0 ∧ bits v 30 2 = 0 ∧ tapSum v ≤ 63) ∧
  (∃ s : State, ∃ l, ∃ v : Word64, s.c.dev.state ≠ .cold ∧ l < 320 ∧ (bits v 33 31 ≠ 0 ∨ bits v 30 2 ≠ 0 ∨ 63 < tapSum v)) ∧
  (∃ s : State, ∃ p, s.c.dev.state ≠ .cold ∧ p < 320) :=
  ⟨⟨tState tRun, 319, 63, by decide, by decide, by decide, by decide, by decide⟩,
   ⟨tState tRun, 319, 64 * 2 ^ 24, by decide, by decide, by decide⟩,
   ⟨tState tRun, 319, by decide, by decide⟩⟩

theorem test_wit_LaneLossStopsThePort :
  (∃ s : State, ∃ l, ∃ p, ∃ u, (getLane s.c l).rx = .locked ∧ portOfLane (lineImage s.c) l = some p ∧ l ∈ portLanes (lineImage s.c) p ∧ delivers s.c p = true ∧ u ∈ portUnits (theImage s.c) p) :=
  ⟨tState tRun, 255, 255, 3, by decide, by decide, by decide, by decide, by decide⟩

theorem test_wit_UnitsSearch :
  (∃ s : State, ∃ p, ∃ u, ∃ pos, ∃ r, ∃ q, q = inPeriod (unitPeriod (theImage s.c) p u) pos ∧ unitKind (theImage s.c) p u ≠ 0 ∧ searchAllowed s.c p u = true ∧ injDrops 2 p s.c = false ∧ (getUnit s.c p u).state = .hunt ∧ patternSeen (unitKind (theImage s.c) p u) false r = true ∧ (getUnit s.c p u).cands.length < candMax (unitKind (theImage s.c) p u) ∧ (∀ x, x ∈ (getUnit s.c p u).cands → x.pos ≠ q) ∧ (slips (unitKind (theImage s.c) p u) = true → q = (getUnit s.c p u).pos)) ∧
  (∃ s : State, ∃ p, ∃ u, ∃ pos, ∃ q, ∃ k, ∃ x, q = inPeriod (unitPeriod (theImage s.c) p u) pos ∧ k = unitKind (theImage s.c) p u ∧ k ≠ 0 ∧ searchAllowed s.c p u = true ∧ injDrops 2 p s.c = false ∧ (getUnit s.c p u).state = .hunt ∧ (getUnit s.c p u).cands.find? (fun y => y.pos = q) = some x ∧ x.confirmed = false) ∧
  (∃ s : State, ∃ p, ∃ u, ∃ pos, ∃ q, ∃ x, q = inPeriod (unitPeriod (theImage s.c) p u) pos ∧ (getUnit s.c p u).cands.find? (fun y => y.pos = q && y.confirmed) = some x ∧ (getUnit s.c p u).state = .hunt ∧ searchAllowed s.c p u = true) :=
  ⟨⟨tState ({ tRun with line.align := [] }), 255, 3, 9, tMarkers, 9, by decide, by decide, by decide, by decide, by decide, by decide, by decide, by decide, by decide⟩,
   ⟨tState ({ tRun with line.align := [(16323, { alignDflt with cands := [{ pos := 9, hits := 1, confirmed := false, rival := false, score := 0, frames := 0, tag := 0, crc := true }] })] }), 255, 3, 9, 9, 1, { pos := 9, hits := 1, confirmed := false, rival := false, score := 0, frames := 0, tag := 0, crc := true }, by decide, by decide, by decide, by decide, by decide, by decide, by decide, by decide⟩,
   ⟨tState ({ tRun with line.align := [(16323, { alignDflt with cands := [{ pos := 9, hits := 2, confirmed := true, rival := false, score := 0, frames := 0, tag := 0, crc := true }] })] }), 255, 3, 9, 9, { pos := 9, hits := 2, confirmed := true, rival := false, score := 0, frames := 0, tag := 0, crc := true }, by decide, by decide, by decide, by decide⟩⟩

theorem test_wit_ArbitrationDecides :
  (∃ s : State, ∃ p, ∃ u, ∃ x, (getUnit s.c p u).state = .arbitrate ∧ searchAllowed s.c p u = true ∧ (∀ y, y ∈ (getUnit s.c p u).cands → 16 ≤ y.frames) ∧ x ∈ (getUnit s.c p u).cands ∧ (winLead (unitKind (theImage s.c) p u)).1 ≤ x.score ∧ (∀ y, y ∈ (getUnit s.c p u).cands → y = x ∨ y.pos ≠ x.pos ∧ y.score + (winLead (unitKind (theImage s.c) p u)).2 ≤ x.score)) ∧
  (∃ s : State, ∃ p, ∃ u, (getUnit s.c p u).state = .arbitrate ∧ searchAllowed s.c p u = true ∧ (∀ y, y ∈ (getUnit s.c p u).cands → 16 ≤ y.frames) ∧ (∀ x, x ∈ (getUnit s.c p u).cands → x.score < (winLead (unitKind (theImage s.c) p u)).1 ∨ ∃ y, y ∈ (getUnit s.c p u).cands ∧ y.pos ≠ x.pos ∧ x.score < y.score + (winLead (unitKind (theImage s.c) p u)).2)) :=
  ⟨⟨tState ({ tRun with line.align := [(16323, { alignDflt with state := .arbitrate, cands := [{ pos := 9, hits := 2, confirmed := true, rival := true, score := 1536, frames := 16, tag := 0, crc := true }, { pos := 10, hits := 2, confirmed := true, rival := true, score := 1280, frames := 16, tag := 0, crc := true }] })] }), 255, 3, { pos := 9, hits := 2, confirmed := true, rival := true, score := 1536, frames := 16, tag := 0, crc := true }, by decide, by decide, by decide, by decide, by decide, by decide⟩,
   ⟨tState ({ tRun with line.align := [(16323, { alignDflt with state := .arbitrate, cands := [{ pos := 9, hits := 2, confirmed := true, rival := true, score := 1535, frames := 16, tag := 0, crc := true }] })] }), 255, 3, by decide, by decide, by decide, fun x hx => .inl (by revert x; decide)⟩⟩

theorem test_wit_UnitsKeepFrame :
  (∃ s : State, ∃ p, ∃ u, ∃ pos, ∃ r, ∃ k, k = unitKind (theImage s.c) p u ∧ k ≠ 0 ∧ inPeriod (unitPeriod (theImage s.c) p u) pos = (getUnit s.c p u).pos ∧ delivers s.c p = true ∧ injDrops 2 p s.c = false ∧ (getUnit s.c p u).state = .inFrame ∧ (getUnit s.c p u).miss < missMax k ∧ adoptedSeen k (getUnit s.c p u) r = true) ∧
  (∃ s : State, ∃ p, ∃ u, ∃ pos, ∃ r, ∃ k, k = unitKind (theImage s.c) p u ∧ k ≠ 0 ∧ inPeriod (unitPeriod (theImage s.c) p u) pos = (getUnit s.c p u).pos ∧ delivers s.c p = true ∧ (getUnit s.c p u).state = .inFrame ∧ (injDrops 2 p s.c = true ∨ adoptedSeen k (getUnit s.c p u) r = false)) :=
  ⟨⟨tState tRun, 255, 3, 0, tMarkers, 1, by decide, by decide, by decide, by decide, by decide, by decide, by decide, by decide⟩,
   ⟨tState tRun, 255, 3, 0, tNothing, 1, by decide, by decide, by decide, by decide, by decide, by decide⟩⟩

theorem test_wit_LossesOfFrame :
  (∃ s : State, ∃ p, ∃ u, detects s.c = true ∧ unitKind (theImage s.c) p u ≠ 0 ∧ unitIn (getUnit s.c p u) = false ∧ (getUnit s.c p u).lof = false ∧ (getUnit s.c p u).outSince + 24 ≤ s.c.dev.tick) ∧
  (∃ s : State, ∃ p, ∃ u, detects s.c = true ∧ unitKind (theImage s.c) p u ≠ 0 ∧ unitIn (getUnit s.c p u) = true ∧ (getUnit s.c p u).lof = true ∧ (getUnit s.c p u).inSince + 24 ≤ s.c.dev.tick) ∧
  (∃ s : State, ∃ p, ∃ u, detects s.c = true ∧ mfKind (unitKind (theImage s.c) p u) ≠ 0 ∧ (getUnit s.c p u).mf.isIn = false ∧ (getUnit s.c p u).mf.lom = false ∧ (getUnit s.c p u).mf.out + 24 ≤ s.c.dev.tick) ∧
  (∃ s : State, ∃ p, ∃ u, detects s.c = true ∧ unitKind (theImage s.c) p u = 1 ∧ (getUnit s.c p u).smf.isIn = false ∧ (getUnit s.c p u).smf.lom = false ∧ (getUnit s.c p u).smf.out + 24 ≤ s.c.dev.tick) :=
  ⟨⟨tState ({ tRun with line.align := [(16323, { alignDflt with outSince := 99976 })] }), 255, 3, by decide, by decide, by decide, by decide, by decide⟩,
   ⟨tState ({ tRun with line.align := [(16323, { tUnit with lof := true, inSince := 99976 })] }), 255, 3, by decide, by decide, by decide, by decide, by decide⟩,
   ⟨tState ({ tRun with line.align := [(16323, { tUnit with mf := { mfDflt with out := 99976 } })] }), 255, 3, by decide, by decide, by decide, by decide, by decide⟩,
   ⟨tState ({ tRun with line.align := [(16323, { tUnit with smf := { mfDflt with out := 99976 } })] }), 255, 3, by decide, by decide, by decide, by decide, by decide⟩⟩

theorem test_wit_TransmitRing :
  (∃ s : State, ∃ p, ∃ prod, s.c.dev.state ≠ .cold ∧ p < 320 ∧ (prod - (getOh s.c p).cons).toNat ≤ 64) ∧
  (∃ s : State, ∃ p, ∃ prod, s.c.dev.state ≠ .cold ∧ p < 320 ∧ 64 < (prod - (getOh s.c p).cons).toNat) ∧
  (∃ s : State, ∃ p, onImage s.c = true ∧ portLit s.c p = false) ∧
  (∃ s : State, ∃ p, ∃ i, ∃ l, onImage s.c = true ∧ portLit s.c p = true ∧ ringOk s.mem s.c p = true ∧ ohWaiting s.mem (getOh s.c p) p = i :: l ∧ isPacket i = false) ∧
  (∃ s : State, ∃ p, ∃ i, ∃ l, ∃ pk, onImage s.c = true ∧ portLit s.c p = true ∧ ringOk s.mem s.c p = true ∧ ohWaiting s.mem (getOh s.c p) p = i :: l ∧ itemType i = 0x20 ∧ wholePacket (i :: l) = some pk) ∧
  (∃ s : State, ∃ p, ∃ i, ∃ l, ∃ pk, onImage s.c = true ∧ portLit s.c p = true ∧ ringOk s.mem s.c p = true ∧ ohWaiting s.mem (getOh s.c p) p = i :: l ∧ itemType i = 0x30 ∧ wholePacket (i :: l) = some pk ∧ packetShort pk = false) ∧
  (∃ s : State, ∃ p, ∃ i, ∃ l, ∃ pk, onImage s.c = true ∧ portLit s.c p = true ∧ ringOk s.mem s.c p = true ∧ ohWaiting s.mem (getOh s.c p) p = i :: l ∧ isPacket i = true ∧ wholePacket (i :: l) = some pk ∧ packetShort pk = true) ∧
  (∃ s : State, ∃ p, onImage s.c = true ∧ portLit s.c p = true ∧ ohWaiting s.mem (getOh s.c p) p = []) ∧
  (∃ s : State, ∃ p, onImage s.c = true ∧ portLit s.c p = true ∧ ringOk s.mem s.c p = false) ∧
  (∃ s : State, ∃ p, ∃ t, ∃ pk, (getOh s.c p).pktTick = some t ∧ wholePacket (ohWaiting s.mem (getOh s.c p) p) = some pk ∧ t + 8 ≤ s.c.dev.tick ∧ portLit s.c p = true) :=
  ⟨⟨tState tRun, 319, 64, by decide, by decide, by decide⟩,
   ⟨tState tRun, 319, 65, by decide, by decide, by decide⟩,
   ⟨tState tRun, 318, by decide, by decide⟩,
   ⟨({ c := { tRun with line.oh := [(255, { ohDflt with prod := 1 })] }, mem := writeBytes 0 [] (ohSlotAddr 255 0) (leBytes 16 (0x10 * 2 ^ 120)), pending := [] }), 255, BitVec.ofNat 128 (0x10 * 2 ^ 120), [], by decide, by decide, by decide, by decide, by decide⟩,
   ⟨({ c := { tRun with line.oh := [(255, { ohDflt with prod := 1 })] }, mem := writeBytes 0 [] (ohSlotAddr 255 0) (leBytes 16 (0x20 * 2 ^ 120 + 2 ^ 116)), pending := [] }), 255, BitVec.ofNat 128 (0x20 * 2 ^ 120 + 2 ^ 116), [], [BitVec.ofNat 128 (0x20 * 2 ^ 120 + 2 ^ 116)], by decide, by decide, by decide, by decide, by decide, by decide⟩,
   ⟨({ c := { tRun with line.oh := [(255, { ohDflt with prod := 1 })] }, mem := writeBytes 0 [] (ohSlotAddr 255 0) (leBytes 16 (0x30 * 2 ^ 120 + 2 ^ 116)), pending := [] }), 255, BitVec.ofNat 128 (0x30 * 2 ^ 120 + 2 ^ 116), [], [BitVec.ofNat 128 (0x30 * 2 ^ 120 + 2 ^ 116)], by decide, by decide, by decide, by decide, by decide, by decide, by decide⟩,
   ⟨({ c := { tRun with line.oh := [(255, { ohDflt with prod := 1 })] }, mem := writeBytes 0 [] (ohSlotAddr 255 0) (leBytes 16 (0x30 * 2 ^ 120 + 2 ^ 116 + 1)), pending := [] }), 255, BitVec.ofNat 128 (0x30 * 2 ^ 120 + 2 ^ 116 + 1), [], [BitVec.ofNat 128 (0x30 * 2 ^ 120 + 2 ^ 116 + 1)], by decide, by decide, by decide, by decide, by decide, by decide, by decide⟩,
   ⟨tState tRun, 255, by decide, by decide, by decide⟩,
   ⟨({ c := { tRun with line.oh := [(255, { ohDflt with prod := 1 })] }, mem := [], pending := [] }), 255, by decide, by decide, by decide⟩,
   ⟨({ c := { tRun with line.oh := [(255, { ohDflt with prod := 1, pktTick := some 99992 })] }, mem := writeBytes 0 [] (ohSlotAddr 255 0) (leBytes 16 (0x20 * 2 ^ 120 + 2 ^ 116)), pending := [] }), 255, 99992, [BitVec.ofNat 128 (0x20 * 2 ^ 120 + 2 ^ 116)], by decide, by decide, by decide, by decide⟩⟩

theorem test_wit_OverheadReceived :
  (∃ s : State, ∃ isl, headPacket (tget [] s.c.line.staging isl) ≠ [] ∧ qCount s.c.oq + (headPacket (tget [] s.c.line.staging isl)).length ≤ oqRoom) ∧
  (∃ s : State, ∃ p, ∃ frame : List Byte, ∃ msg : List Byte, delivers s.c p = true ∧ portFramed s.c p = true ∧ injDrops 2 p s.c = false ∧ (stackType (stackRec s.c p) = 0x10 ∨ stackType (stackRec s.c p) = 0x20) ∧ exported s.c p 0x30 = true ∧ ptpOf frame = some msg ∧ (getOh s.c p).gaps.contains 0x30 = false ∧ msg.length ≤ 1500 ∧ (tget [] s.c.line.staging (portIsland (theImage s.c) p)).length + 126 ≤ stagingRoom) ∧
  (∃ s : State, ∃ p, ∃ frame : List Byte, delivers s.c p = true ∧ portFramed s.c p = true ∧ injDrops 2 p s.c = false ∧ (stackType (stackRec s.c p) = 0x10 ∨ stackType (stackRec s.c p) = 0x20) ∧ (exported s.c p 0x30 = false ∨ ptpOf frame = none)) ∧
  (∃ s : State, ∃ p, ∃ pdu : List Byte, ∃ i, ∃ x, onImage s.c = true ∧ delivers s.c p = true ∧ portFramed s.c p = true ∧ injDrops 2 p s.c = false ∧ s.c.tim.ins.lookup i = some x ∧ tapPort s.c i = some p ∧ tapEsmc s.c i = true ∧ isEsmc pdu = true) ∧
  (∃ s : State, ∃ p, ∃ t, ∃ tl, (getOh s.c p).twoStep = t :: tl ∧ (getOh s.c p).gaps.contains 0x31 = false ∧ (tget [] s.c.line.staging (portIsland (theImage s.c) p)).length + 1 ≤ stagingRoom) :=
  ⟨⟨tState ({ tRun with line.staging := [(63, [1, BitVec.ofNat 128 (2 ^ 116)])] }), 63, by decide, by decide⟩,
   ⟨tState tRun, 4, tPtp, [0], by decide, by decide, by decide, by decide, by decide, by decide, by decide, by decide, by decide⟩,
   ⟨tState tRun, 4, [], by decide, by decide, by decide, by decide, by decide⟩,
   ⟨tState tRun, 4, tEsmc, 47, inDflt, by decide, by decide, by decide, by decide, by decide, by decide, by decide, by decide⟩,
   ⟨tState ({ tRun with line.oh := [(4, { ohDflt with twoStep := [{ cookie := 1, stamp := 2 }] })] }), 4, { cookie := 1, stamp := 2 }, [], by decide, by decide, by decide⟩⟩

theorem test_wit_TracesAndFrames :
  (∃ s : State, ∃ e, ∃ l : List Byte, s.c.dev.state ≠ .cold ∧ e < 262464 ∧ l.length = 64) ∧
  (∃ s : State, ∃ e, ∃ l : List Byte, s.c.dev.state ≠ .cold ∧ e < 262464 ∧ l.length = 64) ∧
  (∃ s : State, ∃ g, onImage s.c = true ∧ (getCal s.c g).due = true) ∧
  (∃ s : State, ∃ p, ∃ m, ∃ v, frameIn { plainFrame p 0 m with trace := some v } s.c = true ∧ portFramed s.c p = true ∧ portStack (theImage s.c) p ≠ 1 ∧ (unitKind (theImage s.c) p 0 = 4 ∨ (unitKind (theImage s.c) p 0 = 2 ∨ unitKind (theImage s.c) p 0 = 3) ∧ (mfFrame 1 m s.c.dev.tick (getUnit s.c p 0).mf).isIn = true) ∧ ((getTrace s.c p).format = false ∨ shortOk v = true) ∧ (getTrace s.c p).run = 2 ∧ (getTrace s.c p).cand = v) ∧
  (∃ s : State, ∃ p, ∃ u, ∃ m, frameIn { plainFrame p u m with slice := true, fas := false } s.c = true ∧ unitKind (theImage s.c) p u = 1 ∧ (getUnit s.c p u).sliceOof = false ∧ (getUnit s.c p u).fasMiss = 4 ∧ u ∈ portUnits (theImage s.c) p) :=
  ⟨⟨tState tRun, 262463, List.replicate 64 0, by decide, by decide, by decide⟩,
   ⟨tState tRun, 262463, List.replicate 64 0, by decide, by decide, by decide⟩,
   ⟨tState ({ tRun with line.cal := [(1, { calDflt with due := true })] }), 1, by decide, by decide⟩,
   ⟨tState ({ tSdh with line.trace := [(255, { traceDflt with run := 2 })] }), 255, 3, 0, by decide, by decide, by decide, by decide, by decide, by decide, by decide⟩,
   ⟨tState ({ tRun with line.align := [(16323, { tUnit with fasMiss := 4 })] }), 255, 3, 0, by decide, by decide, by decide, by decide, by decide⟩⟩

theorem test_wit_InputsAreMonitored :
  (∃ s : State, ∃ i, ∃ x, onImage s.c = true ∧ (i < 16 ∨ tapActive s.c i = false) ∧ s.c.tim.ins.lookup i = some x) ∧
  (∃ s : State, ∃ i, ∃ x, onImage s.c = true ∧ (i < 16 ∨ tapActive s.c i = true) ∧ (8 ≤ i ∨ refinOn s.c i = true) ∧ s.c.tim.ins.lookup i = some x) ∧
  (∃ s : State, ∃ i, ∃ x, ∃ m, onImage s.c = true ∧ 8 ≤ i ∧ i ≤ 11 ∧ todValid m = true ∧ s.c.tim.ins.lookup i = some x ∧ x.todRun = 2 ∧ x.todLast = some (beNat ((m.drop 4).take 6) - 1) ∧ 0 < beNat ((m.drop 4).take 6)) ∧
  (∃ s : State, ∃ i, ∃ x, onImage s.c = true ∧ s.c.tim.ins.lookup i = some x ∧ x.todOk = true ∧ x.todTick + 24000 ≤ s.c.dev.tick) ∧
  (∃ s : State, ∃ i, ∃ x, onImage s.c = true ∧ s.c.tim.ins.lookup i = some x ∧ tapEsmc s.c i = true ∧ x.esmcTick + 40000 ≤ s.c.dev.tick) :=
  ⟨⟨tState tRun, 8, inDflt, by decide, by decide, by decide⟩,
   ⟨tState tRun, 47, inDflt, by decide, by decide, by decide, by decide⟩,
   ⟨tState (tIn { inDflt with todRun := 2, todLast := some 1 }), 8, { inDflt with todRun := 2, todLast := some 1 }, [0x53, 0x4B, 1, 0, 0, 0, 0, 0, 0, 2, 0, 0, 0, 0, 0, 0x1B], by decide, by decide, by decide, by decide, by decide, by decide, by decide, by decide⟩,
   ⟨tState (tIn { inDflt with todOk := true, todTick := 76000 }), 8, { inDflt with todOk := true, todTick := 76000 }, by decide, by decide, by decide, by decide⟩,
   ⟨tState (tIn { inDflt with esmcTick := 60000 }), 47, { inDflt with esmcTick := 60000 }, by decide, by decide, by decide, by decide⟩⟩

theorem test_wit_TimeReferencesAndOscillator :
  (∃ s : State, ∃ i, ∃ x, ∃ sec, onImage s.c = true ∧ 8 ≤ i ∧ i ≤ 11 ∧ s.c.tim.ins.lookup i = some x ∧ x.todLast = some sec ∧ x.todFresh = true ∧ s.c.tim.t1.stepTo = some i) ∧
  (∃ s : State, ∃ i, ∃ x, onImage s.c = true ∧ 8 ≤ i ∧ i ≤ 11 ∧ s.c.tim.ins.lookup i = some x ∧ s.c.tim.t1.stepTo ≠ some i) ∧
  (∃ s : State, ∃ i, ∃ x, ∃ r, ∃ d, onImage s.c = true ∧ s.c.dev.tick % 480000 = 0 ∧ s.c.dev.tick ≠ 0 ∧ isDone 4 s.c = false ∧ s.c.tim.ins.lookup i = some x ∧ inRec s.c i = some r ∧ x.dRaw = some d ∧ x.driftWarn = false ∧ 0 < inDriftLim r ∧ inDriftLim r * 1000 ≤ d.natAbs ∧ (∀ j, j ≠ i → qualified s.c j = false)) ∧
  (∃ s : State, s.c.dev.state ≠ .cold) ∧
  (∃ s : State, s.c.dev.state ≠ .cold ∧ s.c.tim.osc.badReads = 2 ∧ s.c.tim.osc.tempFail = false ∧ NoticeRoom 1 s.c) ∧
  (∃ s : State, s.c.dev.state ≠ .cold ∧ s.c.tim.osc.fail = false ∧ NoticeRoom 1 s.c) ∧
  (∃ s : State, s.c.dev.state ≠ .cold) ∧
  (∃ s : State, s.c.dev.state ≠ .cold) :=
  ⟨⟨tState ({ tIn { inDflt with todLast := some 2, todFresh := true } with tim.t1.stepTo := some 8 }), 8, { inDflt with todLast := some 2, todFresh := true }, 2, by decide, by decide, by decide, by decide, by decide, by decide, by decide⟩,
   ⟨tState tRun, 8, inDflt, by decide, by decide, by decide, by decide, by decide⟩,
   ⟨tState ({ tRun with dev.tick := 480000, tim.ins := [(8, { inDflt with dRaw := some (-1000) })] }), 8, { inDflt with dRaw := some (-1000) }, _, -1000, by decide, by decide, by decide, by decide, by decide, rfl, by decide, by decide, by decide, by decide, test_others _⟩,
   ⟨tState tRun, by decide⟩,
   ⟨tState ({ tRun with tim.osc.badReads := 2 }), by decide, by decide, by decide, by unfold NoticeRoom; decide⟩,
   ⟨tState tRun, by decide, by decide, by unfold NoticeRoom; decide⟩,
   ⟨tState tRun, by decide⟩,
   ⟨tState tRun, by decide⟩⟩

theorem test_wit_DpllsChangeState :
  (∃ s : State, ∃ d, ∃ x, ∃ f, s.c.dev.state ≠ .cold ∧ s.c.tim.dps.lookup d = some x ∧ x.state = dpAcq ∧ x.span = none ∧ x.lockFrom = some f ∧ f + lockTicks (dpBw (dpRec s.c d)) ≤ s.c.dev.tick ∧ NoticeRoom 1 s.c) ∧
  (∃ s : State, ∃ d, ∃ x, ∃ f, s.c.dev.state ≠ .cold ∧ s.c.tim.dps.lookup d = some x ∧ x.state = dpLocked ∧ x.badFrom = some f ∧ f + 8000 ≤ s.c.dev.tick ∧ NoticeRoom 1 s.c) ∧
  (∃ s : State, ∃ d, ∃ x, ∃ e, s.c.dev.state ≠ .cold ∧ s.c.tim.dps.lookup d = some x ∧ x.span = some e ∧ e ≤ s.c.dev.tick) ∧
  (∃ s : State, ∃ d, ∃ x, onImage s.c = true ∧ s.c.tim.dps.lookup d = some x ∧ x.wtr = some 0 ∧ x.host ≠ noInput ∧ mayTake s.c d x.host = true) ∧
  (∃ s : State, ∃ d, ∃ x, ∃ h, s.c.dev.state ≠ .cold ∧ s.c.tim.dps.lookup d = some x ∧ x.state = dpHold ∧ x.ho = some h ∧ lostOnDays s.c d s.c.dev.tick h = true) ∧
  (∃ s : State, ∃ x, onImage s.c = true ∧ s.c.tim.dps.lookup 1 = some x ∧ x.hoReady = false ∧ s.c.tim.t1.swMode = true ∧ s.c.tim.t1.expired = false ∧ swTimeout s.c ≠ 0 ∧ s.c.tim.t1.ownTick + swTimeout s.c < s.c.dev.tick ∧ NoticeRoom 1 s.c) :=
  ⟨⟨tState (tDp { dpDflt with state := 1, lockFrom := some 76000 }), 3, { dpDflt with state := 1, lockFrom := some 76000 }, 76000, by decide, by decide, by decide, by decide, by decide, by decide, by unfold NoticeRoom; decide⟩,
   ⟨tState (tDp { dpDflt with state := 2, badFrom := some 92000 }), 3, { dpDflt with state := 2, badFrom := some 92000 }, 92000, by decide, by decide, by decide, by decide, by decide, by unfold NoticeRoom; decide⟩,
   ⟨tState (tDp { dpDflt with span := some 100000 }), 3, { dpDflt with span := some 100000 }, 100000, by decide, by decide, by decide, by decide⟩,
   ⟨tState ({ tDp { dpDflt with wtr := some 0, host := 8 } with tim.ins := [(8, { inDflt with status := 3 })] }), 3, { dpDflt with wtr := some 0, host := 8 }, by decide, by decide, by decide, by decide, by decide⟩,
   ⟨tState ({ tDp { dpDflt with state := 3, ho := some tHo } with dev.tick := 6912000000 }), 3, { dpDflt with state := 3, ho := some tHo }, tHo, by decide, by decide, by decide, by decide, by decide⟩,
   ⟨tState ({ tRun with tim.t1.swMode := true, tim.t1.ownTick := 83999 }), dpDflt, by decide, by decide, by decide, by decide, by decide, by decide, by decide, by unfold NoticeRoom; decide⟩⟩

theorem test_wit_TimingRecords :
  (∃ s : State, ∃ d, ∃ x, s.c.dev.state ≠ .cold ∧ s.c.dev.tick % 480000 = 0 ∧ s.c.dev.tick ≠ 0 ∧ s.c.tim.dps.lookup d = some x ∧ x.minCnt ≠ 0) ∧
  (∃ s : State, s.c.dev.state ≠ .cold ∧ s.c.dev.tick % 28800000 = 0 ∧ s.c.dev.tick ≠ 0 ∧ isDone 5 s.c = false ∧ s.c.power.throt = []) ∧
  (∃ s : State, s.c.dev.state ≠ .cold ∧ s.c.dev.tick % 8000 = 0 ∧ isDone 3 s.c = false) ∧
  (∃ s : State, isDone 3 s.c = true) :=
  ⟨⟨tState ({ tDp { dpDflt with minCnt := 1 } with dev.tick := 480000 }), 3, { dpDflt with minCnt := 1 }, by decide, by decide, by decide, by decide, by decide⟩,
   ⟨tState ({ tRun with dev.tick := 28800000 }), by decide, by decide, by decide, by decide, by decide⟩,
   ⟨tState ({ tRun with dev.tick := 104000 }), by decide, by decide, by decide⟩,
   ⟨tState ({ tRun with dev.done := [3] }), by decide⟩⟩

theorem test_wit_SoftwareAndOutputs :
  (∃ s : State, ∃ v : Word, s.c.dev.state ≠ .cold ∧ t1SwCtrlOk v = true) ∧
  (∃ s : State, ∃ v : Word, s.c.dev.state ≠ .cold ∧ t1SwCtrlOk v = false) ∧
  (∃ s : State, s.c.dev.state ≠ .cold) ∧
  (∃ s : State, s.c.dev.state ≠ .cold) ∧
  (∃ s : State, ∃ v : Int, onImage s.c = true ∧ isDone 6 s.c = false ∧ dpSoft s.c 1 = true ∧ swOwner s.c = false ∧ s.c.dev.sbDown = false ∧ s.c.tim.t1.sample = some v) ∧
  (∃ s : State, s.c.dev.state ≠ .cold ∧ s.c.tim.tickMoving = true ∧ s.c.tim.tickLeft.natAbs ≤ 16 ∧ NoticeRoom 1 s.c) ∧
  (∃ s : State, ∃ t, onImage s.c = true ∧ framePulse (theImage s.c) t = true ∧ (getOut s.c t).move = 2 ∧ ((getOut s.c t).last : Int) + outPeriod (theImage s.c) t + (getOut s.c t).step ≤ s.c.tim.t1.time) ∧
  (∃ s : State, ∃ d, onImage s.c = true ∧ s.c.tim.todDue = some d ∧ d ≤ s.c.dev.tick) :=
  ⟨⟨tState tRun, 0x6000FFFF, by decide, by decide⟩,
   ⟨tState tRun, 0x80000000, by decide, by decide⟩,
   ⟨tState tRun, by decide⟩,
   ⟨tState tRun, by decide⟩,
   ⟨tState ({ tRun with tim.t1.swMode := true, tim.t1.sample := some 5 }), 5, by decide, by decide, by decide, by decide, by decide, by decide⟩,
   ⟨tState ({ tRun with tim.tickMoving := true, tim.tickLeft := -16 }), by decide, by decide, by decide, by unfold NoticeRoom; decide⟩,
   ⟨tState ({ tRun with tim.outs := [(0x2B, { outDflt with move := 2 })], tim.t1.time := 4000000000 }), 0x2B, by decide, by decide, by decide, by decide⟩,
   ⟨tState ({ tRun with tim.todDue := some 100000 }), 100000, by decide, by decide, by decide⟩⟩

theorem test_wit_FailuresDeclareAndClear :
  (∃ s : State, ∃ kind, ∃ ref, ∃ level, ∃ bit, detects s.c = true ∧ (dget s.c (dkey kind ref level bit)).failed = false ∧ (dget s.c (dkey kind ref level bit)).present = true ∧ integTicks s.c ≤ (dget s.c (dkey kind ref level bit)).pres ∧ 0 < (dget s.c (dkey kind ref level bit)).pres ∧ suppressed (theImage s.c) s.c (dkey kind ref level bit) = false) ∧
  (∃ s : State, ∃ kind, ∃ ref, ∃ level, ∃ bit, detects s.c = true ∧ (dget s.c (dkey kind ref level bit)).failed = true ∧ clearTicks s.c ≤ (dget s.c (dkey kind ref level bit)).abs ∧ 0 < (dget s.c (dkey kind ref level bit)).abs) :=
  ⟨⟨tState ({ tRun with dfx.d := [(dkey 0 319 0 0, { defDflt with present := true, pres := 20000 })] }), 0, 319, 0, 0, by decide, by decide, by decide, by decide, by decide, by decide⟩,
   ⟨tState ({ tRun with dfx.d := [(dkey 0 319 0 0, { defDflt with failed := true, abs := 80000 })] }), 0, 319, 0, 0, by decide, by decide, by decide, by decide⟩⟩

theorem test_wit_CorrelationAndNotices :
  (∃ s : State, ∃ family, ∃ port, ∃ w, ∃ m, s.c.dfx.wins.find? (fun w => w.family = family && w.port = port) = some w ∧ w.fin ≤ s.c.dev.tick ∧ m ∈ burstMembers s.c family port ∧ w.least ≤ (burstMembers s.c family port).length ∧ (∀ e, e ∈ s.c.dfx.fails → e.2.how ≠ 3)) ∧
  (∃ s : State, ∃ v : Word, s.c.dev.state ≠ .cold ∧ defectCtrlOk v = true) ∧
  (∃ s : State, ∃ v : Word, s.c.dev.state ≠ .cold ∧ defectCtrlOk v = false) ∧
  (∃ s : State, ∃ v : Word, s.c.dev.state ≠ .cold ∧ corrCtrlOk v = true) ∧
  (∃ s : State, ∃ v : Word, s.c.dev.state ≠ .cold ∧ corrCtrlOk v = false) ∧
  (∃ s : State, s.c.dev.state ≠ .cold ∧ s.c.dev.sbDown = false) :=
  ⟨⟨tState ({ tRun with dfx.wins := [{ family := 15, port := 319, start := 0, fin := 100000, least := 1, gone := [] }], dfx.fails := [(dkey 0 319 0 0, { how := 2, told := false, decl := 5, family := 15, port := 319 })] }), 15, 319, { family := 15, port := 319, start := 0, fin := 100000, least := 1, gone := [] }, (dkey 0 319 0 0, { how := 2, told := false, decl := 5, family := 15, port := 319 }), by decide, by decide, by decide, by decide, by decide⟩,
   ⟨tState tRun, 0x01012024, by decide, by decide⟩,
   ⟨tState tRun, 0x01012004, by decide, by decide⟩,
   ⟨tState tRun, 0x00010200, by decide, by decide⟩,
   ⟨tState tRun, 0x00010100, by decide, by decide⟩,
   ⟨tState tRun, by decide, by decide⟩⟩

theorem test_wit_ProtectionEvaluates :
  (∃ s : State, ∃ g, ∃ x, ∃ r, onImage s.c = true ∧ s.c.prot.groups.lookup g = some x ∧ protRec s.c g = some r ∧ x.evalAt < s.c.dev.tick ∧ x.born < s.c.dev.tick ∧ protWaiting s.c = none ∧ protBidir r = false ∧ protHold r = 0 ∧ x.w.inSf = true ∧ x.p.inSf = false ∧ x.standing ≠ 1 ∧ x.standing ≠ 2) ∧
  (∃ s : State, ∃ g, ∃ x, ∃ r, onImage s.c = true ∧ s.c.prot.groups.lookup g = some x ∧ protRec s.c g = some r ∧ x.evalAt < s.c.dev.tick ∧ x.born < s.c.dev.tick ∧ protWaiting s.c = none ∧ protBidir r = false ∧ protRevert r = true ∧ protWtr r ≠ 0 ∧ x.loc = stSFW ∧ protHold r = 0 ∧ x.w.inSf = false ∧ x.w.inSd = false ∧ x.p.inSf = false ∧ x.p.inSd = false ∧ x.standing = 0) ∧
  (∃ s : State, ∃ g, ∃ x, ∃ r, onImage s.c = true ∧ s.c.prot.groups.lookup g = some x ∧ protRec s.c g = some r ∧ x.evalAt < s.c.dev.tick ∧ x.born < s.c.dev.tick ∧ protWaiting s.c = none ∧ protBidir r = false ∧ x.w.hold = 1 ∧ x.w.inSf = true ∧ x.p.inSf = false ∧ x.p.reqSf = false ∧ x.p.hold = 0 ∧ x.standing ≠ 1 ∧ x.standing ≠ 2) ∧
  (∃ s : State, ∃ g, ∃ x, ∃ r, onImage s.c = true ∧ s.c.prot.groups.lookup g = some x ∧ protRec s.c g = some r ∧ x.evalAt < s.c.dev.tick ∧ x.born < s.c.dev.tick ∧ protWaiting s.c = none ∧ protBidir r = false ∧ x.loc = stWTR ∧ x.wtr = 1 ∧ x.w.inSf = false ∧ x.w.inSd = false ∧ x.p.inSf = false ∧ x.p.inSd = false ∧ x.w.reqSf = false ∧ x.w.reqSd = false ∧ x.p.reqSf = false ∧ x.p.reqSd = false ∧ x.standing = 0) ∧
  (∃ s : State, ∃ g, ∃ x, ∃ t, onImage s.c = true ∧ s.c.prot.groups.lookup g = some x ∧ x.nrSince = some t ∧ t + 400 ≤ s.c.dev.tick) :=
  ⟨⟨tState (tGrp { grpNew 0 0 with w := { memDflt with inSf := true } }), 0xFFFF, { grpNew 0 0 with w := { memDflt with inSf := true } }, tProtRec, by decide, by decide, by decide, by decide, by decide, by decide, by decide, by decide, by decide, by decide, by decide, by decide⟩,
   ⟨tState (tGrp { grpNew 0 0 with loc := 7 }), 0xFFFF, { grpNew 0 0 with loc := 7 }, tProtRec, by decide, by decide, by decide, by decide, by decide, by decide, by decide, by decide, by decide, by decide, by decide, by decide, by decide, by decide, by decide, by decide⟩,
   ⟨tState (tGrp { grpNew 0 0 with w := { memDflt with inSf := true, hold := 1 } }), 0xFFFF, { grpNew 0 0 with w := { memDflt with inSf := true, hold := 1 } }, tProtRec, by decide, by decide, by decide, by decide, by decide, by decide, by decide, by decide, by decide, by decide, by decide, by decide, by decide, by decide⟩,
   ⟨tState (tGrp { grpNew 0 0 with loc := 2, wtr := 1 }), 0xFFFF, { grpNew 0 0 with loc := 2, wtr := 1 }, tProtRec, by decide, by decide, by decide, by decide, by decide, by decide, by decide, by decide, by decide, by decide, by decide, by decide, by decide, by decide, by decide, by decide, by decide, by decide⟩,
   ⟨tState (tGrp { grpNew 0 0 with nrSince := some 99600 }), 0xFFFF, { grpNew 0 0 with nrSince := some 99600 }, 99600, by decide, by decide, by decide, by decide⟩⟩

theorem test_wit_SelectorsAndCommands :
  (∃ s : State, ∃ g, ∃ x, ∃ r, ∃ d, onImage s.c = true ∧ s.c.prot.groups.lookup g = some x ∧ protRec s.c g = some r ∧ x.decided = some d ∧ d ≤ s.c.dev.tick ∧ (getSel s.c g).select ≠ x.select ∧ NoticeRoom 1 s.c) ∧
  (∃ s : State, ∃ g, ∃ x, ∃ r, onImage s.c = true ∧ s.c.prot.groups.lookup g = some x ∧ protRec s.c g = some r ∧ x.evalAt < s.c.dev.tick ∧ x.born < s.c.dev.tick ∧ protWaiting s.c = some (1, g) ∧ s.c.dev.sbDown = false) :=
  ⟨⟨tState (tGrp { grpNew 0 0 with decided := some 100000, select := true }), 0xFFFF, { grpNew 0 0 with decided := some 100000, select := true }, tProtRec, 100000, by decide, by decide, by decide, by decide, by decide, by decide, by unfold NoticeRoom; decide⟩,
   ⟨tState ({ tRun with mb.cur := some (tCur 0x020 0x0001FFFF) }), 0xFFFF, { grpNew 0 0 with select := true }, tProtRec, by decide, by decide, by decide, by decide, by decide, by decide, by decide⟩⟩

theorem test_wit_MailboxCommandsWait :
  (∃ s : State, ∃ tag, ∃ code, ∃ ok, ∃ i, (i, code, ok) ∈ [(Instr.protCmd tag, 0x020, protCmdOk s.c), (.refSelect tag, 0x030, refSelectOk s.c), (.timeAdjust tag, 0x031, timeAdjustOk s.c), (.tickAlign tag, 0x032, tickAlignOk s.c), (.ppsAlign tag, 0x033, ppsAlignOk s.c), (.phaseStep tag, 0x034, phaseStepOk s.c), (.hoReset tag, 0x035, true), (.tabletClaim tag, 0x041, true)] ∧ s.c.dev.state ≠ .cold ∧ s.c.mb.cur = none ∧ mbLegal code s.c.dev.state false = true ∧ mbParamsOk code s.c.dev.state s.c = true ∧ ok = true) :=
  ⟨tState (tMb 0x0001FFFF 0 0 0 tRun), 0, 0x020, true, .protCmd 0, by decide, by decide, by decide, by decide, by decide, by decide⟩

theorem test_wit_MailboxRefuses :
  (∃ s : State, ∃ tag, ∃ file, ∃ p, p ∈ mbRows tag file ∧ s.c.dev.state ≠ .cold ∧ s.c.mb.cur ≠ none) ∧
  (∃ s : State, ∃ tag, ∃ file, ∃ p, p ∈ mbRows tag file ∧ s.c.dev.state ≠ .cold ∧ s.c.mb.cur = none ∧ s.c.dev.sbDown = false ∧ mbLegal p.1 s.c.dev.state (s.c.upd.bootFail ≠ 0) = false ∧ (p.1 < 0x050 → mbLegal p.1 s.c.dev.state false = false)) ∧
  (∃ s : State, ∃ tag, ∃ file, ∃ p, p ∈ mbRows tag file ∧ s.c.dev.state ≠ .cold ∧ s.c.mb.cur = none ∧ s.c.dev.sbDown = false ∧ mbLegal p.1 s.c.dev.state (s.c.upd.bootFail ≠ 0) = true ∧ (p.1 < 0x050 → mbLegal p.1 s.c.dev.state false = true) ∧ mbParamsOk p.1 s.c.dev.state s.c = false) :=
  ⟨⟨tState ({ tRun with mb.cur := some (tCur 0x020 0) }), 0, none, (0x05A, .keyWipe 0 none), by decide, by decide, by decide⟩,
   ⟨tState tStby, 0, none, (0x040, .drill 0), by decide, by decide, by decide, by decide, by decide, by decide⟩,
   ⟨tState (tMb 1 0 0 0 tRun), 0, none, (0x05A, .keyWipe 0 none), by decide, by decide, by decide, by decide, by decide, by decide, by decide⟩⟩

theorem test_wit_PcieResetResetsOnly :
  (∃ s : State, s.c.dev.state ≠ .cold) :=
  ⟨tState tRun, by decide⟩

theorem test_wit_RegisterWritesAct :
  (∃ s : State, s.c.dev.state ≠ .cold) ∧
  (∃ s : State, s.c.dev.state ≠ .cold ∧ s.c.mb.cur = none) ∧
  (∃ s : State, s.c.dev.state ≠ .cold ∧ s.c.mb.cur ≠ none) ∧
  (∃ s : State, ∃ a, ∃ l : List Byte, s.c.dev.state ≠ .cold ∧ s.c.mb.cur = none ∧ (l.length = 4 ∧ a % 4 = 0 ∨ l.length = 8 ∧ a % 8 = 0) ∧ a + l.length ≤ 0x01000000) ∧
  (∃ s : State, ∃ a, ∃ k, ∃ l : List Byte, s.c.dev.state ≠ .cold ∧ s.c.mb.cur = some k ∧ k.code ∈ [0x010, 0x012, 0x013] ∧ (l.length = 4 ∧ a % 4 = 0 ∨ l.length = 8 ∧ a % 8 = 0) ∧ a + l.length ≤ 0x01000000) ∧
  (∃ s : State, s.c.dev.state ≠ .cold) ∧
  (∃ s : State, ∃ l : List Byte, s.c.dev.state ≠ .cold ∧ l.length ≠ 4 ∧ l.length ≠ 8) :=
  ⟨⟨tState tRun, by decide⟩,
   ⟨tState tRun, by decide, by decide⟩,
   ⟨tState ({ tRun with mb.cur := some (tCur 0x020 0) }), by decide, by decide⟩,
   ⟨tState tRun, 0xFFFFF8, List.replicate 8 1, by decide, by decide, by decide, by decide⟩,
   ⟨tState ({ tRun with mb.cur := some (tCur 0x010 0) }), 0xFFFFF8, tCur 0x010 0, List.replicate 8 1, by decide, by decide, by decide, by decide, by decide⟩,
   ⟨tState tRun, by decide⟩,
   ⟨tState tRun, [1, 2, 3], by decide, by decide, by decide⟩⟩

theorem test_wit_FlagsClear :
  (∃ s : State, s.c.dev.state ≠ .cold) ∧
  (∃ s : State, ∃ k, s.c.dev.state ≠ .cold ∧ k < 8) ∧
  (∃ s : State, ∃ v : Word, ∃ k, s.c.dev.state ≠ .cold ∧ bits v 8 24 = 0 ∧ k < 8) ∧
  (∃ s : State, ∃ v : Word, s.c.dev.state ≠ .cold ∧ bits v 8 24 = 0 ∧ bitAt (tget msixDflt s.c.int.msix (bits s.c.int.vec0 24 6)).ctl 0 = false ∧ s.c.int.status = 8 ∧ bitAt (BitVec.ofNat 8 v.toNat) 3 = true) ∧
  (∃ s : State, ∃ v : Word, s.c.dev.state ≠ .cold ∧ bits v 8 24 ≠ 0) :=
  ⟨⟨tState tRun, by decide⟩,
   ⟨tState tRun, 7, by decide, by decide⟩,
   ⟨tState tRun, 0xFF, 7, by decide, by decide, by decide⟩,
   ⟨tState ({ tRun with int.status := 8, int.msix := [(0, { addrLo := 0, addrHi := 0, data := 0, ctl := 0 })] }), 8, by decide, by decide, by decide, by decide, by decide⟩,
   ⟨tState tRun, 0x100, by decide, by decide⟩⟩

theorem test_wit_QueuesPop :
  (∃ s : State, s.c.dev.state ≠ .cold ∧ s.c.nq.items = [] ∧ s.c.nq.openPkt = []) ∧
  (∃ s : State, s.c.dev.state ≠ .cold ∧ s.c.oq.items = [] ∧ s.c.oq.openPkt = []) ∧
  (∃ s : State, ∃ i, ∃ l1, ∃ l2, s.c.dev.state ≠ .cold ∧ s.c.nq.openPkt = [] ∧ s.c.nq.items = l1 ++ i :: l2 ∧ (∀ j, j ∈ l1 → itemPrio i < itemPrio j) ∧ (∀ j, j ∈ l2 → itemPrio i ≤ itemPrio j) ∧ itemLast i = true) ∧
  (∃ s : State, ∃ i, ∃ t, s.c.dev.state ≠ .cold ∧ s.c.oq.openPkt = i :: t) ∧
  (∃ s : State, s.c.dev.state ≠ .cold ∧ 0 < qCount s.c.oq) ∧
  (∃ s : State, s.c.dev.state ≠ .cold) :=
  ⟨⟨tState tRun, by decide, by decide, by decide⟩,
   ⟨tState tRun, by decide, by decide, by decide⟩,
   ⟨tState ({ tRun with nq.items := [BitVec.ofNat 128 (2 ^ 118), BitVec.ofNat 128 (2 ^ 116), 0] }), BitVec.ofNat 128 (2 ^ 116), [BitVec.ofNat 128 (2 ^ 118)], [0], by decide, by decide, by decide, by intro j hj; cases List.mem_singleton.1 hj; decide, by intro j hj; cases List.mem_singleton.1 hj; decide, by decide⟩,
   ⟨tState ({ tRun with oq.openPkt := [1] }), 1, [], by decide, by decide⟩,
   ⟨tState ({ tRun with oq.items := [1] }), by decide, by decide⟩,
   ⟨tState tRun, by decide⟩⟩

theorem test_wit_ReadsAndPorts :
  (∃ s : State, ∃ cyc, s.c.dev.state ≠ .cold ∧ cyc < 375000) ∧
  (∃ s : State, s.c.dev.state ≠ .cold) ∧
  (∃ s : State, s.c.dev.state ≠ .cold) ∧
  (∃ s : State, ∃ a, ∃ n, s.c.dev.state ≠ .cold ∧ a % 4 = 0 ∧ n % 4 = 0 ∧ 0 < n ∧ n ≤ 4096 ∧ a + n ≤ 0x01000000) ∧
  (∃ s : State, ∃ n, s.c.dev.state ≠ .cold ∧ n ≠ 4 ∧ n ≠ 8) ∧
  (∃ s : State, ∃ k, ∃ v : Word, s.c.dev.state ≠ .cold ∧ k < 4 ∧ bits v 16 11 = 0 ∧ bitAt v 31 = true ∧ (getTap s.c k).busy = false) ∧
  (∃ s : State, ∃ k, ∃ v : Word, s.c.dev.state ≠ .cold ∧ k < 4 ∧ bits v 16 11 = 0 ∧ bitAt v 31 = true ∧ (getTap s.c k).busy = true ∧ bitAt v 27 = (getTap s.c k).write ∧ BitVec.ofNat 16 v.toNat = (getTap s.c k).wordEn) ∧
  (∃ s : State, ∃ k, s.c.dev.state ≠ .cold ∧ k < 4 ∧ (getTap s.c k).busy = true ∧ (getTap s.c k).write = false ∧ tapOffset (getTap s.c k) < 0x01000000) ∧
  (∃ s : State, ∃ k, s.c.dev.state ≠ .cold ∧ k < 4 ∧ (getTap s.c k).busy = true ∧ (getTap s.c k).write = true ∧ (getTap s.c k).wordEn = 1 ∧ tapOffset (getTap s.c k) < 0x01000000 ∧ s.c.mb.cur = none) :=
  ⟨⟨tState tRun, 374999, by decide, by decide⟩,
   ⟨tState tRun, by decide⟩,
   ⟨tState tRun, by decide⟩,
   ⟨tState tRun, 0xFFF000, 4096, by decide, by decide, by decide, by decide, by decide +kernel, by decide +kernel⟩,
   ⟨tState tRun, 3, by decide, by decide, by decide⟩,
   ⟨tState tRun, 3, 0x80000000, by decide, by decide, by decide, by decide, by decide⟩,
   ⟨tState ({ tRun with taps := [(3, { tapDflt with busy := true })] }), 3, 0x8000FFFF, by decide, by decide, by decide, by decide, by decide, by decide, by decide⟩,
   ⟨tState ({ tRun with taps := [(3, { tapDflt with busy := true, offset := 262143 })] }), 3, by decide, by decide, by decide, by decide, by decide⟩,
   ⟨tState { tRun with taps := [(3, { tapDflt with busy := true, write := true, wordEn := 1, offset := 262143 })] }, 3, by decide, by decide, by decide, by decide, by decide, by decide, by decide⟩⟩

theorem test_wit_StraitMessages :
  (∃ s : State, s.c.dev.state ≠ .cold) ∧
  (∃ s : State, s.c.dev.state ≠ .cold ∧ s.c.pair.lanesUp = true ∧ isDone 7 s.c = false) ∧
  (∃ s : State, isDone 7 s.c = true) ∧
  (∃ s : State, s.c.dev.state ≠ .cold ∧ NoticeRoom 1 s.c) ∧
  (∃ s : State, s.c.dev.state ≠ .cold) ∧
  (∃ s : State, s.c.dev.state ≠ .cold) ∧
  (∃ s : State, ∃ i, s.c.dev.state ≠ .cold ∧ i < 64) ∧
  (∃ s : State, s.c.dev.state ≠ .cold) ∧
  (∃ s : State, s.c.dev.state ≠ .cold ∧ s.c.pair.linkUp = true ∧ s.c.pair.lastMsg + 4 < s.c.dev.tick) :=
  ⟨⟨tState tRun, by decide⟩,
   ⟨tState ({ tRun with pair.lanesUp := true }), by decide, by decide, by decide⟩,
   ⟨tState ({ tRun with dev.done := [7] }), by decide⟩,
   ⟨tState tRun, by decide, by unfold NoticeRoom; decide⟩,
   ⟨tState tRun, by decide⟩,
   ⟨tState tRun, by decide⟩,
   ⟨tState tRun, 63, by decide, by decide⟩,
   ⟨tState tRun, by decide⟩,
   ⟨tState ({ tRun with pair.linkUp := true, pair.lastMsg := 99995 }), by decide, by decide, by decide⟩⟩

theorem test_wit_LeaseAndRelease :
  (∃ s : State, renewDue s.c.dev.tick s.c = true) ∧
  (∃ s : State, s.c.dev.state ≠ .cold) ∧
  (∃ s : State, ∃ q, ∃ t, s.c.dev.state ≠ .cold ∧ s.c.pair.sends.lookup q = some t ∧ s.c.pair.acked ≤ t) ∧
  (∃ s : State, ∃ h : HokuaHdr, s.c.dev.state ≠ .cold ∧ s.c.pair.seen ≤ h.epoch) ∧
  (∃ s : State, ∃ h : HokuaHdr, s.c.dev.state ≠ .cold ∧ h.epoch < s.c.pair.seen) ∧
  (∃ s : State, s.c.pair.holder = true ∧ paired s.c = true ∧ s.c.pair.acked + pairLease (pairRec s.c) ≤ s.c.dev.tick ∧ pairYield (pairRec s.c) = true ∧ (s.c.pair.echo.present = false ∨ s.c.pair.echo.sawOff = true) ∧ NoticeRoom 1 s.c) ∧
  (∃ s : State, pairYield (pairRec s.c) = false) ∧
  (∃ s : State, ∃ k, ∃ t, s.c.pair.holder = true ∧ paired s.c = true ∧ s.c.dev.state = .running ∧ ownConds s.c = k :: t ∧ twinReady s.c = true ∧ NoticeRoom 1 s.c) ∧
  (∃ s : State, ∃ k, s.c.pair.holder = true ∧ paired s.c = true ∧ s.c.dev.state = .running ∧ ownConds s.c = [k] ∧ twinReady s.c = false ∧ s.c.pair.withheld = [] ∧ NoticeRoom 1 s.c) :=
  ⟨⟨tState tPair, by decide⟩,
   ⟨tState tRun, by decide⟩,
   ⟨tState ({ tPair with pair.sends := [(9, 5)], pair.acked := 5 }), 9, 5, by decide, by decide, by decide⟩,
   ⟨tState ({ tPair with pair.seen := 3 }), tHdr, by decide, by decide⟩,
   ⟨tState ({ tPair with pair.seen := 4 }), tHdr, by decide, by decide⟩,
   ⟨tState ({ tPair with pair.acked := 99992 }), by decide, by decide, by decide, by decide, by decide, by unfold NoticeRoom; decide⟩,
   ⟨tState tRun, by decide⟩,
   ⟨tState ({ tPair with tim.osc.fail := true, pair.twin := tReady }), 5, [], by decide, by decide, by decide, by decide, by decide, by unfold NoticeRoom; decide⟩,
   ⟨tState ({ tPair with tim.osc.fail := true }), 5, by decide, by decide, by decide, by decide, by decide, by decide, by unfold NoticeRoom; decide⟩⟩

theorem test_wit_TakeoverAndInterlock :
  (∃ s : State, takeDue s.c.dev.tick s.c = true ∧ warmOk s.c = false ∧ NoticeRoom 1 s.c) ∧
  (∃ s : State, takeDue s.c.dev.tick s.c = true ∧ warmOk s.c = true ∧ NoticeRoom 1 s.c) ∧
  (∃ s : State, s.c.dev.state = .handover ∧ s.c.pair.handAt + 2 ≤ s.c.dev.tick ∧ s.c.pair.warm = false ∧ s.c.pair.holder = true) ∧
  (∃ s : State, s.c.dev.state = .handover ∧ s.c.pair.handAt + 2 ≤ s.c.dev.tick ∧ s.c.pair.warm = false ∧ s.c.pair.holder = false) ∧
  (∃ s : State, s.c.dev.state = .handover ∧ s.c.pair.handAt + 2 ≤ s.c.dev.tick ∧ s.c.pair.warm = true ∧ s.c.pair.holder = true ∧ s.c.pair.mirror.regions = []) ∧
  (∃ s : State, s.c.dev.state ≠ .cold) ∧
  (∃ s : State, s.c.dev.state ≠ .cold) ∧
  (∃ s : State, s.c.dev.state ≠ .cold) ∧
  (∃ s : State, s.c.pair.holder = true ∧ paired s.c = true ∧ 8000 ≤ s.c.pair.tieRun ∧ NoticeRoom 1 s.c) ∧
  (∃ s : State, s.c.dev.state ≠ .cold) ∧
  (∃ s : State, s.c.pair.unproven = true ∧ 8000 ≤ s.c.pair.run ∧ NoticeRoom 1 s.c) :=
  ⟨⟨tState ({ tStby with pair.entered := 99988 }), by decide, by decide, by unfold NoticeRoom; decide⟩,
   ⟨tState ({ tStby with pair.entered := 99988, pair.mirror.full := true }), by decide, by decide, by unfold NoticeRoom; decide⟩,
   ⟨tState ({ tChip .handover true with pair.handAt := 99998, pair.holder := true }), by decide, by decide, by decide, by decide⟩,
   ⟨tState ({ tChip .handover true with pair.handAt := 99998 }), by decide, by decide, by decide, by decide⟩,
   ⟨tState ({ tChip .handover true with pair.handAt := 99998, pair.warm := true, pair.holder := true }), by decide, by decide, by decide, by decide, by decide⟩,
   ⟨tState tRun, by decide⟩,
   ⟨tState tRun, by decide⟩,
   ⟨tState tRun, by decide⟩,
   ⟨tState ({ tPair with pair.tieRun := 8000 }), by decide, by decide, by decide, by unfold NoticeRoom; decide⟩,
   ⟨tState tRun, by decide⟩,
   ⟨tState ({ tRun with pair.run := 8000 }), by decide, by decide, by unfold NoticeRoom; decide⟩⟩

theorem test_wit_MirrorFollows :
  (∃ s : State, mirrors s.c = true ∧ (s.c.pair.mirror.active = false ∨ s.c.pair.mirror.again = true)) ∧
  (∃ s : State, mirrors s.c = true ∧ s.c.pair.mirror.active = true ∧ s.c.pair.mirror.sentTick < genPace s.c) ∧
  (∃ s : State, ∃ h : HokuaHdr, ∃ m, s.c.dev.state = .standby ∧ s.c.pair.placeMis = false ∧ h.imgSeq = imgSeq s.c ∧ m = (if h.imgSeq = s.c.pair.twin.imgSeq then s.c else mirrorReset s.c).pair.mirror) ∧
  (∃ s : State, ∃ h : HokuaHdr, ∃ m, s.c.dev.state = .standby ∧ s.c.pair.placeMis = false ∧ m = (if h.imgSeq = s.c.pair.twin.imgSeq then s.c else mirrorReset s.c).pair.mirror) ∧
  (∃ s : State, mirrors s.c = true ∧ isDone 8 s.c = false) ∧
  (∃ s : State, isDone 8 s.c = true) ∧
  (∃ s : State, ∃ h : HokuaHdr, ∃ m, s.c.dev.state = .standby ∧ s.c.pair.placeMis = false ∧ m = (if h.imgSeq = s.c.pair.twin.imgSeq then s.c else mirrorReset s.c).pair.mirror) ∧
  (∃ s : State, ∃ h : HokuaHdr, ∃ m, s.c.dev.state = .standby ∧ s.c.pair.placeMis = false ∧ m = (if h.imgSeq = s.c.pair.twin.imgSeq then s.c else mirrorReset s.c).pair.mirror) ∧
  (∃ s : State, s.c.dev.state = .standby ∧ paired s.c = true ∧ 64 < jnlLag s.c ∧ s.c.pair.mirror.stale = false) :=
  ⟨⟨tState ({ tPair with pair.linkUp := true }), by decide, by decide⟩,
   ⟨tState ({ tPair with pair.linkUp := true, pair.mirror.active := true, pair.mirror.sentTick := 1356 }), by decide, by decide, by decide⟩,
   ⟨tState tStby, tHdr, _, by decide, by decide, by decide, rfl⟩,
   ⟨tState tStby, tHdr, _, by decide, by decide, rfl⟩,
   ⟨tState ({ tPair with pair.linkUp := true }), by decide, by decide⟩,
   ⟨tState ({ tRun with dev.done := [8] }), by decide⟩,
   ⟨tState tStby, tHdr, _, by decide, by decide, rfl⟩,
   ⟨tState tStby, tHdr, _, by decide, by decide, rfl⟩,
   ⟨tState ({ tStby with pair.mirror.lastRec := some 99935 }), by decide, by decide, by decide, by decide⟩⟩

theorem test_wit_DrillSwaps :
  (∃ s : State, s.c.dev.state = .running ∧ s.c.mb.cur = none ∧ s.c.mb.p0.toNat < 65536 ∧ s.c.mb.p1 = 0 ∧ s.c.mb.p2 = 0 ∧ s.c.mb.p3 = 0 ∧ paired s.c = true ∧ s.c.pair.drill = none ∧ ¬(s.c.cm.pending = true ∧ s.c.dev.tick + 16 ≤ s.c.cm.cTick + 16 ∧ s.c.cm.cTick ≤ s.c.dev.tick + 16 + 16) ∧ twinReady s.c = true ∧ s.c.pair.twin.warm = true) ∧
  (∃ s : State, ∃ k, s.c.dev.state = .running ∧ s.c.mb.cur = none ∧ s.c.dev.sbDown = false ∧ s.c.mb.p0.toNat < 65536 ∧ s.c.mb.p1 = 0 ∧ s.c.mb.p2 = 0 ∧ s.c.mb.p3 = 0 ∧ (k = 1 ∧ paired s.c = false ∨ paired s.c = true ∧ (k = 3 ∧ s.c.pair.drill.isSome = true ∨ s.c.pair.drill = none ∧ (k = 4 ∧ s.c.cm.pending = true ∧ s.c.dev.tick + 16 ≤ s.c.cm.cTick + 16 ∧ s.c.cm.cTick ≤ s.c.dev.tick + 16 + 16 ∨ k = 2 ∧ ¬(s.c.cm.pending = true ∧ s.c.dev.tick + 16 ≤ s.c.cm.cTick + 16 ∧ s.c.cm.cTick ≤ s.c.dev.tick + 16 + 16) ∧ (twinReady s.c = false ∨ s.c.pair.twin.warm = false))))) ∧
  (∃ s : State, ∃ h : HokuaHdr, s.c.dev.state = .standby ∧ ownReady s.c = true ∧ warmOk s.c = true ∧ h.imgSeq = s.c.pair.twin.imgSeq) ∧
  (∃ s : State, ∃ h : HokuaHdr, s.c.dev.state ≠ .cold ∧ (s.c.dev.state ≠ .standby ∨ ownReady s.c = false ∨ s.c.pair.mirror.full = false ∨ s.c.pair.placeMis = true ∨ h.imgSeq ≠ s.c.pair.twin.imgSeq)) ∧
  (∃ s : State, ∃ d, s.c.pair.drill = some d) ∧
  (∃ s : State, ∃ d, ∃ k, ∃ a, s.c.pair.drill = some d ∧ d.mailbox = true ∧ mbHolds 0x040 s.c = some k ∧ s.c.dev.sbDown = false ∧ a ≠ some true) ∧
  (∃ s : State, ∃ d, ∃ k, s.c.pair.drill = some d ∧ d.swap ≤ s.c.dev.tick ∧ s.c.pair.holder = true ∧ s.c.dev.state = .running ∧ d.mailbox = true ∧ mbHolds 0x040 s.c = some k ∧ s.c.dev.sbDown = false ∧ NoticeRoom 1 s.c) ∧
  (∃ s : State, ∃ t, s.c.pair.retAt = some t ∧ t ≤ s.c.dev.tick ∧ s.c.dev.state = .running ∧ s.c.pair.holder = true ∧ twinReady s.c = true ∧ s.c.pair.twin.warm = true) ∧
  (∃ s : State, ∃ t, s.c.pair.retAt = some t ∧ t ≤ s.c.dev.tick ∧ s.c.dev.state = .running ∧ s.c.pair.holder = true ∧ twinReady s.c = false ∧ NoticeRoom 1 s.c) :=
  ⟨⟨tState (tMb 65535 0 0 0 { tPair with pair.twin := tReady }), by decide, by decide, by decide, by decide, by decide, by decide, by decide, by decide, by decide, by decide, by decide⟩,
   ⟨tState (tMb 65535 0 0 0 tRun), 1, by decide, by decide, by decide, by decide, by decide, by decide, by decide, by decide⟩,
   ⟨tState ({ tStby with pair.mirror.full := true, pair.twin.imgSeq := 7 }), tHdr, by decide, by decide, by decide, by decide⟩,
   ⟨tState tRun, tHdr, by decide, by decide⟩,
   ⟨tState ({ tPair with pair.drill := some tDrill }), tDrill, by decide⟩,
   ⟨tState ({ tPair with pair.drill := some tDrill, mb.cur := some (tCur 0x040 65535) }), tDrill, tCur 0x040 65535, none, by decide, by decide, by decide, by decide, by decide⟩,
   ⟨tState ({ tPair with pair.drill := some tDrill, mb.cur := some (tCur 0x040 65535) }), tDrill, tCur 0x040 65535, by decide, by decide, by decide, by decide, by decide, by decide, by decide, by unfold NoticeRoom; decide⟩,
   ⟨tState ({ tPair with pair.retAt := some 100000, pair.twin := tReady }), 100000, by decide, by decide, by decide, by decide, by decide, by decide⟩,
   ⟨tState ({ tPair with pair.retAt := some 100000 }), 100000, by decide, by decide, by decide, by decide, by decide, by unfold NoticeRoom; decide⟩⟩

theorem test_wit_BundlesAreReceived :
  (∃ s : State, ∃ l : List Byte, Taken 0x051 s.c ∧ s.c.upd.act = none ∧ s.c.mb.finalUpd.pending = false ∧ staged s.mem s.c.mb.p0.toNat = l ∧ 128 ≤ l.length ∧ hdrOk l = true ∧ l.length = headBytes l ∧ (inactive s.c.upd).state ≠ 1 ∧ (inactive s.c.upd).state ≠ 2) ∧
  (∃ s : State, ∃ l : List Byte, ∃ i, Taken 0x052 s.c ∧ s.c.upd.act = none ∧ s.c.mb.finalUpd.pending = false ∧ s.c.mb.p0.toNat = i ∧ (inactive s.c.upd).state = 1 ∧ i = s.c.upd.nextChunk ∧ staged s.mem (chunkLen (inactive s.c.upd).header i + 16) = l) ∧
  (∃ s : State, Taken 0x052 s.c ∧ s.c.upd.act = none ∧ s.c.mb.finalUpd.pending = false ∧ (inactive s.c.upd).state = 1 ∧ s.c.mb.p0.toNat ≠ s.c.upd.nextChunk) ∧
  (∃ s : State, Taken 0x056 s.c ∧ s.c.upd.act = none ∧ s.c.mb.finalUpd.pending = false) ∧
  (∃ s : State, ∃ tag, ∃ p, p ∈ [(0x051, Instr.bundleBegin tag), (0x052, .bundleChunk tag), (0x054, .bundleVerify tag), (0x055, .bundleActivate tag), (0x056, .bundleAbort tag)] ∧ Taken p.1 s.c ∧ s.c.upd.act ≠ none) :=
  ⟨⟨({ c := tMb 480 0 0 0 tRun, mem := writeBytes 0 [] bundleStage tHead, pending := [] }), tHead, by unfold Taken; decide, by decide, by decide, by decide +kernel, by decide +kernel, by decide +kernel, by decide +kernel, by decide, by decide⟩,
   ⟨tState (tSlot 1), staged [] 32, 0, by unfold Taken; decide, by decide, by decide, by decide, by decide, by decide, rfl⟩,
   ⟨tState ({ tSlot 1 with upd.nextChunk := 1 }), by unfold Taken; decide, by decide, by decide, by decide, by decide⟩,
   ⟨tState tRun, by unfold Taken; decide, by decide, by decide⟩,
   ⟨tState ({ tRun with upd.act := some tAct }), 0, (0x056, .bundleAbort 0), by decide, by unfold Taken; decide, by decide⟩⟩

theorem test_wit_BundlesAreVerified :
  (∃ s : State, ∃ k, ∃ mf, Taken 0x054 s.c ∧ s.c.upd.act = none ∧ s.c.mb.finalUpd.pending = false ∧ s.c.upd.bootFail = 0 ∧ (inactive s.c.upd).state = 2 ∧ verifySlot s.c.upd = (k, mf)) ∧
  (∃ s : State, Taken 0x053 s.c ∧ s.c.upd.act = none ∧ s.c.mb.finalUpd.pending = false) ∧
  (∃ s : State, ∃ l : List Byte, ∃ u, ∃ k, ∃ v, ∃ m, ∃ mf, Taken 0x053 s.c ∧ s.c.upd.act = none ∧ s.c.mb.finalUpd.pending = false ∧ s.c.upd.bootFail = 0 ∧ bundleBegin (l.take (headBytes l)) { s.c.upd with file := some l } = (0, u) ∧ (inactive u).state = 1 ∧ fileChunks l (inactive u).header 961 0 u = (k, v) ∧ verifySlot v = (m, mf)) ∧
  (∃ s : State, s.c.upd.live.sdAuto = false) ∧
  (∃ s : State, s.c.dev.state ≠ .cold ∧ s.c.dev.state ≠ .boot ∧ s.c.upd.live.sdAuto = true ∧ s.c.upd.act = none ∧ s.c.mb.finalUpd.pending = false) ∧
  (∃ s : State, ∃ l : List Byte, ∃ u, ∃ k, ∃ v, ∃ m, ∃ mf, s.c.dev.state ≠ .cold ∧ s.c.dev.state ≠ .boot ∧ s.c.upd.live.sdAuto = true ∧ s.c.upd.act = none ∧ s.c.mb.finalUpd.pending = false ∧ s.c.upd.bootFail = 0 ∧ bundleBegin (l.take (headBytes l)) { s.c.upd with cardIn := true, file := some l } = (0, u) ∧ (inactive u).state = 1 ∧ fileChunks l (inactive u).header 961 0 u = (k, v) ∧ verifySlot v = (m, mf)) :=
  ⟨⟨tState (tSlot 2), (verifySlot (tState (tSlot 2)).c.upd).1, (verifySlot (tState (tSlot 2)).c.upd).2, by unfold Taken; decide, by decide, by decide, by decide, by decide, test_split _⟩,
   ⟨tState tRun, by unfold Taken; decide, by decide, by decide⟩,
   ⟨tState tRun, tHead, tSd, (fileChunks tHead (inactive tSd).header 961 0 tSd).1, (fileChunks tHead (inactive tSd).header 961 0 tSd).2, (verifySlot (fileChunks tHead (inactive tSd).header 961 0 tSd).2).1, (verifySlot (fileChunks tHead (inactive tSd).header 961 0 tSd).2).2, by unfold Taken; decide, by decide, by decide, by decide, by decide +kernel, by decide +kernel, test_split _, test_split _⟩,
   ⟨tState tRun, by decide⟩,
   ⟨tState ({ tRun with upd.live.sdAuto := true }), by decide, by decide, by decide, by decide, by decide⟩,
   ⟨tState ({ tRun with upd.live.sdAuto := true }), tHead, tSdCard, (fileChunks tHead (inactive tSdCard).header 961 0 tSdCard).1, (fileChunks tHead (inactive tSdCard).header 961 0 tSdCard).2, (verifySlot (fileChunks tHead (inactive tSdCard).header 961 0 tSdCard).2).1, (verifySlot (fileChunks tHead (inactive tSdCard).header 961 0 tSdCard).2).2, by decide, by decide, by decide, by decide, by decide, by decide, by decide +kernel, by decide +kernel, test_split _, test_split _⟩⟩

theorem test_wit_ActivationProceeds :
  (∃ s : State, ∃ k, Taken 0x055 s.c ∧ activateRefused s.c = k ∧ k ≠ 0) ∧
  (∃ s : State, Taken 0x055 s.c ∧ activateRefused s.c = 0) ∧
  (∃ s : State, ∃ a, ∃ m, s.c.upd.act = some a ∧ a.phase = 0 ∧ a.fallback = false ∧ a.comp < 2 ∧ compOf (slotOf s.c.upd (bootSlot s.c.upd)).manifest a.comp = m ∧ m.comp = a.comp) ∧
  (∃ s : State, ∃ a, ∃ i, ∃ l, ∃ e, ∃ f, s.c.upd.act = some a ∧ a.comp = 2 ∧ a.phase = 0 ∧ a.mcAt < s.c.dev.tick ∧ i < 64 ∧ i ∉ a.mcDone ∧ (∀ j, j < 64 → j ≠ i → j ∈ a.mcDone ∧ (getIsl s.c j).bind = []) ∧ (getIsl s.c i).bind = [(l, e)] ∧ (getEng s.c e).role = 0 ∧ bitAt (tget 0 a.mcNew i) (e % 16) = false ∧ enginesIn s.c i 1 = [f] ∧ bitAt (tget 0 a.mcNew i) (f % 16) = true ∧ f ≠ e ∧ listItems s.c i l ≠ []) ∧
  (∃ s : State, ∃ a, ∃ g, s.c.upd.act = some a ∧ a.phase = 1 ∧ a.fallback = false ∧ a.goodFrom = some g ∧ g + 80000 ≤ s.c.dev.tick ∧ a.comp < 2 ∧ NoticeRoom 1 s.c) ∧
  (∃ s : State, ∃ a, ∃ g, ∃ r, s.c.upd.act = some a ∧ a.phase = 1 ∧ a.fallback = false ∧ a.goodFrom = some g ∧ g + 80000 ≤ s.c.dev.tick ∧ a.comp = 3 ∧ NoticeRoom 2 s.c ∧ recInForce s.c.upd = some r ∧ s.c.upd.rec0 = some r ∧ s.c.upd.rec1 = none ∧ s.c.mb.finalUpd.pending = true) ∧
  (∃ s : State, ∃ a, ∃ r, s.c.upd.act = some a ∧ a.phase = 1 ∧ a.fallback = false ∧ a.goodFrom = none ∧ a.since + s.c.upd.live.healthS * 8000 ≤ s.c.dev.tick ∧ a.comp < 2 ∧ recInForce s.c.upd = some r ∧ s.c.upd.rec0 = some r ∧ s.c.upd.rec1 = none) :=
  ⟨⟨tState tRun, 0x0601, by unfold Taken; decide +kernel, by decide +kernel, by decide +kernel⟩,
   ⟨tState tIdle, by unfold Taken; decide, test_activate⟩,
   ⟨tState ({ tRun with upd.act := some tAct }), tAct, compOf factoryManif 1, rfl, by decide +kernel, by decide +kernel, by decide +kernel, by decide +kernel, by decide +kernel⟩,
   ⟨tState ({ tRun with upd.act := some { tAct with comp := 2, mcNew := [(63, 0x4000)], mcDone := upto 63 }, eng := [(1022, { engDflt with role := 1 }), (1023, { engDflt with role := 0 })], isl := [(63, { islDflt with bind := [(0, 1023)] })], img.place.items := [(1008, [{ nb := 0, allot := 1, owner := 5, func := 0 }])] }), { tAct with comp := 2, mcNew := [(63, 0x4000)], mcDone := upto 63 }, 63, 0, 1023, 1022, rfl, by decide +kernel, by decide +kernel, by decide +kernel, by decide +kernel, by decide +kernel, by decide +kernel, by decide +kernel, by decide +kernel, by decide +kernel, by decide +kernel, by decide +kernel, by decide +kernel, by decide +kernel⟩,
   ⟨tState ({ tRun with upd.act := some { tAct with phase := 1, goodFrom := some 20000 } }), { tAct with phase := 1, goodFrom := some 20000 }, 20000, rfl, by decide +kernel, by decide +kernel, rfl, by decide +kernel, by decide +kernel, by unfold NoticeRoom; decide +kernel⟩,
   ⟨tState ({ tRun with upd.act := some { tAct with comp := 3, phase := 1, goodFrom := some 20000 }, mb.finalUpd.pending := true }), { tAct with comp := 3, phase := 1, goodFrom := some 20000 }, 20000, factoryRec, rfl, by decide +kernel, by decide +kernel, rfl, by decide +kernel, by decide +kernel, by unfold NoticeRoom; decide +kernel, rfl, rfl, by decide +kernel, by decide +kernel⟩,
   ⟨tState ({ tRun with dev.tick := 480000, upd.act := some { tAct with phase := 1 } }), { tAct with phase := 1 }, factoryRec, rfl, by decide +kernel, by decide +kernel, by decide +kernel, by decide +kernel, by decide +kernel, rfl, rfl, by decide +kernel⟩⟩

theorem test_wit_KeysAndSettings :
  (∃ s : State, Taken 0x050 s.c) ∧
  (∃ s : State, ∃ l : List Byte, Taken 0x058 s.c ∧ itemBytes s.c.upd.live s.c.mb.p0.toNat = some l ∧ l.length ≤ bundleStageSize) ∧
  (∃ s : State, Taken 0x058 s.c ∧ itemBytes s.c.upd.live s.c.mb.p0.toNat = none) ∧
  (∃ s : State, Taken 0x057 s.c ∧ s.c.mb.p0.toNat < 4 ∧ tget 0 s.c.upd.live.imgKeys s.c.mb.p0.toNat = 0 ∧ s.c.upd.live.imgSig = false) ∧
  (∃ s : State, ∃ l : List Byte, ∃ k, Taken 0x057 s.c ∧ s.c.mb.p0.toNat < 16 ∧ staged s.mem keyMaterial = l ∧ tget 0 s.c.upd.live.imgKeys (s.c.mb.p0.toNat % 4) = k ∧ k ≠ 0 ∧ k ≠ keyOfBytes (l.take 96)) ∧
  (∃ s : State, Taken 0x05A s.c ∧ NoticeRoom 2 s.c) ∧
  (∃ s : State, Taken 0x05A s.c) ∧
  (∃ s : State, Taken 0x059 s.c ∧ s.c.mb.p0.toNat = 4 ∧ s.c.mb.p1.toNat = 8 ∧ 10 ≤ leAt (staged s.mem 8) 0 2 ∧ leAt (staged s.mem 8) 0 2 ≤ 600) ∧
  (∃ s : State, Taken 0x059 s.c ∧ s.c.mb.p0.toNat ≠ 4) :=
  ⟨⟨tState tRun, by unfold Taken; decide +kernel⟩,
   ⟨tState (tMb 6 0 0 0 tRun), leBytes 4 0, by unfold Taken; decide +kernel, rfl, by decide +kernel⟩,
   ⟨tState (tMb 7 0 0 0 tRun), by unfold Taken; decide +kernel, by decide +kernel⟩,
   ⟨tState (tMb 3 0 0 0 tRun), by unfold Taken; decide +kernel, by decide +kernel, by decide +kernel, by decide +kernel⟩,
   ⟨tState (tMb 3 0 0 0 { tRun with upd.live.imgKeys := [(3, 1)] }), staged [] keyMaterial, 1, by unfold Taken; decide +kernel, by decide +kernel, rfl, by decide +kernel, by decide +kernel, by decide +kernel⟩,
   ⟨tState tRun, by unfold Taken; decide +kernel, by unfold NoticeRoom; decide +kernel⟩,
   ⟨tState tRun, by unfold Taken; decide +kernel⟩,
   ⟨({ c := tMb 4 8 0 0 tRun, mem := writeBytes 0 [] bundleStage (leBytes 2 600), pending := [] }), by unfold Taken; decide +kernel, by decide +kernel, by decide +kernel, by decide +kernel, by decide +kernel⟩,
   ⟨tState (tMb 3 0 0 0 tRun), by unfold Taken; decide +kernel, by decide +kernel⟩⟩

theorem test_wit_ImagesAreAccepted :
  (∃ s : State, Taken 0x010 s.c ∧ s.c.dev.state ≠ .running ∧ s.c.dev.state ≠ .standby ∧ s.c.upd.act = none) ∧
  (∃ s : State, ∃ tag, ∃ p, p ∈ [(0x010, Instr.loadImage tag, 2, decide (s.c.mb.p1.toNat % 2 = 1)), (0x012, .amendImage tag, 3, false)] ∧ Taken p.1 s.c ∧ (s.c.dev.state = .running ∨ s.c.dev.state = .standby) ∧ s.c.upd.act = none ∧ s.c.cm.pending = false ∧ s.c.dev.tick + 10 ≤ param64 s.c.mb.p2 s.c.mb.p3 ∧ param64 s.c.mb.p2 s.c.mb.p3 ≤ s.c.dev.tick + 28800000) ∧
  (∃ s : State, Taken 0x011 s.c ∧ s.c.upd.act = none ∧ s.c.cm.pending = false ∧ s.c.dev.tick + 10 ≤ param64 s.c.mb.p2 s.c.mb.p3 ∧ param64 s.c.mb.p2 s.c.mb.p3 ≤ s.c.dev.tick + 28800000) ∧
  (∃ s : State, ∃ tag, ∃ p, ∃ k, p ∈ [(0x010, Instr.loadImage tag, 1), (0x012, .amendImage tag, 2), (0x011, .commitImage tag, 0)] ∧ Taken p.1 s.c ∧ (p.1 = 0x010 → s.c.dev.state = .running ∨ s.c.dev.state = .standby) ∧ s.c.upd.act = none ∧ (k = 0x0501 ∧ param64 s.c.mb.p2 s.c.mb.p3 < s.c.dev.tick + 10 ∨ k = 0x0502 ∧ s.c.dev.tick + 28800000 < param64 s.c.mb.p2 s.c.mb.p3 ∨ k = 0x0503 ∧ s.c.cm.pending = true ∧ s.c.dev.tick + 10 ≤ param64 s.c.mb.p2 s.c.mb.p3 ∧ param64 s.c.mb.p2 s.c.mb.p3 ≤ s.c.dev.tick + 28800000)) ∧
  (∃ s : State, ∃ tag, ∃ p, p ∈ [(0x010, Instr.loadImage tag), (0x012, .amendImage tag)] ∧ Taken p.1 s.c ∧ s.c.upd.act ≠ none) ∧
  (∃ s : State, ∃ l : List Byte, Taken 0x013 s.c ∧ imageOut (theImage s.c) = l) :=
  ⟨⟨tState ({ chipReset with dev.state := .awaitImage }), by unfold Taken; decide, by decide, by decide, by decide⟩,
   ⟨tState (tMb 0 0 100010 0 tRun), 0, (0x012, .amendImage 0, 3, false), by decide, by unfold Taken; decide, by decide, by decide, by decide, by decide, by decide⟩,
   ⟨tState (tMb 0 0 28900000 0 (tChip .validating false)), by unfold Taken; decide, by decide, by decide, by decide, by decide⟩,
   ⟨tState (tMb 0 0 100009 0 (tChip .validating false)), 0, (0x011, .commitImage 0, 0), 0x0501, by decide, by unfold Taken; decide, by decide, by decide, by decide⟩,
   ⟨tState ({ tRun with upd.act := some tAct }), 0, (0x012, .amendImage 0), by decide, by unfold Taken; decide, by decide⟩,
   ⟨tState tRun, imageOut (tImg false), by unfold Taken; decide, rfl⟩⟩

theorem test_wit_CommitsFollowTheirTicks :
  (∃ s : State, ∃ k, ∃ im, ∃ pl, s.c.cm.change = some k ∧ k.image = none ∧ s.c.dev.sbDown = false ∧ changeIntegrity k s.c = none ∧ k.kind ≠ 1 ∧ changeJudge k (imgFailClear s.c) = (none, im, pl)) ∧
  (∃ s : State, ∃ k, ∃ im, ∃ pl, s.c.cm.change = some k ∧ k.image = none ∧ s.c.dev.sbDown = false ∧ changeIntegrity k s.c = none ∧ k.kind = 1 ∧ s.c.cm.named = none ∧ changeJudge k (imgFailClear s.c) = (none, im, pl)) ∧
  (∃ s : State, ∃ k, ∃ f, s.c.cm.change = some k ∧ k.image = none ∧ s.c.dev.sbDown = false ∧ (changeIntegrity k s.c = some f ∨ (changeIntegrity k s.c = none ∧ (changeJudge k (imgFailClear s.c)).1 = some f))) ∧
  (∃ s : State, ∃ k, ∃ C, s.c.cm.change = some k ∧ s.c.cm.named = some C ∧ k.commitAt = none ∧ C ≤ s.c.dev.tick + 8 ∧ k.kind ≠ 1 ∧ k.place.isSome = true ∧ groupsReady s.c = true ∧ s.c.cm.replaceDue = false) ∧
  (∃ s : State, ∃ k, ∃ C, s.c.cm.change = some k ∧ s.c.cm.named = some C ∧ k.commitAt = none ∧ C ≤ s.c.dev.tick + 8 ∧ k.kind = 1 ∧ s.c.dev.state = .starting ∧ k.place.isSome = true ∧ groupsReady s.c = true ∧ s.c.cm.replaceDue = false) ∧
  (∃ s : State, ∃ k, ∃ C, s.c.cm.change = some k ∧ s.c.cm.named = some C ∧ k.commitAt = none ∧ C ≤ s.c.dev.tick + 8 ∧ k.kind ≠ 1 ∧ (k.place.isSome && groupsReady s.c && !s.c.cm.replaceDue) = false) ∧
  (∃ s : State, ∃ k, ∃ T, s.c.cm.change = some k ∧ k.commitAt = some T ∧ s.c.cm.shadowReady = true ∧ T ≤ s.c.dev.tick + 8 ∧ s.c.dev.tick < T) ∧
  (∃ s : State, ∃ k, ∃ o, ∃ p, ∃ v, s.c.cm.change = some k ∧ k.commitAt = some (s.c.dev.tick + 1) ∧ s.c.cm.copied = false ∧ movedTribs s.c = [(o, p)] ∧ (getDepot s.c o.island).slots.lookup (memKey 1 o.ctx) = some v) ∧
  (∃ s : State, ∃ k, ∃ T, ∃ im, ∃ pl, ∃ p, p ∈ [(Instr.commit, false, 1), (.firstImageDeferredCommit, true, 3)] ∧ s.c.cm.change = some k ∧ k.commitAt = some T ∧ T ≤ s.c.dev.tick ∧ k.deferred = p.2.1 ∧ k.image = some im ∧ k.place = some pl) ∧
  (∃ s : State, ∃ C, s.c.cm.lastC = some C ∧ s.c.cm.releaseDue = true ∧ C + 1 ≤ s.c.dev.tick) ∧
  (∃ s : State, ∃ C, s.c.cm.lastC = some C ∧ s.c.cm.rebuildDue = true ∧ C + 2 ≤ s.c.dev.tick) ∧
  (∃ s : State, ∃ k, ∃ e, s.c.cm.change = some k ∧ k.kind ≠ 1 ∧ e < 1024 ∧ (getGroup s.c (e / 16)).waking ≠ none) ∧
  (∃ s : State, ∃ k, ∃ e, s.c.cm.change = some k ∧ k.kind ≠ 1 ∧ e < 1024 ∧ (getGroup s.c (e / 16)).waking = none) ∧
  (∃ s : State, ∃ k, ∃ im, ∃ f, ∃ q, ∃ e, s.c.cm.change = some k ∧ k.kind = 1 ∧ s.c.dev.state = .starting ∧ s.c.dev.sbDown = false ∧ k.image = some im ∧ feasible (placeIn im k (addFaults [e] [] s.c)) = (some f, q) ∧ e < 1024) :=
  ⟨⟨tState (tWith tChange tRun), tChange, (changeJudge tChange (imgFailClear (tWith tChange tRun))).2.1, (changeJudge tChange (imgFailClear (tWith tChange tRun))).2.2, rfl, by decide +kernel, by decide +kernel, by decide +kernel, by decide +kernel, Prod.ext (by decide +kernel) rfl⟩,
   ⟨tState (tWith { tChange with kind := 1 } (tChip .validating false)), { tChange with kind := 1 }, (changeJudge { tChange with kind := 1 } (imgFailClear (tWith { tChange with kind := 1 } (tChip .validating false)))).2.1, (changeJudge { tChange with kind := 1 } (imgFailClear (tWith { tChange with kind := 1 } (tChip .validating false)))).2.2, rfl, by decide +kernel, by decide +kernel, by decide +kernel, by decide +kernel, by decide +kernel, Prod.ext (by decide +kernel) rfl⟩,
   ⟨tState (tWith { tChange with bytes := [] } tRun), { tChange with bytes := [] }, failInt 0 0x0101, rfl, by decide +kernel, by decide +kernel, .inl (by decide +kernel)⟩,
   ⟨tState ({ tWith { tChange with image := some imageEmpty, place := some placeReset } tRun with cm.named := some 100008 }), { tChange with image := some imageEmpty, place := some placeReset }, 100008, rfl, rfl, by decide +kernel, by decide +kernel, by decide +kernel, by decide +kernel, by decide +kernel, by decide +kernel⟩,
   ⟨tState (tAllAwake { tWith { tChange with kind := 1, image := some imageEmpty, place := some placeReset } (tChip .starting false) with cm.named := some 100007 }), { tChange with kind := 1, image := some imageEmpty, place := some placeReset }, 100007, rfl, rfl, by decide +kernel, by decide +kernel, by decide +kernel, by decide +kernel, by decide +kernel, by decide +kernel, by decide +kernel⟩,
   ⟨tState ({ tWith tChange tRun with cm.named := some 100008 }), tChange, 100008, rfl, rfl, by decide +kernel, by decide +kernel, by decide +kernel, by decide +kernel⟩,
   ⟨tState ({ tWith { tChange with commitAt := some 100008 } tRun with cm.shadowReady := true }), { tChange with commitAt := some 100008 }, 100008, rfl, rfl, by decide +kernel, by decide +kernel, by decide +kernel⟩,
   ⟨tState ({ tWith { tChange with commitAt := some 100001, image := some (tImg false), place := some { placeReset with tribs := [(5, { tPlc with ctx := 2 }), (6, tPlc)] } } tRun with dep.isl := [(63, { depotDflt with slots := [(memKey 1 1, 1)] })] }), { tChange with commitAt := some 100001, image := some (tImg false), place := some { placeReset with tribs := [(5, { tPlc with ctx := 2 }), (6, tPlc)] } }, tPlc, { tPlc with ctx := 2 }, 1, rfl, by decide +kernel, by decide +kernel, by decide +kernel, rfl⟩,
   ⟨tState (tWith { tChange with commitAt := some 100000, image := some imageEmpty, place := some placeReset } tRun), { tChange with commitAt := some 100000, image := some imageEmpty, place := some placeReset }, 100000, imageEmpty, placeReset, (.commit, false, 1), by decide +kernel, rfl, rfl, by decide +kernel, by decide +kernel, rfl, rfl⟩,
   ⟨tState ({ tRun with cm.lastC := some 99999, cm.releaseDue := true }), 99999, rfl, by decide +kernel, by decide +kernel⟩,
   ⟨tState ({ tRun with cm.lastC := some 99998, cm.rebuildDue := true }), 99998, rfl, by decide +kernel, by decide +kernel⟩,
   ⟨tState ({ tWith tChange tRun with power.groups := [(63, { groupDflt 63 with waking := some 99990 })] }), tChange, 1023, rfl, by decide +kernel, by decide +kernel, by decide +kernel⟩,
   ⟨tState ({ tWith tChange tRun with power.groups := [] }), tChange, 1023, rfl, by decide +kernel, by decide +kernel, by decide +kernel⟩,
   ⟨tState (tWith { tChange with kind := 1, image := some (tImg false) } { tChip .starting false with img := imageReset, isl := tDead }), { tChange with kind := 1, image := some (tImg false) }, tImg false, tNoPlace.1.getD (failInt 0 0), tNoPlace.2, 1023, rfl, by decide +kernel, by decide +kernel, by decide +kernel, rfl, Prod.ext (by decide +kernel) rfl, by decide +kernel⟩⟩

theorem test_wit_InjectionsRun :
  (∃ s : State, ∃ v : Word, s.c.dev.state ≠ .cold ∧ bits v 16 15 = 0 ∧ bitAt v 31 = true) ∧
  (∃ s : State, ∃ v : Word, s.c.dev.state ≠ .cold ∧ bits v 16 15 = 0 ∧ bitAt v 31 = false) ∧
  (∃ s : State, ∃ v : Word, s.c.dev.state ≠ .cold ∧ bits v 16 15 ≠ 0) ∧
  (∃ s : State, ∃ k, ∃ x, s.c.dev.state ≠ .cold ∧ k < 16 ∧ getInj s.c k = x ∧ s.c.dep.injEn = true ∧ injKind x ≠ 0 ∧ x.armed = false ∧ x.running = false ∧ injSlotOk x = true ∧ injLaneOk s.c x = true) ∧
  (∃ s : State, ∃ k, ∃ x, s.c.dev.state ≠ .cold ∧ k < 16 ∧ getInj s.c k = x ∧ s.c.dep.injEn = true ∧ injKind x ≠ 0 ∧ x.armed = false ∧ x.running = false ∧ (injSlotOk x && injLaneOk s.c x) = false) ∧
  (∃ s : State, ∃ k, k < 16 ∧ (s.c.dep.injEn = false ∨ injKind (getInj s.c k) = 0)) ∧
  (∃ s : State, ∃ k, s.c.dev.state ≠ .cold ∧ (getInj s.c k).armed = true ∧ injStartTick (getInj s.c k) ≤ s.c.dev.tick) ∧
  (∃ s : State, ∃ k, s.c.dev.state ≠ .cold ∧ (getInj s.c k).running = true ∧ injStartTick (getInj s.c k) + injTicks (getInj s.c k) ≤ s.c.dev.tick) :=
  ⟨⟨tState tRun, 0x80000000, by decide, by decide, by decide⟩,
   ⟨tState tRun, 0, by decide, by decide, by decide⟩,
   ⟨tState tRun, 0x00010000, by decide, by decide⟩,
   ⟨tState ({ tRun with dep.injEn := true, dep.inj := [(15, { injDflt with target := 0x1000013F, duration := 1 })] }), 15, { injDflt with target := 0x1000013F, duration := 1 }, by decide, by decide, by decide, by decide, by decide, by decide, by decide, by decide, by decide⟩,
   ⟨tState ({ tRun with dep.injEn := true, dep.inj := [(15, { injDflt with target := 0x1000013F, duration := 0 })] }), 15, { injDflt with target := 0x1000013F, duration := 0 }, by decide, by decide, by decide, by decide, by decide, by decide, by decide, by decide⟩,
   ⟨tState tRun, 15, by decide, by decide⟩,
   ⟨tState ({ tRun with dep.inj := [(15, { injDflt with armed := true, startLo := 100000 })] }), 15, by decide, by decide, by decide⟩,
   ⟨tState ({ tRun with dep.inj := [(15, { injDflt with running := true, startLo := 99999, duration := 1 })] }), 15, by decide, by decide, by decide⟩⟩

end Sys2Proof.Tests
end

section
/-!
PROOFS. Loss of frame and of multiframe (O29; R148, R156, R224): what setting a defect and deriving a port's section defects show,
and from it what declaring or clearing LOF and LOM of a unit does to the unit and to dLOF and dLOM of its port.
-/
namespace Sys2Proof.Machine
open Sys2Proof

/-! ### A defect that is set -/

/-- A defect reads as it was last set (R230). -/
@[simp] theorem setDefect_present (k : Nat) (b : Bool) (c : Chip) : (dget (setDefect k b c) k).present = b := by
  simp [dget, setDefect, dupd]

theorem setDefect_dget_other {k j : Nat} (b : Bool) (c : Chip) (h : j ≠ k) : dget (setDefect k b c) j = dget c j := by
  simp [dget, setDefect, dupd, tget_tupd_other _ _ _ h]

/-- dLOF and dLOM of a port are different defects of its section. -/
theorem dkey_lof_ne_lom (p : Nat) : dkey 2 p 0 0 ≠ dkey 2 p 0 1 := by
  unfold dkey; omega

/-! ### The section defects of a port -/

@[simp] theorem sectionDefects_getUnit (q p u : Nat) (c : Chip) : getUnit (sectionDefects q c) p u = getUnit c p u := by
  unfold getUnit
  rw [line_of_mask (sectionDefects_mask (l := [.dfx]) (by decide) q c) (by decide)]

/-- A unit of the port with LOF makes dLOF of the port present (R224). -/
theorem sectionDefects_lof_present {p u : Nat} {c : Chip} (hd : detects c = true) (hu : u ∈ portUnits (theImage c) p)
    (hl : (getUnit c p u).lof = true) : (dget (sectionDefects p c) (dkey 2 p 0 0)).present = true := by
  have hany : (portUnits (theImage c) p).any (fun v => (getUnit c p v).lof) = true := List.any_eq_true.2 ⟨u, hu, hl⟩
  simp [sectionDefects, hd, setDefect_dget_other _ _ (dkey_lof_ne_lom p), hany]

/-- A unit of the port with LOM, its own or its slice's, makes dLOM of the port present (R156, R224). -/
theorem sectionDefects_lom_present {p u : Nat} {c : Chip} (hd : detects c = true) (hu : u ∈ portUnits (theImage c) p)
    (hl : unitLom (unitKind (theImage c) p u) (getUnit c p u) = true) :
    (dget (sectionDefects p c) (dkey 2 p 0 1)).present = true := by
  have hany : (portUnits (theImage c) p).any (fun v => unitLom (unitKind (theImage c) p v) (getUnit c p v)) = true :=
    List.any_eq_true.2 ⟨u, hu, hl⟩
  simp [sectionDefects, hd, hany]

/-! ### LOF of a unit -/

@[simp] theorem setLof_getUnit (p u : Nat) (b : Bool) (c : Chip) :
    getUnit (setLof p u b c) p u = { getUnit c p u with lof := b } := by
  simp [setLof]

/-- LOF declared of a unit brings dLOF of its port (R224). -/
theorem setLof_dLof {p u : Nat} {c : Chip} (hd : detects c = true) (hu : u ∈ portUnits (theImage c) p) :
    (dget (setLof p u true c) (dkey 2 p 0 0)).present = true :=
  sectionDefects_lof_present hd hu (by simp)

theorem lofDue_iff (wait t : Nat) (a : AlignSt) :
    lofDue wait t a = true ↔ unitIn a = false ∧ a.lof = false ∧ a.outSince + wait ≤ t := by
  simp [lofDue, and_assoc]

theorem lofClearDue_iff (wait t : Nat) (a : AlignSt) :
    lofClearDue wait t a = true ↔ unitIn a = true ∧ a.lof = true ∧ a.inSince + wait ≤ t := by
  simp [lofClearDue, and_assoc]

/-- LOF_DECLARED where it is due. -/
theorem does_lofDeclared {s : State} {p u : Nat} {P : Chip → Prop} (hd : detects s.c = true)
    (hk : unitKind (theImage s.c) p u ≠ 0) (hdue : lofDue 24 s.c.dev.tick (getUnit s.c p u) = true)
    (hP : P (setLof p u true s.c)) : Does (.lofDeclared p u) s [.line, .dfx] P :=
  does_guard (f := fun _ => setLof p u true) rfl (by simp [hd, hk, now, hdue]) (setLof_mask (by decide) (by decide) p u true s.c) hP

/-- LOF_CLEARED where it is due. -/
theorem does_lofCleared {s : State} {p u : Nat} {P : Chip → Prop} (hd : detects s.c = true)
    (hk : unitKind (theImage s.c) p u ≠ 0) (hdue : lofClearDue 24 s.c.dev.tick (getUnit s.c p u) = true)
    (hP : P (setLof p u false s.c)) : Does (.lofCleared p u) s [.line, .dfx] P :=
  does_guard (f := fun _ => setLof p u false) rfl (by simp [hd, hk, now, hdue]) (setLof_mask (by decide) (by decide) p u false s.c) hP

/-! ### LOM of a unit and of its slice -/

/-- A multiframe after the step that declares its loss where that is due (R156). -/
def mfLomStep (wait t : Nat) (m : MfSt) : MfSt := if lomDue wait t m then { m with lom := true } else m

theorem lomDue_iff (wait t : Nat) (m : MfSt) :
    lomDue wait t m = true ↔ m.isIn = false ∧ m.lom = false ∧ m.out + wait ≤ t := by
  simp [lomDue, and_assoc]

theorem mfLomStep_of_due {wait t : Nat} {m : MfSt} (h : lomDue wait t m = true) : mfLomStep wait t m = { m with lom := true } :=
  if_pos h

theorem setLom_eq (p u wait : Nat) (c : Chip) : setLom p u wait c =
    sectionDefects p (updUnit p u (fun a =>
      { a with mf := mfLomStep wait c.dev.tick a.mf, smf := mfLomStep wait c.dev.tick a.smf }) c) := rfl

@[simp] theorem setLom_getUnit (p u wait : Nat) (c : Chip) :
    getUnit (setLom p u wait c) p u =
      { getUnit c p u with mf := mfLomStep wait c.dev.tick (getUnit c p u).mf, smf := mfLomStep wait c.dev.tick (getUnit c p u).smf } := by
  simp [setLom_eq]

/-- LOM declared of a unit or of its slice brings dLOM of its port (R224). -/
theorem setLom_dLom {p u wait : Nat} {c : Chip} (hd : detects c = true)
    (hl : unitLom (unitKind (theImage c) p u) (getUnit (setLom p u wait c) p u) = true) (hu : u ∈ portUnits (theImage c) p) :
    (dget (setLom p u wait c) (dkey 2 p 0 1)).present = true :=
  sectionDefects_lom_present hd hu (by rwa [setLom, sectionDefects_getUnit] at hl)

/-- LOSS_OF_MULTIFRAME where it is due. -/
theorem does_lossOfMultiframe {s : State} {p u : Nat} {P : Chip → Prop} (hd : detects s.c = true)
    (hdue : unitLomDue 24 s.c.dev.tick (unitKind (theImage s.c) p u) (getUnit s.c p u) = true)
    (hP : P (setLom p u 24 s.c)) : Does (.lossOfMultiframe p u) s [.line, .dfx] P :=
  does_guard (f := fun _ => setLom p u 24) rfl (by simp [hd, now, hdue]) (setLom_mask (by decide) (by decide) p u 24 s.c) hP

/-- Settles O29: each clause meets the condition of its command, and the port's section defects are derived from the changed unit. -/
theorem lossesOfFrame : Obligations.LossesOfFrame := by
  refine ⟨?declared, ?cleared, ?unitLost, ?sliceLost⟩
  case declared =>
    intro s p u hd hk hout hlof ht
    exact does_lofDeclared hd hk ((lofDue_iff _ _ _).2 ⟨hout, hlof, ht⟩) ⟨setLof_getUnit p u true s.c, setLof_dLof hd⟩
  case cleared =>
    intro s p u hd hk hin hlof ht
    exact does_lofCleared hd hk ((lofClearDue_iff _ _ _).2 ⟨hin, hlof, ht⟩) (setLof_getUnit p u false s.c)
  case unitLost =>
    intro s p u hd hk hout hlom ht
    have hdue : lomDue 24 s.c.dev.tick (getUnit s.c p u).mf = true := (lomDue_iff _ _ _).2 ⟨hout, hlom, ht⟩
    refine does_lossOfMultiframe hd (by simp [unitLomDue, hk, hdue]) ⟨?_, setLom_dLom hd ?_⟩
    · simp [mfLomStep_of_due hdue]
    · simp [unitLom, hk, mfLomStep_of_due hdue]
  case sliceLost =>
    intro s p u hd hk hout hlom ht
    have hdue : lomDue 24 s.c.dev.tick (getUnit s.c p u).smf = true := (lomDue_iff _ _ _).2 ⟨hout, hlom, ht⟩
    refine does_lossOfMultiframe hd (by simp [unitLomDue, hk, hdue]) ⟨?_, setLom_dLom hd ?_⟩
    · simp [mfLomStep_of_due hdue]
    · simp [unitLom, hk, mfLomStep_of_due hdue]

end Sys2Proof.Machine
end

section
/-!
PROOFS. Resets of the PCIe link (O44; R417): what one leaves of the interrupt registers, the MSI-X table and the PBA, and its frame.
-/
namespace Sys2Proof.Machine
open Sys2Proof

/-- R417's list: of the interrupts' part, `INT_STATUS` and the pace keep their values. -/
@[simp] theorem pcieResetStep_int (c : Chip) :
    (pcieResetStep c).int = { c.int with enable := 0, vec0 := 0, vec1 := 0, msix := [], pba := [] } := rfl

/-- A reset of the PCIe link while the part is awake changes the chip by `pcieResetStep`, within the interrupts' part. -/
theorem does_pcieReset {s : State} {P : Chip → Prop} (hs : s.c.dev.state ≠ .cold) (hP : P (pcieResetStep s.c)) :
    Does .pcieReset s [.int] P :=
  does_guard (f := fun _ => pcieResetStep) rfl (awake_of hs) (pcieResetStep_mask (by decide) s.c) hP

/-- Settles O44: outside COLD the command is `pcieResetStep`, whose frame is the interrupts' part. -/
theorem pcieResetResetsOnly : Obligations.PcieResetResetsOnly :=
  fun s hs => does_pcieReset hs (pcieResetStep_int s.c)

end Sys2Proof.Machine
end

section
/-!
PROOFS. What keeps the core of the chip (O3, O4, O5): the device state, the lighting, the tick count, the tablet, whether an image is
committed and the change under way. The core is read after the quiet parts are blanked, so that the frame lemmas of Laws apply to an
operation within those parts; here stands one lemma an operation for those that write beside the core, callees first.
-/
namespace Sys2Proof.Machine
open Sys2Proof

/-! ### The core -/

/-- The parts that hold nothing of the core. -/
def quiet : List Part := [.mb, .int, .nq, .oq, .notice, .taps, .host, .jct, .eng, .isl, .cwy, .ctx, .line, .power, .dfx, .pm, .prot, .tim, .upd, .dep, .free]

@[simp] theorem mem_quiet (p : Part) : p ∈ quiet ↔ p ≠ .dev ∧ p ≠ .img ∧ p ≠ .cm ∧ p ≠ .pair := by cases p <;> simp [quiet]

/-- The core of the chip: what the invariant, the table of R33 and the tick speak of. A change under way counts by its kind and by
whether it has been placed. -/
structure Core where
  state : DevState
  lit : Bool
  tick : Nat
  holder : Bool
  image : Bool
  change : Option (Nat × Bool)

/-- The core of a chip. -/
def core (c : Chip) : Core :=
  { state := c.dev.state, lit := c.dev.lit, tick := c.dev.tick, holder := c.pair.holder, image := c.img.image.isSome, change := c.cm.change.map (fun k => (k.kind, k.place.isSome)) }

@[simp] theorem core_ite (p : Prop) [Decidable p] (a b : Chip) : core (if p then a else b) = if p then core a else core b := apply_ite core p a b

@[simp] theorem core_when {f : Chip → Chip} (h : ∀ c, core (mask quiet (f c)) = core (mask quiet c)) (b : Bool) (c : Chip) : core (mask quiet (when b f c)) = core (mask quiet c) := by
  cases b
  · rfl
  · exact h c

@[simp] theorem core_forEach {α : Type} {f : α → Chip → Chip} (h : ∀ a c, core (mask quiet (f a c)) = core (mask quiet c)) (xs : List α) (c : Chip) : core (mask quiet (forEach xs f c)) = core (mask quiet c) := by
  induction xs generalizing c with
  | nil => rfl
  | cons x t ih => exact (ih (f x c)).trans (h x c)

@[simp] theorem core_set_dev {d : DevSt} {c : Chip} (h1 : d.state = c.dev.state) (h2 : d.lit = c.dev.lit) (h3 : d.tick = c.dev.tick) : core (mask quiet { c with dev := d }) = core (mask quiet c) := by
  simp [core, mask, h1, h2, h3]

@[simp] theorem core_set_pair {p : PairSt} {c : Chip} (h : p.holder = c.pair.holder) : core (mask quiet { c with pair := p }) = core (mask quiet c) := by
  simp [core, mask, h]

@[simp] theorem core_setPair {p : PairSt} {c : Chip} (h : p.holder = c.pair.holder) : core (mask quiet (setPair p c)) = core (mask quiet c) := core_set_pair h

@[simp] theorem core_set_cm {m : CommitSt} {c : Chip} (h : m.change.map (fun k => (k.kind, k.place.isSome)) = c.cm.change.map (fun k => (k.kind, k.place.isSome))) : core (mask quiet { c with cm := m }) = core (mask quiet c) := by
  simp [core, mask, h]

@[simp] theorem core_setCm {m : CommitSt} {c : Chip} (h : m.change.map (fun k => (k.kind, k.place.isSome)) = c.cm.change.map (fun k => (k.kind, k.place.isSome))) : core (mask quiet (setCm m c)) = core (mask quiet c) := core_set_cm h

@[simp] theorem core_set_img {m : ImageSt} {c : Chip} (h : m.image = c.img.image) : core (mask quiet { c with img := m }) = core (mask quiet c) := by
  simp [core, mask, h]

@[simp] theorem rewriting_core {f : Chip → Chip} {c : Chip} (h : core (mask quiet (f c)) = core (mask quiet c)) : core (mask quiet (rewriting f c)) = core (mask quiet c) := by
  unfold rewriting
  dsimp only
  split
  · exact h
  · unfold markDone
    rw [core_set_dev rfl rfl rfl, mask_set_dfx (by simp)]
    exact h

/-- Blanking the quiet parts leaves the core. -/
theorem core_mask (c : Chip) : core (mask quiet c) = core c := by simp [core, mask]

/-- Two chips that agree outside the quiet parts have the same core. -/
theorem core_of_mask {a b : Chip} (h : mask quiet a = mask quiet b) : core a = core b := by rw [← core_mask a, ← core_mask b, h]

/-! ### The operations that write beside it -/

@[simp] theorem imgFailSet_core (a0 : Nat) (a1 : ImgFail) (c : Chip) : core (mask quiet (imgFailSet a0 a1 c)) = core (mask quiet c) := by simp [imgFailSet]

@[simp] theorem acceptRefused_core (a0 : Nat) (a1 : Nat) (c : Chip) : core (mask quiet (acceptRefused a0 a1 c)) = core (mask quiet c) := by simp [acceptRefused]

@[simp] theorem setMirror_core (a0 : MirrorSt) (c : Chip) : core (mask quiet (setMirror a0 c)) = core (mask quiet c) := by simp [setMirror]

@[simp] theorem mirrorReset_core  (c : Chip) : core (mask quiet (mirrorReset  c)) = core (mask quiet c) := by simp [mirrorReset]

@[simp] theorem hokuaSeen_core (a0 : HokuaHdr) (c : Chip) : core (mask quiet (hokuaSeen a0 c)) = core (mask quiet c) := by
  unfold hokuaSeen
  split <;> simp

@[simp] theorem ackReceived_core (a0 : HokuaHdr) (a1 : Nat) (c : Chip) : core (mask quiet (ackReceived a0 a1 c)) = core (mask quiet c) := by
  unfold ackReceived
  dsimp only
  split <;> simp

@[simp] theorem hokua_core (a0 : Nat) (a1 : List Nat) (a2 : Nat) (c : Chip) : core (mask quiet (hokua a0 a1 a2 c)) = core (mask quiet c) := by simp [hokua]

@[simp] theorem beginHand_core (a0 : Nat) (a1 : Nat) (c : Chip) : core (mask quiet (beginHand a0 a1 c)) = core (mask quiet c) := by
  unfold beginHand
  dsimp only
  split
  · simp
  · split
    · rw [show ∀ (x : Chip) d u, ({ x with dev := d, upd := u } : Chip) = { ({ x with dev := d } : Chip) with upd := u } from fun _ _ _ => rfl, mask_set_upd (by simp), core_set_dev rfl rfl rfl]
      simp
    · simp

@[simp] theorem confirm_core (a0 : Nat) (c : Chip) : core (mask quiet (confirm a0 c)) = core (mask quiet c) := by
  unfold confirm
  repeat' split
  all_goals simp

@[simp] theorem fallBack_core (a0 : Nat) (c : Chip) : core (mask quiet (fallBack a0 c)) = core (mask quiet c) := by
  unfold fallBack
  split <;> simp

@[simp] theorem actBoundary_core (a0 : Nat) (c : Chip) : core (mask quiet (actBoundary a0 c)) = core (mask quiet c) := by
  unfold actBoundary
  dsimp only
  repeat' split
  all_goals simp

@[simp] theorem activate_core (a0 : Byte) (c : Chip) : core (mask quiet (activate a0 c)) = core (mask quiet c) := by simp [activate]

@[simp] theorem markDone_core (a0 : Nat) (c : Chip) : core (mask quiet (markDone a0 c)) = core (mask quiet c) := by simp [markDone]

@[simp] theorem causewayRoot_core (a0 : Nat) (a1 : Nat) (a2 : Bool) (c : Chip) : core (mask quiet (causewayRoot a0 a1 a2 c)) = core (mask quiet c) := by
  unfold causewayRoot
  repeat' split
  all_goals simp

@[simp] theorem cwyRestore_core (a0 : Nat) (a1 : Nat) (c : Chip) : core (mask quiet (cwyRestore a0 a1 c)) = core (mask quiet c) := by simp [cwyRestore]

@[simp] theorem injFinish_core (a0 : Nat) (a1 : Nat) (c : Chip) : core (mask quiet (injFinish a0 a1 c)) = core (mask quiet c) := by
  unfold injFinish
  dsimp only
  repeat' split
  all_goals simp

@[simp] theorem injEnd_core (a0 : Nat) (a1 : Nat) (c : Chip) : core (mask quiet (injEnd a0 a1 c)) = core (mask quiet c) := by
  unfold injEnd
  dsimp only
  split <;> simp

@[simp] theorem cwyFail_core (a0 : Nat) (a1 : Nat) (c : Chip) : core (mask quiet (cwyFail a0 a1 c)) = core (mask quiet c) := by simp [cwyFail]

@[simp] theorem injBegin_core (a0 : InjSlot) (a1 : Nat) (c : Chip) : core (mask quiet (injBegin a0 a1 c)) = core (mask quiet c) := by
  unfold injBegin
  dsimp only
  repeat' split
  all_goals simp

@[simp] theorem injStart_core (a0 : Nat) (a1 : Nat) (c : Chip) : core (mask quiet (injStart a0 a1 c)) = core (mask quiet c) := by
  unfold injStart
  dsimp only
  split <;> simp

@[simp] theorem injBoundary_core (a0 : Nat) (c : Chip) : core (mask quiet (injBoundary a0 c)) = core (mask quiet c) := by simp [injBoundary]

@[simp] theorem degradeStep_core (a0 : Nat) (c : Chip) : core (mask quiet (degradeStep a0 c)) = core (mask quiet c) := by simp [degradeStep]

@[simp] theorem drillStart_core (a0 : Bool) (a1 : Nat) (c : Chip) : core (mask quiet (drillStart a0 a1 c)) = core (mask quiet c) := by simp [drillStart]

@[simp] theorem drillReturn_core (a0 : Nat) (c : Chip) : core (mask quiet (drillReturn a0 c)) = core (mask quiet c) := by
  unfold drillReturn
  dsimp only
  split <;> simp

@[simp] theorem faultMapSend_core (a0 : Nat) (c : Chip) : core (mask quiet (faultMapSend a0 c)) = core (mask quiet c) := by simp [faultMapSend]

@[simp] theorem genStart_core (a0 : Nat) (c : Chip) : core (mask quiet (genStart a0 c)) = core (mask quiet c) := by
  unfold genStart
  dsimp only
  split <;> simp

@[simp] theorem helloSend_core (a0 : Nat) (c : Chip) : core (mask quiet (helloSend a0 c)) = core (mask quiet c) := by simp [helloSend]

@[simp] theorem mirrorCheck_core  (c : Chip) : core (mask quiet (mirrorCheck  c)) = core (mask quiet c) := by
  unfold mirrorCheck
  split <;> simp

@[simp] theorem renewSend_core (a0 : Nat) (c : Chip) : core (mask quiet (renewSend a0 c)) = core (mask quiet c) := by simp [renewSend]

@[simp] theorem setStale_core  (c : Chip) : core (mask quiet (setStale  c)) = core (mask quiet c) := by simp [setStale]

@[simp] theorem pairAfter_core (a0 : Nat) (c : Chip) : core (mask quiet (pairAfter a0 c)) = core (mask quiet c) := by
  unfold pairAfter
  dsimp only
  repeat' split
  all_goals simp

@[simp] theorem boundaryAfter_core (a0 : TickRep) (a1 : Nat) (c : Chip) : core (mask quiet (boundaryAfter a0 a1 c)) = core (mask quiet c) := by simp [boundaryAfter]

@[simp] theorem defectsAtCommit_core (a0 : Image) (a1 : Nat) (c : Chip) : core (mask quiet (defectsAtCommit a0 a1 c)) = core (mask quiet c) := by simp [defectsAtCommit]

@[simp] theorem injCut_core (a0 : Nat) (a1 : Nat) (c : Chip) : core (mask quiet (injCut a0 a1 c)) = core (mask quiet c) := by
  unfold injCut
  dsimp only
  split <;> simp

@[simp] theorem injAtCommit_core (a0 : Image) (a1 : Nat) (c : Chip) : core (mask quiet (injAtCommit a0 a1 c)) = core (mask quiet c) :=
  core_forEach (fun k c => by dsimp only; split <;> simp) _ c

@[simp] theorem pmApply_core (a0 : Nat) (c : Chip) : core (mask quiet (pmApply a0 c)) = core (mask quiet c) := by
  unfold pmApply
  split <;> simp

@[simp] theorem pmSecond_core (a0 : Nat) (c : Chip) : core (mask quiet (pmSecond a0 c)) = core (mask quiet c) := by simp [pmSecond]

@[simp] theorem pmBefore_core (a0 : Nat) (c : Chip) : core (mask quiet (pmBefore a0 c)) = core (mask quiet c) := by
  unfold pmBefore
  dsimp only
  split <;> simp

@[simp] theorem oldRelease_core (a0 : Nat) (c : Chip) : core (mask quiet (oldRelease a0 c)) = core (mask quiet c) := by
  unfold oldRelease
  repeat' split
  all_goals simp

@[simp] theorem rebuildDone_core (a0 : Nat) (c : Chip) : core (mask quiet (rebuildDone a0 c)) = core (mask quiet c) := by
  unfold rebuildDone
  split
  · split
    · refine (core_setCm rfl).trans ?_
      rw [show ∀ (x : Chip) i j, ({ x with img := i, jct := j } : Chip) = { ({ x with img := i } : Chip) with jct := j } from fun _ _ _ => rfl, mask_set_jct (by simp)]
      exact core_set_img rfl
    · rfl
  · rfl

@[simp] theorem defectBoundary_core (a0 : Nat) (c : Chip) : core (mask quiet (defectBoundary a0 c)) = core (mask quiet c) := by simp [defectBoundary]

@[simp] theorem linkDown_core (a0 : Bool) (c : Chip) : core (mask quiet (linkDown a0 c)) = core (mask quiet c) := by simp [linkDown]

@[simp] theorem dualSeen_core (a0 : Nat) (a1 : Nat) (c : Chip) : core (mask quiet (dualSeen a0 a1 c)) = core (mask quiet c) := by
  unfold dualSeen
  split <;> simp

@[simp] theorem proven_core (a0 : Nat) (c : Chip) : core (mask quiet (proven a0 c)) = core (mask quiet c) := by simp [proven]

@[simp] theorem pairMarks_core (a0 : Nat) (c : Chip) : core (mask quiet (pairMarks a0 c)) = core (mask quiet c) := by
  unfold pairMarks
  dsimp only
  repeat' split
  all_goals simp

@[simp] theorem drillAbandon_core  (c : Chip) : core (mask quiet (drillAbandon  c)) = core (mask quiet c) := by
  unfold drillAbandon
  split <;> simp

@[simp] theorem drillDeadline_core (a0 : Nat) (c : Chip) : core (mask quiet (drillDeadline a0 c)) = core (mask quiet c) := by
  unfold drillDeadline
  repeat' split
  all_goals simp

@[simp] theorem withhold_core (a0 : List Nat) (a1 : Nat) (c : Chip) : core (mask quiet (withhold a0 a1 c)) = core (mask quiet c) := by simp [withhold]

@[simp] theorem boxUp_core  (c : Chip) : core (mask quiet (boxUp  c)) = core (mask quiet c) := by
  unfold boxUp
  dsimp only
  split <;> simp

@[simp] theorem handEnd_core (a0 : Nat) (c : Chip) : core (mask quiet (handEnd a0 c)) = core (mask quiet c) := by
  unfold handEnd
  split
  · rfl
  · next a _ =>
    have h0 : core (mask quiet (if a.comp = 3 then boxUp c else c)) = core (mask quiet c) := by simp
    dsimp only
    generalize (if a.comp = 3 then boxUp c else c) = c0 at h0 ⊢
    have h1 (u : UpdSt) : core (mask quiet (setUpd u c0)) = core (mask quiet c) := by simpa using h0
    generalize hx : setUpd _ c0 = x
    have h2 (v : BitVec 16) : core (mask quiet (if a.comp = 3 then boxReads a0 { x with cm := { x.cm with placeRev := v } } else x)) = core (mask quiet x) := by
      split <;> simp
    generalize hy : (if a.comp = 3 then boxReads a0 { x with cm := _ } else x) = y
    have hxc : core (mask quiet x) = core (mask quiet c) := hx ▸ h1 _
    rw [← hxc, ← h2, hy]
    split
    · split <;> simp
    · simp

@[simp] theorem mcStep_core (a0 : List Nat) (a1 : Nat) (c : Chip) : core (mask quiet (mcStep a0 a1 c)) = core (mask quiet c) := by
  unfold mcStep
  dsimp only
  repeat' split
  all_goals simp

@[simp] theorem sidingStep_core (a0 : List (EngVerdict × List Nat)) (a1 : Nat) (c : Chip) : core (mask quiet (sidingStep a0 a1 c)) = core (mask quiet c) := by simp [sidingStep]

@[simp] theorem snapshotStep_core (a0 : Chip) (a1 : Nat) (c : Chip) : core (mask quiet (snapshotStep a0 a1 c)) = core (mask quiet c) := by
  unfold snapshotStep
  dsimp only
  split <;> simp

@[simp] theorem captureA_core (a0 : Nat) (a1 : Nat) (c : Chip) : core (mask quiet (captureA a0 a1 c)) = core (mask quiet c) := by
  unfold captureA
  split <;> simp

@[simp] theorem changeWakes_core (a0 : List Nat) (a1 : Nat) (c : Chip) : core (mask quiet (changeWakes a0 a1 c)) = core (mask quiet c) := by
  unfold changeWakes
  split
  · next k hk =>
    split
    · rfl
    · have hm : mask quiet (forEach a0 (fun g => startWake g a1) c) = mask quiet c := by simp
      rw [core_set_cm (by simp [hk, cm_of_mask hm]), hm]
  · rfl

@[simp] theorem contextCopy_core (c : Chip) : core (mask quiet (contextCopy c)) = core (mask quiet c) := by
  unfold contextCopy
  split
  · split
    · split
      · next k _ _ _ _ =>
        have hm : mask quiet (forEach (movedTribs c) (fun e => copySlot e.1 e.2) c) = mask quiet c := by simp
        rw [core_setCm (by simp [cm_of_mask hm]), hm]
      · rfl
    · rfl
  · rfl

@[simp] theorem drillAnswer_core (a0 : Option Bool) (c : Chip) : core (mask quiet (drillAnswer a0 c)) = core (mask quiet c) := by
  unfold drillAnswer
  split <;> simp

@[simp] theorem drillReq_core (a0 : HokuaHdr) (a1 : Nat) (a2 : Nat) (c : Chip) : core (mask quiet (drillReq a0 a1 a2 c)) = core (mask quiet c) := by
  unfold drillReq
  dsimp only
  split <;> simp

@[simp] theorem faultMapReceived_core (a0 : HokuaHdr) (a1 : List (Nat × BitVec 16)) (a2 : List (Nat × Nat)) (c : Chip) : core (mask quiet (faultMapReceived a0 a1 a2 c)) = core (mask quiet c) := by simp [faultMapReceived]

@[simp] theorem genEnd_core  (c : Chip) : core (mask quiet (genEnd  c)) = core (mask quiet c) := by
  unfold genEnd
  dsimp only
  split <;> simp

@[simp] theorem genSend_core (a0 : Nat) (c : Chip) : core (mask quiet (genSend a0 c)) = core (mask quiet c) := by
  unfold genSend
  dsimp only
  split <;> simp

@[simp] theorem jnlSend_core  (c : Chip) : core (mask quiet (jnlSend  c)) = core (mask quiet c) := by
  unfold jnlSend
  split <;> simp

@[simp] theorem jnlCmd_core (a0 : Word) (c : Chip) : core (mask quiet (jnlCmd a0 c)) = core (mask quiet c) := by
  unfold jnlCmd
  split <;> simp

@[simp] theorem protEval1_core (a0 : Nat) (c : Chip) : core (mask quiet (protEval1 a0 c)) = core (mask quiet c) := by
  unfold protEval1
  repeat' split
  all_goals simp

@[simp] theorem protEvaluate_core  (c : Chip) : core (mask quiet (protEvaluate  c)) = core (mask quiet c) := by simp [protEvaluate]

@[simp] theorem statusSend_core (a0 : Nat) (c : Chip) : core (mask quiet (statusSend a0 c)) = core (mask quiet c) := by simp [statusSend]

@[simp] theorem finishTick_core  (c : Chip) : core (mask quiet (finishTick  c)) = core (mask quiet c) := by
  unfold finishTick
  dsimp only
  repeat' split
  all_goals simp

@[simp] theorem genDone_core (a0 : HokuaHdr) (a1 : Nat) (a2 : Nat) (c : Chip) : core (mask quiet (genDone a0 a1 a2 c)) = core (mask quiet c) := by
  unfold genDone
  dsimp only
  repeat' split
  all_goals simp

@[simp] theorem genReceived_core (a0 : HokuaHdr) (a1 : Nat) (a2 : Nat) (a3 : Nat) (a4 : Nat) (a5 : List MirrorItem) (c : Chip) : core (mask quiet (genReceived a0 a1 a2 a3 a4 a5 c)) = core (mask quiet c) := by
  unfold genReceived
  dsimp only
  split <;> simp

@[simp] theorem helloReceived_core (a0 : HokuaHdr) (a1 : HelloBody) (c : Chip) : core (mask quiet (helloReceived a0 a1 c)) = core (mask quiet c) := by simp [helloReceived]

@[simp] theorem imgFailClear_core  (c : Chip) : core (mask quiet (imgFailClear  c)) = core (mask quiet c) := by simp [imgFailClear]

@[simp] theorem injCtrl_core (a0 : Word) (c : Chip) : core (mask quiet (injCtrl a0 c)) = core (mask quiet c) := by
  unfold injCtrl
  split <;> simp

@[simp] theorem w1cApply_core (a0 : Nat) (a1 : Word) (a2 : Word) (c : Chip) : core (mask quiet (w1cApply a0 a1 a2 c)) = core (mask quiet c) := by
  unfold w1cApply
  dsimp only
  simp only [core_ite, mask_ite]
  simp

@[simp] theorem intStatusWrite_core (a0 : Word) (c : Chip) : core (mask quiet (intStatusWrite a0 c)) = core (mask quiet c) := by simp [intStatusWrite]

@[simp] theorem jnlReceived_core (a0 : HokuaHdr) (a1 : JnlRec) (a2 : Bool) (c : Chip) : core (mask quiet (jnlReceived a0 a1 a2 c)) = core (mask quiet c) := by
  unfold jnlReceived
  dsimp only
  repeat' split
  all_goals simp

@[simp] theorem jnlWrite_core (a0 : Nat) (a1 : Word) (c : Chip) : core (mask quiet (jnlWrite a0 a1 c)) = core (mask quiet c) := by
  unfold jnlWrite
  split <;> simp

@[simp] theorem journalled_core (a0 : Nat) (a1 : Word) (c : Chip) : core (mask quiet (journalled a0 a1 c)) = core (mask quiet c) := by
  unfold journalled
  split <;> simp

@[simp] theorem laneBad_core (a0 : Nat) (c : Chip) : core (mask quiet (laneBad a0 c)) = core (mask quiet c) := by
  unfold laneBad
  dsimp only
  split <;> simp

@[simp] theorem powerBoundary_core (a0 : Nat) (c : Chip) : core (mask quiet (powerBoundary a0 c)) = core (mask quiet c) := by
  unfold powerBoundary
  split <;> simp

@[simp] theorem releaseReceived_core (a0 : HokuaHdr) (a1 : Nat) (c : Chip) : core (mask quiet (releaseReceived a0 a1 c)) = core (mask quiet c) := by
  unfold releaseReceived
  dsimp only
  split <;> simp

@[simp] theorem renewReceived_core (a0 : HokuaHdr) (c : Chip) : core (mask quiet (renewReceived a0 c)) = core (mask quiet c) := by
  unfold renewReceived
  dsimp only
  split <;> simp

@[simp] theorem statusReceived_core (a0 : HokuaHdr) (a1 : StatusBody) (c : Chip) : core (mask quiet (statusReceived a0 a1 c)) = core (mask quiet c) := by simp [statusReceived]

end Sys2Proof.Machine
end

section
/-!
PROOFS. What one operation can do to the core (O3, O4, O5; R30, R31, R33, R34): the moves, the invariant they keep, and which of
them each operation makes that commits, refuses, boots, or passes the tablet.
-/
namespace Sys2Proof.Machine
open Sys2Proof

/-! ### The moves -/

/-- What one operation can do to the core of a part that is awake; a rule that guards a move stands as a hypothesis of it. -/
inductive CoreMove (a : Core) : Core → Prop
  | same : CoreMove a a
  | booted (h : a.state = .boot) : CoreMove a { a with state := .awaitImage }
  | loaded (h : a.state = .awaitImage ∨ a.state = .held) : CoreMove a { a with state := .validating, change := some (1, false) }
  | taken {k : Nat} (hk : k ≠ 1) (h : a.state = .running ∨ a.state = .standby) : CoreMove a { a with change := some (k, false) }
  | placed {k : Nat} {p : Bool} (h : a.change = some (k, p)) :
      CoreMove a { a with state := if k = 1 then .starting else a.state, change := some (k, true) }
  | replaced {k : Nat} {p : Bool} (h : a.change = some (k, p)) (hk : k = 1) (hs : a.state = .starting) : CoreMove a { a with change := some (k, true) }
  | refused {k : Nat} {p : Bool} (h : a.change = some (k, p)) :
      CoreMove a { a with state := if k = 1 then .held else a.state, change := none }
  | started (b : Bool) {k : Nat} (h : a.change = some (k, true)) (hi : a.image = false) :
      CoreMove a { a with state := .running, lit := b, holder := true, image := true, change := none }
  | stood {k : Nat} (h : a.change = some (k, true)) (hi : a.image = false) :
      CoreMove a { a with state := .standby, holder := false, image := true, change := none }
  | committed (b : Bool) {k : Nat} (h : a.change = some (k, true)) (hi : a.image = true) :
      CoreMove a { a with holder := a.holder || b, change := none }
  | gaveUp : CoreMove a { a with state := if a.state = .running then .standby else a.state, lit := false, holder := false }
  | dark : CoreMove a { a with lit := false }
  | relit (h : a.state = .running) : CoreMove a { a with lit := true }
  | tookOver (h : a.state = .standby) : CoreMove a { a with state := .handover, holder := true }
  | handed (b : Bool) (h : a.state = .handover) (hh : a.holder = true) : CoreMove a { a with state := .running, lit := b }

/-- A move one operation can make, or what the end of a hand-over makes of a part that gave the tablet up meanwhile (log 15). -/
inductive TickMove (a : Core) : Core → Prop
  | move {b : Core} (h : CoreMove a b) : TickMove a b
  | stoodBy (h : a.state = .handover) : TickMove a { a with state := .standby }

/-- The invariant, said of the core. -/
structure CoreInv (a : Core) : Prop where
  lit : a.lit = true → a.state = .running
  held : a.state = .running → a.holder = true
  image : a.state = .running ∨ a.state = .standby ∨ a.state = .handover → a.image = true
  first : ∀ p, a.change = some (1, p) → a.state = if p then .starting else .validating
  later : ∀ k p, a.change = some (k, p) → k ≠ 1 → a.state = .running ∨ a.state = .standby ∨ a.state = .handover

theorem core_change_iff (c : Chip) (k : Nat) (p : Bool) :
    (core c).change = some (k, p) ↔ ∃ x, c.cm.change = some x ∧ x.kind = k ∧ x.place.isSome = p := by
  simp [core]

theorem core_change_of {c : Chip} {k : Change} (h : c.cm.change = some k) : (core c).change = some (k.kind, k.place.isSome) := by
  simp [core, h]

/-- The invariant is canonical memory and the invariant of the core. -/
theorem stateInv_iff (s : State) : StateInv s ↔ MemOk s ∧ CoreInv (core s.c) := by
  constructor
  · rintro ⟨hm, hl, hh, hi, hf, hr⟩
    refine ⟨hm, hl, hh, hi, fun p hp => ?_, fun k p hp hk => ?_⟩
    · obtain ⟨x, hx, h1, rfl⟩ := (core_change_iff _ _ _).1 hp
      exact hf x hx h1
    · obtain ⟨x, hx, h1, -⟩ := (core_change_iff _ _ _).1 hp
      exact hr x hx (h1 ▸ hk)
  · rintro ⟨hm, hl, hh, hi, hf, hr⟩
    exact ⟨hm, hl, hh, hi, fun k hk h1 => hf _ (h1 ▸ core_change_of hk), fun k hk h1 => hr _ _ (core_change_of hk) h1⟩

/-- A change under way places the device state; a move that leaves the change and the state leaves what the invariant says of both. -/
theorem CoreMove.inv {a b : Core} (h : CoreMove a b) (i : CoreInv a) : CoreInv b := by
  obtain ⟨hl, hh, hi, hf, hr⟩ := i
  cases h
  case placed k p hc =>
    by_cases hk : k = 1
    · subst hk
      have := hf p hc
      cases p <;> constructor <;> simp_all
    · have := hr k p hc hk
      constructor <;> simp_all
  case refused k p hc =>
    by_cases hk : k = 1
    · subst hk
      have := hf p hc
      cases p <;> constructor <;> simp_all
    · constructor <;> simp_all
  case loaded h => rcases h with h | h <;> constructor <;> simp_all
  case taken k hk h => rcases h with h | h <;> constructor <;> simp_all
  case gaveUp => by_cases h : a.state = .running <;> constructor <;> simp_all
  all_goals constructor <;> simp_all

/-- No move of a part that is awake moves the tick. -/
theorem CoreMove.tick {a b : Core} (h : CoreMove a b) : b.tick = a.tick := by cases h <;> rfl

theorem TickMove.inv {a b : Core} (h : TickMove a b) (i : CoreInv a) : CoreInv b := by
  cases h with
  | move h => exact h.inv i
  | stoodBy h =>
    obtain ⟨hl, hh, hi, hf, hr⟩ := i
    constructor <;> simp_all

theorem TickMove.tick {a b : Core} (h : TickMove a b) : b.tick = a.tick := by
  cases h with
  | move h => exact h.tick
  | stoodBy h => rfl

/-- Moves one after another, or none. -/
inductive TickMoves (a : Core) : Core → Prop where
  | refl : TickMoves a a
  | tail {b c : Core} (h : TickMoves a b) (m : TickMove b c) : TickMoves a c

theorem TickMoves.single {a b : Core} (m : TickMove a b) : TickMoves a b := .tail .refl m

theorem TickMoves.trans {a b c : Core} (h : TickMoves a b) (k : TickMoves b c) : TickMoves a c := by
  induction k with
  | refl => exact h
  | tail _ m ih => exact .tail ih m

/-- A chain of moves keeps the invariant. -/
theorem CoreInv.moves {a b : Core} (i : CoreInv a) (h : TickMoves a b) : CoreInv b := by
  induction h with
  | refl => exact i
  | tail _ m ih => exact m.inv ih

/-- A chain of moves keeps the tick. -/
theorem TickMove.chain_tick {a b : Core} (h : TickMoves a b) : b.tick = a.tick := by
  induction h with
  | refl => rfl
  | tail _ m ih => exact m.tick.trans ih

/-! ### Commits -/

/-- Two chips whose cores agree once blanked agree in their cores. -/
theorem core_of_blank {a b : Chip} (h : core (mask quiet a) = core (mask quiet b)) : core a = core b := by
  rw [← core_mask a, h, core_mask]

theorem core_setDev (st : DevState) (c : Chip) : core (setDev st c) = { core c with state := st } := by
  simp [core]

/-- A refusal ends the change under way; a first image leaves the part in HELD (R89). -/
theorem refuse_core {k : Change} (f : ImgFail) {c : Chip} (h : c.cm.change = some k) :
    core (refuse f c) = { core c with state := if k.kind = 1 then .held else c.dev.state, change := none } := by
  unfold refuse
  simp only [h]
  by_cases hk : k.kind = 1
  · simp [hk, core, imgFailSet]
  · simp [hk, core, imgFailSet]

theorem refuse_move (f : ImgFail) (c : Chip) : CoreMove (core c) (core (refuse f c)) := by
  cases h : c.cm.change with
  | none => simp only [refuse, h]; exact .same
  | some k => rw [refuse_core f h]; exact .refused (core_change_of h)

/-- Freezing the shadow leaves the change it freezes (R56). -/
theorem freeze_core {k : Change} {c : Chip} (h : c.cm.change = some k) (T : Nat) (late : Bool) : core (freeze k T late c) = core c := by
  simp [core, freeze, h]

/-- The deadline freezes the shadow or refuses the change (R56). -/
theorem deadlineAt_cases (b : Bool) (n : Nat) (c : Chip) :
    core (deadlineAt b n c) = core c ∨ ∃ k f, c.cm.change = some k ∧ k.kind ≠ 1 ∧ deadlineAt b n c = refuse f c := by
  unfold deadlineAt
  split
  · next k C hk hC =>
    dsimp only
    split
    · exact .inl rfl
    · split
      · split
        · split <;> exact .inl (freeze_core hk _ _)
        · exact .inl rfl
      · next h1 =>
        split
        · exact .inl (freeze_core hk _ _)
        · exact .inr ⟨k, _, hk, h1, rfl⟩
  · exact .inl rfl

theorem deadlineAt_move (b : Bool) (n : Nat) (c : Chip) : CoreMove (core c) (core (deadlineAt b n c)) := by
  rcases deadlineAt_cases b n c with h | ⟨k, f, -, -, h⟩
  · rw [h]; exact .same
  · rw [h]; exact refuse_move f c

/-- The deadline of a first image refuses nothing (R59). -/
theorem deadlineAt_first (b : Bool) (n : Nat) {c : Chip} (h : ∀ k, c.cm.change = some k → k.kind = 1) : core (deadlineAt b n c) = core c := by
  rcases deadlineAt_cases b n c with h1 | ⟨k, f, hk, h1, -⟩
  · exact h1
  · exact absurd (h k hk) h1

/-- A first image placed again keeps waiting or is refused (R33). -/
theorem replaceFirst_cases (c : Chip) :
    core (replaceFirst c) = core c ∨
    (CoreMove (core c) (core (replaceFirst c)) ∧ (core c).state = .starting ∧ ((core (replaceFirst c)).state = .starting ∨ (core (replaceFirst c)).state = .held) ∧
      ∀ k, (replaceFirst c).cm.change = some k → k.kind = 1) := by
  unfold replaceFirst
  split
  · exact .inl rfl
  · next k hk =>
    split
    · exact .inl (by simp [core, hk])
    · next h1 =>
      simp only [Bool.or_eq_true, decide_eq_true_eq, not_or, Decidable.not_not] at h1
      obtain ⟨hk1, hs⟩ := h1
      split
      · exact .inl (by simp [core, hk])
      · split
        · exact .inl rfl
        · split
          · have hm := CoreMove.replaced (core_change_of hk) hk1 hs
            refine .inr ⟨hm, hs, .inl hs, ?_⟩
            intro x hx
            cases hx
            exact hk1
          · refine .inr ⟨refuse_move _ c, hs, .inr ?_, ?_⟩
            · rw [refuse_core _ hk, if_pos hk1]
            · intro x hx
              have := core_change_of hx
              rw [refuse_core _ hk] at this
              cases this

/-- What replacement keeps waiting of a first image the deadline leaves (R37, R59). -/
theorem replaceDeadline_move (b : Bool) (n : Nat) (c : Chip) : CoreMove (core c) (core (deadlineAt b n (replaceFirst c))) := by
  rcases replaceFirst_cases c with h | ⟨h, -, -, h1⟩
  · have := deadlineAt_move b n (replaceFirst c)
    rwa [h] at this
  · rwa [deadlineAt_first b n h1]

theorem replaceFirst_move (c : Chip) : CoreMove (core c) (core (replaceFirst c)) := by
  rcases replaceFirst_cases c with h | ⟨h, -⟩
  · rw [h]; exact .same
  · exact h

theorem replaceResume_move (c : Chip) : CoreMove (core c) (core (replaceResume c)) := by
  unfold replaceResume lateDeadline
  split
  · have h : core (setCm { c.cm with replaceDue := false } c) = core c := rfl
    rw [← h]
    exact replaceDeadline_move _ _ _
  · exact .same

theorem wakeFault_move (es : List Nat) (rs : List (Nat × Nat)) (c : Chip) : CoreMove (core c) (core (wakeFault es rs c)) := by
  have hf (l : List Nat) (r : List (Nat × Nat)) : core (addFaults l r c) = core c := core_of_blank (by simp)
  unfold wakeFault
  split
  · exact .same
  · split
    · split
      · rw [← hf es rs]
        exact replaceFirst_move _
      · exact .same
    · dsimp only
      rw [core_of_blank (a := forEach _ _ _) (b := c) (by simp)]
      exact .same

/-- The placement is stored; a first image's part enters STARTING (R33, R56). -/
theorem placeStored_move {k : Change} {c : Chip} (h : c.cm.change = some k) (im : Image) (pl : Placement) :
    CoreMove (core c) (core (placeStored k im pl c)) := by
  have hp := CoreMove.placed (core_change_of h)
  unfold placeStored lateDeadline
  dsimp only
  by_cases hk : k.kind = 1
  · rw [if_pos hk, deadlineAt_first]
    · rw [core_of_blank (b := setDev .starting _) (congrArg core (startingWakes_mask (by simp) (by simp) _ _)), core_setDev]
      rw [if_pos hk] at hp
      exact hp
    · intro x hx
      rw [cm_of_mask (startingWakes_mask (l := [.line, .power]) (by decide) (by decide) _ _) (by decide), setDev_cm] at hx
      cases hx
      exact hk
  · rw [if_neg hk]
    rw [if_neg hk] at hp
    exact hp

theorem validate_move (c : Chip) : CoreMove (core c) (core (validate c)) := by
  have hc : core (imgFailClear c) = core c := rfl
  unfold validate
  split
  · exact .same
  · next k hk =>
    split
    · exact .same
    · split
      · exact refuse_move _ c
      · dsimp only
        rw [← hc]
        split
        · next f _ => exact refuse_move f (imgFailClear c)
        · exact placeStored_move (c := imgFailClear c) hk _ _

/-! ### The tablet -/

/-- Acquiring the tablet makes the part its holder (R354). -/
theorem acquire_core (mode n : Nat) (c : Chip) : core (acquire mode n c) = { core c with holder := true } := by
  unfold acquire
  dsimp only
  generalize hd : setPair _ c = d
  have h : core d = { core c with holder := true } := by rw [← hd]; rfl
  rw [← h]
  exact core_of_blank (by simp)

/-- Giving up the tablet darkens the part and takes one that runs to STANDBY (R357). -/
theorem giveUp_core (code n : Nat) (c : Chip) :
    core (giveUp code n c) = { core c with state := if (core c).state = .running then .standby else (core c).state, lit := false, holder := false } := by
  have hh : core (hokua 0x05 [code] n c) = core c := core_of_blank (by simp)
  unfold giveUp
  dsimp only
  generalize hokua 0x05 [code] n c = d at hh ⊢
  generalize hx : setPair _ { d with dev := _ } = x
  have h : core x = { core c with lit := false, holder := false } := by rw [← hx, ← hh]; rfl
  have hs : x.dev.state = (core c).state := by rw [← hh, ← hx]; rfl
  generalize hy : when c.pair.holder (setInt 5) x = y
  have hyx : core y = core x := core_of_blank (by rw [← hy]; simp)
  refine (core_of_blank (b := when (x.dev.state = .running) (setDev .standby) y) (by simp [pairNotice_mask])).trans ?_
  by_cases hr : x.dev.state = .running
  · rw [decide_eq_true hr, when_true, core_setDev, hyx, h, if_pos (hs ▸ hr)]
  · rw [decide_eq_false hr, when_false, hyx, h, if_neg (hs ▸ hr)]

theorem giveUp_move (code n : Nat) (c : Chip) : CoreMove (core c) (core (giveUp code n c)) := giveUp_core code n c ▸ .gaveUp

/-- What the first commit makes of the part (R31, R371). -/
theorem firstState_core (n : Nat) (c : Chip) :
    (∃ b, core (firstState n c) = { core c with state := .running, lit := b, holder := true }) ∨
    core (firstState n c) = { core c with state := .standby, holder := false } := by
  unfold firstState
  dsimp only
  split
  · exact .inl ⟨_, core_setDev _ _⟩
  · split
    · have h := acquire_core 3 n c
      generalize acquire 3 n c = d at h ⊢
      exact .inl ⟨!d.pair.hubBad, (core_setDev _ _).trans (by rw [Core.mk.injEq] at *; simp_all [core])⟩
    · exact .inr (core_setDev _ _)

theorem pairAtCommit_core (was : Bool) (n : Nat) (c : Chip) :
    ∃ b, core (pairAtCommit was n c) = { core c with holder := (core c).holder || b } := by
  unfold pairAtCommit
  split
  · exact ⟨false, by simp⟩
  · split
    · exact ⟨false, by simp [core]⟩
    · split
      · exact ⟨true, by simp [core]⟩
      · exact ⟨false, by simp⟩

/-- The commit (R56, R60 step 2): a first image's part comes to its first state, any other stays where it is. -/
theorem commitNow_cases (n : Nat) (cl : Chip) : core (commitNow n cl) = core cl ∨ ∃ k, (core cl).change = some (k, true) ∧
    (((core cl).image = false ∧ ((∃ b, core (commitNow n cl) = { core cl with state := .running, lit := b, holder := true, image := true, change := none }) ∨
        core (commitNow n cl) = { core cl with state := .standby, holder := false, image := true, change := none })) ∨
      ((core cl).image = true ∧ ∃ b, core (commitNow n cl) = { core cl with holder := (core cl).holder || b, change := none })) := by
  have h0 : core (pmBefore n cl) = core cl := core_of_blank (by simp)
  unfold commitNow
  dsimp only
  rw [← h0]
  generalize pmBefore n cl = c
  split
  · next k hk =>
    split
    · next im pl him hpl =>
      refine .inr ⟨k.kind, by rw [core_change_of hk, hpl]; rfl, ?_⟩
      generalize hd : setCm _ _ = d
      have hdc : core d = { core c with image := true, change := none } := by rw [← hd]; rfl
      generalize hx : (if c.img.image.isNone then firstState n d else pairAtCommit (paired c) n d) = x
      generalize hy : mirrorCheck _ = y
      have hyx : core y = core x := core_of_blank (by rw [← hy]; simp)
      rw [hyx]
      by_cases hi : c.img.image.isNone
      · rw [if_pos hi] at hx
        subst hx
        refine .inl ⟨by simpa [core] using hi, (firstState_core n d).imp (fun ⟨b, h⟩ => ⟨b, ?_⟩) (fun h => ?_)⟩
        · rw [h, hdc]
        · rw [h, hdc]
      · rw [if_neg hi] at hx
        subst hx
        have hi' : (core c).image = true := by simpa [core, Option.isSome_iff_ne_none] using hi
        obtain ⟨b, h⟩ := pairAtCommit_core (paired c) n d
        exact .inr ⟨hi', b, by rw [h, hdc, ← hi']⟩
    · exact .inl rfl
  · exact .inl rfl

theorem commitNow_move (n : Nat) (c : Chip) : CoreMove (core c) (core (commitNow n c)) := by
  rcases commitNow_cases n c with h | ⟨k, hk, ⟨hi, ⟨b, h⟩ | h⟩ | ⟨hi, b, h⟩⟩ <;> rw [h]
  · exact .same
  · exact .started b hk hi
  · exact .stood hk hi
  · exact .committed b hk hi

theorem commitStep_move (late : Bool) (n : Nat) (c : Chip) : CoreMove (core c) (core (commitStep late n c)) := by
  unfold commitStep
  split
  · exact commitNow_move n c
  · exact .same

/-! ### Taking over -/

/-- A part that takes over holds the tablet in HANDOVER (R358). -/
theorem takeOver_core (mode n : Nat) (c : Chip) : core (takeOver mode n c) = { core c with state := .handover, holder := true } := by
  unfold takeOver
  dsimp only
  have h := acquire_core (if mode = 0 then (if warmOk c then 1 else 2) else mode) n c
  generalize acquire (if mode = 0 then (if warmOk c then 1 else 2) else mode) n c = d at h ⊢
  generalize hx : (if warmOk c then _ else _) = x
  have hxc : core x = { core c with holder := true } := by
    rw [← hx, ← h]
    split
    · rfl
    · exact core_of_blank (by simp)
  rw [core_setDev, hxc]

/-- Takeover runs from the boundary it starts at (R358). -/
theorem takeOver_handAt (mode n : Nat) (c : Chip) : (takeOver mode n c).pair.handAt = n := by
  unfold takeOver
  dsimp only
  rw [setDev_pair]
  split
  · rfl
  · rw [pair_of_mask (installCold_mask (l := [.jct, .pm, .prot]) (by decide) (by decide) (by decide) _ _) (by decide)]
    rfl

theorem takeOver_move (mode n : Nat) {c : Chip} (h : c.dev.state = .standby) : CoreMove (core c) (core (takeOver mode n c)) :=
  takeOver_core mode n c ▸ .tookOver h

/-- The hand-over ends where the tablet is (R358, log 15). -/
theorem handoverComplete_core (n : Nat) (c : Chip) : ∃ b,
    core (handoverComplete n c) = if c.pair.holder then { core c with state := .running, lit := b } else { core c with state := .standby } := by
  unfold handoverComplete
  dsimp only
  generalize hd : (if c.pair.warm then _ else c) = d
  have hdc : core d = core c := by rw [← hd]; split <;> exact core_of_blank (by simp)
  have hh : d.pair.holder = c.pair.holder := by simpa [core] using congrArg Core.holder hdc
  generalize hx : (if d.pair.holder then _ else _) = x
  refine ⟨!d.pair.hubBad, (core_of_blank (b := x) (by simp)).trans ?_⟩
  rw [← hx, ← hdc, ← hh]
  split
  · exact core_setDev _ _
  · rw [core_setDev, core_setDev]

theorem handoverComplete_move (n : Nat) {c : Chip} (h : c.dev.state = .handover) : TickMove (core c) (core (handoverComplete n c)) := by
  obtain ⟨b, h1⟩ := handoverComplete_core n c
  rw [h1]
  split
  · next hh => exact .move (.handed b h hh)
  · exact .stoodBy h

/-! ### Power -/

theorem startBoot_core (c : Chip) : core (startBoot c) = { core c with state := .boot, lit := false, tick := 0 } := rfl

theorem bootEnds_core (rep : BootRep) (c : Chip) : core (bootEnds rep c) = { core c with state := .awaitImage } := by
  unfold bootEnds
  dsimp only
  refine (core_of_blank (b := setDev .awaitImage _) (congrArg core (mask_when (fun c => by simp) _ _))).trans ?_
  generalize hb : boxReads 0 _ = b
  have hbc : core b = core c := core_of_blank (by rw [← hb]; simp)
  rw [core_setDev, ← hbc]
  rfl

theorem bootRuns_move (rep : BootRep) {c : Chip} (h : c.dev.state = .boot) : CoreMove (core c) (core (bootRuns rep c)) := by
  have hu (u : UpdSt) : core (setUpd u c) = core c := rfl
  unfold bootRuns bootFails
  dsimp only
  split
  · rw [hu]; exact .same
  · split
    · rw [hu]; exact .same
    · split
      · rw [hu]; exact .same
      · split
        · split <;> (rw [hu]; exact .same)
        · rw [bootEnds_core]; exact .booted h

theorem coldChip_core (cause sensor : Nat) (temp : Int) (sup : BitVec 4) (c : Chip) :
    core (coldChip cause sensor temp sup c) = { state := .cold, lit := false, tick := 0, holder := false, image := false, change := none } := rfl

/-! ### The mailbox -/

/-- A submission is refused or carried out by the command's own judgement, which a legal state admits (R427). -/
theorem mbSubmit_move {code : Nat} {tag : Byte} {bf : Bool} {ok : Chip → Bool} {act : Chip → Chip}
    (h : ∀ c, mbLegal code c.dev.state bf = true → CoreMove (core c) (core (act c))) (c : Chip) :
    CoreMove (core c) (core (mbSubmit code tag bf ok act c)) := by
  unfold mbSubmit
  split
  · exact .same
  · split
    · exact .same
    · dsimp only
      generalize hd : countEvent _ _ _ _ = d
      have hdc : core d = core c := core_of_blank (by rw [← hd]; simp)
      have hr (k : Nat) : core (mbReply k 0 0 d) = core d := core_of_blank (by simp)
      have hs : d.dev.state = c.dev.state := congrArg Core.state hdc
      rw [← hdc, ← hs]
      split
      · rw [hr]; exact .same
      · split
        · rw [hr]; exact .same
        · next hl =>
          split
          · rw [hr]; exact .same
          · exact h d (by simpa using hl)

/-- A command that keeps the core is carried out beside it. -/
theorem mbSubmit_core {code : Nat} {tag : Byte} {bf : Bool} {ok : Chip → Bool} {act : Chip → Chip}
    (h : ∀ c, core (mask quiet (act c)) = core (mask quiet c)) (c : Chip) :
    core (mbSubmit code tag bf ok act c) = core c := by
  unfold mbSubmit
  split
  · rfl
  · split
    · rfl
    · dsimp only
      refine core_of_blank ?_
      split
      · simp
      · split
        · simp
        · split
          · simp
          · rw [h]; simp

theorem core_mbReply (k a b : Nat) (c : Chip) : core (mbReply k a b c) = core c := core_of_blank (by simp)

theorem core_mbCode (k : Nat) (c : Chip) : core (mbCode k c) = core c := core_of_blank (by simp)

/-- A replacement or an amendment is taken on or refused (R89). -/
theorem changeTake_move {kind : Nat} (tag : Byte) (repack : Bool) (bytes : List Byte) (hk : kind ≠ 1) {c : Chip}
    (h : c.dev.state = .running ∨ c.dev.state = .standby) : CoreMove (core c) (core (changeTake kind tag repack bytes c)) := by
  unfold changeTake
  dsimp only
  split
  · rw [core_of_blank (a := acceptRefused _ _ c) (b := c) (by simp)]
    exact .same
  · rw [core_mbCode]
    exact CoreMove.taken (a := core c) hk h

theorem loadImageCmd_move (tag : Byte) (s : State) : CoreMove (core s.c) (core (loadImageCmd tag s).c) := by
  unfold loadImageCmd
  refine mbSubmit_move (fun c hl => ?_) s.c
  dsimp only
  split
  · next h => exact changeTake_move tag _ _ (by decide) (by simpa [inState] using h)
  · next h =>
    split
    · rw [core_of_blank (a := acceptRefused _ _ c) (b := c) (by simp)]
      exact .same
    · have hs : c.dev.state = .awaitImage ∨ c.dev.state = .held := by
        simp [mbLegal, inState] at hl h
        rcases hl with hl | hl | hl | hl
        · exact .inl hl
        · exact .inr hl
        · exact absurd hl h.1
        · exact absurd hl h.2
      rw [core_mbCode, core_setDev]
      exact CoreMove.loaded (a := core c) hs

theorem amendImageCmd_move (tag : Byte) (s : State) : CoreMove (core s.c) (core (amendImageCmd tag s).c) := by
  unfold amendImageCmd
  refine mbSubmit_move (fun c hl => ?_) s.c
  exact changeTake_move tag _ _ (by decide) (by simpa [mbLegal] using hl)

/-! ### The pair's steps -/

theorem hubLost_core (c : Chip) : core (hubLost c) = { core c with lit := false } := rfl

/-- The steps before a part may take over: the core moves, and a part may fall from RUNNING to STANDBY. -/
structure Falls (a b : Chip) : Prop where
  moves : TickMoves (core a) (core b)
  state : b.dev.state = a.dev.state ∨ (a.dev.state = .running ∧ b.dev.state = .standby)

theorem Falls.trans {a b c : Chip} (h : Falls a b) (k : Falls b c) : Falls a c := by
  refine ⟨h.moves.trans k.moves, ?_⟩
  rcases h.state with h | ⟨h, h'⟩ <;> rcases k.state with k | ⟨k, k'⟩ <;> simp_all

theorem Falls.of_core {a b : Chip} (h : core b = core a) : Falls a b :=
  ⟨h ▸ .refl, .inl (congrArg Core.state h)⟩

theorem Falls.of_blank {a b : Chip} (h : core (mask quiet b) = core (mask quiet a)) : Falls a b := .of_core (core_of_blank h)

theorem falls_giveUp (code n : Nat) (c : Chip) : Falls c (giveUp code n c) := by
  refine ⟨.single (.move (giveUp_move code n c)), ?_⟩
  have h : (giveUp code n c).dev.state = if (core c).state = .running then .standby else (core c).state := congrArg Core.state (giveUp_core code n c)
  rw [h]
  split
  · next hr => exact .inr ⟨hr, rfl⟩
  · exact .inl rfl

theorem falls_ite {p : Prop} [Decidable p] {c a b : Chip} (h : p → Falls c a) (k : ¬p → Falls c b) : Falls c (if p then a else b) := by
  split
  · next hp => exact h hp
  · next hp => exact k hp

theorem falls_hubBoundary (n : Nat) (c : Chip) : Falls c (hubBoundary n c) := by
  unfold hubBoundary
  dsimp only
  generalize h1 : (if (c.tim.osc.unlock.isSome && !c.pair.hubBad) = true then hubLost c else c) = c1
  have f1 : Falls c c1 := h1 ▸ falls_ite (fun _ => ⟨.single (.move (hubLost_core c ▸ .dark)), .inl rfl⟩) (fun _ => .of_core rfl)
  generalize h2 : (if (c1.pair.hubBad && c1.pair.holder && paired c1 && inState [.running, .handover] c1) = true then giveUp 8 n c1 else c1) = c2
  have f2 : Falls c1 c2 := h2 ▸ falls_ite (fun _ => falls_giveUp 8 n c1) (fun _ => .of_core rfl)
  refine (f1.trans f2).trans (falls_ite (fun _ => ?_) (fun _ => .of_core rfl))
  split
  · next h => exact ⟨.single (.move (.relit h)), .inl rfl⟩
  · exact .of_core rfl

theorem falls_superseded (n : Nat) (c : Chip) : Falls c (superseded n c) := by
  unfold superseded
  refine falls_ite (fun _ => ?_) (fun _ => .of_core rfl)
  refine Falls.trans ?_ (falls_giveUp 1 n _)
  exact falls_ite (fun _ => .of_blank (by simp)) (fun _ => .of_core rfl)

theorem falls_tieLost (n : Nat) (c : Chip) : Falls c (tieLost n c) :=
  (falls_giveUp 0xA n c).trans (.of_core rfl)

theorem falls_yieldNow (n : Nat) (c : Chip) : Falls c (yieldNow n c) :=
  (falls_giveUp 9 n c).trans (.of_core rfl)

theorem falls_tieStep (n : Nat) (c : Chip) : Falls c (tieStep n c) := by
  unfold tieStep
  dsimp only
  generalize hd : (if (drives c && paired c && inThroughout c.pair.intlk) = true then dualSeen 0 n _ else _) = d
  have f : Falls c d := hd ▸ falls_ite (fun _ => .of_blank (by simp)) (fun _ => falls_ite (fun _ => .of_blank (by simp)) (fun _ => .of_core rfl))
  exact f.trans (falls_ite (fun _ => .of_core rfl) (fun _ => falls_ite (fun _ => falls_tieLost n d) (fun _ => falls_ite (fun _ => falls_tieLost n d) (fun _ => .of_core rfl))))

theorem falls_pairLinks (n : Nat) (c : Chip) : Falls c (pairLinks n c) := by
  unfold pairLinks
  dsimp only
  have f1 : Falls c (if linkTimeout n c then linkDown false c else c) := falls_ite (fun _ => .of_core rfl) (fun _ => .of_core rfl)
  have f2 := ((f1.trans (falls_hubBoundary n _)).trans (falls_superseded n _)).trans (falls_tieStep n _)
  exact f2.trans (falls_ite (fun _ => falls_yieldNow n _) (fun _ => .of_core rfl))

/-- A part releases the tablet by giving it up, or does not (R361). -/
theorem selfRelease_cases (n : Nat) (c : Chip) : core (selfRelease n c) = core c ∨ ∃ k, selfRelease n c = giveUp k n c := by
  unfold selfRelease
  split
  · exact .inl rfl
  · split
    · exact .inl (core_of_blank (by simp))
    · split
      · exact .inr ⟨_, rfl⟩
      · exact .inl (core_of_blank (by simp))

theorem selfRelease_move (n : Nat) (c : Chip) : CoreMove (core c) (core (selfRelease n c)) := by
  rcases selfRelease_cases n c with h | ⟨k, h⟩ <;> rw [h]
  · exact .same
  · exact giveUp_move k n c

theorem falls_selfRelease (n : Nat) (c : Chip) : Falls c (selfRelease n c) := by
  rcases selfRelease_cases n c with h | ⟨k, h⟩
  · exact .of_core h
  · rw [h]
    exact falls_giveUp k n c

/-- The swap of a drill has a holder that runs give the tablet up (R378). -/
theorem drillSwap_cases (n : Nat) (c : Chip) :
    core (drillSwap n c) = core c ∨ ∃ x, core x = core c ∧ core (drillSwap n c) = core (giveUp 2 n x) := by
  unfold drillSwap
  split
  · exact .inl rfl
  · split
    · exact .inl rfl
    · dsimp only
      generalize hx : setPair _ c = x
      have hxc : core x = core c := by rw [← hx]; rfl
      have h (y : Chip) (b : Prop) [Decidable b] : core (if b then mbReply 0 0 0 y else y) = core y := by
        split
        · exact core_mbReply 0 0 0 y
        · rfl
      rw [h]
      split
      · exact .inr ⟨x, hxc, rfl⟩
      · exact .inl hxc

theorem drillSwap_move (n : Nat) (c : Chip) : CoreMove (core c) (core (drillSwap n c)) := by
  rcases drillSwap_cases n c with h | ⟨x, hx, h⟩ <;> rw [h]
  · exact .same
  · exact hx ▸ giveUp_move 2 n x

theorem falls_drillSwap (n : Nat) (c : Chip) : Falls c (drillSwap n c) := by
  rcases drillSwap_cases n c with h | ⟨x, hx, h⟩
  · exact .of_core h
  · exact ((Falls.of_core hx).trans (falls_giveUp 2 n x)).trans (.of_core h)

/-- What a boundary's steps of the pair make of the device state (R353; log 15). -/
def PairStates (a b : DevState) : Prop :=
  a = b ∨ (a, b) ∈ [(DevState.running, DevState.standby), (.standby, .handover), (.handover, .running), (.running, .handover), (.handover, .standby)]

theorem claimStep_cases (n : Nat) (c : Chip) :
    core (claimStep n c) = core c ∨
    (c.dev.state = .standby ∧ CoreMove (core c) (core (claimStep n c)) ∧ (claimStep n c).dev.state = .handover ∧ (claimStep n c).pair.handAt = n) := by
  unfold claimStep
  split
  · exact .inl rfl
  · split
    · exact .inl (core_mbReply ..)
    · dsimp only
      generalize hx : setPair _ c = x
      have hxc : core x = core c := by rw [← hx]; rfl
      split
      · next hs =>
        have hsx : x.dev.state = .standby := (congrArg Core.state hxc).trans hs
        refine .inr ⟨hs, ?_, ?_, ?_⟩
        · rw [core_mbReply, ← hxc]
          exact takeOver_move 4 n hsx
        · rw [mbReply_dev]
          exact congrArg Core.state (takeOver_core 4 n x)
        · rw [mbReply_pair]
          exact takeOver_handAt 4 n x
      · exact .inl ((core_mbReply ..).trans hxc)

/-- A part takes over from STANDBY alone (R358). -/
theorem takeDue_state {n : Nat} {c : Chip} (h : takeDue n c = true) : c.dev.state = .standby := by
  simp only [takeDue, Bool.and_eq_true, decide_eq_true_eq] at h
  obtain ⟨⟨⟨⟨⟨⟨hs, -⟩, -⟩, -⟩, -⟩, -⟩, -⟩ := h
  exact hs

/-- Taking over or completing it; a part whose takeover starts at this boundary completes it two boundaries later (R358). -/
theorem pairTakes_cases (n : Nat) (c : Chip) :
    core (pairTakes n c) = core c ∨
    (c.dev.state = .standby ∧ core (pairTakes n c) = { core c with state := .handover, holder := true }) ∨
    (c.dev.state = .handover ∧ c.pair.handAt + 2 ≤ n ∧ pairTakes n c = handoverComplete n c) := by
  unfold pairTakes
  dsimp only
  by_cases ht : takeDue n c
  · have hs := takeDue_state ht
    have hd : handoverDue n (takeOver (takeMode c) n c) = false := by simp [handoverDue, takeOver_handAt]
    rw [if_pos ht, hd]
    exact .inr (.inl ⟨hs, takeOver_core _ n c⟩)
  · rw [if_neg ht]
    split
    · next hh =>
      simp only [handoverDue, Bool.and_eq_true, decide_eq_true_eq] at hh
      exact .inr (.inr ⟨hh.1, hh.2, rfl⟩)
    · exact .inl rfl

theorem pairTakes_moves (n : Nat) (c : Chip) : TickMoves (core c) (core (pairTakes n c)) := by
  rcases pairTakes_cases n c with h | ⟨hs, h⟩ | ⟨hs, -, h⟩
  · exact h ▸ .refl
  · rw [h]
    exact .single (.move (.tookOver hs))
  · rw [h]
    exact .single (handoverComplete_move n hs)

theorem pairTakes_state (n : Nat) (c : Chip) :
    (pairTakes n c).dev.state = c.dev.state ∨ (c.dev.state = .standby ∧ (pairTakes n c).dev.state = .handover) ∨
    (c.dev.state = .handover ∧ c.pair.handAt + 2 ≤ n ∧ ((pairTakes n c).dev.state = .running ∨ (pairTakes n c).dev.state = .standby)) := by
  rcases pairTakes_cases n c with h | ⟨hs, h⟩ | ⟨hs, hn, h⟩
  · exact .inl (congrArg Core.state h)
  · exact .inr (.inl ⟨hs, congrArg Core.state h⟩)
  · obtain ⟨b, hb⟩ := handoverComplete_core n c
    refine .inr (.inr ⟨hs, hn, ?_⟩)
    rw [h]
    split at hb
    · exact .inl (congrArg Core.state hb)
    · exact .inr (congrArg Core.state hb)

/-- The pair's steps at a boundary (R353). -/
theorem pairBoundary_moves (n : Nat) (c : Chip) :
    TickMoves (core c) (core (pairBoundary n c)) ∧ PairStates c.dev.state (pairBoundary n c).dev.state := by
  unfold pairBoundary pairReleases
  generalize hm : pairMarks n _ = m
  have hd (x : Chip) : core (drillDeadline n x) = core x := core_of_blank (by simp)
  have f : Falls c (selfRelease n (drillSwap n (drillDeadline n (pairLinks n c)))) :=
    (((falls_pairLinks n c).trans (.of_core (hd _))).trans (falls_drillSwap n _)).trans (falls_selfRelease n _)
  generalize selfRelease n (drillSwap n (drillDeadline n (pairLinks n c))) = a at f hm
  have hmc : core m = core (pairTakes n (claimStep n a)) := core_of_blank (by rw [← hm]; simp)
  have hms : m.dev.state = (pairTakes n (claimStep n a)).dev.state := congrArg Core.state hmc
  have ht := pairTakes_state n (claimStep n a)
  rw [hmc, hms]
  rcases claimStep_cases n a with h | ⟨hs, h, hh, hn⟩
  · have hsa : (claimStep n a).dev.state = a.dev.state := congrArg Core.state h
    refine ⟨f.moves.trans (h ▸ pairTakes_moves n _), ?_⟩
    unfold PairStates
    rcases f.state with k | ⟨k, k'⟩ <;> rcases ht with t | ⟨t, t'⟩ | ⟨t, -, t' | t'⟩ <;> simp_all
  · refine ⟨(f.moves.trans (.single (.move h))).trans (pairTakes_moves n _), ?_⟩
    have ht' : (pairTakes n (claimStep n a)).dev.state = .handover := by
      rcases ht with t | ⟨t, -⟩ | ⟨-, t, -⟩
      · exact t.trans hh
      · exact absurd (hh.symm.trans t) (by decide)
      · omega
    unfold PairStates
    rcases f.state with k | ⟨k, k'⟩ <;> simp_all

end Sys2Proof.Machine
end

section
/-!
PROOFS. The tick boundary and the device (O3, O4, O5; R32, R33, R39, R60): the commit's steps at a boundary, what a tick does to the core,
and which parts it leaves.
-/
namespace Sys2Proof.Machine
open Sys2Proof

/-! ### The commit's steps at a boundary -/

/-- What a boundary's steps of the commit make of the device state (R33, R56). -/
def CommitStates (a b : DevState) : Prop :=
  a = b ∨ (a = .validating ∧ b = .held) ∨ (a = .starting ∧ (b = .held ∨ b = .running ∨ b = .standby))

/-- One of the commit's steps: the core moves, within the states a commit may change. -/
structure Commits (a b : Chip) : Prop where
  moves : TickMoves (core a) (core b)
  state : CoreInv (core a) → CommitStates a.dev.state b.dev.state

theorem Commits.trans {a b c : Chip} (h : Commits a b) (k : Commits b c) : Commits a c := by
  refine ⟨h.moves.trans k.moves, fun i => ?_⟩
  have h1 := h.state i
  have k1 := k.state (i.moves h.moves)
  unfold CommitStates at *
  rcases h1 with h1 | ⟨h1, h2⟩ | ⟨h1, h2 | h2 | h2⟩ <;> simp_all

theorem Commits.of_core {a b : Chip} (h : core b = core a) : Commits a b :=
  ⟨h ▸ .refl, fun _ => .inl (congrArg Core.state h).symm⟩

/-- A first image waits in VALIDATING or STARTING. -/
theorem CoreInv.first_state {a : Core} (i : CoreInv a) {k : Nat} {p : Bool} (h : a.change = some (k, p)) (hk : k = 1) :
    a.state = .validating ∨ a.state = .starting := by
  subst hk
  have := i.first p h
  cases p <;> simp_all

theorem commits_refuse (f : ImgFail) (c : Chip) : Commits c (refuse f c) := by
  refine ⟨.single (.move (refuse_move f c)), fun i => ?_⟩
  cases h : c.cm.change with
  | none => simp only [refuse, h]; exact .inl rfl
  | some k =>
    have hs : (refuse f c).dev.state = if k.kind = 1 then .held else c.dev.state := congrArg Core.state (refuse_core f h)
    rw [hs]
    split
    · next hk =>
      rcases i.first_state (core_change_of h) hk with h1 | h1
      · exact .inr (.inl ⟨h1, rfl⟩)
      · exact .inr (.inr ⟨h1, .inl rfl⟩)
    · exact .inl rfl

theorem commits_replaceFirst (c : Chip) : Commits c (replaceFirst c) := by
  rcases replaceFirst_cases c with h | ⟨h, hs, hs', -⟩
  · exact .of_core h
  · refine ⟨.single (.move h), fun _ => ?_⟩
    rcases hs' with h1 | h1
    · exact .inl (hs.trans h1.symm)
    · exact .inr (.inr ⟨hs, .inl h1⟩)

theorem commits_deadline (n : Nat) (c : Chip) : Commits c (commitDeadline n c) := by
  rcases deadlineAt_cases true n c with h | ⟨k, f, -, -, h⟩
  · exact .of_core h
  · unfold commitDeadline
    rw [h]
    exact commits_refuse f c

theorem commitNow_state (n : Nat) (c : Chip) (i : CoreInv (core c)) : CommitStates c.dev.state (commitNow n c).dev.state := by
  rcases commitNow_cases n c with h | ⟨k, hk, h⟩
  · exact .inl (congrArg Core.state h).symm
  · rcases h with ⟨hi, h⟩ | ⟨-, b, h⟩
    · have hk1 : k = 1 := by
        refine Decidable.byContradiction fun hne => ?_
        have := i.image (i.later k true hk hne)
        simp_all
      have hs : c.dev.state = .starting := i.first true (hk1 ▸ hk)
      rcases h with ⟨b, h⟩ | h
      · exact .inr (.inr ⟨hs, .inr (.inl (congrArg Core.state h))⟩)
      · exact .inr (.inr ⟨hs, .inr (.inr (congrArg Core.state h))⟩)
    · exact .inl (congrArg Core.state h).symm

theorem commits_commitStep (late : Bool) (n : Nat) (c : Chip) : Commits c (commitStep late n c) := by
  refine ⟨.single (.move (commitStep_move late n c)), fun i => ?_⟩
  unfold commitStep
  split
  · exact commitNow_state n c i
  · exact .inl rfl

theorem commits_ite {p : Prop} [Decidable p] {c a b : Chip} (h : Commits c a) (k : Commits c b) : Commits c (if p then a else b) := by
  split
  · exact h
  · exact k

theorem commits_commitBoundary (n : Nat) (c : Chip) : Commits c (commitBoundary n c) := by
  have hr (x : Chip) : Commits x (rebuildDone n (oldRelease n x)) := .of_core (core_of_blank (by simp))
  have hs (x : Chip) : Commits x (scrubBoundary n x) := commits_ite (commits_refuse _ x) (.of_core rfl)
  exact ((((commits_ite (commits_replaceFirst c) (.of_core rfl)).trans (hr _)).trans ((hs _).trans (commits_deadline n _))).trans
    (commits_commitStep false n _)).trans (commits_commitStep true n _)

/-! ### The tick -/

theorem core_tick (c : Chip) (n : Nat) (l : List Nat) :
    core { c with dev := { c.dev with tick := n, done := l } } = { core c with tick := n } := rfl

/-- A tick boundary advances the tick, makes the pair's steps and then the commit's (R60). -/
theorem tickStep_steps (rep : TickRep) (c : Chip) : ∃ a, core a = { core c with tick := c.dev.tick + 1 } ∧
    core (tickStep rep c) = core (commitBoundary (c.dev.tick + 1) (pairBoundary (c.dev.tick + 1) a)) := by
  have hf : core (finishTick c) = core c := core_of_blank (by simp)
  have hn : (finishTick c).dev.tick = c.dev.tick := congrArg Core.tick hf
  unfold tickStep now
  dsimp only
  rw [hn]
  generalize hd : ({ finishTick c with dev := _ } : Chip) = d
  have hdc : core d = { core c with tick := c.dev.tick + 1 } := by rw [← hd, ← hf]; rfl
  generalize engVerdicts rep.engines d = vs
  generalize hb : powerBoundary (c.dev.tick + 1) (latchAll (measureTick rep vs (c.dev.tick + 1) d)) = b
  have hbd : core b = core d := core_of_blank (by rw [← hb]; simp)
  refine ⟨b, hbd.trans hdc, core_of_blank ?_⟩
  unfold boundarySteps
  simp

theorem tickStep_moves (rep : TickRep) (c : Chip) :
    TickMoves { core c with tick := c.dev.tick + 1 } (core (tickStep rep c)) := by
  obtain ⟨a, ha, h⟩ := tickStep_steps rep c
  rw [h, ← ha]
  exact (pairBoundary_moves _ a).1.trans (commits_commitBoundary _ _).moves

theorem core_dev_tick (c : Chip) : (core c).tick = c.dev.tick := rfl
theorem core_dev_state (c : Chip) : (core c).state = c.dev.state := rfl

theorem tickStep_tick (rep : TickRep) (c : Chip) : (tickStep rep c).dev.tick = c.dev.tick + 1 := by
  rw [← core_dev_tick, TickMove.chain_tick (tickStep_moves rep c)]

/-- A tick keeps the invariant of the core. -/
theorem tickStep_inv (rep : TickRep) {c : Chip} (i : CoreInv (core c)) : CoreInv (core (tickStep rep c)) := by
  refine CoreInv.moves ?_ (tickStep_moves rep c)
  obtain ⟨hl, hh, hi, hf, hr⟩ := i
  exact ⟨hl, hh, hi, hf, hr⟩

/-- The states a tick may pass from and to (R33; log 15). -/
def TickStates (x z : DevState) : Prop :=
  z = x ∨ (x, z) ∈ tableMoves ∨ (x = .handover ∧ z = .standby) ∨ (x = .running ∧ z = .handover)

/-- The pair leaves VALIDATING and STARTING, which alone a commit changes, as they are. -/
theorem TickStates.of_steps {x y z : DevState} (h : PairStates x y) (k : CommitStates y z) : TickStates x z := by
  unfold PairStates at h
  unfold CommitStates at k
  simp only [List.mem_cons, Prod.mk.injEq, List.not_mem_nil, or_false] at h
  rcases h with rfl | ⟨rfl, rfl⟩ | ⟨rfl, rfl⟩ | ⟨rfl, rfl⟩ | ⟨rfl, rfl⟩ | ⟨rfl, rfl⟩ <;>
    rcases k with rfl | ⟨k, rfl⟩ | ⟨k, rfl | rfl | rfl⟩ <;> simp_all [TickStates, tableMoves]

/-- The pair's steps and then the commit's move the device state as R33 and log 15 say. -/
theorem tickStep_state (rep : TickRep) {c : Chip} (i : CoreInv (core c)) : TickStates c.dev.state (tickStep rep c).dev.state := by
  obtain ⟨a, ha, h⟩ := tickStep_steps rep c
  have has : a.dev.state = c.dev.state := congrArg Core.state ha
  have ia : CoreInv (core a) := by
    obtain ⟨hl, hh, hi, hf, hr⟩ := i
    rw [ha]
    exact ⟨hl, hh, hi, hf, hr⟩
  obtain ⟨hm, hp⟩ := pairBoundary_moves (c.dev.tick + 1) a
  have hc := (commits_commitBoundary (c.dev.tick + 1) _).state (ia.moves hm)
  rw [← core_dev_state (tickStep rep c), h, core_dev_state, ← has]
  exact .of_steps hp hc

end Sys2Proof.Machine
end

section
/-!
PROOFS. What each command does to the core, to memory and to the queue (O1, O3, O4, O5), and the statements of the block settled from it.
-/
namespace Sys2Proof.Machine
open Sys2Proof

/-! ### Commands -/

/-- What one command but TICK_BOUNDARY can do to the core: a move, the entry to COLD, or the start of BOOT. -/
inductive StepMove (a : Core) : Core → Prop
  | move {b : Core} (h : CoreMove a b) : StepMove a b
  | cold : StepMove a { state := .cold, lit := false, tick := 0, holder := false, image := false, change := none }
  | boot (h : a.state = .cold) : StepMove a { a with state := .boot, lit := false, tick := 0 }

/-- A command leaves the queue, keeps memory canonical, and moves the core as one operation can. -/
structure Moves (s t : State) : Prop where
  pending : t.pending = s.pending
  mem : MemOk s → MemOk t
  core : StepMove (core s.c) (core t.c)

/-- A command leaves the queue, keeps memory canonical, and keeps the core. -/
structure Keeps (s t : State) : Prop where
  pending : t.pending = s.pending
  mem : MemOk s → MemOk t
  core : core t.c = core s.c

theorem Keeps.refl (s : State) : Keeps s s := ⟨rfl, id, rfl⟩

theorem Keeps.trans {s t u : State} (h : Keeps s t) (k : Keeps t u) : Keeps s u :=
  ⟨k.pending.trans h.pending, fun m => k.mem (h.mem m), k.core.trans h.core⟩

theorem Keeps.moves {s t : State} (h : Keeps s t) : Moves s t := ⟨h.pending, h.mem, .move (h.core ▸ .same)⟩

theorem Moves.keeps {s t u : State} (h : Moves s t) (k : Keeps t u) : Moves s u :=
  ⟨k.pending.trans h.pending, fun m => k.mem (h.mem m), k.core ▸ h.core⟩

theorem Keeps.then {s t u : State} (h : Keeps s t) (k : Moves t u) : Moves s u :=
  ⟨k.pending.trans h.pending, fun m => k.mem (h.mem m), h.core ▸ k.core⟩

theorem moves_refl (s : State) : Moves s s := (Keeps.refl s).moves

theorem keeps_onChip {f : Chip → Chip} {s : State} (h : core (mask quiet (f s.c)) = core (mask quiet s.c)) : Keeps s (onChip f s) :=
  ⟨rfl, id, core_of_blank h⟩

theorem moves_onChip {f : Chip → Chip} {s : State} (h : CoreMove (core s.c) (core (f s.c))) : Moves s (onChip f s) :=
  ⟨rfl, id, .move h⟩

/-- A chip that is replaced beside bytes that are written. -/
theorem keeps_write {s : State} {c : Chip} (h : core c = core s.c) (b : Bool) (a : Nat) (l : List Byte) :
    Keeps s { s with c := c, mem := if b then writeBytes 0 s.mem a l else s.mem } := by
  refine ⟨rfl, fun m => ?_, h⟩
  unfold MemOk
  dsimp only
  split
  · exact Memory.wf_writeBytes l s.mem a m
  · exact m

/-- A command that answers a changed chip keeps the core where the change does. -/
theorem moves_of_next {s t : State} {f : Chip → Chip} (h : (Host.Outcome.next (onChip f s) : Host.Outcome State Fault Refusal) = .next t)
    (hf : core (mask quiet (f s.c)) = core (mask quiet s.c)) : Moves s t := by
  cases h
  exact (keeps_onChip hf).moves

theorem moves_of_move {s t : State} {f : Chip → Chip} (h : (Host.Outcome.next (onChip f s) : Host.Outcome State Fault Refusal) = .next t)
    (hf : CoreMove (core s.c) (core (f s.c))) : Moves s t := by
  cases h
  exact moves_onChip hf

theorem coreMove_when {b : Bool} {f : Chip → Chip} {c : Chip} (h : b = true → CoreMove (core c) (core (f c))) : CoreMove (core c) (core (when b f c)) := by
  cases b
  · exact .same
  · exact h rfl

/-! ### Commands of the mailbox -/

theorem keeps_mbSubmit {code : Nat} {tag : Byte} {bf : Bool} {ok : Chip → Bool} {act : Chip → Chip} {s : State}
    (h : ∀ c, core (mask quiet (act c)) = core (mask quiet c)) : Keeps s (onChip (mbSubmit code tag bf ok act) s) :=
  ⟨rfl, id, mbSubmit_core h s.c⟩

theorem moves_loadImage (tag : Byte) (s : State) : Moves s (loadImageCmd tag s) := ⟨rfl, id, .move (loadImageCmd_move tag s)⟩

theorem moves_amendImage (tag : Byte) (s : State) : Moves s (amendImageCmd tag s) := ⟨rfl, id, .move (amendImageCmd_move tag s)⟩

theorem keeps_commitImage (tag : Byte) (s : State) : Keeps s (commitImageCmd tag s) := by
  unfold commitImageCmd
  refine keeps_mbSubmit (fun c => ?_)
  dsimp only
  split
  · simp
  · split
    · simp
    · simp only [mbCode_mask, mem_quiet, ne_eq, reduceCtorEq, not_false_eq_true, and_self]
      exact (core_mask _).trans (core_mask c).symm

theorem keeps_readImage (tag : Byte) (s : State) : Keeps s (readImageCmd tag s) :=
  keeps_write (mbSubmit_core (fun c => by simp) s.c) _ _ _

theorem keeps_deviceKey (tag : Byte) (s : State) : Keeps s (deviceKeyCmd tag s) :=
  keeps_write (mbSubmit_core (fun c => by simp) s.c) _ _ _

theorem keeps_settingsRead (tag : Byte) (s : State) : Keeps s (settingsReadCmd tag s) := by
  unfold settingsReadCmd
  split
  · exact keeps_write (mbSubmit_core (fun c => by simp) s.c) _ _ _
  · exact ⟨rfl, id, mbSubmit_core (fun c => by simp) s.c⟩

theorem keeps_keySet (tag : Byte) (s : State) : Keeps s (keySetCmd tag s) := keeps_mbSubmit (fun c => by simp)
theorem keeps_keyWipe (tag : Byte) (file : Option (List Byte)) (s : State) : Keeps s (keyWipeCmd tag file s) := keeps_mbSubmit (fun c => by simp)
theorem keeps_settingsWrite (tag : Byte) (s : State) : Keeps s (settingsWriteCmd tag s) := keeps_mbSubmit (fun c => by simp)
theorem keeps_bundleBegin (tag : Byte) (s : State) : Keeps s (bundleBeginCmd tag s) := keeps_mbSubmit (fun c => by simp)
theorem keeps_bundleChunk (tag : Byte) (s : State) : Keeps s (bundleChunkCmd tag s) := keeps_mbSubmit (fun c => by simp)
theorem keeps_bundleAbort (tag : Byte) (s : State) : Keeps s (bundleAbortCmd tag s) := keeps_mbSubmit (fun c => by simp)
theorem keeps_tabletClaim (tag : Byte) (s : State) : Keeps s (tabletClaimCmd tag s) := keeps_mbSubmit (fun _ => rfl)

theorem keeps_sdLoad (tag : Byte) (file : Option (List Byte)) (s : State) : Keeps s (sdLoadCmd tag file s) := by
  refine keeps_mbSubmit (fun c => ?_)
  split
  · simp
  · split <;> simp

@[simp] theorem bundleVerify_mask {l : List Part} (hupd : Part.upd ∈ l) (c : Chip) : mask l (bundleVerify c).2 = mask l c := by
  unfold bundleVerify
  dsimp only
  repeat' split
  all_goals simp [hupd]

theorem keeps_bundleVerify (tag : Byte) (s : State) : Keeps s (bundleVerifyCmd tag s) := by
  refine keeps_mbSubmit (fun c => ?_)
  split
  · simp
  · split <;> simp

theorem keeps_bundleActivate (tag : Byte) (s : State) : Keeps s (bundleActivateCmd tag s) := by
  refine keeps_mbSubmit (fun c => ?_)
  dsimp only
  split <;> simp

theorem keeps_drill (tag : Byte) (s : State) : Keeps s (drillCmd tag s) := by
  refine keeps_mbSubmit (fun c => ?_)
  dsimp only
  split <;> simp

/-- A write of `MB_CMD` moves the core as its command does. -/
theorem moves_mbCmd (code : Nat) (tag : Byte) (s : State) : Moves s (mbCmd code tag s) := by
  have hs (ok : Chip → Bool) : Moves s (onChip (mbSubmit code tag false ok id) s) := (keeps_mbSubmit (fun _ => rfl)).moves
  unfold mbCmd
  dsimp only
  split
  · exact moves_loadImage tag s
  · exact (keeps_commitImage tag s).moves
  · exact moves_amendImage tag s
  · exact (keeps_readImage tag s).moves
  iterate 7 exact hs _
  · exact (keeps_drill tag s).moves
  · exact (keeps_tabletClaim tag s).moves
  · exact (keeps_deviceKey tag s).moves
  · exact (keeps_bundleBegin tag s).moves
  · exact (keeps_bundleChunk tag s).moves
  · exact (keeps_sdLoad tag _ s).moves
  · exact (keeps_bundleVerify tag s).moves
  · exact (keeps_bundleActivate tag s).moves
  · exact (keeps_bundleAbort tag s).moves
  · exact (keeps_keySet tag s).moves
  · exact (keeps_settingsRead tag s).moves
  · exact (keeps_settingsWrite tag s).moves
  · exact (keeps_keyWipe tag _ s).moves
  · exact hs _

/-! ### Writes by the host -/

/-- A write kept where a condition holds changes the chip as it says. -/
theorem keeps_keepIf {b : Bool} {f : Chip → Chip} {s t : State} (h : keepIf b f s = some t)
    (hf : core (mask quiet (f s.c)) = core (mask quiet s.c)) : Keeps s t := by
  unfold keepIf at h
  split at h
  · cases h
    exact keeps_onChip hf
  · cases h

theorem keeps_some_onChip {f : Chip → Chip} {s t : State} (h : some (onChip f s) = some t)
    (hf : core (mask quiet (f s.c)) = core (mask quiet s.c)) : Keeps s t := by
  cases h
  exact keeps_onChip hf

theorem keeps_some {s t : State} (h : some s = some t) : Keeps s t := by
  cases h
  exact .refl s

theorem keeps_writeInt {a : Nat} {v : Word} {s t : State} (h : writeInt a v s = some t) : Keeps s t := by
  unfold writeInt at h
  repeat' split at h
  · exact keeps_keepIf h (by simp)
  · exact keeps_keepIf h (by simp)
  · exact keeps_keepIf h (by simp)
  · exact keeps_keepIf h (by simp)
  · exact keeps_keepIf h (by simp)
  · exact keeps_some_onChip h (by simp)
  · exact keeps_some h

theorem keeps_writeQueues {a : Nat} {v : Word} {s t : State} (h : writeQueues a v s = some t) : Keeps s t := by
  unfold writeQueues at h
  split at h
  · exact keeps_keepIf h (by simp [dropRestStep])
  · exact keeps_keepIf h (by simp)
  · exact keeps_keepIf h (by simp)
  · exact keeps_keepIf h (by simp)
  · exact keeps_some_onChip h (by simp)
  · exact keeps_some_onChip h (by simp)
  · exact keeps_keepIf h (by simp)
  · exact keeps_some h

theorem keeps_writeTiming {a : Nat} {v : Word} {s t : State} (h : writeTiming a v s = some t) : Keeps s t := by
  unfold writeTiming at h
  split at h
  · exact keeps_keepIf h (by simp)
  · exact keeps_keepIf h (by simp)
  · exact keeps_keepIf h (by simp)
  · exact keeps_some_onChip h (by simp)
  · exact keeps_some_onChip h (by simp)
  · exact keeps_keepIf h (by simp)
  · exact keeps_some h

theorem keeps_writeScan {k a : Nat} {v : Word} {s t : State} (h : writeScan k a v s = some t) : Keeps s t := by
  unfold writeScan at h
  dsimp only at h
  split at h
  · exact keeps_keepIf h (by simp)
  · exact keeps_keepIf h (by simp)
  · exact keeps_keepIf h (by simp)
  · exact keeps_keepIf h (by simp)
  · exact keeps_some h

theorem keeps_writeCount {a : Nat} {v : Word} {s t : State} (h : writeCount a v s = some t) : Keeps s t := by
  unfold writeCount at h
  split at h
  · exact keeps_keepIf h (by simp)
  · exact keeps_some_onChip h (by simp)
  · exact keeps_some_onChip h (by simp)
  · exact keeps_keepIf h (by simp)
  · exact keeps_some h

theorem keeps_writeInj {k a : Nat} {v : Word} {s t : State} (h : writeInj k a v s = some t) : Keeps s t := by
  unfold writeInj at h
  dsimp only at h
  split at h
  iterate 6 exact keeps_keepIf h (by simp)
  · split at h
    · cases h
    · have hw : Keeps s (onChip (w1cApply (0xC100 + 0x20 * k + 0x18) v 0) s) := keeps_onChip (by simp)
      split at h
      · exact hw.trans (keeps_keepIf h (by simp))
      · exact hw.trans (keeps_some h)
  · exact keeps_some h

theorem keeps_writePort {p a : Nat} {v : Word} {s t : State} (h : writePort p a v s = some t) : Keeps s t := by
  unfold writePort at h
  split at h
  · exact keeps_keepIf h (by simp)
  · exact keeps_keepIf h (by simp)
  · exact keeps_keepIf h (by simp)
  · exact keeps_some h

theorem keeps_writeTap {k a : Nat} {v : Word} {s t : State} (h : writeTap k a v s = some t) : Keeps s t := by
  unfold writeTap at h
  dsimp only at h
  repeat' split at h
  · exact keeps_keepIf h (by simp)
  · exact keeps_keepIf h (by simp)
  · exact keeps_keepIf h (by simp)
  · exact keeps_some h

theorem moves_writeMailbox {a : Nat} {v : Word} {s t : State} (h : writeMailbox a v s = some t) : Moves s t := by
  unfold writeMailbox at h
  repeat' split at h
  · cases h
    exact moves_mbCmd _ _ s
  · cases h
  · exact (keeps_keepIf h (by simp)).moves
  · exact (keeps_keepIf h (by simp [setParam])).moves
  · exact (keeps_keepIf h (by simp)).moves
  · exact (keeps_some h).moves

theorem keeps_writeMailbox {a : Nat} {v : Word} {s t : State} (ha : a ≠ 0) (h : writeMailbox a v s = some t) : Keeps s t := by
  unfold writeMailbox at h
  rw [if_neg ha] at h
  repeat' split at h
  · exact keeps_keepIf h (by simp)
  · exact keeps_keepIf h (by simp [setParam])
  · exact keeps_keepIf h (by simp)
  · exact keeps_some h

/-- What a choice answers, one of its two sides answers. -/
theorem of_ite_some {p : Prop} [Decidable p] {x y : Option State} {t : State} {Q : Prop} (h : (if p then x else y) = some t)
    (hx : p → x = some t → Q) (hy : ¬p → y = some t → Q) : Q := by
  split at h
  · next hp => exact hx hp h
  · next hp => exact hy hp h

/-- A write of Window A but of `MB_CMD` keeps the core. -/
theorem keeps_writeA {a : Nat} {v : Word} {s t : State} (ha : a ≠ 0x1000) (h : writeA a v s = some t) : Keeps s t :=
  of_ite_some h (fun _ h => of_ite_some h (fun _ h => keeps_some_onChip h (by simp)) fun _ h => keeps_some h) fun _ h =>
  of_ite_some h (fun _ h => keeps_writeMailbox (by omega) h) fun _ h =>
  of_ite_some h (fun _ h => keeps_writeInt h) fun _ h =>
  of_ite_some h (fun _ h => keeps_writeQueues h) fun _ h =>
  of_ite_some h (fun _ h => keeps_writeTiming h) fun _ h =>
  of_ite_some h (fun _ h => keeps_keepIf h (by simp)) fun _ h =>
  of_ite_some h (fun _ h => keeps_keepIf h (by simp)) fun _ h =>
  of_ite_some h (fun _ h => keeps_keepIf h (by simp)) fun _ h =>
  of_ite_some h (fun _ h => keeps_some h) fun _ h =>
  of_ite_some h (fun _ h => keeps_writeScan h) fun _ h =>
  of_ite_some h (fun _ h => keeps_some h) fun _ h =>
  of_ite_some h (fun _ h => of_ite_some h (fun _ h => keeps_keepIf h (by simp)) fun _ h => keeps_some h) fun _ h =>
  of_ite_some h (fun _ h => keeps_some h) fun _ h =>
  of_ite_some h (fun _ h => keeps_writeCount h) fun _ h =>
  of_ite_some h (fun _ h => keeps_keepIf h (by simp)) fun _ h =>
  of_ite_some h (fun _ h => keeps_writeInj h) fun _ h =>
  of_ite_some h (fun _ h => keeps_keepIf h (by simp)) fun _ h =>
  of_ite_some h (fun _ h => keeps_writePort h) fun _ h =>
  of_ite_some h (fun _ h => keeps_writeTap h) fun _ h => keeps_some h

theorem moves_writeA {a : Nat} {v : Word} {s t : State} (h : writeA a v s = some t) : Moves s t := by
  by_cases ha : a = 0x1000
  · subst ha
    exact moves_writeMailbox (a := 0) h
  · exact (keeps_writeA ha h).moves

theorem keeps_writeB {a : Nat} {l : List Byte} {s t : State} (h : writeB a l s = some t) : Keeps s t := by
  unfold writeB at h
  split at h
  · split at h
    · cases h
    · cases h
      exact ⟨rfl, fun m => Memory.wf_writeBytes l s.mem a m, rfl⟩
  · split at h
    · exact keeps_keepIf h (by simp)
    · exact keeps_keepIf h (by simp)
    · exact keeps_some_onChip h (by simp)
    · exact keeps_some h

/-- Of the two words an 8-byte write of Window A reaches, one at most is `MB_CMD`. -/
theorem moves_hostWrite {w a : Nat} {l : List Byte} {s t : State} (h : hostWrite w a l s = some t) : Moves s t := by
  unfold hostWrite at h
  split at h
  · cases h
  · split at h
    · dsimp only at h
      split at h
      · exact moves_writeA h
      · obtain ⟨u, h1, h2⟩ := Option.bind_eq_some_iff.1 h
        by_cases ha : a = 0x1000
        · exact (moves_writeA h1).keeps (keeps_writeA (by omega) h2)
        · exact (keeps_writeA ha h1).then (moves_writeA h2)
    · exact (keeps_writeB h).moves
    · exact (keeps_some h).moves
    · cases h

theorem keeps_tapStore {x : TapSt} {n : Nat} {s t : State} (h : tapStore x n s = some t) : Keeps s t := by
  induction n generalizing t with
  | zero => exact keeps_some h
  | succ n ih =>
    obtain ⟨u, h1, h2⟩ := Option.bind_eq_some_iff.1 h
    refine (ih h1).trans ?_
    split at h2
    · exact keeps_writeB h2
    · exact keeps_some h2

theorem keeps_tapEnd {k : Nat} {s t : State} (h : tapEnd k s = some t) : Keeps s t := by
  unfold tapEnd at h
  dsimp only at h
  split at h
  · obtain ⟨u, h1, rfl⟩ := Option.map_eq_some_iff.1 h
    exact (keeps_tapStore h1).trans (keeps_onChip (by simp))
  · exact keeps_some_onChip h (by simp)

@[simp] theorem readStepA_core (cyc a : Nat) (c : Chip) : core (mask quiet (readStepA cyc a c).2) = core (mask quiet c) := by
  unfold readStepA
  split
  · simp
  · split <;> simp

theorem keeps_hostRead (w a len cyc : Nat) (s : State) : Keeps s (hostRead w a len cyc s) := by
  unfold hostRead
  split
  · split
    · exact keeps_onChip (by simp)
    · exact keeps_onChip (by simp)
  · exact keeps_onChip (by simp)
  · exact keeps_onChip (by simp)

/-! ### Every command -/

/-- What a command that may be misused answers, its use answers. -/
theorem of_ite_next {p : Prop} [Decidable p] {x y : Host.Outcome State Fault Refusal} {t : State} {Q : Prop} (h : (if p then x else y) = .next t)
    (hx : p → x = .next t → Q) (hy : ¬p → y = .next t → Q) : Q := by
  split at h
  · next hp => exact hx hp h
  · next hp => exact hy hp h

theorem not_misuse_next {w a : Nat} {t : State} {Q : Prop} (h : misuse w a = .next t) : Q := by cases h

theorem moves_next {s t : State} (h : (Host.Outcome.next s : Host.Outcome State Fault Refusal) = .next t) : Moves s t := by
  cases h
  exact moves_refl s

theorem next_iff {s t : State} (h : (Host.Outcome.next s : Host.Outcome State Fault Refusal) = .next t) : t = s := by
  cases h
  rfl

/-- A write that may be misused moves the core as the write does. -/
theorem moves_written {w a : Nat} {o : Option State} {s t : State} (h : written w a o = .next t) (ho : ∀ u, o = some u → Moves s u) : Moves s t := by
  cases o with
  | none => exact not_misuse_next h
  | some u =>
    cases h
    exact ho _ rfl

theorem moves_enterCold (cause sensor : Nat) (temp : Int) (sup : BitVec 4) {s u : State} (h : u.pending = s.pending) :
    Moves s (enterCold cause sensor temp sup u) :=
  ⟨h, fun _ => rfl, .cold⟩

theorem moves_powerOn (s : State) {t : State} (h : exec .powerOn s = .next t) : Moves s t := by
  cases h
  exact ⟨rfl, fun _ => rfl, .cold⟩

theorem moves_resetReleased (straps : BitVec 6) {s t : State} (h : exec (.resetReleased straps) s = .next t) : Moves s t := by
  cases h
  refine ⟨rfl, id, ?_⟩
  rw [onChip_c]
  split
  · exact .move .same
  · next ha =>
    have hc : s.c.dev.state = .cold := by
      simp [awake] at ha
      exact ha.1.1
    dsimp only
    split
    · exact .move .same
    · rw [startBoot_core]
      exact .boot hc

theorem moves_coldSensorRead (temps : List (Nat × Int)) {s t : State} (h : exec (.coldSensorRead temps) s = .next t) : Moves s t := by
  cases h
  refine ⟨rfl, id, ?_⟩
  rw [onChip_c]
  split
  · exact .move .same
  · next ha =>
    have hc : s.c.dev.state = .cold := by simpa [awake] using ha
    dsimp only
    generalize hd : forEach temps _ s.c = d
    have hdc : core d = core s.c := core_of_blank (by
      rw [← hd]
      exact core_forEach (fun r c => by split <;> simp) temps s.c)
    cases hb : (d.power.hold && coolEnough d)
    · exact .move (hdc ▸ .same)
    · rw [when_true, startBoot_core, hdc]
      exact .boot hc

theorem moves_thermalTrip (sensor : Nat) (temp : Int) {s t : State} (h : exec (.thermalTrip sensor temp) s = .next t) : Moves s t := by
  obtain rfl := next_iff h
  split
  · exact moves_enterCold 3 sensor temp 0 rfl
  · exact moves_refl s

theorem moves_sbResetWrite (v : Byte) (within : Bool) {s t : State} (h : exec (.sbResetWrite v within) s = .next t) : Moves s t := by
  obtain rfl := next_iff h
  unfold sbReset
  split
  · exact (keeps_onChip (by simp)).moves
  · split
    · split
      · exact moves_enterCold 5 0 0 0 rfl
      · exact (keeps_onChip (by simp)).moves
    · exact (keeps_onChip (by simp)).moves

theorem handoverDue_state {n : Nat} {c : Chip} (h : handoverDue n c = true) : c.dev.state = .handover := by
  simp [handoverDue] at h
  exact h.1

theorem moves_qicWindowEnd (l : Nat) (counts : List (Nat × Nat)) (skewNs : Nat) {s t : State}
    (h : exec (.qicWindowEnd l counts skewNs) s = .next t) : Moves s t := by
  refine moves_of_next h ?_
  split
  · rfl
  · split
    · split
      · simp
      · rfl
    · simp
    · rfl

/-- The commands but TICK_BOUNDARY: those of power, the mailbox, the image, the tablet and the host's accesses first; every other
changes parts beside the core. -/
theorem exec_moves {i : Instr} {s t : State} (hi : ∀ rep, i ≠ .tickBoundary rep) (hc : i ≠ .handoverComplete) (h : exec i s = .next t) : Moves s t := by
  cases i with
  | tickBoundary rep => exact absurd rfl (hi rep)
  | powerOn => exact moves_powerOn s h
  | resetAsserted =>
    obtain rfl := next_iff h
    split
    · exact moves_enterCold 2 0 0 0 rfl
    · exact (keeps_onChip (by simp)).moves
  | supplyFault supplies =>
    obtain rfl := next_iff h
    split
    · exact moves_refl s
    · exact moves_enterCold 4 0 0 supplies rfl
  | resetReleased straps => exact moves_resetReleased straps h
  | coldSensorRead temps => exact moves_coldSensorRead temps h
  | thermalTrip sensor temp => exact moves_thermalTrip sensor temp h
  | sbResetWrite v within => exact moves_sbResetWrite v within h
  | bootCompletes rep =>
    exact moves_of_move h (coreMove_when fun hb => bootRuns_move rep (by simp at hb; exact hb.1))
  | sensorRead temps => exact moves_of_next h (core_when (core_forEach (fun r c => by simp) temps) _ _)
  | loadImage tag => exact next_iff h ▸ moves_loadImage tag s
  | amendImage tag => exact next_iff h ▸ moves_amendImage tag s
  | commitImage tag => exact next_iff h ▸ (keeps_commitImage tag s).moves
  | readImage tag => exact next_iff h ▸ (keeps_readImage tag s).moves
  | drill tag => exact next_iff h ▸ (keeps_drill tag s).moves
  | deviceKey tag => exact next_iff h ▸ (keeps_deviceKey tag s).moves
  | settingsRead tag => exact next_iff h ▸ (keeps_settingsRead tag s).moves
  | bundleActivate tag => exact next_iff h ▸ (keeps_bundleActivate tag s).moves
  | sdLoad tag file => exact next_iff h ▸ ((keeps_onChip (by simp)).trans (keeps_sdLoad tag file _)).moves
  | keyWipe tag file => exact next_iff h ▸ ((keeps_onChip (by simp)).trans (keeps_keyWipe tag file _)).moves
  | imageValidated => exact moves_of_move h (validate_move s.c)
  | commitDeadline => exact moves_of_move h (deadlineAt_move false _ s.c)
  | shadowScrubError => exact moves_of_move h (coreMove_when fun _ => refuse_move _ s.c)
  | commit => exact moves_of_move h (commitStep_move false _ s.c)
  | firstImageDeferredCommit => exact moves_of_move h (commitStep_move true _ s.c)
  | wakeFault engines regions => exact moves_of_move h (wakeFault_move engines regions s.c)
  | groupWakeComplete g =>
    refine moves_of_move h (coreMove_when fun _ => ?_)
    rw [← core_of_blank (a := wakeDone g _ _ s.c) (b := s.c) (by simp)]
    exact deadlineAt_move false _ _
  | signalBoxResume =>
    refine moves_of_move h (coreMove_when fun _ => ?_)
    rw [← core_of_blank (a := boxUp s.c) (b := s.c) (by simp)]
    exact replaceResume_move _
  | hubHealthLost => exact moves_of_move h (coreMove_when fun _ => hubLost_core s.c ▸ .dark)
  | strapInterlockTimeout => exact moves_of_move h (coreMove_when fun _ => giveUp_move 0xA _ s.c)
  | holderLeaseEnd => exact moves_of_move h (coreMove_when fun _ => giveUp_move 9 _ s.c)
  | selfDiagnosedRelease => exact moves_of_move h (selfRelease_move _ s.c)
  | drillSwap => exact moves_of_move h (drillSwap_move _ s.c)
  | standbyTakeover => exact moves_of_move h (coreMove_when fun hd => takeOver_move _ _ (takeDue_state hd))
  | handoverComplete => exact absurd rfl hc
  | intlkInPresent | intlkInReleased | echoInChange _ =>
    exact moves_of_next h (by dsimp only [when]; split <;> simp)
  | qicWindowEnd lane counts skewNs => exact moves_qicWindowEnd lane counts skewNs h
  | registerWrite w a l =>
    exact of_ite_next h (fun _ h => moves_written h fun u => moves_hostWrite) fun _ h => moves_next h
  | tablePortDone k =>
    exact of_ite_next h (fun _ h => moves_written h fun u hu => (keeps_tapEnd hu).moves) fun _ h => moves_next h
  | latchedRead w a len cyc =>
    exact of_ite_next h (fun _ h => moves_next h) fun _ h =>
      of_ite_next h (fun _ h => next_iff h ▸ (keeps_hostRead w a len _ s).moves) fun _ h => not_misuse_next h
  | ohTxProduce p prod =>
    exact of_ite_next h (fun _ h => moves_next h) fun _ h =>
      of_ite_next h (fun _ h => not_misuse_next h) fun _ h => moves_of_next h (by simp)
  | ohTxTake p gap stamp =>
    exact of_ite_next h (fun _ h => moves_next h) fun _ h =>
      of_ite_next h (fun _ h => not_misuse_next h) fun _ h => moves_of_next h (by simp)
  | interruptWrite enable v =>
    exact of_ite_next h (fun _ h => moves_next h) fun _ h =>
      of_ite_next h (fun _ h => not_misuse_next h) fun _ h => moves_of_next h (by cases enable <;> simp)
  | laneEqWrite _ _ | traceWrite _ _ _ | scanStart _ _ | pcntSelWrite _ _ _ | injectionArm _ | tablePortGo _ _ =>
    exact of_ite_next h (fun _ h => of_ite_next h (fun _ h => moves_of_next h (by simp)) fun _ h => not_misuse_next h) fun _ h => moves_next h
  | injectEnWrite v =>
    exact of_ite_next h (fun _ h => of_ite_next h (fun _ h => moves_of_next h (by simp)) fun _ h => not_misuse_next h) fun _ h => moves_next h
  | defectCtrlWrite _ | corrCtrlWrite _ | t1SwCtrlWrite _ =>
    exact of_ite_next h (fun _ h => not_misuse_next h) fun _ h => moves_of_next h (by simp)
  | scanComplete k poison => exact of_ite_next h (fun _ h => moves_of_next h (by simp)) fun _ h => moves_next h
  | dpllLock _ | dpllLockLoss _ => exact moves_of_next h (by dsimp only; split <;> simp)
  | ohTxPacketTimeout _ | ptpTxTimestamp _ | corrWindowEnd _ _ | holdoffExpiry _ _ | wtrExpiry _ | componentHandoverEnd =>
    exact moves_of_next h (by split <;> simp)
  | _ => exact moves_of_next h (by simp)

/-! ### The block -/

theorem StepMove.inv {a b : Core} (h : StepMove a b) (i : CoreInv a) : CoreInv b := by
  cases h with
  | move h => exact h.inv i
  | cold => constructor <;> simp
  | boot h =>
    obtain ⟨hl, hh, hi, hf, hr⟩ := i
    constructor
    · simp
    · simp
    · simp
    · intro p hp
      have := hf p hp
      cases p <;> simp_all
    · intro k p hp hk
      have := hr k p hp hk
      simp_all

theorem StepMove.tick {a b : Core} (h : StepMove a b) : b.tick = a.tick ∨ (b.tick = 0 ∧ (b.state = .cold ∨ b.state = .boot)) := by
  cases h with
  | move h => exact .inl h.tick
  | cold => exact .inr ⟨rfl, .inl rfl⟩
  | boot h => exact .inr ⟨rfl, .inr rfl⟩

/-- A part whose first image is committed is in STARTING. -/
theorem CoreInv.started_state {a : Core} (i : CoreInv a) {k : Nat} (h : a.change = some (k, true)) (hi : a.image = false) : a.state = .starting := by
  have hk : k = 1 := by
    refine Decidable.byContradiction fun hne => ?_
    have := i.image (i.later k true h hne)
    simp_all
  exact i.first true (hk ▸ h)

/-- Under the invariant a move changes the device state as the table of R33 has it. -/
theorem CoreMove.state {a b : Core} (h : CoreMove a b) (i : CoreInv a) : b.state = a.state ∨ (a.state, b.state) ∈ tableMoves := by
  cases h
  case placed k p hc =>
    dsimp only
    split
    · next hk => rcases i.first_state hc hk with h1 | h1 <;> simp [h1, tableMoves]
    · exact .inl rfl
  case refused k p hc =>
    dsimp only
    split
    · next hk => rcases i.first_state hc hk with h1 | h1 <;> simp [h1, tableMoves]
    · exact .inl rfl
  case started b k hc hi => simp [i.started_state hc hi, tableMoves]
  case stood k hc hi => simp [i.started_state hc hi, tableMoves]
  case loaded h => rcases h with h | h <;> simp [h, tableMoves]
  case gaveUp =>
    dsimp only
    split
    · next h => simp [h, tableMoves]
    · exact .inl rfl
  all_goals simp_all [tableMoves]

/-- Outside COLD a tick boundary runs the tick's steps; in COLD there is no tick (R32). -/
theorem exec_tickBoundary_cold {s : State} (rep : TickRep) (h : s.c.dev.state = .cold) : exec (.tickBoundary rep) s = .next s := by
  have hb : awake s.c = false := by simp [awake, h]
  unfold exec execTickBoundary
  simp only [onChip, hb, when]
  rfl

theorem exec_tickBoundary_awake {s : State} (rep : TickRep) (h : s.c.dev.state ≠ .cold) :
    exec (.tickBoundary rep) s = .next { s with c := tickStep rep s.c } := by
  unfold exec execTickBoundary
  simp only [onChip, awake_of h, when_true]

theorem tickBoundary_next {s t : State} {rep : TickRep} (hd : s.c.dev.state ≠ .cold) (h : exec (.tickBoundary rep) s = .next t) :
    t.mem = s.mem ∧ t.pending = s.pending ∧ t.c = tickStep rep s.c := by
  have ht : t = { s with c := tickStep rep s.c } := next_iff ((exec_tickBoundary_awake rep hd).symm.trans h)
  rw [ht]
  exact ⟨rfl, rfl, rfl⟩

theorem tickBoundary_next_cold {s t : State} {rep : TickRep} (hd : s.c.dev.state = .cold) (h : exec (.tickBoundary rep) s = .next t) : t = s :=
  next_iff ((exec_tickBoundary_cold rep hd).symm.trans h)

/-- The end of a hand-over, where it is due, makes one of its moves and changes nothing outside the chip. -/
theorem exec_handoverComplete {s t : State} (h : exec .handoverComplete s = .next t) :
    t.pending = s.pending ∧ t.mem = s.mem ∧ TickMove (core s.c) (core t.c) := by
  obtain rfl := next_iff h
  refine ⟨rfl, rfl, ?_⟩
  rw [onChip_c]
  cases hd : handoverDue (now s.c) s.c
  · rw [when_false]
    exact .move .same
  · rw [when_true]
    exact handoverComplete_move _ (handoverDue_state hd)

/-- A command is the tick's, the end of the hand-over, or one of the others. -/
theorem instr_cases (i : Instr) : (∃ rep, i = .tickBoundary rep) ∨ i = .handoverComplete ∨ ((∀ rep, i ≠ .tickBoundary rep) ∧ i ≠ .handoverComplete) := by
  by_cases h : ∃ rep, i = .tickBoundary rep
  · exact .inl h
  · by_cases hc : i = .handoverComplete
    · exact .inr (.inl hc)
    · exact .inr (.inr ⟨fun rep hr => h ⟨rep, hr⟩, hc⟩)

theorem MemOk.of_eq {s t : State} (h : t.mem = s.mem) (hm : MemOk s) : MemOk t := by
  unfold MemOk at *
  rw [h]
  exact hm

/-- Every command keeps the invariant. -/
theorem exec_inv {i : Instr} {s t : State} (hs : StateInv s) (h : exec i s = .next t) : StateInv t := by
  obtain ⟨hm, hc⟩ := (stateInv_iff s).1 hs
  refine (stateInv_iff t).2 ?_
  rcases instr_cases i with ⟨rep, rfl⟩ | rfl | ⟨hi, hh⟩
  · by_cases hd : s.c.dev.state = .cold
    · obtain rfl := tickBoundary_next_cold hd h
      exact ⟨hm, hc⟩
    · obtain ⟨hmem, -, ht⟩ := tickBoundary_next hd h
      rw [ht]
      exact ⟨MemOk.of_eq hmem hm, tickStep_inv rep hc⟩
  · obtain ⟨-, hmem, m⟩ := exec_handoverComplete h
    exact ⟨MemOk.of_eq hmem hm, m.inv hc⟩
  · have m := exec_moves hi hh h
    exact ⟨m.mem hm, m.core.inv hc⟩

/-- Settles O3: a step carries out the command at the front of the queue, and every command keeps the invariant. -/
theorem stepKeepsInvariant : Obligations.StepKeepsInvariant := by
  intro s t hs h
  unfold step at h
  split at h
  · obtain rfl := next_iff h
    exact hs
  · next i rest _ => exact exec_inv (s := { s with pending := rest }) ((stateInv_iff _).2 ((stateInv_iff s).1 hs)) h

/-- Settles O4: the tick's steps pass the states `TickStates` lists, the end of a hand-over may stand a part by that gave the
tablet up, and every other command makes one move of the table. -/
theorem statesFollowTheTable : Obligations.StatesFollowTheTable := by
  intro s t i hs h
  obtain ⟨-, hc⟩ := (stateInv_iff s).1 hs
  rw [← core_dev_state t.c, ← core_dev_state s.c]
  rcases instr_cases i with ⟨rep, rfl⟩ | rfl | ⟨hi, hh⟩
  · by_cases hd : s.c.dev.state = .cold
    · obtain rfl := tickBoundary_next_cold hd h
      exact .inl rfl
    · obtain ⟨-, -, ht⟩ := tickBoundary_next hd h
      rw [ht, core_dev_state, core_dev_state]
      rcases tickStep_state rep hc with h1 | h1 | h1 | h1
      · exact .inl h1
      · exact .inr (.inr (.inl h1))
      · exact .inr (.inr (.inr (.inl ⟨.inr ⟨rep, rfl⟩, h1⟩)))
      · exact .inr (.inr (.inr (.inr ⟨⟨rep, rfl⟩, h1⟩)))
  · obtain ⟨-, -, m⟩ := exec_handoverComplete h
    generalize core t.c = b at m ⊢
    cases m with
    | move m => exact (m.state hc).imp_right fun k => .inr (.inl k)
    | stoodBy hs => exact .inr (.inr (.inr (.inl ⟨.inl rfl, hs, rfl⟩)))
  · have m := (exec_moves hi hh h).core
    generalize core t.c = b at m ⊢
    cases m with
    | move m => exact (m.state hc).imp_right fun k => .inr (.inl k)
    | cold => exact .inr (.inl rfl)
    | boot hb => exact .inr (.inr (.inl (by simp [hb, tableMoves])))

/-- The tick's steps leave the overhead queue and the table access ports as they are. -/
theorem tickStep_keeps (rep : TickRep) (c : Chip) : (tickStep rep c).oq = c.oq ∧ (tickStep rep c).taps = c.taps := by
  have hm := tickStep_mask (l := [.dev, .mb, .int, .nq, .notice, .host, .img, .cm, .jct, .eng, .isl, .cwy, .ctx, .line, .power, .dfx, .pm, .prot, .tim, .upd, .pair, .dep, .free])
    (by simp) (by simp) (by simp) (by simp) (by simp) (by simp) (by simp) (by simp) (by simp) (by simp) (by simp) (by simp) (by simp)
    (by simp) (by simp) (by simp) (by simp) (by simp) (by simp) (by simp) (by simp) (by simp) (by simp) rep c
  exact ⟨oq_of_mask hm (by simp), taps_of_mask hm (by simp)⟩

/-- Settles O5: the tick's steps add one, and no other command's move changes the count but into COLD or BOOT. -/
theorem timeAdvances : Obligations.TimeAdvances := by
  refine ⟨fun s rep hs => ?_, fun s rep hs => exec_tickBoundary_cold rep hs, fun s t i h => ?_⟩
  · obtain ⟨hoq, htaps⟩ := tickStep_keeps rep s.c
    exact ⟨_, exec_tickBoundary_awake rep hs, tickStep_tick rep s.c, rfl, rfl, hoq, htaps⟩
  · rcases instr_cases i with hi | rfl | ⟨hi, hh⟩
    · exact .inl hi
    · obtain ⟨-, -, m⟩ := exec_handoverComplete h
      exact .inr (.inl m.tick)
    · exact .inr (exec_moves hi hh h).core.tick

end Sys2Proof.Machine
end

section
/-!
PROOFS. What a step does with the command at the front of the queue (R12, R418) and the machine right after reset (R31, R33, R493).
-/
namespace Sys2Proof.Machine
open Sys2Proof

/-! ### The front of the queue -/

/-- A command ends in a next state or stops as an unpredictable access. -/
def Ends (o : Host.Outcome State Fault Refusal) : Prop := (∃ t, o = .next t) ∨ ∃ w a, o = .fault (.unpredictableAccess w a)

theorem ends_next (t : State) : Ends (.next t) := .inl ⟨t, rfl⟩

theorem ends_misuse (w a : Nat) : Ends (misuse w a) := .inr ⟨w, a, rfl⟩

theorem ends_ite {p : Prop} [Decidable p] {a b : Host.Outcome State Fault Refusal} (ha : Ends a) (hb : Ends b) : Ends (if p then a else b) := by
  split
  · exact ha
  · exact hb

theorem ends_written (w a : Nat) (o : Option State) : Ends (written w a o) := by
  cases o
  · exact ends_misuse w a
  · exact ends_next _

/-- A command that carries no register or memory access has a next state. -/
theorem exec_next (i : Instr) (s : State) (h : mayStop i = false) : ∃ t, exec i s = .next t := by
  cases i with
  | laneEqWrite _ _ | traceWrite _ _ _ | ohTxProduce _ _ | ohTxTake _ _ _ | scanStart _ _ | pcntSelWrite _ _ _ | injectEnWrite _
  | injectionArm _ | defectCtrlWrite _ | corrCtrlWrite _ | t1SwCtrlWrite _ | registerWrite _ _ _ | interruptWrite _ _
  | latchedRead _ _ _ _ | tablePortGo _ _ | tablePortDone _ => nomatch h
  | scanComplete k poison =>
    unfold exec execScanComplete
    dsimp only
    split
    · exact ⟨_, rfl⟩
    · exact ⟨_, rfl⟩
  | _ => exact ⟨_, rfl⟩

/-- A command that carries an access ends in a next state or stops there. -/
theorem exec_ends (i : Instr) (s : State) : Ends (exec i s) := by
  cases h : mayStop i with
  | false => exact .inl (exec_next i s h)
  | true =>
    cases i with
    | laneEqWrite _ _ | traceWrite _ _ _ | scanStart _ _ | pcntSelWrite _ _ _ | injectEnWrite _ | injectionArm _ | tablePortGo _ _ =>
      exact ends_ite (ends_ite (ends_next _) (ends_misuse _ _)) (ends_next _)
    | latchedRead _ _ _ _ => exact ends_ite (ends_next _) (ends_ite (ends_next _) (ends_misuse _ _))
    | ohTxProduce _ _ | ohTxTake _ _ _ | interruptWrite _ _ =>
      exact ends_ite (ends_next _) (ends_ite (ends_misuse _ _) (ends_next _))
    | defectCtrlWrite _ | corrCtrlWrite _ | t1SwCtrlWrite _ => exact ends_ite (ends_misuse _ _) (ends_next _)
    | registerWrite _ _ _ | tablePortDone _ => exact ends_ite (ends_written _ _ _) (ends_next _)
    | _ => nomatch h

/-- No command touches the queue. -/
theorem exec_pending {i : Instr} {s t : State} (h : exec i s = .next t) : t.pending = s.pending := by
  rcases instr_cases i with ⟨rep, rfl⟩ | rfl | ⟨hi, hc⟩
  · by_cases hd : s.c.dev.state = .cold
    · rw [tickBoundary_next_cold hd h]
    · exact (tickBoundary_next hd h).2.1
  · exact (exec_handoverComplete h).1
  · exact (exec_moves hi hc h).pending

/-- Settles O1: `step` by its definition, the rest by the ends and the moves of the commands. -/
theorem stepTakesFront : Obligations.StepTakesFront := by
  refine ⟨fun s i => rfl, fun s hs => ?_, fun i s t h => exec_pending h, exec_next, exec_ends⟩
  unfold step
  rw [hs]

/-! ### The machine right after reset -/

theorem readA_scan (c : Chip) (cyc : Nat) {k a : Nat} (hk : k < 4) (ha : a < 0x20) : readA c cyc (0x9000 + 32 * k + a) = readScan (getScan c k) a := by
  have hd : (0x9000 + 32 * k + a - 0x9000) / 0x20 = k := by omega
  have hm : (0x9000 + 32 * k + a) % 0x20 = a := by omega
  unfold readA
  rw [if_neg (by omega), if_neg (by omega), if_neg (by omega), if_neg (by omega), if_neg (by omega), if_neg (by omega), if_pos (by omega), hd, hm]

theorem readA_pcnt (c : Chip) (cyc : Nat) {n a : Nat} (hn : n < 256) (ha : a < 16) : readA c cyc (0xA000 + 16 * n + a) = readPcnt c n a := by
  have hd : (0xA000 + 16 * n + a - 0xA000) / 16 = n := by omega
  have hm : (0xA000 + 16 * n + a) % 16 = a := by omega
  unfold readA
  rw [if_neg (by omega), if_neg (by omega), if_neg (by omega), if_neg (by omega), if_neg (by omega), if_neg (by omega), if_neg (by omega),
    if_neg (by omega), if_pos (by omega), hd, hm]

theorem readA_snap (c : Chip) (cyc : Nat) {n a : Nat} (hn : n < 256) (ha : a < 8) :
    readA c cyc (0xB000 + 8 * n + a) = if a = 0 then lo32 (snapOf c n) else hi32 (snapOf c n) := by
  have hd : (0xB000 + 8 * n + a - 0xB000) / 8 = n := by omega
  have hm : (0xB000 + 8 * n + a) % 8 = a := by omega
  unfold readA
  rw [if_neg (by omega), if_neg (by omega), if_neg (by omega), if_neg (by omega), if_neg (by omega), if_neg (by omega), if_neg (by omega),
    if_neg (by omega), if_neg (by omega), if_pos (by omega), hd, hm]

/-- Beyond 0xC000 the windows of the counters are behind: the reads of `readA` that are left. -/
theorem readA_high (c : Chip) (cyc : Nat) {a : Nat} (ha : 0xC100 ≤ a) :
    readA c cyc a =
      if 0xC100 ≤ a && a < 0xC300 then readInj (getInj c ((a - 0xC100) / 0x20)) (a % 0x20)
      else if a = 0xD000 then c.dep.patrol.wr
      else if a = 0xD004 then memStatusWord c
      else if 0x10000 ≤ a && a < 0x24000 then readPort c ((a - 0x10000) / 0x100) (a % 0x100)
      else if 0x40000 ≤ a && a < 0x40400 then readTap (getTap c ((a - 0x40000) / 0x100)) (a % 0x100)
      else 0 := by
  unfold readA
  rw [if_neg (by omega), if_neg (by omega), if_neg (by omega), if_neg (by omega), if_neg (by omega), if_neg (by omega), if_neg (by omega),
    if_neg (by omega), if_neg (by omega), if_neg (by omega), if_neg (by omega), if_neg (by omega)]

theorem readA_inj (c : Chip) (cyc : Nat) {k a : Nat} (hk : k < 16) (ha : a < 0x20) : readA c cyc (0xC100 + 32 * k + a) = readInj (getInj c k) a := by
  have hd : (0xC100 + 32 * k + a - 0xC100) / 0x20 = k := by omega
  have hm : (0xC100 + 32 * k + a) % 0x20 = a := by omega
  rw [readA_high c cyc (by omega), if_pos (by simp; omega), hd, hm]

theorem readA_port (c : Chip) (cyc : Nat) {p a : Nat} (hp : p < 320) (ha : a < 0x100) : readA c cyc (0x10000 + 256 * p + a) = readPort c p a := by
  have hd : (0x10000 + 256 * p + a - 0x10000) / 0x100 = p := by omega
  have hm : (0x10000 + 256 * p + a) % 0x100 = a := by omega
  rw [readA_high c cyc (by omega), if_neg (by simp; omega), if_neg (by omega), if_neg (by omega), if_pos (by simp; omega), hd, hm]

theorem readA_tap (c : Chip) (cyc : Nat) {k a : Nat} (hk : k < 4) (ha : a < 0x100) : readA c cyc (0x40000 + 256 * k + a) = readTap (getTap c k) a := by
  have hd : (0x40000 + 256 * k + a - 0x40000) / 0x100 = k := by omega
  have hm : (0x40000 + 256 * k + a) % 0x100 = a := by omega
  rw [readA_high c cyc (by omega), if_neg (by simp; omega), if_neg (by omega), if_neg (by omega), if_neg (by simp; omega),
    if_pos (by simp; omega), hd, hm]

theorem resetWords_read (e : Nat × Word) (he : e ∈ resetWords) : readA State.reset.c 0 e.1 = e.2 := by
  have h : resetWords.all (fun e => readA State.reset.c 0 e.1 == e.2) = true := by decide +kernel
  exact eq_of_beq (List.all_eq_true.1 h e he)

/-- An element of an array of registers holds nothing but its default right after reset. -/
theorem reset_elements (k : Nat) : getScan State.reset.c k = scanDflt ∧ getInj State.reset.c k = injDflt ∧ getTap State.reset.c k = tapDflt ∧
    snapOf State.reset.c k = 0 ∧ getOh State.reset.c k = ohDflt := ⟨rfl, rfl, rfl, rfl, rfl⟩

theorem reset_pcnt (n : Nat) : readPcnt State.reset.c n 0 = 0 ∧ readPcnt State.reset.c n 4 = 0 ∧ readPcnt State.reset.c n 8 = 0x0FF80000 := by
  have hx : tget pcntDflt State.reset.c.dep.count.cnt n = pcntDflt := rfl
  have hs : pcntSelWord pcntDflt = 0x0FF80000 := by decide +kernel
  unfold readPcnt
  rw [hx]
  exact ⟨rfl, rfl, hs⟩

/-- Without an image a port has no lane and no frame alignment unit. -/
theorem reset_portUnits (p : Nat) : portUnits (theImage State.reset.c) p = [] := by
  have hk : ∀ u, unitKind (theImage State.reset.c) p u = 0 := fun u => rfl
  simp [portUnits, hk]

theorem reset_portAlign (p : Nat) : portAlignWord State.reset.c p = 0x80000000 := by
  have hd : delivers State.reset.c p = false := rfl
  have hk : unitKind (theImage State.reset.c) p 0 = 0 := rfl
  have hx : tget portAlignDflt State.reset.c.line.portAlign p = portAlignDflt := rfl
  unfold portAlignWord
  simp only [reset_portUnits, hd, hk, hx, List.map_nil, List.any_nil]
  decide +kernel

theorem readPort_used {c : Chip} {p : Nat} (h : portUnused c p = false) : readPort c p 0 = portLaneStatus c p ∧
    readPort c p 4 = portAlignWord c p ∧ readPort c p 0x10 = ohIndexWord (getOh c p) ∧ readPort c p 0x14 = ohDiscardWord (getOh c p) := by
  unfold readPort
  rw [h]
  exact ⟨rfl, rfl, rfl, rfl⟩

theorem reset_port (p : Nat) : readPort State.reset.c p 0 = 0 ∧ readPort State.reset.c p 4 = 0x80000000 ∧ readPort State.reset.c p 0x10 = 0 ∧
    readPort State.reset.c p 0x14 = 0 := by
  have hl : portLaneStatus State.reset.c p = 0 := rfl
  have h10 : ohIndexWord ohDflt = 0 := by decide +kernel
  have h14 : ohDiscardWord ohDflt = 0 := by decide +kernel
  obtain ⟨e0, e4, e10, e14⟩ := readPort_used (c := State.reset.c) (p := p) rfl
  exact ⟨e0.trans hl, e4.trans (reset_portAlign p), e10.trans h10, e14.trans h14⟩

/-- A scan channel's registers at reset (R450). -/
theorem readScan_dflt : ∀ j, j < 6 → readScan scanDflt (4 * j) = if j = 2 then 1 else 0 := by decide

/-- An injection slot's registers at reset (R482). -/
theorem readInj_dflt : ∀ j, j < 8 → readInj injDflt (4 * j) = if j = 2 then 1 else 0 := by decide

/-- Settles O2: the registers outside the arrays by evaluation, an array's by its element's default. -/
theorem resetState : Obligations.ResetState := by
  refine ⟨rfl, rfl, rfl, rfl, rfl, Tests.test_inv, resetWords_read, fun k hk j hj => ?scan, fun n hn => ⟨?cnt, ?cnt4, ?cnt8, ?snap, ?snap4⟩,
    fun k hk j hj => ?inj, fun p hp => ?port, fun k hk => ⟨?tap, ?tap4, fun j hj => ?tapData⟩⟩
  case scan =>
    rw [readA_scan _ _ hk (by omega), (reset_elements k).1]
    exact readScan_dflt j hj
  case cnt => exact (readA_pcnt _ _ hn (by omega)).trans (reset_pcnt n).1
  case cnt4 => exact (readA_pcnt _ _ hn (by omega)).trans (reset_pcnt n).2.1
  case cnt8 => exact (readA_pcnt _ _ hn (by omega)).trans (reset_pcnt n).2.2
  case snap => exact (readA_snap _ _ hn (a := 0) (by omega)).trans rfl
  case snap4 =>
    rw [readA_snap _ _ hn (by omega), if_neg (by omega), (reset_elements n).2.2.2.1]
    rfl
  case inj =>
    rw [readA_inj _ _ hk (by omega), (reset_elements k).2.1]
    exact readInj_dflt j hj
  case port =>
    obtain ⟨h0, h4, h10, h14⟩ := reset_port p
    exact ⟨(readA_port _ _ hp (by omega)).trans h0, (readA_port _ _ hp (by omega)).trans h4, (readA_port _ _ hp (by omega)).trans h10,
      (readA_port _ _ hp (by omega)).trans h14⟩
  case tap => exact (readA_tap _ _ hk (a := 0) (by omega)).trans rfl
  case tap4 =>
    rw [show 0x40004 + 256 * k = 0x40000 + 256 * k + 4 by omega, readA_tap _ _ hk (by omega), (reset_elements k).2.2.1]
    decide +kernel
  case tapData =>
    rw [show 0x40040 + 256 * k + 4 * j = 0x40000 + 256 * k + (0x40 + 4 * j) by omega, readA_tap _ _ hk (by omega), (reset_elements k).2.2.1]
    unfold readTap
    rw [if_neg (by omega), if_neg (by omega), if_pos (by simp; omega)]
    rfl

end Sys2Proof.Machine
end

section
/-!
PROOFS. Power: entries into COLD (O6; R33, R472, R475) and the temperature sensors (O8; R468, R471, R475).
-/
namespace Sys2Proof.Machine
open Sys2Proof

/-! ### Entering COLD -/

/-- A part that enters COLD with what the flash holds as in `s` has entered it from `s`. -/
theorem coldFrom_enterCold {cause sensor : Nat} {temp : Int} {sup : BitVec 4} {s u : State} (hp : u.pending = s.pending) (hu : u.c.upd = s.c.upd) :
    ColdFrom cause s (enterCold cause sensor temp sup u) := by
  refine ⟨hp, rfl, fun p h => ?_, rfl, rfl, rfl, ?_, ?_, ?_, ?_, ?_, ?_⟩
  case refine_1 => cases p <;> simp [samePart, enterCold, coldChip, chipReset] at h ⊢
  all_goals simp only [enterCold, coldChip, coldUpd, hu]

@[simp] theorem enterCold_power (cause sensor : Nat) (temp : Int) (sup : BitVec 4) (s : State) :
    (enterCold cause sensor temp sup s).c.power = coldPower cause sensor temp sup s.c.dev.tick s.c.power := rfl

theorem bitAt_or_four (x : BitVec 3) : bitAt (x ||| 4) 2 = true := by revert x; decide

/-- A holder that trips releases the tablet first; the tick and what the flash holds stay (R470). -/
theorem tripRelease_keeps (b : Chip → Bool) (n : Nat) (c : Chip) :
    (when (b c) (giveUp 7 n) c).dev.tick = c.dev.tick ∧ (when (b c) (giveUp 7 n) c).upd = c.upd := by
  cases b c
  · exact ⟨rfl, rfl⟩
  · have hm := giveUp_mask (l := [.dev, .int, .nq, .notice, .host, .pair, .dep]) (by simp) (by simp) (by simp) (by simp) (by simp) (by simp)
      (by simp) 7 n c
    exact ⟨congrArg Core.tick (giveUp_core 7 n c), upd_of_mask hm (by simp)⟩

/-- Settles O6: each command is `enterCold` with its cause, or arms the sideband's reset. -/
theorem coldEntries : Obligations.ColdEntries := by
  refine ⟨?power, ?reset, ?supply, ?trip, ?sideband, ?arm⟩
  case power =>
    intro s
    obtain ⟨hp, hm, hparts, -, -, hh, hrest⟩ := coldFrom_enterCold (cause := 1) (sensor := 0) (temp := 0) (sup := 0) (s := s) (u := s) rfl rfl
    refine ⟨_, rfl, ⟨hp, hm, fun p h => ?_, rfl, rfl, hh, hrest⟩, rfl⟩
    have hp := hparts p h
    cases p <;> simp [samePart] at h hp ⊢ <;> exact hp
  case reset =>
    intro s hs
    refine ⟨enterCold 2 0 0 0 s, ?_, coldFrom_enterCold rfl rfl, by simp [coldPower], rfl⟩
    simp [exec, execResetAsserted, awake_of hs]
  case supply =>
    intro s sup hr hsup
    refine ⟨enterCold 4 0 0 sup s, ?_, coldFrom_enterCold rfl rfl, rfl, rfl⟩
    have h0 : ¬(s.c.power.resetLow || decide (sup = 0)) = true := by simpa [hr] using hsup
    exact congrArg Host.Outcome.next (if_neg h0)
  case trip =>
    intro s sensor temp hs hk ht
    refine ⟨thermalTrip sensor temp s, ?_, ?_⟩
    · simp [exec, execThermalTrip, awake_of hs, hk, tripLevel, ht]
    · obtain ⟨htick, hupd⟩ := tripRelease_keeps (fun c => c.pair.holder && paired c) (now (setPower { s.c.power with temps := tput s.c.power.temps sensor temp } s.c))
        (setPower { s.c.power with temps := tput s.c.power.temps sensor temp } s.c)
      refine ⟨coldFrom_enterCold rfl hupd, rfl, rfl, ?_, htick⟩
      exact bitAt_or_four _
  case sideband =>
    intro s hs ha
    refine ⟨enterCold 5 0 0 0 s, ?_, coldFrom_enterCold rfl rfl⟩
    simp [exec, execSbResetWrite, sbReset, ha, awake_of hs]
  case arm =>
    intro s b ha
    refine does_onChip (fun c => setPower { c.power with armed := true } c) ?_ (setPower_mask (by decide) _ _) rfl
    simp [exec, execSbResetWrite, sbReset, ha]

/-! ### Temperature -/

theorem bitAt_or_one (x : BitVec 3) : bitAt (x ||| 1) 0 = true := by revert x; decide

/-- Setting the throttle's alert bit leaves the warning's. -/
theorem bitAt_or_two (x : BitVec 3) (h : bitAt x 0 = true) : bitAt (x ||| 2) 0 = true := by revert x; decide

@[simp] theorem thermNotice_power (k bit n : Nat) (t : Int) (b : Bool) (c : Chip) : (thermNotice k bit n t b c).power = c.power := notify_power _ c
@[simp] theorem thermNotice_int (k bit n : Nat) (t : Int) (b : Bool) (c : Chip) : (thermNotice k bit n t b c).int = c.int := notify_int _ c

/-- The warning level of a sensor depends on `THERM_CTRL` alone. -/
theorem warnLevel_congr {a b : Chip} (h : a.power.therm = b.power.therm) (k : Nat) : warnLevel a k = warnLevel b k := by
  unfold warnLevel
  rw [h]

@[simp] theorem judgeWarn_temps (k : Nat) (t : Int) (c : Chip) : (judgeWarn k t c).power.temps = c.power.temps := by
  unfold judgeWarn
  dsimp only
  split
  · rfl
  · split <;> simp

@[simp] theorem judgeThrot_temps (k : Nat) (t : Int) (c : Chip) : (judgeThrot k t c).power.temps = c.power.temps := by
  unfold judgeThrot
  dsimp only
  split
  · rfl
  · split <;> simp

@[simp] theorem judgeThrot_warn (k : Nat) (t : Int) (c : Chip) : (judgeThrot k t c).power.warn = c.power.warn := by
  unfold judgeThrot
  dsimp only
  split
  · rfl
  · split <;> simp

/-- After its judgement a sensor stands among those that warn as its level says (R468). -/
theorem judgeWarn_warn (k : Nat) (t : Int) (c : Chip) :
    (judgeWarn k t c).power.warn.contains k = levelStands (c.power.warn.contains k) (warnLevel c k) t := by
  unfold judgeWarn
  dsimp only
  split
  · next h => exact h.symm
  · split
    · next h => simpa [mem_insAsc] using h.symm
    · next h => simpa using h

/-- A warning that rises sets its alert bit and its interrupt and raises its notice (R471). -/
theorem judgeWarn_rises {k : Nat} {t : Int} {c : Chip} (h : c.power.warn.contains k = false) (ht : warnLevel c k ≤ t) (hr : NoticeRoom 1 c) :
    bitAt (judgeWarn k t c).power.alert 0 = true ∧ IntSet 7 (judgeWarn k t c) ∧
    Raised (event 0x18 6 12 0 k (ofSigned 18 t) c.dev.tick false) (judgeWarn k t c) := by
  have hl : levelStands (c.power.warn.contains k) (warnLevel c k) t = true := by rw [h]; simp [levelStands, ht]
  unfold judgeWarn
  dsimp only
  rw [hl, h]
  simp only [Bool.true_eq_false, if_false, if_true]
  refine ⟨?_, setInt_set (by decide) _, ?_⟩
  · rw [setInt_power, thermNotice_power]
    exact bitAt_or_one _
  · rw [Raised_setInt]
    exact notify_raised _ hr

/-- One judgement of a warning takes room for at most one notice. -/
theorem judgeWarn_room (k : Nat) (t : Int) {c : Chip} (h : NoticeRoom 2 c) : NoticeRoom 1 (judgeWarn k t c) := by
  have h1 : NoticeRoom 1 c := Nat.le_trans (Nat.le_succ _) h
  unfold judgeWarn
  dsimp only
  split
  · exact h1
  · split
    · unfold NoticeRoom
      rw [setInt_notice]
      exact notify_room (k := 1) _ (by unfold NoticeRoom; exact h)
    · exact notify_room (k := 1) _ h

/-- The judgement of the throttle leaves a warning's alert bit, its interrupt and its notice. -/
theorem judgeThrot_keeps {n : Notice} {k : Nat} {t : Int} {c : Chip} (ha : bitAt c.power.alert 0 = true) (hi : IntSet 7 c) (hn : Raised n c)
    (hr : NoticeRoom 1 c) : bitAt (judgeThrot k t c).power.alert 0 = true ∧ IntSet 7 (judgeThrot k t c) ∧ Raised n (judgeThrot k t c) := by
  unfold judgeThrot
  dsimp only
  split
  · exact ⟨ha, hi, hn⟩
  · split
    · refine ⟨?_, setInt_set (by decide) _, ?_⟩
      · rw [setInt_power, thermNotice_power]
        exact bitAt_or_two _ ha
      · rw [Raised_setInt]
        exact Raised_notify _ hn hr
    · refine ⟨?_, ?_, Raised_notify _ hn hr⟩
      · rw [thermNotice_power]
        exact ha
      · unfold IntSet
        rw [thermNotice_int]
        exact hi

/-- A sensor's reading is kept, then judged against its warning level, then against its throttle level. -/
theorem sensorRead_eq {k : Nat} (h : k < 21) (t : Int) (c : Chip) :
    sensorRead (k, t) c = judgeThrot k t (judgeWarn k t (setPower { c.power with temps := tput c.power.temps k t } c)) :=
  if_neg (Nat.not_le.2 h)

/-- A reading of one sensor outside COLD. -/
theorem does_sensorRead {s : State} {k : Nat} {t : Int} {P : Chip → Prop} (hs : s.c.dev.state ≠ .cold) (hP : P (sensorRead (k, t) s.c)) :
    Does (.sensorRead [(k, t)]) s [.int, .nq, .notice, .host, .power, .dep] P :=
  does_guard (f := fun _ => forEach [(k, t)] sensorRead) rfl (awake_of hs)
    (sensorRead_mask (by decide) (by decide) (by decide) (by decide) (by decide) (by decide) (k, t) s.c) hP

/-- Settles O8: the reading by the lemmas of the two judgements, the clearing by the command's definition. -/
theorem sensorsAndAlerts : Obligations.SensorsAndAlerts := by
  refine ⟨fun s k t hs hk hr => does_sensorRead hs ?_, fun s v => does_onChip (fun c => setPower _ c) rfl (setPower_mask (by decide) _ _) rfl⟩
  rw [sensorRead_eq hk]
  generalize hc : setPower { s.c.power with temps := tput s.c.power.temps k t } s.c = c
  have hp : c.power = { s.c.power with temps := tput s.c.power.temps k t } := by rw [← hc]; rfl
  have hlev : warnLevel c k = warnLevel s.c k := warnLevel_congr (by rw [hp]) k
  have hwarn : c.power.warn = s.c.power.warn := by rw [hp]
  have hroom : NoticeRoom 2 c := by rw [← hc]; exact hr
  have htick : c.dev.tick = s.c.dev.tick := by rw [← hc]; rfl
  refine ⟨?kept, ?stands, fun hw ht => ?rises⟩
  case kept => simp [tempOf, hp]
  case stands =>
    rw [judgeThrot_warn, judgeWarn_warn, hlev, hwarn]
    unfold levelStands
    split <;> rfl
  case rises =>
    obtain ⟨ha, hi, hn⟩ := judgeWarn_rises (hwarn ▸ hw) (hlev ▸ ht) (Nat.le_trans (Nat.le_succ _) hroom)
    exact judgeThrot_keeps ha hi (htick ▸ hn) (judgeWarn_room k t hroom)

end Sys2Proof.Machine
end

section
/-!
PROOFS. Power groups: wakes, phases and sleep (O9; R139, R464 to R466, R527).
-/
namespace Sys2Proof.Machine
open Sys2Proof

@[simp] theorem enableLanes_getGroup (ls : List Nat) (c : Chip) (g : Nat) : getGroup (enableLanes ls c) g = getGroup c g := by
  unfold getGroup
  rw [power_of_mask (enableLanes_mask (l := [.line]) (by decide) ls c) (by decide)]

@[simp] theorem disableLanes_getGroup (ls : List Nat) (c : Chip) (g : Nat) : getGroup (disableLanes ls c) g = getGroup c g := by
  unfold getGroup
  rw [power_of_mask (disableLanes_mask (l := [.line, .dfx]) (by decide) (by decide) ls c) (by decide)]

@[simp] theorem updGroup_getLane (g : Nat) (f : GroupSt → GroupSt) (c : Chip) (l : Nat) : getLane (updGroup g f c) l = getLane c l := rfl

/-- A group's state as `setGroupState` leaves it (R467). -/
@[simp] theorem setGroupState_getGroup (g st n : Nat) (c : Chip) : getGroup (setGroupState g st n c) g = { getGroup c g with state := st } := by
  unfold setGroupState
  dsimp only
  split
  · next h => rw [← h]
  · rw [getGroup, notify_power, ← getGroup, updGroup_get]

/-! ### Wakes -/

/-- A group that starts to wake keeps its state and counts the wake (R139, R467). -/
theorem startWake_getGroup {g n : Nat} {c : Chip} (hw : (getGroup c g).waking = none) (hs : (getGroup c g).state ≠ 0) :
    getGroup (startWake g n c) g = { getGroup c g with waking := some n, former := some (getGroup c g).state, wakes := BitVec.ofNat 16 (satInc 0xFFFF (getGroup c g).wakes.toNat), faulty := false, phase := 1 } := by
  have hcond : ¬((getGroup c g).waking.isSome || decide ((getGroup c g).state = 0)) = true := by simp [hw, hs]
  unfold startWake
  dsimp only
  rw [if_neg hcond]
  split <;> simp

/-- A group that a wake is wanted for is not in S0. -/
theorem wakeWanted_state {c : Chip} {g : Nat} (h : wakeWanted c g = true) : (getGroup c g).state ≠ 0 := by
  unfold wakeWanted at h
  intro h0
  simp [h0] at h

theorem satInc_16 (x : BitVec 16) : (BitVec.ofNat 16 (satInc 0xFFFF x.toNat)).toNat = min 65535 (x.toNat + 1) := by
  have := x.isLt
  unfold satInc
  rw [BitVec.toNat_ofNat]
  split <;> omega

/-! ### Phases -/

theorem ogPhase_two {g n w : Nat} {c : Chip} (h0 : 0x40 ≤ g) (h1 : g < 0x50) (hp : (getGroup c g).phase = 1) (hw : (getGroup c g).waking = some w)
    (ht : w + 160 ≤ n) (hn : n < w + 1760) : ogPhase g n c = updGroup g (fun x => { x with phase := 2 }) c := by
  unfold ogPhase
  simp only [hw, hp]
  rw [if_neg (by simp; omega), if_neg (by simp; omega), if_neg (by simp; omega), if_pos (by simp; omega)]

theorem ogPhase_three {g n w : Nat} {c : Chip} (h0 : 0x40 ≤ g) (h1 : g < 0x50) (hp : (getGroup c g).phase = 2) (hw : (getGroup c g).waking = some w)
    (ht : w + 1760 ≤ n) (hn : n < w + 5760) :
    ogPhase g n c = updGroup g (fun x => { x with phase := 3 }) (enableLanes (groupLanes g) c) := by
  unfold ogPhase
  simp only [hw, hp]
  rw [if_neg (by simp; omega), if_neg (by simp; omega), if_pos (by simp; omega)]

theorem ogPhase_four {g n w : Nat} {c : Chip} (h0 : 0x40 ≤ g) (h1 : g < 0x50) (hp : (getGroup c g).phase = 3) (hw : (getGroup c g).waking = some w)
    (ht : w + 5760 ≤ n) : ogPhase g n c = updGroup g (fun x => { x with phase := 4 }) c := by
  unfold ogPhase
  simp only [hw, hp]
  rw [if_neg (by simp; omega), if_pos (by simp; omega), if_neg (by omega)]

/-- A lane enabled or gone on to another state is not OFF, whatever lane goes on then (R138). -/
theorem enableLanes_not_off (ls : List Nat) (c : Chip) : ∀ l, l ∈ ls → (getLane (enableLanes ls c) l).rx ≠ .off := by
  refine forEach_all (Q := fun l c => (getLane c l).rx ≠ .off) (fun l c => ?_) (fun l k c h => ?_) ls c
  · split
    · simp [laneGo]
    · assumption
  · split
    · by_cases hk : k = l
      · subst hk
        simp [laneGo]
      · unfold laneGo
        rw [updLane_get_other _ _ hk]
        exact h
    · exact h

/-! ### Ends of wakes, and sleep -/

theorem wakeDone_getGroup (g st n : Nat) (c : Chip) :
    (getGroup (wakeDone g st n c) g).waking = none ∧ (getGroup (wakeDone g st n c) g).state = st := by
  unfold wakeDone
  simp

@[simp] theorem lateDeadline_getGroup (n : Nat) (c : Chip) (g : Nat) : getGroup (lateDeadline n c) g = getGroup c g := by
  have hm := lateDeadline_mask (l := [.dev, .mb, .int, .host, .img, .cm, .jct]) (by decide) (by decide) (by decide) (by decide) (by decide)
    (by decide) (by decide) n c
  unfold getGroup
  rw [power_of_mask hm (by decide)]

theorem sleepGroup_state (g st n : Nat) (c : Chip) : (getGroup (sleepGroup g st n c) g).state = st := by
  unfold sleepGroup
  dsimp only
  split <;> simp

/-- Settles O9: each command outside COLD is the operation of its phase. -/
theorem groupsWakeAndSleep : Obligations.GroupsWakeAndSleep := by
  refine ⟨?starts, ?calibrates, ?adapts, ?hunts, ?ends, ?sleeps⟩
  case starts =>
    intro s g hs h0 h1 hw hn
    refine does_guard (f := fun c => startWake g (now c)) rfl (by simp [awake_of hs, h0, h1, hw]) (startWake_mask (by decide) (by decide) g _ s.c) ?_
    rw [startWake_getGroup hn (wakeWanted_state hw)]
    exact ⟨rfl, rfl, rfl, satInc_16 _⟩
  case calibrates =>
    intro s g w hs h0 h1 hp hw ht hn
    have e : ogPhase g (now s.c) s.c = _ := ogPhase_two h0 h1 hp hw ht hn
    exact does_guard (f := fun c => ogPhase g (now c)) rfl (by simp [awake_of hs, hp]) (e ▸ updGroup_mask (by decide) g _ s.c) (e ▸ updGroup_get g _ s.c)
  case adapts =>
    intro s g w hs h0 h1 hp hw ht hn
    refine does_guard (f := fun c => ogPhase g (now c)) rfl (by simp [awake_of hs, hp]) (ogPhase_mask (by decide) (by decide) g _ s.c) ?_
    have e : ogPhase g (now s.c) s.c = _ := ogPhase_three h0 h1 hp hw ht hn
    rw [e]
    exact ⟨by simp, enableLanes_not_off (groupLanes g) s.c⟩
  case hunts =>
    intro s g w hs h0 h1 hp hw ht
    have e : ogPhase g (now s.c) s.c = _ := ogPhase_four h0 h1 hp hw ht
    exact does_guard (f := fun c => ogPhase g (now c)) rfl (by simp [awake_of hs, hp]) (e ▸ updGroup_mask (by decide) g _ s.c) (e ▸ updGroup_get g _ s.c)
  case ends =>
    intro s g hs hd
    refine does_guard (f := fun c c => lateDeadline (now c) (wakeDone g (wakeTarget (getGroup c g) (wantState0 c g)) (now c) c)) rfl
      (by simp [awake_of hs, now, hd]) (by simp) ?_
    rw [lateDeadline_getGroup]
    exact wakeDone_getGroup g _ _ s.c
  case sleeps =>
    intro s g hs hg hw hst
    exact does_guard (f := fun c => sleepGroup g (wantState0 c g) (now c)) rfl (by simp [awake_of hs, hg, hw, hst]) (by simp) (sleepGroup_state g _ _ s.c)

end Sys2Proof.Machine
end

section
/-!
PROOFS. Seconds of performance monitoring (O10; R249 to R252): what closing a second, a quarter and a day leaves of the records.
-/
namespace Sys2Proof.Machine
open Sys2Proof

/-! ### What a second does not change -/

/-- PM without the records and the standings of dDEG. -/
def pmBare (p : PmSt) : PmSt := { p with recs := [], deg := [] }

/-- What the verdict of a second is read from: the image, and PM but for the records and the standings of dDEG. -/
def pmRest (c : Chip) : ImageSt × PmSt := (c.img, pmBare c.pm)

theorem pmRest_iff (a b : Chip) : pmRest a = pmRest b ↔ a.img = b.img ∧ pmBare a.pm = pmBare b.pm := by
  simp only [pmRest, Prod.mk.injEq]

theorem pmRest_of_eq {a b : Chip} (hi : a.img = b.img) (hp : a.pm = b.pm) : pmRest a = pmRest b := by rw [pmRest, pmRest, hi, hp]

@[simp] theorem setDefect_pmRest (k : Nat) (b : Bool) (c : Chip) : pmRest (setDefect k b c) = pmRest c := rfl

@[simp] theorem setDefect_recs (k : Nat) (b : Bool) (c : Chip) : (setDefect k b c).pm.recs = c.pm.recs := rfl

@[simp] theorem updDeg_pmRest (k : Nat) (f : DegSt → DegSt) (c : Chip) : pmRest (updDeg k f c) = pmRest c := by
  unfold updDeg
  split <;> rfl

@[simp] theorem updDeg_recs (k : Nat) (f : DegSt → DegSt) (c : Chip) : (updDeg k f c).pm.recs = c.pm.recs := by
  unfold updDeg
  split <;> rfl

@[simp] theorem updRec_pmRest (k : Nat) (f : PmRecSt → PmRecSt) (c : Chip) : pmRest (updRec k f c) = pmRest c := by
  unfold updRec
  split <;> rfl

theorem updRec_lookup (k : Nat) (f : PmRecSt → PmRecSt) (c : Chip) (j : Nat) :
    (updRec k f c).pm.recs.lookup j = if j = k then (c.pm.recs.lookup j).map f else c.pm.recs.lookup j := by
  unfold updRec
  split
  · next r h =>
    simp only [setPm, lookup_tput]
    split
    · next hj => simp [hj, h]
    · rfl
  · next h =>
    split
    · next hj => simp [hj, h]
    · rfl

/-- dDEG's step leaves the records and the rest of PM (R228). -/
theorem degrade_keeps (k : Nat) (c : Chip) : pmRest (degrade k c) = pmRest c ∧ (degrade k c).pm.recs = c.pm.recs := by
  unfold degrade degSdhStep degOtn degVerdict
  dsimp only
  split
  · repeat' split
    all_goals simp
  · exact ⟨rfl, rfl⟩

theorem forEach_degrade_keeps (l : List Nat) (c : Chip) : pmRest (forEach l degrade c) = pmRest c ∧ (forEach l degrade c).pm.recs = c.pm.recs :=
  forEach_ind (Q := fun d => pmRest d = pmRest c ∧ d.pm.recs = c.pm.recs)
    (fun k d h => ⟨(degrade_keeps k d).1.trans h.1, (degrade_keeps k d).2.trans h.2⟩) l c ⟨rfl, rfl⟩

/-! ### One record's second -/

/-- What of a record the clauses of a second read: what the current second gathered, the near end's standing and its quarter bins. -/
def recView (r : PmRecSt) : PmAcc × Bool × FMap PmBin := (r.acc, r.ne.avail, r.ne.b15)

/-- What a second reads of the chip: where a point stands, and how its bins are counted. -/
theorem second_congr {a b : Chip} (h : pmRest a = pmRest b) : recPoint a = recPoint b ∧ theImage a = theImage b ∧ endSecond a = endSecond b ∧
    a.pm.ctrl = b.pm.ctrl ∧ a.pm.quarter = b.pm.quarter ∧ a.pm.day = b.pm.day := by
  obtain ⟨hi, hp⟩ := (pmRest_iff a b).1 h
  have hq : a.pm.quarter = b.pm.quarter := (congrArg PmSt.quarter hp :)
  have hd : a.pm.day = b.pm.day := (congrArg PmSt.day hp :)
  have hpt : a.pm.points = b.pm.points := (congrArg PmSt.points hp :)
  have hb : onBins a = onBins b := by
    funext s f e
    simp only [onBins, onDay, onQuarter, hq, hd]
  refine ⟨?_, ?_, ?_, (congrArg PmSt.ctrl hp :), hq, hd⟩
  · funext k
    simp only [recPoint, hpt]
  · simp only [theImage, hi]
  · funext s e
    simp only [endSecond, hb]

/-- A record's second depends on the rest alone. -/
theorem recSecond_congr {a b : Chip} (h : pmRest a = pmRest b) (k : Nat) : recSecond a k = recSecond b k := by
  obtain ⟨hpt, him, he, hc, hq, hd⟩ := second_congr h
  have hs : sesShare a k = sesShare b k := by simp only [sesShare, hpt, him]
  have hf : hasFarEnd a k = hasFarEnd b k := by simp only [hasFarEnd, hpt, him]
  have hpr : profileOf a k = profileOf b k := by simp only [profileOf, hpt, him, hc]
  have hfa : farEnabled a k = farEnabled b k := by unfold farEnabled; rw [hpr]
  have hne : nearSecond a = nearSecond b := by
    funext share acc
    simp only [nearSecond, hq, hd]
  have hfe : farSecond a = farSecond b := by
    funext share acc
    simp only [farSecond, hq, hd]
  funext r
  simp only [recSecond, hs, hf, hfa, hne, hfe, he, hq]

theorem nearSecond_none (c : Chip) (share : Nat) :
    nearSecond c share accDflt = { es := false, ses := false, bbe := 0, q := c.pm.quarter, d := c.pm.day } := by
  simp [nearSecond, accDflt]

@[simp] theorem onDay_b15 (c : Chip) (d : Nat) (f : PmBin → PmBin) (e : PmEndSt) : (onDay c d f e).b15 = e.b15 := by
  unfold onDay
  split <;> rfl

@[simp] theorem onDay_avail (c : Chip) (d : Nat) (f : PmBin → PmBin) (e : PmEndSt) : (onDay c d f e).avail = e.avail := by
  unfold onDay
  split <;> rfl

@[simp] theorem onQuarter_avail (c : Chip) (q : Nat) (f : PmBin → PmBin) (e : PmEndSt) : (onQuarter c q f e).avail = e.avail := by
  unfold onQuarter
  split <;> rfl

/-- The bin of the current quarter takes a change as it is. -/
theorem onQuarter_current (c : Chip) (f : PmBin → PmBin) (e : PmEndSt) :
    tget binDflt (onQuarter c c.pm.quarter f e).b15 (c.pm.quarter % 5) = f (tget binDflt e.b15 (c.pm.quarter % 5)) := by
  unfold onQuarter
  rw [if_pos (by omega)]
  simp

/-- An end that is available and stays so adds the second to the bin of the current quarter (R252). -/
theorem endSecond_counts {c : Chip} {s : PmSec} {e : PmEndSt} (hq : s.q = c.pm.quarter) (ha : e.avail = true) (hs : s.ses = false ∨ e.run ≠ 9) :
    (endSecond c s e).avail = true ∧
    tget binDflt (endSecond c s e).b15 (c.pm.quarter % 5) = addCounted s (tget binDflt e.b15 (c.pm.quarter % 5)) := by
  have hn : ¬(s.ses && decide (e.run = 9)) = true := by
    rcases hs with h | h <;> simp [h]
  unfold endSecond onBins
  dsimp only
  rw [if_pos ha, if_neg hn, hq]
  simp [onQuarter_current, ha]

theorem addCounted_bbe (s : PmSec) (b : PmBin) : (addCounted s b).bbe ≤ 0xFFFFFFFF := by
  unfold addCounted satAdd
  dsimp only
  split <;> omega

/-- A second in which nothing was gathered adds nothing to a bin. -/
theorem addCounted_none (q d : Nat) {b : PmBin} (h : b.bbe ≤ 0xFFFFFFFF) :
    addCounted { es := false, ses := false, bbe := 0, q := q, d := d } b = b := by
  simp [addCounted, satAdd, bnat, h]

/-- The record after its second, once more if its key stands twice: what is gathered starts at nothing and the bin holds the second. -/
structure Counted (c : Chip) (b : PmBin) (x : PmRecSt) : Prop where
  acc : x.acc = accDflt
  avail : x.ne.avail = true
  bin : tget binDflt x.ne.b15 (c.pm.quarter % 5) = b

theorem Counted.of_view {c : Chip} {b : PmBin} {x y : PmRecSt} (h : Counted c b x) (hv : recView y = recView x) : Counted c b y := by
  simp only [recView, Prod.mk.injEq] at hv
  obtain ⟨h1, h2, h3⟩ := hv
  exact ⟨h1.trans h.acc, h2.trans h.avail, h3 ▸ h.bin⟩

theorem recSecond_acc (c : Chip) (k : Nat) (r : PmRecSt) : (recSecond c k r).acc = accDflt := rfl

theorem recSecond_ne (c : Chip) (k : Nat) (r : PmRecSt) : (recSecond c k r).ne = endSecond c (nearSecond c (sesShare c k) r.acc) r.ne := rfl

theorem counted_recSecond {c : Chip} {k : Nat} {r : PmRecSt} (ha : r.ne.avail = true)
    (hs : (nearSecond c (sesShare c k) r.acc).ses = false ∨ r.ne.run ≠ 9) :
    Counted c (addCounted (nearSecond c (sesShare c k) r.acc) (tget binDflt r.ne.b15 (c.pm.quarter % 5))) (recSecond c k r) := by
  obtain ⟨h1, h2⟩ := endSecond_counts (c := c) (s := nearSecond c (sesShare c k) r.acc) rfl ha hs
  exact ⟨rfl, h1, h2⟩

theorem Counted.again {c : Chip} {k : Nat} {b : PmBin} {x : PmRecSt} (h : Counted c b x) (hb : b.bbe ≤ 0xFFFFFFFF) : Counted c b (recSecond c k x) := by
  have hn := nearSecond_none c (sesShare c k)
  have hc := counted_recSecond (c := c) (k := k) h.avail (.inl (by rw [h.acc, hn]))
  rw [h.acc, hn, h.bin, addCounted_none _ _ hb] at hc
  exact hc

/-- The record after n seconds of one loop. -/
def recSeconds (f : PmRecSt → PmRecSt) : Nat → PmRecSt → PmRecSt
  | 0, x => x
  | n + 1, x => recSeconds f n (f x)

theorem recSeconds_zero (f : PmRecSt → PmRecSt) : recSeconds f 0 = id := rfl

theorem recSeconds_acc (c : Chip) (k n : Nat) (x : PmRecSt) : (recSeconds (recSecond c k) (n + 1) x).acc = accDflt := by
  induction n generalizing x with
  | zero => rfl
  | succ n ih => exact ih _

theorem Counted.iterate {c : Chip} {k : Nat} {b : PmBin} {x : PmRecSt} (h : Counted c b x) (hb : b.bbe ≤ 0xFFFFFFFF) (n : Nat) :
    Counted c b (recSeconds (recSecond c k) n x) := by
  induction n generalizing x with
  | zero => exact h
  | succ n ih => exact ih (h.again hb)

/-! ### Every record's second -/

/-- After the loop over the keys each record has had its second as often as its key stands among them. -/
theorem forEach_recSecond (ks : List Nat) (c : Chip) :
    pmRest (forEach ks (fun k c => updRec k (recSecond c k) c) c) = pmRest c ∧
    ∀ j, (forEach ks (fun k c => updRec k (recSecond c k) c) c).pm.recs.lookup j = (c.pm.recs.lookup j).map (recSeconds (recSecond c j) (ks.count j)) := by
  induction ks generalizing c with
  | nil => exact ⟨rfl, fun j => by simp [recSeconds_zero]⟩
  | cons k t ih =>
    obtain ⟨h1, h2⟩ := ih (updRec k (recSecond c k) c)
    refine ⟨h1.trans (updRec_pmRest _ _ _), fun j => ?_⟩
    rw [forEach_cons, h2, updRec_lookup, recSecond_congr (updRec_pmRest k (recSecond c k) c)]
    by_cases hj : j = k
    · subst hj
      rw [if_pos rfl, List.count_cons_self, Option.map_map]
      rfl
    · rw [if_neg hj, List.count_cons_of_ne (Ne.symm hj)]

/-- Thresholds change of a record what has been notified, and nothing else of PM (R264). -/
theorem recThresholds_keeps (k n : Nat) (c : Chip) : pmRest (recThresholds k n c) = pmRest c ∧
    ∀ j, ((recThresholds k n c).pm.recs.lookup j).map recView = (c.pm.recs.lookup j).map recView := by
  unfold recThresholds
  split
  · next r p hr hp =>
    split
    · exact ⟨rfl, fun _ => rfl⟩
    · dsimp only
      generalize hd : forEach (crossed c p r.fe) (fun n' c => tcaNotify c k (tcaNotice c k n true n') c)
        (forEach (crossed c p r.ne) (fun n' c => tcaNotify c k (tcaNotice c k n false n') c) c) = d
      have hm : mask [.nq, .notice, .dep] d = mask [.nq, .notice, .dep] c := by rw [← hd]; simp
      have hi : d.img = c.img := img_of_mask hm (by decide)
      have hpm : d.pm = c.pm := pm_of_mask hm (by decide)
      refine ⟨(updRec_pmRest _ _ _).trans (pmRest_of_eq hi hpm), fun j => ?_⟩
      rw [updRec_lookup, hpm]
      split
      · rw [Option.map_map]
        rfl
      · rfl
  · exact ⟨rfl, fun _ => rfl⟩

theorem forEach_recThresholds_keeps (ks : List Nat) (n : Nat) (c : Chip) : pmRest (forEach ks (fun k c => recThresholds k n c) c) = pmRest c ∧
    ∀ j, ((forEach ks (fun k c => recThresholds k n c) c).pm.recs.lookup j).map recView = (c.pm.recs.lookup j).map recView :=
  forEach_ind (Q := fun d => pmRest d = pmRest c ∧ ∀ j, (d.pm.recs.lookup j).map recView = (c.pm.recs.lookup j).map recView)
    (fun k d h => ⟨(recThresholds_keeps k n d).1.trans h.1, fun j => ((recThresholds_keeps k n d).2 j).trans (h.2 j)⟩) ks c ⟨rfl, fun _ => rfl⟩

/-- A second closed: the view of every record, and the rest of PM but `PM_CTRL`, which is in force. -/
theorem closeSecond_keeps (n : Nat) (c : Chip) :
    (closeSecond n c).img = c.img ∧
    pmBare (closeSecond n c).pm = { pmBare c.pm with ctrl := { c.pm.ctrl with eff := c.pm.ctrl.wr } } ∧
    ∀ j, ((closeSecond n c).pm.recs.lookup j).map recView =
      ((c.pm.recs.lookup j).map (recSeconds (recSecond c j) ((tkeys c.pm.recs).count j))).map recView := by
  obtain ⟨hr1, hs1⟩ := forEach_degrade_keeps (tkeys c.pm.deg) c
  obtain ⟨hr2, hs2⟩ := forEach_recSecond (tkeys c.pm.recs) (forEach (tkeys c.pm.deg) degrade c)
  obtain ⟨hr3, hs3⟩ := forEach_recThresholds_keeps (tkeys c.pm.recs) n
    (forEach (tkeys c.pm.recs) (fun k c => updRec k (recSecond c k) c) (forEach (tkeys c.pm.deg) degrade c))
  obtain ⟨hi, hp⟩ := (pmRest_iff _ _).1 (hr3.trans (hr2.trans hr1))
  refine ⟨hi, ?_, fun j => ?_⟩
  · exact (congrArg (fun p : PmSt => { p with ctrl := { p.ctrl with eff := p.ctrl.wr } }) hp :)
  · refine (hs3 j).trans ?_
    rw [hs2 j, hs1, recSecond_congr hr1]

/-! ### Quarters, days and section points -/

theorem lookup_map_snd {α β : Type} (f : α → β) (m : FMap α) (j : Nat) : (m.map (fun e => (e.1, f e.2))).lookup j = (m.lookup j).map f := by
  induction m with
  | nil => rfl
  | cons e t ih =>
    rw [List.map_cons, lookup_first, lookup_first, ih]
    split <;> rfl

theorem lookup_filter_key {α : Type} (p : Nat → Bool) (m : FMap α) (j : Nat) : (m.filter (fun e => p e.1)).lookup j = if p j then m.lookup j else none := by
  induction m with
  | nil => simp
  | cons e t ih =>
    rw [lookup_first, List.filter_cons]
    by_cases hp : p e.1 = true
    · rw [if_pos hp, lookup_first, ih]
      by_cases hj : j = e.1
      · rw [if_pos hj, if_pos hj, hj, if_pos hp]
      · rw [if_neg hj, if_neg hj]
    · rw [if_neg hp, ih]
      by_cases hj : j = e.1
      · rw [if_pos hj, hj, if_neg hp, if_neg hp]
      · rw [if_neg hj]

/-- A record at the close of quarter q (R257). -/
def quarterClosed (q : Nat) (mark : Bool) (r : PmRecSt) : PmRecSt :=
  { r with ne := endQuarter q mark r.ne, fe := endQuarter q mark r.fe, ex0 := if q % 2 = 1 then exDflt else r.ex0, ex1 := if q % 2 = 0 then exDflt else r.ex1 }

/-- A record at the close of day d. -/
def dayClosed (d : Nat) (mark : Bool) (r : PmRecSt) : PmRecSt := { r with ne := endDay d mark r.ne, fe := endDay d mark r.fe }

theorem closeQuarter_pm (n : Nat) (mark : Bool) (c : Chip) :
    (closeQuarter n mark c).pm = { c.pm with recs := c.pm.recs.map (fun e => (e.1, quarterClosed c.pm.quarter mark e.2)), quarter := c.pm.quarter + 1 } := by
  unfold closeQuarter
  dsimp only
  rw [notify_pm]
  rfl

theorem closeDay_pm (n : Nat) (mark : Bool) (c : Chip) :
    (closeDay n mark c).pm = { c.pm with recs := c.pm.recs.map (fun e => (e.1, dayClosed c.pm.day mark e.2)), day := c.pm.day + 1 } := by
  unfold closeDay
  dsimp only
  rw [notify_pm]
  rfl

theorem dayClosed_view (d : Nat) (mark : Bool) (r : PmRecSt) : recView (dayClosed d mark r) = recView r := rfl

/-- Every record has gathered nothing. -/
def Fresh (m : FMap PmRecSt) : Prop := ∀ k r, m.lookup k = some r → r.acc = accDflt

theorem Fresh.map {m : FMap PmRecSt} (h : Fresh m) {f : PmRecSt → PmRecSt} (hf : ∀ r, (f r).acc = r.acc) : Fresh (m.map (fun e => (e.1, f e.2))) := by
  intro k r hr
  rw [lookup_map_snd, Option.map_eq_some_iff] at hr
  obtain ⟨x, hx, rfl⟩ := hr
  rw [hf, h k x hx]

/-- Records added where there are none. -/
def addMissing (v : PmRecSt) (want : List Nat) (m : FMap PmRecSt) : FMap PmRecSt :=
  want.foldl (fun m k => match m.lookup k with | some _ => m | none => tput m k v) m

/-- The section points wanted, and whether a record of a key is kept (R248). -/
def wantSections (c : Chip) : List Nat := if secEnabled c then imageSections c else []
def keepRec (c : Chip) (k : Nat) : Bool := k < 0x40000 || (wantSections c).contains k || c.pm.freed.contains k

theorem syncSections_recs (n : Nat) (c : Chip) :
    (syncSections n c).pm.recs = addMissing (freshRec c n) (wantSections c) (c.pm.recs.filter (fun e => keepRec c e.1)) := rfl

theorem addMissing_cons (v : PmRecSt) (k : Nat) (t : List Nat) (m : FMap PmRecSt) :
    addMissing v (k :: t) m = addMissing v t (if (m.lookup k).isSome then m else tput m k v) := by
  unfold addMissing
  rw [List.foldl_cons]
  cases m.lookup k <;> rfl

/-- Records added where there are none leave the others. -/
theorem lookup_addMissing (v : PmRecSt) (want : List Nat) (m : FMap PmRecSt) (j : Nat) :
    (addMissing v want m).lookup j = m.lookup j ∨ (m.lookup j = none ∧ (addMissing v want m).lookup j = some v) := by
  induction want generalizing m with
  | nil => exact .inl rfl
  | cons k t ih =>
    rw [addMissing_cons]
    split
    · exact ih m
    · next hk =>
      by_cases hj : j = k
      · subst hj
        rcases ih (tput m j v) with h | ⟨h, -⟩
        · exact .inr ⟨Option.not_isSome_iff_eq_none.1 hk, h.trans (lookup_tput_same m j v)⟩
        · simp at h
      · rcases ih (tput m k v) with h | ⟨h, h'⟩
        · exact .inl (h.trans (lookup_tput_other m v hj))
        · exact .inr ⟨(lookup_tput_other m v hj).symm.trans h, h'⟩

/-- The section points that come and go leave the records of the paths and what else PM holds (R248). -/
theorem syncSections_keeps (n : Nat) (c : Chip) :
    pmBare (syncSections n c).pm = pmBare c.pm ∧
    (Fresh c.pm.recs → Fresh (syncSections n c).pm.recs) ∧
    ∀ k r, k < 0x40000 → c.pm.recs.lookup k = some r → (syncSections n c).pm.recs.lookup k = some r := by
  refine ⟨rfl, fun hf k r hr => ?_, fun k r hk hr => ?_⟩
  · rw [syncSections_recs] at hr
    rcases lookup_addMissing (freshRec c n) (wantSections c) (c.pm.recs.filter (fun e => keepRec c e.1)) k with h | ⟨-, h⟩
    · rw [h, lookup_filter_key] at hr
      split at hr
      · exact hf k r hr
      · exact nomatch hr
    · rw [h, Option.some.injEq] at hr
      rw [← hr]
      rfl
  · have hl : (c.pm.recs.filter (fun e => keepRec c e.1)).lookup k = some r := by
      rw [lookup_filter_key, if_pos (by simp [keepRec, hk]), hr]
    rw [syncSections_recs]
    rcases lookup_addMissing (freshRec c n) (wantSections c) (c.pm.recs.filter (fun e => keepRec c e.1)) k with h | ⟨h, -⟩
    · exact h.trans hl
    · rw [hl] at h
      exact nomatch h

/-! ### The boundary -/

/-- A closed second leaves no record with anything gathered. -/
theorem closeSecond_fresh (n : Nat) (c : Chip) : Fresh (closeSecond n c).pm.recs := by
  intro k r hr
  obtain ⟨-, -, hv⟩ := closeSecond_keeps n c
  have h := hv k
  rw [hr] at h
  cases hk : c.pm.recs.lookup k with
  | none => simp [hk] at h
  | some x =>
    have hpos : (tkeys c.pm.recs).count k ≠ 0 := Nat.ne_zero_of_lt (List.count_pos_iff.2 (mem_tkeys _ _ _ hk))
    obtain ⟨m, hm⟩ := Nat.exists_eq_succ_of_ne_zero hpos
    rw [hk, hm, Option.map_some, Option.map_some, Option.map_some, Option.some.injEq] at h
    exact (congrArg Prod.fst h).trans (recSeconds_acc c k m x)

/-- A path's record whose near end stays available holds its second in the bin of the current quarter. -/
theorem closeSecond_counted {n k : Nat} {c : Chip} {r : PmRecSt} (hr : c.pm.recs.lookup k = some r) (ha : r.ne.avail = true)
    (hs : (nearSecond c (sesShare c k) r.acc).ses = false ∨ r.ne.run ≠ 9) : ∃ x, (closeSecond n c).pm.recs.lookup k = some x ∧
    Counted c (addCounted (nearSecond c (sesShare c k) r.acc) (tget binDflt r.ne.b15 (c.pm.quarter % 5))) x := by
  obtain ⟨-, -, hv⟩ := closeSecond_keeps n c
  have h := hv k
  obtain ⟨m, hm⟩ := Nat.exists_eq_succ_of_ne_zero (Nat.ne_zero_of_lt (List.count_pos_iff.2 (mem_tkeys _ _ _ hr)))
  rw [hr, hm, Option.map_some, Option.map_some] at h
  obtain ⟨x, hx, hxv⟩ := Option.map_eq_some_iff.1 h
  exact ⟨x, hx, ((counted_recSecond ha hs).iterate (k := k) (addCounted_bbe _ _) m).of_view hxv⟩

theorem atBoundary_iff (n o period : Nat) (hp : period ≠ 0) : atBoundary n o period = true ↔ ((n : Int) - o) % (period : Int) = 0 := by
  have := Int.emod_nonneg ((n : Int) - o) (b := period) (by omega)
  unfold atBoundary sinceOrigin
  rw [decide_eq_true_eq]
  omega

/-- PM once its second has been closed at the boundary: the second counts as taken, and nothing else of the device changes. -/
theorem secondClosed (n : Nat) (c : Chip) : ∃ d, d = markDone doneSecond (closeSecond n c) ∧ d.pm = (closeSecond n c).pm ∧ d.dev.state = c.dev.state := by
  have hm := closeSecond_mask (l := [.nq, .notice, .dfx, .pm, .dep]) (by decide) (by decide) (by decide) (by decide) (by decide) n c
  have hd : (closeSecond n c).dev = c.dev := dev_of_mask hm (by decide)
  exact ⟨_, rfl, rfl, (congrArg DevSt.state hd :)⟩

/-- What closing quarters and days leaves of PM: their counts, and records fresh as they were. -/
structure Closes (q d : Nat) (a b : Chip) : Prop where
  state : b.dev.state = a.dev.state
  bare : pmBare b.pm = { pmBare a.pm with quarter := a.pm.quarter + q, day := a.pm.day + d }
  fresh : Fresh a.pm.recs → Fresh b.pm.recs

theorem Closes.refl (a : Chip) : Closes 0 0 a a := ⟨rfl, rfl, id⟩

theorem closes_quarter (n : Nat) (mark : Bool) (c : Chip) : Closes 1 0 c (closeQuarter n mark c) := by
  have hp := closeQuarter_pm n mark c
  have hm := closeQuarter_mask (l := [.nq, .notice, .pm, .dep]) (by decide) (by decide) (by decide) (by decide) n mark c
  exact ⟨congrArg DevSt.state (dev_of_mask hm (by decide)), by rw [hp]; rfl, fun h => by rw [hp]; exact h.map fun r => rfl⟩

theorem closes_day (n : Nat) (mark : Bool) (c : Chip) : Closes 0 1 c (closeDay n mark c) := by
  have hp := closeDay_pm n mark c
  have hm := closeDay_mask (l := [.nq, .notice, .pm, .dep]) (by decide) (by decide) (by decide) (by decide) n mark c
  exact ⟨congrArg DevSt.state (dev_of_mask hm (by decide)), by rw [hp]; rfl, fun h => by rw [hp]; exact h.map fun r => rfl⟩

theorem Closes.trans {q d q' d' : Nat} {a b c : Chip} (h : Closes q d a b) (k : Closes q' d' b c) : Closes (q + q') (d + d') a c := by
  obtain ⟨hs, hb, hf⟩ := h
  obtain ⟨ks, kb, kf⟩ := k
  have e1 : b.pm.quarter = a.pm.quarter + q := (congrArg PmSt.quarter hb :)
  have e2 : b.pm.day = a.pm.day + d := (congrArg PmSt.day hb :)
  exact ⟨ks.trans hs, by rw [kb, hb, e1, e2, Nat.add_assoc, Nat.add_assoc], kf ∘ hf⟩

/-- The quarter's close where one ends. -/
theorem closes_quarterAt (b : Bool) (n : Nat) (c : Chip) : Closes (if b then 1 else 0) 0 c (if b then closeQuarter n false c else c) := by
  cases b
  · exact .refl c
  · exact closes_quarter n false c

theorem closes_dayAt (b : Bool) (n : Nat) (c : Chip) : Closes 0 (if b then 1 else 0) c (if b then closeDay n false c else c) := by
  cases b
  · exact .refl c
  · exact closes_day n false c

/-- The second boundary closes its second, then the quarter and the day that end there. -/
theorem pmSecond_closes (n : Nat) (c : Chip) : Fresh (pmSecond n c).pm.recs ∧ (pmSecond n c).dev.state = c.dev.state ∧
    (pmSecond n c).pm.ctrl.eff = c.pm.ctrl.wr ∧ (pmSecond n c).pm.quarter = c.pm.quarter + (if atBoundary n c.pm.origin quarterTicks then 1 else 0) ∧
    (pmSecond n c).pm.day = c.pm.day + (if atBoundary n c.pm.origin dayTicks then 1 else 0) := by
  obtain ⟨d, hd, hdp, hds⟩ := secondClosed n c
  have hbare : pmBare d.pm = { pmBare c.pm with ctrl := { c.pm.ctrl with eff := c.pm.ctrl.wr } } := hdp ▸ (closeSecond_keeps n c).2.1
  unfold pmSecond
  dsimp only
  rw [← hd]
  obtain ⟨es, eb, ef⟩ := (closes_quarterAt (atBoundary n c.pm.origin quarterTicks) n d).trans (closes_dayAt (atBoundary n c.pm.origin dayTicks) n _)
  generalize (if atBoundary n c.pm.origin dayTicks = true then closeDay n false (if atBoundary n c.pm.origin quarterTicks = true then closeQuarter n false d else d)
    else if atBoundary n c.pm.origin quarterTicks = true then closeQuarter n false d else d) = f at es eb ef ⊢
  obtain ⟨sb, sf, -⟩ := syncSections_keeps n f
  have hall := sb.trans eb
  have e0 : d.pm.ctrl.eff = c.pm.ctrl.wr := (congrArg (fun p : PmSt => p.ctrl.eff) hbare :)
  have e1 : d.pm.quarter = c.pm.quarter := (congrArg PmSt.quarter hbare :)
  have e2 : d.pm.day = c.pm.day := (congrArg PmSt.day hbare :)
  refine ⟨sf (ef (hdp ▸ closeSecond_fresh n c)), es.trans hds, (congrArg (fun p : PmSt => p.ctrl.eff) hall :).trans e0, ?_, ?_⟩
  · exact (congrArg PmSt.quarter hall :).trans (by simp [e1])
  · exact (congrArg PmSt.day hall :).trans (by simp [e2])

/-- Where no quarter ends, the record of a path keeps its counted second through the boundary. -/
theorem pmSecond_counted {n k : Nat} {c : Chip} {r : PmRecSt} (hk : k < 0x40000) (hr : c.pm.recs.lookup k = some r) (ha : r.ne.avail = true)
    (hs : (nearSecond c (sesShare c k) r.acc).ses = false ∨ r.ne.run ≠ 9) (hq : atBoundary n c.pm.origin quarterTicks = false) :
    ∃ x, (pmSecond n c).pm.recs.lookup k = some x ∧
      Counted c (addCounted (nearSecond c (sesShare c k) r.acc) (tget binDflt r.ne.b15 (c.pm.quarter % 5))) x := by
  obtain ⟨d, hd, hdp, -⟩ := secondClosed n c
  obtain ⟨x, hx, hc⟩ := closeSecond_counted (n := n) hr ha hs
  rw [← hdp] at hx
  unfold pmSecond
  dsimp only
  rw [← hd]
  simp only [hq, Bool.false_eq_true, if_false]
  split
  · have hl : (closeDay n false d).pm.recs.lookup k = some (dayClosed d.pm.day false x) := by rw [closeDay_pm, lookup_map_snd, hx]; rfl
    exact ⟨_, (syncSections_keeps n _).2.2 k _ hk hl, hc.of_view (dayClosed_view _ _ x)⟩
  · exact ⟨x, (syncSections_keeps n _).2.2 k _ hk hx, hc⟩

/-- The armed origin closes second, quarter and day and is the origin. -/
theorem pmApply_closes {n o : Nat} {c : Chip} (h : c.pm.armed = some o) : Fresh (pmApply n c).pm.recs ∧ (pmApply n c).pm.origin = o ∧
    (pmApply n c).pm.armed = none ∧ (pmApply n c).pm.quarter = c.pm.quarter + 1 ∧ (pmApply n c).pm.day = c.pm.day + 1 := by
  obtain ⟨d, hd, hdp, -⟩ := secondClosed n c
  have hbare : pmBare d.pm = { pmBare c.pm with ctrl := { c.pm.ctrl with eff := c.pm.ctrl.wr } } := hdp ▸ (closeSecond_keeps n c).2.1
  have e1 : d.pm.quarter = c.pm.quarter := (congrArg PmSt.quarter hbare :)
  have e2 : d.pm.day = c.pm.day := (congrArg PmSt.day hbare :)
  unfold pmApply
  simp only [h]
  rw [← hd]
  generalize (!(atBoundary n c.pm.origin dayTicks && atBoundary n o dayTicks)) = m1
  generalize (!(atBoundary n c.pm.origin quarterTicks && atBoundary n o quarterTicks)) = m2
  obtain ⟨-, eb, ef⟩ := (closes_quarter n m2 d).trans (closes_day n m1 _)
  generalize closeDay n m1 (closeQuarter n m2 d) = f at eb ef ⊢
  obtain ⟨-, sf, -⟩ := syncSections_keeps n (setPm { f.pm with origin := o, armed := none } f)
  have hq : f.pm.quarter = d.pm.quarter + 1 := (congrArg PmSt.quarter eb :)
  have hday : f.pm.day = d.pm.day + 1 := (congrArg PmSt.day eb :)
  exact ⟨sf (ef (hdp ▸ closeSecond_fresh n c)), rfl, rfl, hq.trans (by rw [e1]), hday.trans (by rw [e2])⟩

/-- Settles O10: the boundary's closes, the arming of the origin, and the closes where it takes effect. -/
theorem pmSecondsAndOrigin : Obligations.PmSecondsAndOrigin := by
  refine ⟨?second, ?arms, ?applies⟩
  case second =>
    intro s hs ha ht hd
    have hdue : pmDue (now s.c) s.c = true := by
      simp [pmDue, awake_of hs, ha, (atBoundary_iff s.c.dev.tick s.c.pm.origin secTicks (by decide)).2 ht, isDone, doneSecond, hd, now]
    refine does_guard (f := fun c => pmSecond (now c)) rfl hdue (pmSecond_mask (by decide) (by decide) (by decide) (by decide) (by decide) (by decide) _ s.c) ?_
    obtain ⟨hf, hst, hc, hq, hday⟩ := pmSecond_closes s.c.dev.tick s.c
    have hqi := atBoundary_iff s.c.dev.tick s.c.pm.origin quarterTicks (by decide)
    have hdi := atBoundary_iff s.c.dev.tick s.c.pm.origin dayTicks (by decide)
    refine ⟨hf, hc, hst, hq.trans (by simp only [hqi]; rfl), hday.trans (by simp only [hdi]; rfl), ?_⟩
    intro k r hk hr hav hses hq
    have hq' : atBoundary s.c.dev.tick s.c.pm.origin quarterTicks = false := by
      rw [← Bool.not_eq_true, hqi]
      exact hq
    obtain ⟨x, hx, hx'⟩ := pmSecond_counted hk hr hav hses hq'
    exact ⟨x, hx, hx'.avail, hx'.bin⟩
  case arms =>
    intro s hi hs
    refine does_onChip _ rfl ?_ ?_
    · rw [awake_of hs]
      simp [when]
    · rw [awake_of hs, when_true]
      unfold jnlWrite
      split <;> exact ⟨rfl, rfl⟩
  case applies =>
    intro s o ho
    obtain ⟨hf, h1, h2, h3, h4⟩ := pmApply_closes (n := s.c.dev.tick) ho
    exact does_onChip (fun c => pmApply (now c) c) rfl (pmApply_mask (by decide) (by decide) (by decide) (by decide) (by decide) (by decide) _ s.c)
      ⟨h1, h2, h3, h4, hf⟩

end Sys2Proof.Machine
end

section
/-!
PROOFS. Engines: troubles within a tick (O11; R106, R443), death and the siding that takes its list (O12; R107, R110).
-/
namespace Sys2Proof.Machine
open Sys2Proof

/-! ### Items abandoned -/

/-- A tributary of the placement whose item is abandoned emits its replacement signal (R49). -/
theorem markUnfinished_unf {t : Nat} {c : Chip} (h : (c.img.place.tribs.lookup t).isSome = true) : (getCtx (markUnfinished t c) t).unf = true := by
  unfold markUnfinished
  rw [updCtx_get _ h]
  split
  · assumption
  · rfl

/-- No item abandoned takes the mark of another away. -/
theorem markUnfinished_keeps (u : Nat) {t : Nat} {c : Chip} (h : (getCtx c t).unf = true) : (getCtx (markUnfinished u c) t).unf = true := by
  unfold markUnfinished
  by_cases hu : t = u
  · subst hu
    unfold updCtx
    split
    · simp [getCtx, tget_tupd_same] at *
      simp [h]
    · exact h
  · rw [updCtx_get_other _ _ hu]
    exact h

/-- Marking changes tributary contexts alone. -/
theorem forEach_markUnfinished_mask (ts : List Nat) (c : Chip) : mask [.ctx] (forEach ts markUnfinished c) = mask [.ctx] c := by simp

/-- Every tributary of the placement among those marked emits its replacement signal. -/
theorem forEach_markUnfinished_unf {ts : List Nat} {c : Chip} {t : Nat} (ht : t ∈ ts) (h : (c.img.place.tribs.lookup t).isSome = true) :
    (getCtx (forEach ts markUnfinished c) t).unf = true := by
  have hQ := forEach_all (Q := fun t d => (d.img.place.tribs.lookup t).isSome = true → (getCtx d t).unf = true) (f := markUnfinished)
    (fun a d hd => markUnfinished_unf (by rwa [img_of_mask (markUnfinished_mask (l := [.ctx]) (by decide) a d) (by decide)] at hd))
    (fun a b d hd hb => markUnfinished_keeps a (hd (by rwa [img_of_mask (markUnfinished_mask (l := [.ctx]) (by decide) a d) (by decide)] at hb))) ts c t ht
  exact hQ (by rwa [img_of_mask (forEach_markUnfinished_mask ts c) (by decide)])

@[simp] theorem forEach_markUnfinished_getEng (ts : List Nat) (c : Chip) (e : Nat) : getEng (forEach ts markUnfinished c) e = getEng c e := by
  unfold getEng
  rw [eng_of_mask (forEach_markUnfinished_mask ts c) (by decide)]

@[simp] theorem forEach_markUnfinished_getIsl (ts : List Nat) (c : Chip) (i : Nat) : getIsl (forEach ts markUnfinished c) i = getIsl c i := by
  unfold getIsl
  rw [isl_of_mask (forEach_markUnfinished_mask ts c) (by decide)]

/-! ### Troubles -/

@[simp] theorem updEng_getCtx (e : Nat) (f : EngSt → EngSt) (c : Chip) (t : Nat) : getCtx (updEng e f c) t = getCtx c t := rfl
@[simp] theorem engSeen_getCtx (e code : Nat) (c : Chip) (t : Nat) : getCtx (engSeen e code c) t = getCtx c t := rfl

/-- A cause of death seen: the lower code stands (R106). -/
theorem engSeen_getEng (e code : Nat) (c : Chip) :
    getEng (engSeen e code c) e = { getEng c e with seen := if (getEng c e).seen = 0 then code else min (getEng c e).seen code } :=
  updEng_get e _ c

theorem engSeen_getEng_other {e j : Nat} (code : Nat) (c : Chip) (h : j ≠ e) : getEng (engSeen e code c) j = getEng c j :=
  updEng_get_other _ c h

theorem scratchpad_eq {e : Nat} (done : Nat) {c : Chip} (h : (getEng c e).halted = false) :
    scratchpad e done c =
      updEng e (fun x => { x with halted := true }) (engSeen e 1 (forEach (itemsTribs c.img.place ((engItems c e).drop done)) markUnfinished c)) := by
  unfold scratchpad
  rw [h]
  rfl

/-- An engine in service below 1,024 meets the condition of both troubles. -/
theorem engine_serves {s : State} {e : Nat} (hs : s.c.dev.state ≠ .cold) (he : e < 1024) (hr : (getEng s.c e).role ≤ 2) :
    (awake s.c && decide (e < 1024) && engAlive (getEng s.c e)) = true := by
  simp [awake_of hs, he, engAlive, hr]

/-- Settles O11: both commands mark the abandoned items and then the cause. -/
theorem engineTroubles : Obligations.EngineTroubles := by
  refine ⟨?heartbeat, ?scratch⟩
  case heartbeat =>
    intro s e hs he hr
    refine does_guard (f := fun _ => heartbeatLost e) rfl (engine_serves hs he hr) (heartbeatLost_mask (by decide) (by decide) e s.c) ⟨?_, fun j hj => ?_, fun t ht hl => ?_⟩
    · simp [heartbeatLost, engSeen_getEng]
    · simp [heartbeatLost, engSeen_getEng_other _ _ hj]
    · exact forEach_markUnfinished_unf ht hl
  case scratch =>
    intro s e done hs he hr hh
    refine does_guard (f := fun _ => scratchpad e done) rfl (engine_serves hs he hr) (scratchpad_mask (by decide) (by decide) e done s.c) ?_
    dsimp only
    rw [scratchpad_eq done hh]
    refine ⟨?_, fun j hj => ?_, fun t ht hl => ?_⟩
    · simp [engSeen_getEng]
    · rw [updEng_get_other _ _ hj, engSeen_getEng_other _ _ hj, forEach_markUnfinished_getEng]
    · exact forEach_markUnfinished_unf ht hl

/-! ### Death -/

/-- The chip with engine e marked dead and in the fault map, before its notice. -/
def deadEngine (e : Nat) (c : Chip) : Chip :=
  updEng e (fun x => { x with tag := 0, role := roleDead, cause := (getEng c e).seen, seen := 0 })
    (updIsl (e / 16) (fun y => { y with engOut := y.engOut ||| BitVec.ofNat 16 (1 <<< (e % 16)) }) c)

/-- The notice of an engine's death (R109). -/
def deathNotice (n e : Nat) (c : Chip) : Notice :=
  event 0x11 6 12 (getEng c e).seen e (if (getEng c e).role = roleWork then (listTribs c (e / 16) (getEng c e).list).length else 0) n false

theorem killEngine_eq (n e : Nat) (c : Chip) : killEngine n e c = notify (deathNotice n e c) (deadEngine e c) := rfl

@[simp] theorem notify_getEng (m : Notice) (c : Chip) (e : Nat) : getEng (notify m c) e = getEng c e := by
  unfold getEng
  rw [notify_eng]

@[simp] theorem notify_getIsl (m : Notice) (c : Chip) (i : Nat) : getIsl (notify m c) i = getIsl c i := by
  unfold getIsl
  rw [notify_isl]

@[simp] theorem updIsl_getEng (i : Nat) (f : IslSt → IslSt) (c : Chip) (e : Nat) : getEng (updIsl i f c) e = getEng c e := rfl
@[simp] theorem updEng_getIsl (e : Nat) (f : EngSt → EngSt) (c : Chip) (i : Nat) : getIsl (updEng e f c) i = getIsl c i := rfl

theorem killEngine_getEng (n e : Nat) (c : Chip) :
    getEng (killEngine n e c) e = { getEng c e with tag := 0, role := 3, cause := (getEng c e).seen, seen := 0 } := by
  simp [killEngine_eq, deadEngine, roleDead]

theorem killEngine_getEng_other {e j : Nat} (n : Nat) (c : Chip) (h : j ≠ e) : getEng (killEngine n e c) j = getEng c j := by
  simp [killEngine_eq, deadEngine, updEng_get_other _ _ h]

theorem killEngine_getIsl (n e : Nat) (c : Chip) : getIsl (killEngine n e c) (e / 16) =
    { getIsl c (e / 16) with engOut := (getIsl c (e / 16)).engOut ||| BitVec.ofNat 16 (1 <<< (e % 16)) } := by
  simp [killEngine_eq, deadEngine]

theorem killEngine_img (n e : Nat) (c : Chip) : (killEngine n e c).img = c.img := by
  rw [killEngine_eq, notify_img]
  rfl

/-- The lists of a dead engine's island whose engines are dead: those bound to it or to another dead one (R107). -/
theorem killEngine_deadLists (n e : Nat) (c : Chip) : deadLists (killEngine n e c) (e / 16) =
    ((getIsl c (e / 16)).bind.filter (fun b => b.2 = e || (getEng c b.2).role = 3)).map (·.1) := by
  unfold deadLists
  rw [killEngine_getIsl]
  congr 1
  refine List.filter_congr fun b _ => ?_
  by_cases hb : b.2 = e
  · rw [hb, killEngine_getEng]
    simp [roleDead]
  · rw [killEngine_getEng_other n c hb]
    simp [hb, roleDead]
    rfl

/-- The first free siding is the first still once another engine has died. -/
theorem killEngine_siding {n e i f : Nat} {rest : List Nat} {c : Chip} (h : enginesIn c i 1 = f :: rest) (hf : f ≠ e) :
    (enginesIn (killEngine n e c) i roleSiding).head? = some f := by
  have he : enginesIn (killEngine n e c) i roleSiding = (enginesIn c i 1).filter (fun j => j ≠ e) := by
    unfold enginesIn
    rw [List.filter_filter]
    refine List.filter_congr fun j _ => ?_
    by_cases hj : j = e
    · rw [hj, killEngine_getEng]
      simp [roleSiding]
    · rw [killEngine_getEng_other n c hj]
      simp [hj, roleSiding]
      rfl
  rw [he, h, List.filter_cons_of_pos (by simpa using hf)]
  rfl

/-- One engine with a cause seen: it is declared dead, and the one list of its island without an engine is reassigned. -/
theorem declareDead_one {e l n : Nat} {c : Chip} (hr : (getEng c e).role ≤ 2) (hs : (getEng c e).seen ≠ 0)
    (hl : (getIsl c (e / 16)).bind.filter (fun b => b.2 = e || (getEng c b.2).role = 3) = [(l, e)]) :
    declareDead [e] n c = reassign (e / 16) n l (killEngine n e c) := by
  have hes : [e].filter (fun e => (getEng c e).seen ≠ 0 && engAlive (getEng c e)) = [e] := by simp [hs, engAlive, hr]
  unfold declareDead
  rw [hes]
  have hd : deadLists (killEngine n e c) (e / 16) = [l] := by rw [killEngine_deadLists, hl]; rfl
  simp only [forEach_cons, forEach_nil, List.map_cons, List.map_nil, distinct, List.foldl_cons, List.foldl_nil, insAsc, hd]

/-- The epoch of the list that moves and the engine that takes it (R107, R110). -/
theorem reassign_siding {i n l f : Nat} {c : Chip} (hl : listItems c i l ≠ []) (hf : (enginesIn c i roleSiding).head? = some f) :
    ∃ ts, reassign i n l c = forEach ts markUnfinished (updIsl i (fun x => { x with starts := tput x.starts l (n + 1) }) (bindList i l f c)) := by
  unfold reassign
  rw [if_neg hl, hf]
  exact ⟨_, rfl⟩

theorem bindList_getIsl (i l f : Nat) (c : Chip) : getIsl (bindList i l f c) i =
    { getIsl c i with epochs := tput (getIsl c i).epochs l (nextEpoch (tget 0 (getIsl c i).epochs l)), bind := tput (getIsl c i).bind l f, orphans := (getIsl c i).orphans.filter (· ≠ l) } := by
  simp [bindList]

theorem bindList_getEng {i l f : Nat} {c : Chip} (h : listItems c i l ≠ []) : (getEng (bindList i l f c) f).role = 0 ∧ (getEng (bindList i l f c) f).list = l ∧
    (getEng (bindList i l f c) f).tag = nextEpoch (tget 0 (getIsl c i).epochs l) := by
  have hw : ∀ g, listItems (updIsl i g c) i l ≠ [] := fun _ => h
  simp [bindList, hw, roleWork]

theorem bindList_getEng_other {i l f j : Nat} (c : Chip) (h : j ≠ f) : getEng (bindList i l f c) j = getEng c j := by
  simp [bindList, updEng_get_other _ _ h]

/-- What has been raised, the reassignment to a siding leaves. -/
theorem Raised_siding {m : Notice} {ts : List Nat} {i l f : Nat} {g : IslSt → IslSt} {c : Chip} (h : Raised m c) :
    Raised m (forEach ts markUnfinished (updIsl i g (bindList i l f c))) := by
  have hm := forEach_markUnfinished_mask ts (updIsl i g (bindList i l f c))
  exact (Raised_congr (nq_of_mask hm (by decide)) (notice_of_mask hm (by decide))).2 h

theorem mem_startOne {e n : Nat} {c : Chip} (p : Nat × Nat) : p ∈ (getIsl (startOne e n c) (e / 16)).starts ↔
    p ∈ (getIsl c (e / 16)).starts ∧ (n < p.2 ∨ (getIsl c (e / 16)).bind.lookup p.1 ≠ some e) := by
  simp [startOne, List.mem_filter]

/-- Settles O12: one death with its reassignment to the first siding, and the start of the lists that are due. -/
theorem engineDeathAndSiding : Obligations.EngineDeathAndSiding := by
  refine ⟨?death, ?start⟩
  case death =>
    intro s e l f rest hs he hr hseen hroom hbind hitems hsid hfe
    refine does_guard (f := fun c => declareDead [e] (now c)) rfl (by simp [awake_of hs, he])
      (declareDead_mask (by decide) (by decide) (by decide) (by decide) (by decide) (by decide) [e] _ s.c) ?_
    have hit : listItems (killEngine s.c.dev.tick e s.c) (e / 16) l ≠ [] := by
      unfold listItems at hitems ⊢
      rw [killEngine_img]
      exact hitems
    obtain ⟨ts, hre⟩ := reassign_siding (n := s.c.dev.tick) hit (killEngine_siding hsid hfe)
    have hd : declareDead [e] (now s.c) s.c = _ := (declareDead_one hr hseen hbind).trans hre
    obtain ⟨f1, f2, f3⟩ := bindList_getEng (f := f) hit
    have hraised : Raised (deathNotice s.c.dev.tick e s.c) (killEngine s.c.dev.tick e s.c) := notify_raised _ hroom
    have hk := killEngine_getEng s.c.dev.tick e s.c
    have hi := killEngine_getIsl s.c.dev.tick e s.c
    rw [hd]
    simp only [forEach_markUnfinished_getEng, forEach_markUnfinished_getIsl, updIsl_getEng, updIsl_get, bindList_getIsl, bindList_getEng_other _ (Ne.symm hfe), hk, hi, f1, f2, f3,
      lookup_tput_same, tget_tput_same, true_and]
    exact Raised_siding hraised
  case start =>
    intro s e hs he
    refine does_guard (f := fun c => startOne e (now c)) rfl (by simp [awake_of hs, he]) (startOne_mask (by decide) e _ s.c) ⟨?_, fun p => mem_startOne p⟩
    simp [startOne]

end Sys2Proof.Machine
end

section
/-!
PROOFS. Tributary contexts at the tick and the rings that slip (O13; R175, R176, R191, R528).
-/
namespace Sys2Proof.Machine
open Sys2Proof

/-! ### Contexts of a tick -/

@[simp] theorem ctxPublish_getCtx (t : Nat) (c : Chip) (u : Nat) : getCtx (ctxPublish t c) u = getCtx c u := by
  have hm : mask [.dep] (ctxPublish t c) = mask [.dep] c := by simp
  unfold getCtx
  rw [ctx_of_mask hm (by decide)]

/-- A tributary's entry of `TRIB_CTX` stands once written (R176). -/
theorem ctxPublish_published {t : Nat} {p : Plc} {c : Chip} (h : c.img.place.tribs.lookup t = some p) :
    ((ctxPublish t c).dep.ctxPub.lookup (ctxIndex p)).isSome = true := by
  unfold ctxPublish
  rw [h]
  simp

@[simp] theorem pmExtras_getCtx (t pos neg int : Nat) (c : Chip) (u : Nat) : getCtx (pmExtras t pos neg int c) u = getCtx c u := by
  have hm : mask [.pm] (pmExtras t pos neg int c) = mask [.pm] c := by simp
  unfold getCtx
  rw [ctx_of_mask hm (by decide)]

@[simp] theorem pmExtras_img (t pos neg int : Nat) (c : Chip) : (pmExtras t pos neg int c).img = c.img := by
  have hm : mask [.pm] (pmExtras t pos neg int c) = mask [.pm] c := by simp
  exact img_of_mask hm (by decide)

/-- An item of a function that adjusts and is no pointer generator writes its state, adjustments and fill (R175). -/
theorem itemEffect_adjusts {f ty half func pos neg fill n : Nat} {x : CtxSt} (ha : funcAdjusts f = true) (h6 : f ≠ 0x006) :
    itemEffect f ty half func pos neg fill n x =
      { x with func := BitVec.ofNat 96 (func &&& funcMask f), pos := x.pos + BitVec.ofNat 32 pos, neg := x.neg + BitVec.ofNat 32 neg, fill := BitVec.ofNat 16 fill, fills := (fill :: x.fills).take 64, fresh := false, upd := true, seq := x.seq + 1 } := by
  have hp : isPointer f = false := by
    unfold funcAdjusts at ha
    cases h : isPointer f
    · rfl
    · simp [h] at ha
  simp [itemEffect, h6, hp]

/-- The first completion of a tributary in a tick takes effect and writes its entry. -/
theorem itemComplete_eq {t pos neg fill : Nat} {func : BitVec 96} {p : Plc} {c : Chip} (hp : c.img.place.tribs.lookup t = some p) (hu : (getCtx c t).unf = false)
    (hd : (getCtx c t).upd = false) (ha : funcAdjusts (tribFunc (tribOf c t)) = true) :
    itemComplete t func pos neg fill c = ctxPublish t (pmExtras (t % 0x20000) pos neg 0
      (updCtx t (itemEffect (tribFunc (tribOf c t)) (tribType (tribOf c t)) (ringHalf p.n) func.toNat pos neg fill (now c)) c)) := by
  unfold itemComplete
  simp only [hp, hu, hd, ha]
  rfl

/-! ### Rings -/

theorem ringSlip_within {t : Nat} {off : Int} {c : Chip} (h : beyondRange (tribFunc (tribOf c t)) (tribType (tribOf c t)) off = false) :
    ringSlip t off c = c := by
  unfold ringSlip
  split
  · rfl
  · rw [h]
    rfl

theorem ringSlip_beyond {t : Nat} {off : Int} {p : Plc} {c : Chip} (hp : c.img.place.tribs.lookup t = some p)
    (h : beyondRange (tribFunc (tribOf c t)) (tribType (tribOf c t)) off = true) : ringSlip t off c = slipEffect t p.n c := by
  unfold ringSlip
  simp only [hp, h, if_true]

/-- A context whose ring slips in tick m, its ring's middle at h (R528). -/
def slipCtx (h m : Nat) (x : CtxSt) : CtxSt :=
  { x with range := if x.oor && x.slip = m then x.range else BitVec.ofNat 32 (satInc 0xFFFFFFFF x.range.toNat), oor := true, slip := m, repl := true, fill := BitVec.ofNat 16 h }

theorem slipEffect_eq (t n : Nat) (c : Chip) : slipEffect t n c =
    if (chainPorts (theImage c) (t % 0x20000)).all (portReceives c) then
      setDefect (rangeKey (t % 0x20000)) true (updCtx t (slipCtx (ringHalf n) (now c)) c) else updCtx t (slipCtx (ringHalf n) (now c)) c := rfl

/-- A slip not yet counted in this tick is counted. -/
theorem slipCtx_counts {h m : Nat} {x : CtxSt} (hs : x.oor = false ∨ x.slip ≠ m) :
    slipCtx h m x = { x with range := BitVec.ofNat 32 (satInc 0xFFFFFFFF x.range.toNat), oor := true, slip := m, repl := true, fill := BitVec.ofNat 16 h } := by
  have hn : (x.oor && decide (x.slip = m)) = false := by
    rcases hs with h | h <;> simp [h]
  simp [slipCtx, hn]

@[simp] theorem setDefect_getCtx (k : Nat) (b : Bool) (c : Chip) (t : Nat) : getCtx (setDefect k b c) t = getCtx c t := rfl

theorem slipEffect_getCtx {t n : Nat} {c : Chip} (hl : (c.img.place.tribs.lookup t).isSome = true) :
    getCtx (slipEffect t n c) t = slipCtx (ringHalf n) (now c) (getCtx c t) := by
  rw [slipEffect_eq]
  split
  · rw [setDefect_getCtx, updCtx_get _ hl]
  · exact updCtx_get _ hl

theorem slipEffect_range {t n : Nat} {c : Chip} (h : (chainPorts (theImage c) (t % 0x20000)).all (portReceives c) = true) :
    (dget (slipEffect t n c) (rangeKey (t % 0x20000))).present = true := by
  rw [slipEffect_eq, if_pos h]
  exact setDefect_present _ _ _

/-- The last context of a tributary to come back into range takes the defect with it. -/
theorem oorClear_both {t : Nat} {c : Chip} (ht : t < 0x20000) (hl : (c.img.place.tribs.lookup t).isSome = true) (ho : (getCtx c (t + 0x20000)).oor = false) :
    oorClear t c = setDefect (rangeKey t) false (updCtx t (fun x => { x with oor := false }) c) := by
  have hm : t % 0x20000 = t := Nat.mod_eq_of_lt ht
  have h1 : getCtx (updCtx t (fun x => { x with oor := false }) c) t = { getCtx c t with oor := false } := updCtx_get _ hl
  have h2 : getCtx (updCtx t (fun x => { x with oor := false }) c) (t + 0x20000) = getCtx c (t + 0x20000) := updCtx_get_other _ _ (by omega)
  unfold oorClear
  simp [hm, h1, h2, ho]

theorem oorDue_iff (x : CtxSt) (n : Nat) : oorDue x n = true ↔ x.oor = true ∧ x.slip + 8001 ≤ n := by
  simp [oorDue]

/-- Settles O13: the first completion of the tick, rings within and beyond their range, and the end of out-of-range. -/
theorem contextsFollowTheTick : Obligations.ContextsFollowTheTick := by
  refine ⟨?completes, ?within, ?beyond, ?clears⟩
  case completes =>
    intro s t p func pos neg fill hi hp hu hd ha h6
    refine does_guard (f := fun _ => itemComplete t func pos neg fill) rfl hi (itemComplete_mask (by decide) (by decide) (by decide) t func pos neg fill s.c) ?_
    dsimp only
    rw [itemComplete_eq hp hu hd ha]
    have hl : (s.c.img.place.tribs.lookup t).isSome = true := by rw [hp]; rfl
    have hmi : mask [.ctx] (updCtx t (itemEffect (tribFunc (tribOf s.c t)) (tribType (tribOf s.c t)) (ringHalf p.n) func.toNat pos neg fill (now s.c)) s.c) = mask [.ctx] s.c := by simp
    refine ⟨?_, fun u hu => ?_, ctxPublish_published ?_⟩
    · rw [ctxPublish_getCtx, pmExtras_getCtx, updCtx_get _ hl, itemEffect_adjusts ha h6]
    · rw [ctxPublish_getCtx, pmExtras_getCtx, updCtx_get_other _ _ hu]
    · rw [pmExtras_img, img_of_mask hmi (by decide)]
      exact hp
  case within =>
    intro s t off h
    refine congrArg Host.Outcome.next ?_
    cases hb : onImage s.c
    · simp only [onChip, hb, when_false]
    · simp only [onChip, hb, when_true, ringSlip_within h]
  case beyond =>
    intro s t p off hi hp hb hs
    refine does_guard (f := fun _ => ringSlip t off) rfl hi (ringSlip_mask (by decide) (by decide) t off s.c) ?_
    dsimp only
    rw [ringSlip_beyond hp hb]
    exact ⟨(slipEffect_getCtx (by rw [hp]; rfl)).trans (slipCtx_counts hs), slipEffect_range⟩
  case clears =>
    intro s t ht ho hd hl hother
    refine does_guard (f := fun _ => oorClear t) rfl ((oorDue_iff _ _).2 ⟨ho, hd⟩) (oorClear_mask (by decide) (by decide) t s.c) ?_
    dsimp only
    rw [oorClear_both ht hl hother]
    exact ⟨updCtx_get _ hl, setDefect_present _ _ _⟩

end Sys2Proof.Machine
end

section
/-!
PROOFS. The junction: windows served (O14; R200, R216, R219) and its repairs (O15; R217, R218).
-/
namespace Sys2Proof.Machine
open Sys2Proof

/-! ### Windows served -/

/-- What serving a window without a code read in error touches of the junction before it emits: marks of reading, no count, no loss
and no selector. -/
structure JctQuiet (j k : JunctionSt) : Prop where
  stat : k.stat = j.stat
  hard : k.hard = j.hard
  lostSrc : k.lostSrc = j.lostSrc
  lostEgr : k.lostEgr = j.lostEgr
  sel : k.sel = j.sel

/-- A sound read of an entry changes the record of unsound ones alone (R199). -/
theorem noteEcc_quiet (bank idx : Nat) (c : Chip) : ∃ j, noteEcc bank idx 0 c = setJct j c ∧ JctQuiet c.jct j := by
  unfold noteEcc
  dsimp only
  rw [if_neg (by decide)]
  split
  · exact ⟨_, rfl, rfl, rfl, rfl, rfl, rfl⟩
  · exact ⟨c.jct, rfl, rfl, rfl, rfl, rfl, rfl⟩

theorem noteSel_none (e : BitVec 40) (c : Chip) : noteSel 0 e c = c := by
  unfold noteSel
  split
  · rfl
  · rfl

/-- Outside the tick of a commit a window takes the active bank's entry. -/
theorem commitEntry_active {c : Chip} {isl w : Nat} (h : c.cm.lastC ≠ some c.dev.tick) : commitEntry c isl w = (entAt c.img.place isl w, c.img.place, false) := by
  unfold commitEntry
  exact if_pos h

/-- A sound entry of the active bank is served as it stands, outside the tick of a commit. -/
theorem egressServe_sound {isl w eccOther eccData : Nat} {c : Chip} (hc : c.cm.lastC ≠ some c.dev.tick) (hh : hardAt c true (15000 * isl + w) = false) :
    ∃ j, egressServe isl w 0 eccOther eccData 0 c = serveEntry isl w eccData (entAt c.img.place isl w) c.img.place (setJct j c) ∧ JctQuiet c.jct j := by
  obtain ⟨j, hj, q⟩ := noteEcc_quiet (bnat c.cm.activeBank) (windows * isl + w) c
  have hh' : hardAt (setJct j c) true (windows * isl + w) = false := by
    unfold hardAt at hh ⊢
    rw [setJct_jct, q.hard]
    exact hh
  refine ⟨{ j with lostNow := j.lostNow.filter (· ≠ windows * isl + w) }, ?_, q.stat, q.hard, q.lostSrc, q.lostEgr, q.sel⟩
  unfold egressServe
  simp only [commitEntry_active hc, Bool.false_eq_true, if_false, noteSel_none, hj]
  rw [if_pos (by simp [hh']), if_neg (by decide)]
  rfl

/-- An entry that names its source without a selector. -/
theorem entSource_direct {c : Chip} {p : Placement} {e : BitVec 40} (h : entSel e = 0x1FFFF) : entSource c p e = some (entIsl e, entBerth e) := if_pos h

theorem countEvent_keeps (ev scope k : Nat) (c : Chip) :
    (countEvent ev scope k c).host = c.host ∧ (countEvent ev scope k c).jct = c.jct ∧ (countEvent ev scope k c).ctx = c.ctx :=
  ⟨countEvent_host ev scope k c, countEvent_jct ev scope k c, countEvent_ctx ev scope k c⟩

section serve

variable {isl w : Nat} {e : BitVec 40} {p : Placement} {c : Chip}
variable (hv : entValid e = true) (hs : entSel e = 0x1FFFF) (hi : cwyDown c isl = false) (hsi : cwyDown c (entIsl e) = false)
include hv hs hi hsi

/-- A served window delivers its source's bytes, those of the tick before where the entry wraps (R200). -/
theorem serveEntry_delivers (hf : flitGone c (entIsl e) (entBerth e) (if w ≤ entBerth e then c.dev.tick - 1 else c.dev.tick) isl w = false) :
    (serveEntry isl w 0 e p c).host.out = c.host.out ++ [Output.berth isl w
      (sourceBytes c p (entIsl e, entBerth e) (if w ≤ entBerth e then c.dev.tick - 1 else c.dev.tick)) (25 * berthDist (entBerth e) w + 120)] ∧
    (serveEntry isl w 0 e p c).jct = c.jct ∧ (serveEntry isl w 0 e p c).ctx = c.ctx := by
  unfold serveEntry
  simp only [hv, hs, Bool.not_true, Bool.false_eq_true, if_false, ne_eq, not_true_eq_false, decide_false, Bool.false_and, entSource_direct hs, wraps, decide_eq_true_eq,
    quadDown, hi, hsi, Bool.or_self, Nat.reduceEqDiff, now, hf]
  simp only [(countEvent_keeps _ _ _ _).1, (countEvent_keeps _ _ _ _).2.1, (countEvent_keeps _ _ _ _).2.2]
  exact ⟨rfl, rfl, rfl⟩

/-- A berth buffer that cannot be corrected delivers zeros and is counted (R219). -/
theorem serveEntry_zeros : (serveEntry isl w 2 e p c).host.out = c.host.out ++ [Output.berth isl w .zeros (25 * berthDist (entBerth e) w + 120)] ∧
    (tget jctDflt (serveEntry isl w 2 e p c).jct.stat isl).bufUncorr = (tget jctDflt c.jct.stat isl).bufUncorr + 1 := by
  have hm : ∀ (l : List Nat) (d : Chip), mask [.ctx] (forEach l markErrored d) = mask [.ctx] d := fun l d => by simp
  unfold serveEntry
  simp only [hv, hs, Bool.not_true, Bool.false_eq_true, if_false, ne_eq, not_true_eq_false, decide_false, Bool.false_and, entSource_direct hs,
    quadDown, hi, hsi, Bool.or_self, if_true]
  constructor
  · simp only [emit, (countEvent_keeps _ _ _ _).1, host_of_mask (hm _ _) (by decide : Part.host ∉ [Part.ctx])]
    rfl
  · simp only [emit, (countEvent_keeps _ _ _ _).2.1, jct_of_mask (hm _ _) (by decide : Part.jct ∉ [Part.ctx])]
    simp [updJct, setJct]

end serve

/-! ### Entries that cannot be read -/

/-- An undeliverable entry is counted and noted (R216). -/
theorem undeliverable_jct (isl w : Nat) (c : Chip) : (undeliverable isl w c).host = c.host ∧
    (tget jctDflt (undeliverable isl w c).jct.stat isl).lost = (tget jctDflt c.jct.stat isl).lost + 1 ∧
    (windows * isl + w) ∈ (undeliverable isl w c).jct.lostNow := by
  have hm : mask [.ctx] (forEach (egressOwners c.img.place isl w) markErrored (updJct isl (fun x => { x with lost := x.lost + 1 }) c)) =
      mask [.ctx] (updJct isl (fun x => { x with lost := x.lost + 1 }) c) := by simp
  have hmn : mask [.nq, .notice, .jct, .ctx, .dep] (undeliverable isl w c) = mask [.nq, .notice, .jct, .ctx, .dep] c := by simp
  refine ⟨host_of_mask hmn (by decide), ?_, ?_⟩
  · unfold undeliverable
    dsimp only
    rw [setJct_jct]
    split
    · rw [jct_of_mask hm (by decide)]
      simp [updJct, setJct]
    · rw [notify_jct, jct_of_mask hm (by decide)]
      simp [updJct, setJct]
  · unfold undeliverable
    dsimp only
    rw [setJct_jct, mem_insAsc]
    exact .inl rfl

/-- An unsound read is noted and counts nothing. -/
theorem noteEcc_stat (bank idx ecc : Nat) (c : Chip) : (noteEcc bank idx ecc c).jct.stat = c.jct.stat ∧ (noteEcc bank idx ecc c).host = c.host := by
  unfold noteEcc
  dsimp only
  repeat' split
  all_goals exact ⟨rfl, rfl⟩

/-- An entry in error in both banks delivers nothing (R216). -/
theorem egressServe_lost (isl w eccData : Nat) (c : Chip) : ∃ d, egressServe isl w 2 2 eccData 0 c = emit (.berth isl w .nothing 0) (undeliverable isl w d) ∧
    d.jct.stat = c.jct.stat ∧ d.host = c.host := by
  unfold egressServe
  simp only [noteSel_none, ite_self, ne_eq, not_true_eq_false, decide_false, Bool.false_and, Bool.and_false, Bool.false_eq_true, if_false]
  refine ⟨_, rfl, ?_, ?_⟩
  · simp only [apply_ite Chip.jct, apply_ite JunctionSt.stat, (noteEcc_stat _ _ _ _).1, ite_self]
  · simp only [apply_ite Chip.host, (noteEcc_stat _ _ _ _).2, ite_self]

/-- A window of an island served while an image is committed. -/
theorem does_egressServe {s : State} {isl w a o d l : Nat} {P : Chip → Prop} (hs : onImage s.c = true) (hi : isl < 64) (hw : w < 15000)
    (hP : P (egressServe isl w a o d l s.c)) : Does (.egressWindowServe isl w a o d l) s [.nq, .notice, .host, .jct, .ctx, .dep] P :=
  does_guard (f := fun _ => egressServe isl w a o d l) rfl (by simp [hs, hi, hw, windows])
    (egressServe_mask (by decide) (by decide) (by decide) (by decide) (by decide) (by decide) isl w a o d l s.c) hP

/-- Settles O14: the entry in force served, and the entry lost. -/
theorem egressWindowServed : Obligations.EgressWindowServed := by
  refine ⟨?served, ?lost⟩
  case served =>
    intro s isl w eccOther si sb t hon hi hw hc hh hv hsel hsi hsb ht hd hds
    subst hsi hsb ht
    refine ⟨fun hf => ?_, ?_⟩
    · refine does_egressServe hon hi hw ?_
      obtain ⟨j, he, q⟩ := egressServe_sound (eccOther := eccOther) (eccData := 0) hc hh
      have hf' : flitGone (setJct j s.c) (entIsl (entAt s.c.img.place isl w)) (entBerth (entAt s.c.img.place isl w))
          (if w ≤ entBerth (entAt s.c.img.place isl w) then s.c.dev.tick - 1 else s.c.dev.tick) isl w = false := by
        unfold flitGone at hf ⊢
        rw [setJct_jct, q.lostSrc, q.lostEgr]
        exact hf
      obtain ⟨h1, h2, h3⟩ := serveEntry_delivers (p := s.c.img.place) (c := setJct j s.c) hv hsel hd hds hf'
      rw [he]
      exact ⟨h1, by rw [h2]; exact q.stat, h3⟩
    · refine does_egressServe hon hi hw ?_
      obtain ⟨j, he, q⟩ := egressServe_sound (eccOther := eccOther) (eccData := 2) hc hh
      obtain ⟨h1, h2⟩ := serveEntry_zeros (w := w) (p := s.c.img.place) (c := setJct j s.c) hv hsel hd hds
      rw [he]
      refine ⟨h1, h2.trans ?_⟩
      rw [setJct_jct, q.stat]
  case lost =>
    intro s isl w eccData hon hi hw
    refine does_egressServe hon hi hw ?_
    obtain ⟨d, he, hst, hh⟩ := egressServe_lost isl w eccData s.c
    obtain ⟨h1, h2, h3⟩ := undeliverable_jct isl w d
    rw [he]
    refine ⟨?_, h2.trans (by rw [hst]), h3⟩
    simp only [emit, h1, hh]

end Sys2Proof.Machine
end

section
/-!
PROOFS. Repairs of the junction (O15; R217, R218) and the causeways (O16; R20, R21).
-/
namespace Sys2Proof.Machine
open Sys2Proof

/-! ### The scrub of the shadow bank -/

/-- One index of the scrub: it becomes a hard fault, with its notice where it is new (R217). -/
def scrubOne (bank i : Nat) (c : Chip) : Chip :=
  if c.jct.hard.contains (bank + i) then c
  else notify (event 0x13 7 12 1 (i / windows) (i % windows) (now c) false) (setJct { c.jct with hard := insAsc c.jct.hard (bank + i) } c)

theorem scrubOne_mem (bank i k : Nat) (c : Chip) : k ∈ (scrubOne bank i c).jct.hard ↔ k = bank + i ∨ k ∈ c.jct.hard := by
  unfold scrubOne
  split
  · next h =>
    have hm : bank + i ∈ c.jct.hard := by simpa using h
    exact ⟨.inr, fun h => h.elim (fun e => e ▸ hm) id⟩
  · rw [notify_jct, setJct_jct, mem_insAsc]

theorem scrubOne_keeps (bank i : Nat) (c : Chip) : (scrubOne bank i c).jct.stat = c.jct.stat ∧ (scrubOne bank i c).jct.sel = c.jct.sel := by
  unfold scrubOne
  split
  · exact ⟨rfl, rfl⟩
  · rw [notify_jct, setJct_jct]
    exact ⟨rfl, rfl⟩

/-- The scrub: the record of unsound reads first, then every index below the bank's size. -/
theorem shadowScrub_eq (l : List Nat) (c : Chip) : ∃ j, shadowScrub l c = forEach (l.filter (· < bankSize)) (scrubOne (bankSize * bnat (!c.cm.activeBank))) (setJct j c) ∧
    j.hard = c.jct.hard ∧ j.stat = c.jct.stat ∧ j.sel = c.jct.sel :=
  ⟨_, rfl, rfl, rfl, rfl⟩

/-- A scrub adds hard faults of the shadow bank and takes none away. -/
theorem shadowScrub_hard (l : List Nat) (c : Chip) :
    (∀ i, i ∈ l → i < bankSize → (bankSize * bnat (!c.cm.activeBank) + i) ∈ (shadowScrub l c).jct.hard) ∧
    (∀ k, k ∈ c.jct.hard → k ∈ (shadowScrub l c).jct.hard) := by
  obtain ⟨j, he, hj, -, -⟩ := shadowScrub_eq l c
  rw [he]
  refine ⟨fun i hi hb => ?_, fun k hk => ?_⟩
  · exact forEach_all (Q := fun i d => (bankSize * bnat (!c.cm.activeBank) + i) ∈ d.jct.hard) (fun a d => (scrubOne_mem _ a _ d).2 (.inl rfl))
      (fun a b d h => (scrubOne_mem _ a _ d).2 (.inr h)) _ _ i (List.mem_filter.2 ⟨hi, by simpa using hb⟩)
  · exact forEach_ind (Q := fun d => k ∈ d.jct.hard) (fun a d h => (scrubOne_mem _ a _ d).2 (.inr h)) _ _ (by rw [setJct_jct, hj]; exact hk)

theorem shadowScrub_keeps (l : List Nat) (c : Chip) : (shadowScrub l c).jct.stat = c.jct.stat ∧ (shadowScrub l c).jct.sel = c.jct.sel := by
  obtain ⟨j, he, -, h1, h2⟩ := shadowScrub_eq l c
  rw [he]
  exact forEach_ind (Q := fun d => d.jct.stat = c.jct.stat ∧ d.jct.sel = c.jct.sel)
    (fun a d h => ⟨(scrubOne_keeps _ a d).1.trans h.1, (scrubOne_keeps _ a d).2.trans h.2⟩) _ _ ⟨h1, h2⟩

/-! ### Selectors restored -/

theorem selRestore_select {g : Nat} {c : Chip} {x : GrpSt} (hx : c.prot.groups.lookup g = some x) :
    selRestore g 0 c = updSel g (fun s => if s.badSel then { s with badSel := false, select := if x.decided.isSome then s.select else x.select } else s) c := by
  unfold selRestore
  rw [hx]
  rfl

theorem selRestore_alt {g : Nat} {c : Chip} (hx : (c.prot.groups.lookup g).isSome = true) :
    selRestore g 1 c = updSel g (fun s => { s with badAlt := false }) c := by
  obtain ⟨x, hx⟩ := Option.isSome_iff_exists.1 hx
  unfold selRestore
  rw [hx]
  rfl

/-- Settles O15: the scrub's hard faults, and the two fields of `PROT_SEL` restored. -/
theorem junctionRepairs : Obligations.JunctionRepairs := by
  refine ⟨?scrub, ?select, ?alt⟩
  case scrub =>
    intro s l hi hp
    obtain ⟨h1, h2⟩ := shadowScrub_hard l s.c
    obtain ⟨h3, h4⟩ := shadowScrub_keeps l s.c
    exact does_guard (f := fun _ => shadowScrub l) rfl (by simp [hi, hp]) (shadowScrub_mask (by decide) (by decide) (by decide) (by decide) l s.c)
      ⟨h1, h2, h3, h4⟩
  case select =>
    intro s g x hi hx hb hd
    refine does_guard (f := fun _ => selRestore g 0) rfl hi (selRestore_mask (by decide) g 0 s.c) ?_
    dsimp only
    rw [selRestore_select hx]
    exact ⟨by simp [hb, hd], fun h hh => updSel_get_other _ _ hh⟩
  case alt =>
    intro s g hi hx
    refine does_guard (f := fun _ => selRestore g 1) rfl hi (selRestore_mask (by decide) g 1 s.c) ?_
    dsimp only
    rw [selRestore_alt hx]
    exact updSel_get g _ s.c

/-! ### Causeways -/

/-- A tributary of the placement whose data is errored is marked so. -/
theorem markErrored_errored {t : Nat} {c : Chip} (h : (c.img.place.tribs.lookup t).isSome = true) : (getCtx (markErrored t c) t).errored = true := by
  unfold markErrored
  rw [updCtx_get _ h]

theorem markErrored_keeps (u : Nat) {t : Nat} {c : Chip} (h : (getCtx c t).errored = true) : (getCtx (markErrored u c) t).errored = true := by
  unfold markErrored
  by_cases hu : t = u
  · subst hu
    unfold updCtx
    split
    · simp [getCtx]
    · exact h
  · rw [updCtx_get_other _ _ hu]
    exact h

/-- Marking changes tributary contexts alone. -/
theorem forEach_markErrored_mask (ts : List Nat) (c : Chip) : mask [.ctx] (forEach ts markErrored c) = mask [.ctx] c := by simp

theorem forEach_markErrored_errored {ts : List Nat} {c : Chip} {t : Nat} (ht : t ∈ ts) (h : (c.img.place.tribs.lookup t).isSome = true) :
    (getCtx (forEach ts markErrored c) t).errored = true := by
  have hi : ∀ a (d : Chip), (markErrored a d).img = d.img := fun a d => img_of_mask (markErrored_mask (l := [.ctx]) (by decide) a d) (by decide)
  have hQ := forEach_all (Q := fun t d => (d.img.place.tribs.lookup t).isSome = true → (getCtx d t).errored = true) (f := markErrored)
    (fun a d hd => markErrored_errored (by rwa [hi] at hd)) (fun a b d hd hb => markErrored_keeps a (hd (by rwa [hi] at hb))) ts c t ht
  exact hQ (by rwa [img_of_mask (forEach_markErrored_mask ts c) (by decide)])

@[simp] theorem countEvent_getCwy (ev scope k : Nat) (c : Chip) (q : Nat) : getCwy (countEvent ev scope k c) q = getCwy c q := by
  unfold getCwy
  rw [countEvent_cwy]

@[simp] theorem causewayRoot_getCwy (q n : Nat) (b : Bool) (c : Chip) (r : Nat) : getCwy (causewayRoot q n b c) r = getCwy c r := by
  have hm : mask [.dev, .nq, .notice, .dfx, .dep] (causewayRoot q n b c) = mask [.dev, .nq, .notice, .dfx, .dep] c := by simp
  unfold getCwy
  rw [cwy_of_mask hm (by decide)]

@[simp] theorem cwyReplace_getCwy (q : Nat) (c : Chip) (r : Nat) : getCwy (cwyReplace q c) r = getCwy c r := by
  have hm : mask [.ctx] (cwyReplace q c) = mask [.ctx] c := by simp
  unfold getCwy
  rw [cwy_of_mask hm (by decide)]

/-- A lost flit of direction 1: its count, its window's bytes, and the data of the window's tributaries (R20). -/
theorem flitLost_egress (q isl w : Nat) (c : Chip) :
    flitLost q 1 isl w c = forEach (egressOwners c.img.place isl w) markErrored (countEvent 0x041 q 1 (updCwy q (fun x => { x with uncorr := x.uncorr + 1 })
      (setJct { c.jct with lostEgr := (windows * isl + w, now c) :: c.jct.lostEgr } c))) := rfl

/-- A bad lane waits for a spare; beyond the spares the causeway fails (R21). -/
theorem laneBad_getCwy (q : Nat) (c : Chip) : getCwy (laneBad q c) q =
    { getCwy c q with badNow := (getCwy c q).badNow + 1, failed := (getCwy c q).failed || decide (2 < (getCwy c q).used + (getCwy c q).badNow + 1) } := by
  unfold laneBad
  dsimp only
  rw [updCwy_get]
  split
  · next h =>
    simp only [Bool.and_eq_true, decide_eq_true_eq] at h
    simp [cwyFail, show 2 < (getCwy c q).used + (getCwy c q).badNow + 1 by omega]
  · next h =>
    rw [updCwy_get]
    cases hf : (getCwy c q).failed
    · have hn : ¬2 < (getCwy c q).used + ((getCwy c q).badNow + 1) := by simpa [hf] using h
      simp [show ¬2 < (getCwy c q).used + (getCwy c q).badNow + 1 by omega]
    · simp

/-- Settles O16: each command's operation on its causeway, and the marks of a lost flit. -/
theorem causewaysCountAndFail : Obligations.CausewaysCountAndFail := by
  refine ⟨?flit, ?retrans, ?bad, ?spare, ?restored⟩
  case flit =>
    intro s q isl w hs hq hi hw
    refine does_guard (f := fun _ => flitLost q 1 isl w) rfl (by simp [awake_of hs, hq, hi, hw, windows])
      (flitLost_mask (by decide) (by decide) (by decide) (by decide) q 1 isl w s.c) ?_
    dsimp only
    rw [flitLost_egress]
    have hm := forEach_markErrored_mask (egressOwners s.c.img.place isl w) (countEvent 0x041 q 1 (updCwy q (fun x => { x with uncorr := x.uncorr + 1 })
      (setJct { s.c.jct with lostEgr := (windows * isl + w, now s.c) :: s.c.jct.lostEgr } s.c)))
    refine ⟨?_, ?_, fun t ht hl => forEach_markErrored_errored ht ?_⟩
    · rw [getCwy, cwy_of_mask hm (by decide), ← getCwy, countEvent_getCwy, updCwy_get]
      rfl
    · rw [jct_of_mask hm (by decide), countEvent_jct]
      rfl
    · rw [countEvent_img]
      exact hl
  case retrans =>
    intro s q hs hq
    refine does_guard (f := fun _ c => countEvent 0x042 q 1 (updCwy q (fun x => { x with retrans := x.retrans + 1 }) c)) rfl (by simp [awake_of hs, hq]) (by simp)
      ⟨?_, fun r hr => ?_⟩
    · rw [countEvent_getCwy, updCwy_get]
    · rw [countEvent_getCwy, updCwy_get_other _ _ hr]
  case bad =>
    intro s q hs hq
    exact does_guard (f := fun _ => laneBad q) rfl (by simp [awake_of hs, hq])
      (laneBad_mask (by decide) (by decide) (by decide) (by decide) (by decide) (by decide) (by decide) q s.c) (laneBad_getCwy q s.c)
  case spare =>
    intro s q hs hq
    exact does_guard (f := fun _ => substituteLanes q) rfl (by simp [awake_of hs, hq]) (substituteLanes_mask (by decide) q s.c) (updCwy_get q _ s.c)
  case restored =>
    intro s q hs hq hf
    refine does_guard (f := fun c => cwyRestore q (now c)) rfl (by simp [awake_of hs, hq, hf])
      (cwyRestore_mask (by decide) (by decide) (by decide) (by decide) (by decide) (by decide) q _ s.c) ⟨?_, fun r hr => ?_⟩
    · simp [cwyRestore]
    · simp [cwyRestore, updCwy_get_other _ _ hr]

end Sys2Proof.Machine
end

section
/-!
PROOFS. Depots: guarded writes (O17; R111, R438, R439, R441), uncorrectable reads and the patrol (O18; R442, R446, R448).
-/
namespace Sys2Proof.Machine
open Sys2Proof

/-! ### Counting and notices leave the depots -/

/-- Counting an event changes the counters' own part of the depots and counters. -/
theorem countEvent_dep (ev scope k : Nat) (c : Chip) : ∃ t, (countEvent ev scope k c).dep = { c.dep with count := t } := by
  unfold countEvent
  split
  · exact ⟨c.dep.count, rfl⟩
  · refine forEach_ind (Q := fun d => ∃ t, d.dep = { c.dep with count := t }) (fun n d h => ?_) _ c ⟨c.dep.count, rfl⟩
    obtain ⟨t, ht⟩ := h
    unfold pcntAdd
    dsimp only
    rw [ht]
    exact ⟨_, rfl⟩

/-- A notice changes at most the counters there. -/
theorem notify_dep (n : Notice) (c : Chip) : ∃ t, (notify n c).dep = { c.dep with count := t } := by
  unfold notify drainNotices
  dsimp only
  split
  · exact ⟨c.dep.count, rfl⟩
  · exact countEvent_dep _ _ _ _

theorem countEvent_getDepot (ev scope k : Nat) (c : Chip) (i : Nat) : getDepot (countEvent ev scope k c) i = getDepot c i := by
  obtain ⟨t, ht⟩ := countEvent_dep ev scope k c
  unfold getDepot
  rw [ht]

theorem notify_getDepot (n : Notice) (c : Chip) (i : Nat) : getDepot (notify n c) i = getDepot c i := by
  obtain ⟨t, ht⟩ := notify_dep n c
  unfold getDepot
  rw [ht]

/-! ### Bytes stored -/

/-- The bytes stored take their lanes; every other byte stays. -/
theorem lookup_putBytes (k lane a n : Nat) (m : FMap DepByte) (j : Nat) :
    (putBytes k lane a n m).lookup j = if a ≤ j ∧ j < a + n then some (k, lane + (j - a)) else m.lookup j := by
  induction n with
  | zero =>
    rw [if_neg (by omega)]
    rfl
  | succ n ih =>
    have hs : putBytes k lane a (n + 1) m = tput (putBytes k lane a n m) (a + n) (k, lane + n) := by
      simp [putBytes, upto, List.range_succ]
    rw [hs, lookup_tput, ih]
    by_cases hj : j = a + n
    · subst hj
      rw [if_pos rfl, if_pos (by omega), Nat.add_sub_cancel_left]
    · rw [if_neg hj]
      by_cases h : a ≤ j ∧ j < a + n
      · rw [if_pos h, if_pos (by omega)]
      · rw [if_neg h, if_neg (by omega)]

/-- A word stores the bytes of an access that lie in it, lane 0 at the access's address (R439). -/
theorem lookup_storePart (k a n w : Nat) (d : DepotSt) (j : Nat) : (storePart k w (wordPart a n w) d).bytes.lookup j =
    if (a ≤ j ∧ j < a + n) ∧ j / 32 = w then some (k, j - a) else d.bytes.lookup j := by
  simp only [storePart, wordPart, lookup_putBytes]
  by_cases h : (a ≤ j ∧ j < a + n) ∧ j / 32 = w
  · rw [if_pos h, if_pos (by omega)]
    congr 2
    omega
  · rw [if_neg h, if_neg (by omega)]

/-- After the words of an access, each byte of it in one of them is stored. -/
theorem lookup_storeParts (i k a n : Nat) (ws : List Nat) (c : Chip) (j : Nat) :
    (getDepot (forEach ws (fun w => updDepot i (storePart k w (wordPart a n w))) c) i).bytes.lookup j =
      if (a ≤ j ∧ j < a + n) ∧ j / 32 ∈ ws then some (k, j - a) else (getDepot c i).bytes.lookup j := by
  induction ws generalizing c with
  | nil => simp
  | cons w t ih =>
    rw [forEach_cons, ih, updDepot_get, lookup_storePart]
    by_cases h : a ≤ j ∧ j < a + n
    · by_cases ht : j / 32 ∈ t
      · simp [h, ht]
      · by_cases hw : j / 32 = w
        · simp [h, hw]
        · simp [h, ht, hw]
    · simp [h]

/-- Every byte of an access lies in one of the words it reaches (R439). -/
theorem accessWords_covers {a n j : Nat} (hn : n ≤ 32) (h : a ≤ j ∧ j < a + n) : j / 32 ∈ accessWords a n := by
  unfold accessWords
  split
  · rw [List.mem_singleton]
    omega
  · rw [List.mem_cons, List.mem_singleton]
    omega

/-- Port A's write at one word where port B is idle. -/
theorem meetPorts_alone {i k w : Nat} {p : Nat × Nat × Nat} {b : PortBRep} {ok partialRead : Bool} {c : Chip} (hb : b.kind = 0) :
    meetPorts i k w p b ok partialRead c = if ok then updDepot i (storePart k w p) c else c := by
  unfold meetPorts
  rw [hb]
  rfl

/-- Port A's write at one word that a write of port B meets: port B's is lost and counted (R441). -/
theorem meetPorts_lost {i k w : Nat} {p : Nat × Nat × Nat} {b : PortBRep} {c : Chip} (hb : b.kind = 2) :
    meetPorts i k w p b true false c =
      updDepot i (storePart k w p) (countEvent 0x022 i 1 (updDepot i (fun d => { d with bLost := d.bLost + 1 }) c)) := by
  unfold meetPorts
  rw [hb]
  rfl

/-- The chip as a depot write finds it at its first word: the write counted, and the crossing where there are two words. -/
def writeStart (i a n : Nat) (c : Chip) : Chip :=
  let c1 := updDepot i (fun d => { d with writes := d.writes + 1 }) c
  if (accessWords a n).length = 2 then countEvent 0x026 i 1 c1 else c1

theorem writeStart_getDepot (i a n : Nat) (c : Chip) : getDepot (writeStart i a n c) i = { getDepot c i with writes := (getDepot c i).writes + 1 } := by
  unfold writeStart
  dsimp only
  split
  · rw [countEvent_getDepot, updDepot_get]
  · rw [updDepot_get]

theorem writeStart_mask (i a n : Nat) (c : Chip) : mask [.dep] (writeStart i a n c) = mask [.dep] c := by
  unfold writeStart
  dsimp only
  split <;> simp

/-- A depot write with port B idle stores its parts. -/
theorem depotWrite_alone {i a n : Nat} {b : PortBRep} {partialRead : Bool} {c : Chip} (hb : b.kind = 0) :
    depotWrite i a n b true partialRead c =
      forEach (accessWords a n) (fun w => updDepot i (storePart (getDepot c i).writes w (wordPart a n w))) (writeStart i a n c) := by
  have hk : ∀ w, (if b.second = decide (w ≠ a / 32) then b else { kind := 0, second := false, off := 0, len := 0 }).kind = 0 := by
    intro w
    split
    · exact hb
    · rfl
  unfold depotWrite
  simp only [meetPorts_alone (hk _)]
  rfl

/-- A write that does not stand leaves every depot (R111). -/
theorem depotWrite_dropped {i a n : Nat} {b : PortBRep} {partialRead : Bool} {c : Chip} (hb : b.kind = 0) :
    depotWrite i a n b false partialRead c = if (accessWords a n).length = 2 then countEvent 0x026 i 1 c else c := by
  have hk : ∀ w, (if b.second = decide (w ≠ a / 32) then b else { kind := 0, second := false, off := 0, len := 0 }).kind = 0 := by
    intro w
    split
    · exact hb
    · rfl
  unfold depotWrite
  simp only [meetPorts_alone (hk _)]
  exact forEach_ind (Q := fun d => d = if (accessWords a n).length = 2 then countEvent 0x026 i 1 c else c) (fun w d h => h) _ _ rfl

/-- An access within one word that meets a write of port B there. -/
theorem depotWrite_meets {i a n : Nat} {b : PortBRep} {c : Chip} (hn : 1 ≤ n) (ha : a % 32 + n ≤ 32) (hb : b.kind = 2) (hs : b.second = false) :
    accessWords a n = [a / 32] ∧ depotWrite i a n b true false c = updDepot i (storePart (getDepot c i).writes (a / 32) (wordPart a n (a / 32)))
      (countEvent 0x022 i 1 (updDepot i (fun d => { d with bLost := d.bLost + 1 }) (writeStart i a n c))) := by
  have hw : accessWords a n = [a / 32] := by
    unfold accessWords
    rw [if_pos (by omega)]
  refine ⟨hw, ?_⟩
  have hsel : (if b.second = decide (a / 32 ≠ a / 32) then b else { kind := 0, second := false, off := 0, len := 0 }) = b := if_pos (by simp [hs])
  unfold depotWrite
  simp only [hw, forEach_cons, forEach_nil, hsel, meetPorts_lost hb]
  unfold writeStart
  rw [hw]
  rfl

/-! ### Engine writes -/

/-- A depot write whose tag is its engine's stands. -/
theorem engineWrite_stands {e addr n : Nat} {tag : Byte} {b : PortBRep} {p : Bool} {c : Chip} (h0 : tag ≠ 0) (ht : tag = (getEng c e).tag) :
    engineWrite e tag 0 addr n b p c = depotWrite (e / 16) addr n b true p c := by
  have hok : (decide (tag ≠ 0) && decide (tag = (getEng c e).tag)) = true :=
    Bool.and_eq_true_iff.2 ⟨decide_eq_true h0, decide_eq_true ht⟩
  unfold engineWrite
  rw [if_neg (by omega)]
  simp only [hok, if_true]

/-- The chip after a write with a stale tag was counted. -/
def staleCounted (e : Nat) (c : Chip) : Chip :=
  countEvent 0x014 (e / 16) 1 (updEng e (fun x => { x with stale := BitVec.ofNat 12 (satInc 0xFFF x.stale.toNat) }) c)

theorem staleCounted_keeps (e : Nat) (c : Chip) : mask [.eng, .dep] (staleCounted e c) = mask [.eng, .dep] c ∧
    getEng (staleCounted e c) e = { getEng c e with stale := BitVec.ofNat 12 (satInc 0xFFF (getEng c e).stale.toNat) } ∧
    ∀ i, getDepot (staleCounted e c) i = getDepot c i := by
  refine ⟨by simp [staleCounted], ?_, fun i => ?_⟩
  · unfold staleCounted getEng
    rw [countEvent_eng]
    exact updEng_get e _ c
  · exact (countEvent_getDepot _ _ _ _ i).trans rfl

/-- A write with tag 0 or another engine's tag is counted, and leaves the depots (R111). -/
theorem engineWrite_stale {e target addr n : Nat} {tag : Byte} {b : PortBRep} {p : Bool} {c : Chip} (ht : target < 3) (hbad : tag = 0 ∨ tag ≠ (getEng c e).tag)
    (hb : b.kind = 0) : engineWrite e tag target addr n b p c = staleCounted e c ∨
      engineWrite e tag target addr n b p c = countEvent 0x026 (e / 16) 1 (staleCounted e c) := by
  have hok : (decide (tag ≠ 0) && decide (tag = (getEng c e).tag)) = false := by
    rcases hbad with h | h <;> simp [h]
  unfold engineWrite
  rw [if_neg (by omega)]
  simp only [hok, Bool.false_eq_true, if_false]
  split
  · rw [depotWrite_dropped hb]
    split
    · exact .inr rfl
    · exact .inl rfl
  · exact .inl rfl

/-- Settles O17: writes that stand by their stored parts, writes that do not by their count, the scratchpad's by its word. -/
theorem engineWritesGuarded : Obligations.EngineWritesGuarded := by
  refine ⟨?alone, ?meets, ?stale, ?pad⟩
  case alone =>
    intro s e tag addr n b p j hs he h1 hn ha h0 ht hb
    have heq := (engineWrite_stands (addr := addr) (n := n) (b := b) (p := p) h0 ht).trans (depotWrite_alone hb)
    refine does_guard (f := fun _ => engineWrite e tag 0 addr n b p) rfl (by simp [awake_of hs, he, targetOk, h1, hn, ha]) ?_ ?_
    · rw [heq, ← writeStart_mask (e / 16) addr n s.c]
      simp
    · rw [heq, lookup_storeParts, writeStart_getDepot]
      by_cases h : addr ≤ j ∧ j < addr + n
      · rw [if_pos ⟨h, accessWords_covers hn h⟩, if_pos h]
      · rw [if_neg (fun k => h k.1), if_neg h]
  case meets =>
    intro s e tag addr n b j hs he h1 ha hend h0 ht hb hsec
    obtain ⟨hw, heq⟩ := depotWrite_meets (i := e / 16) (c := s.c) h1 ha hb hsec
    have heq := (engineWrite_stands (addr := addr) (n := n) (b := b) (p := false) h0 ht).trans heq
    refine does_guard (f := fun _ => engineWrite e tag 0 addr n b false) rfl (by simp [awake_of hs, he, targetOk, h1, hend]; omega) ?_ ?_
    · rw [heq, ← writeStart_mask (e / 16) addr n s.c]
      simp
    · rw [heq, updDepot_get, lookup_storePart, countEvent_getDepot, updDepot_get, writeStart_getDepot]
      refine ⟨rfl, ?_⟩
      by_cases h : addr ≤ j ∧ j < addr + n
      · rw [if_pos ⟨h, by omega⟩, if_pos h]
      · rw [if_neg (fun k => h k.1), if_neg h]
  case stale =>
    intro s e tag target addr n b p hs he ht hok hbad hb
    obtain ⟨hm, heng, hdep⟩ := staleCounted_keeps e s.c
    refine does_guard (f := fun _ => engineWrite e tag target addr n b p) rfl (by simp [awake_of hs, he, hok]; omega) ?_ ?_
    · rcases engineWrite_stale (addr := addr) (n := n) (p := p) ht hbad hb with h | h <;> rw [h]
      · exact hm
      · rw [← hm]
        simp
    · rcases engineWrite_stale (addr := addr) (n := n) (p := p) ht hbad hb with h | h <;> rw [h]
      · exact ⟨heng, hdep⟩
      · refine ⟨?_, fun i => (countEvent_getDepot _ _ _ _ i).trans (hdep i)⟩
        rw [getEng, countEvent_eng]
        exact heng
  case pad =>
    intro s e tag addr n b p hs he ha
    refine does_guard (f := fun _ => engineWrite e tag 3 addr n b p) rfl (by simp [awake_of hs, he, targetOk, ha]) ?_ ⟨?_, fun k hk => ?_⟩
    · exact updEng_mask (by decide) e _ s.c
    · simp [engineWrite]
    · simp [engineWrite, lookup_tput_other _ _ hk]

end Sys2Proof.Machine
end

section
/-!
PROOFS. Uncorrectable reads and the patrol (O18; R442, R446, R448), counters and snapshots (O19; R457 to R462), scans (O20; R454, R455).
-/
namespace Sys2Proof.Machine
open Sys2Proof

/-- A frame within fewer parts is one within more. -/
theorem mask_mono {l m : List Part} (hlm : ∀ p, p ∈ l → p ∈ m) {a b : Chip} (h : mask l a = mask l b) : mask m a = mask m b :=
  (mask_eq_iff a b).2 fun p hp => (mask_eq_iff a b).1 h p fun hl => hp (hlm p hl)

/-! ### Uncorrectable reads -/

theorem mem_queueRegion {r : Nat} {d : DepotSt} (h : d.queue.length < 16) : r ∈ (queueRegion r d).queue := by
  unfold queueRegion
  split
  · next hc =>
    rcases Bool.or_eq_true_iff.1 hc with hq | hq
    · simpa using hq
    · simp at hq
      omega
  · simp

theorem queueRegion_keeps (r : Nat) (d : DepotSt) : (queueRegion r d).uncorr = d.uncorr ∧ (queueRegion r d).bad = d.bad ∧ (queueRegion r d).lastNote = d.lastNote := by
  unfold queueRegion
  split <;> exact ⟨rfl, rfl, rfl⟩

/-- The depot after an uncorrectable read of word w, before its notice (R442). -/
def readBad (w : Nat) (d : DepotSt) : DepotSt :=
  queueRegion (w / 128) { d with uncorr := BitVec.ofNat 32 (satInc 0xFFFFFFFF d.uncorr.toNat), bad := insAsc d.bad w }

/-- A depot notice is due: none in the 8,000 ticks before (R452). -/
def noteDue (n : Nat) (d : DepotSt) : Bool := match d.lastNote with | some t => t + 8000 ≤ n + 1 | none => true

/-- The chip once an uncorrectable read has been counted and noted. -/
def uncorrNoted (i w : Nat) (c : Chip) : Chip :=
  let c1 := countEvent 0x024 i 1 (updDepot i (readBad w) c)
  if noteDue (now c) (getDepot c i) then
    updDepot i (fun d => { d with lastNote := some (now c + 1) }) (depotNotice i 2 (w / 128) (now c + 1) c1)
  else c1

theorem depotUncorrectable_eq {i w reader t part : Nat} {c : Chip} (hr : reader ≠ 2) (hh : (getDepot c i).held = none) :
    depotUncorrectable i w reader t part c = markErrored t (uncorrNoted i w c) := by
  have hno : ((getDepot c i).held.isSome && !((getIsl c i).regions.contains (w / 128))) = false := by simp [hh]
  unfold depotUncorrectable
  simp only [hno, if_neg hr, Bool.false_eq_true, if_false]
  rfl

theorem depotNotice_getDepot (i bit r n : Nat) (c : Chip) (j : Nat) : getDepot (depotNotice i bit r n c) j = getDepot c j := notify_getDepot _ c j

/-- What an uncorrectable read leaves of its depot, with its time of notice. -/
theorem uncorrNoted_getDepot (i w : Nat) (c : Chip) : getDepot (uncorrNoted i w c) i =
    { readBad w (getDepot c i) with lastNote := if noteDue (now c) (getDepot c i) then some (now c + 1) else (getDepot c i).lastNote } := by
  unfold uncorrNoted
  dsimp only
  split
  · rw [updDepot_get, depotNotice_getDepot, countEvent_getDepot, updDepot_get]
  · rw [countEvent_getDepot, updDepot_get]
    have hl : (readBad w (getDepot c i)).lastNote = (getDepot c i).lastNote := (queueRegion_keeps _ _).2.2
    rw [← hl]

/-- A notice that is due is raised; one that is not leaves the notices. -/
theorem uncorrNoted_notice {i w : Nat} {c : Chip} (hr : NoticeRoom 1 c) :
    (noteDue (now c) (getDepot c i) = true → Raised (event 0x17 6 12 2 i (w / 128) (now c + 1) false) (uncorrNoted i w c)) ∧
    (noteDue (now c) (getDepot c i) = false → (uncorrNoted i w c).notice = c.notice) := by
  refine ⟨fun h => ?_, fun h => ?_⟩
  · unfold uncorrNoted
    rw [if_pos h]
    refine notify_raised _ (c := countEvent 0x024 i 1 (updDepot i (readBad w) c)) ?_
    unfold NoticeRoom
    rw [countEvent_notice]
    exact hr
  · unfold uncorrNoted
    rw [if_neg (by rw [h]; decide), countEvent_notice]
    rfl

@[simp] theorem markErrored_getDepot (t : Nat) (c : Chip) (i : Nat) : getDepot (markErrored t c) i = getDepot c i := by
  have hm : mask [.ctx] (markErrored t c) = mask [.ctx] c := by simp
  unfold getDepot
  rw [dep_of_mask hm (by decide)]

theorem markErrored_notices (t : Nat) (c : Chip) : (markErrored t c).nq = c.nq ∧ (markErrored t c).notice = c.notice := by
  have hm : mask [.ctx] (markErrored t c) = mask [.ctx] c := by simp
  exact ⟨nq_of_mask hm (by decide), notice_of_mask hm (by decide)⟩

theorem uncorrNoted_mask (i w : Nat) (c : Chip) : mask [.nq, .notice, .dep] (uncorrNoted i w c) = mask [.nq, .notice, .dep] c := by
  unfold uncorrNoted depotNotice
  dsimp only
  split <;> simp

/-! ### The patrol -/

/-- With an empty queue the region whose turn it is is borrowed (R446). -/
theorem patrolStart_next {i n r : Nat} {c : Chip} (hd : patrolDue c i n = true) (hq : (getDepot c i).queue = []) (hr : nextRegion c i (getDepot c i).next = some r) :
    patrolStart i n c = updDepot i (fun d => { d with queue := [], borrowed := some r, back := false, lastStart := some n, next := (nextRegion c i (r + 1)).getD 0 }) c := by
  unfold patrolStart
  simp only [hd, hq, hr, Bool.not_true, Bool.false_eq_true, if_false, List.filter_nil]

theorem patrolBack_matched {i r : Nat} {c : Chip} (hb : (getDepot c i).borrowed = some r) (hn : (getDepot c i).back = false) :
    patrolBack i true c = updDepot i (fun d => { d with back := true, bad := d.bad.filter (fun w => w / 128 ≠ r) }) c := by
  unfold patrolBack
  simp only [hb, hn, Bool.false_eq_true, if_false, if_true]

/-- A region that failed its test goes out, its buffer held (R448). -/
theorem patrolBack_failed {i r : Nat} {c : Chip} (hb : (getDepot c i).borrowed = some r) (hn : (getDepot c i).back = false) (ho : r ∉ (getIsl c i).regions) :
    patrolBack i false c = depotNotice i 0 r (now c + 1) (updDepot i (fun d => { d with newOut := d.newOut + 1 }) (updIsl i (fun x => { x with regions := insAsc x.regions r })
      (updDepot i (fun d => { d with borrowed := none, held := some r }) c))) := by
  have hc : ¬((getIsl (updDepot i (fun d => { d with borrowed := none, held := some r }) c) i).regions.contains r) = true := fun h => ho (List.contains_iff_mem.1 h)
  unfold patrolBack regionOut
  simp only [hb, hn, Bool.false_eq_true, if_false]
  rw [if_neg hc]

@[simp] theorem updIsl_getDepot (i : Nat) (f : IslSt → IslSt) (c : Chip) (j : Nat) : getDepot (updIsl i f c) j = getDepot c j := rfl
@[simp] theorem updDepot_getIsl (i : Nat) (f : DepotSt → DepotSt) (c : Chip) (j : Nat) : getIsl (updDepot i f c) j = getIsl c j := rfl

/-- Settles O18: the read counted, noted and marked, and the patrol's start and end. -/
theorem depotPatrol : Obligations.DepotPatrol := by
  refine ⟨?read, ?start, ?matched, ?failed⟩
  case read =>
    intro s i w reader t part hs hi hw hr hh hroom hl
    obtain ⟨hn1, hn2⟩ := uncorrNoted_notice (w := w) (i := i) hroom
    have hd := uncorrNoted_getDepot i w s.c
    have hq := queueRegion_keeps (w / 128) { getDepot s.c i with uncorr := BitVec.ofNat 32 (satInc 0xFFFFFFFF (getDepot s.c i).uncorr.toNat), bad := insAsc (getDepot s.c i).bad w }
    have heq := depotUncorrectable_eq (w := w) (t := t) (part := part) hr hh
    have hm := uncorrNoted_mask i w s.c
    refine does_guard (f := fun _ => depotUncorrectable i w reader t part) rfl (by simp [awake_of hs, hi, hw]) ?_ ?_
    · rw [heq, markErrored_mask (by decide)]
      exact mask_mono (by decide) hm
    · rw [heq]
      simp only [markErrored_getDepot, (markErrored_notices _ _).2, hd]
      refine ⟨hq.1, ?_, fun hlen => mem_queueRegion hlen, markErrored_errored ?_, fun hnone => ?_, fun m hm' hlt => ?_⟩
      · exact hq.2.1 ▸ (mem_insAsc _ _ _).2 (.inl rfl)
      · rw [img_of_mask hm (by decide)]
        exact hl
      · have hdue : noteDue (now s.c) (getDepot s.c i) = true := by unfold noteDue; rw [hnone]
        refine ⟨if_pos hdue, ?_⟩
        obtain ⟨e1, e2⟩ := markErrored_notices t (uncorrNoted i w s.c)
        exact (Raised_congr e1 e2).2 (hn1 hdue)
      · have hdue : noteDue (now s.c) (getDepot s.c i) = false := by
          unfold noteDue
          rw [hm']
          exact decide_eq_false (by unfold now; omega)
        exact ⟨(if_neg (by rw [hdue]; decide)).trans hm', hn2 hdue⟩
  case start =>
    intro s i r hs hi hd hq hr
    have heq := patrolStart_next hd hq hr
    refine does_guard (f := fun c => patrolStart i (now c)) rfl (by simp [awake_of hs, hi]) (patrolStart_mask (by decide) i _ s.c) ?_
    change _ ∧ _
    rw [show patrolStart i (now s.c) s.c = _ from heq]
    exact ⟨by simp, by simp, by simp, fun j hj => updDepot_get_other _ _ hj⟩
  case matched =>
    intro s i r hs hi hb hn
    have heq := patrolBack_matched hb hn
    refine does_guard (f := fun _ => patrolBack i true) rfl (by simp [awake_of hs, hi]) ?_ ?_
    · rw [heq]
      exact updDepot_mask (by decide) i _ s.c
    · rw [heq]
      exact updDepot_get i _ s.c
  case failed =>
    intro s i r hs hi hb hn hroom ho
    have heq := patrolBack_failed hb hn ho
    refine does_guard (f := fun _ => patrolBack i false) rfl (by simp [awake_of hs, hi]) (patrolBack_mask (by decide) (by decide) (by decide) (by decide) i false s.c) ?_
    rw [heq]
    refine ⟨?_, ?_, ?_, ?_, notify_raised _ hroom⟩
    · simp [depotNotice_getDepot]
    · simp [depotNotice_getDepot]
    · unfold depotNotice
      rw [notify_getIsl]
      simp [mem_insAsc]
    · simp [depotNotice_getDepot]

/-! ### Counters and snapshots -/

/-- Settles O19: each command's write of the counters' registers. -/
theorem countersAndSnapshot : Obligations.CountersAndSnapshot := by
  refine ⟨?select, ?arm, ?take, ?window⟩
  case select =>
    intro s k v hs hk hv
    have he : exec (.pcntSelWrite k v 0) s = .next (onChip (pcntSel k v 0) s) := by
      refine (if_pos (by simp [awake_of hs, hk])).trans (if_pos hv)
    have heq : pcntSel k v 0 s.c = setCounters { s.c.dep.count with cnt := tupd pcntDflt s.c.dep.count.cnt k (fun x => { x with enable := bitAt v 31, chain := bitAt v 30, ovf := x.ovf && !bitAt v 28, val := if bitAt v 29 then 0 else x.val, scope := bits v 19 9, ev := bits v 0 10 }) } s.c := by
      simp [pcntSel]
    refine does_onChip _ he (pcntSel_mask (by decide) k v 0 s.c) ?_
    rw [heq]
    exact ⟨by simp [setCounters, setDep], fun j hj => by simp [setCounters, setDep, tget_tupd_other _ _ _ hj]⟩
  case arm =>
    intro s hi hs
    exact does_guard (f := fun _ => snapArm hi) rfl (awake_of hs) (snapArm_mask (by decide) hi s.c) rfl
  case take =>
    intro s a hs ha hle he
    refine does_guard (f := fun c => snapTake (pcntVals c) (now c)) rfl (awake_of hs) (snapTake_mask (by decide) _ _ s.c) ?_
    have heq : snapTake (pcntVals s.c) s.c.dev.tick s.c =
        setCounters { s.c.dep.count with snap := pcntVals s.c, last := s.c.dev.tick, snapDone := true, armed := none } s.c := by
      unfold snapTake
      simp only [ha]
      rw [if_neg (by omega), if_pos he]
    exact congrArg (fun c : Chip => c.dep.count) heq
  case window =>
    intro s hs ht hl hne
    refine does_guard (f := fun c => bwEnds (now c)) rfl (awake_of hs) (bwEnds_mask (by decide) _ s.c) ?_
    have hcond : ¬(decide (now s.c % bwTicks s.c ≠ 0) || (s.c.dep.count.bwLive && decide (s.c.dep.count.bwEnd = now s.c) && decide (now s.c ≠ 0))) = true := by
      simp [now, bwTicks, ht, hne]
    unfold bwEnds
    dsimp only
    rw [if_neg hcond, if_pos hl]
    exact ⟨rfl, rfl, by simp [setCounters, setDep]⟩

/-! ### Scans -/

/-- A scan's end with the bytes read and no poison: the register run over them. -/
theorem scanDone_read {k : Nat} {l : List Byte} {c : Chip} (hp : (getScan c k).poly = 0) (hc : (getScan c k).cont = false) :
    getScan (scanDone k false (some l) c) k =
      { getScan c k with busy := false, done := true, poison := (getScan c k).poison, crc := crcRefl 0x82F63B78 0xFFFFFFFF l % 2 ^ 64, resLo := BitVec.ofNat 32 ((crcRefl 0x82F63B78 0xFFFFFFFF l % 2 ^ 64) ^^^ 0xFFFFFFFF), resHi := 0 } := by
  unfold scanDone
  simp [hp, hc, scanRun, scanInit, scanOut]

/-- Settles O20: the start of a free channel and the end of a busy one. -/
theorem scansRun : Obligations.ScansRun := by
  refine ⟨?start, ?done⟩
  case start =>
    intro s k v hs hk hb hok
    refine does_onChip (scanCtrl k v) ((if_pos (by simp [awake_of hs, hk])).trans (if_pos hok)) (scanCtrl_mask (by decide) k v s.c) ?_
    simp [scanCtrl, hb]
  case done =>
    intro s k hs hk hb ht hsrc hp hc
    have hcont : scanContent (getScan s.c k) s = some (bytesB s (getScan s.c k).addr.toNat (getScan s.c k).len.toNat) := by
      unfold scanContent
      simp only [hsrc]
    have hm : mask [.dep] (scanDone k false (scanContent (getScan s.c k) s) s.c) = mask [.dep] s.c := by
      rw [hcont]
      simp [scanDone]
    refine does_onChip (scanDone k false (scanContent (getScan s.c k) s)) (if_pos (by simp [awake_of hs, hk, hb, ht])) hm ?_
    rw [hcont, scanDone_read hp hc]
    exact ⟨rfl, rfl, rfl, rfl⟩

end Sys2Proof.Machine
end

section
/-!
PROOFS. Lanes: laser inputs (O21; R120), lane states (O22; R132, R138, R521), QIC windows (O23; R127), entries held for the
boundary (O24; R134, R338) and a port that loses a lane (O25; R137).
-/
namespace Sys2Proof.Machine
open Sys2Proof

/-! ### What a lane's change leaves -/

/-- The tables of lanes, of units and of the ports' alignment. -/
def lineCore (c : Chip) : FMap LaneSt × FMap AlignSt × FMap PortAlignSt := (c.line.lanes, c.line.align, c.line.portAlign)

theorem lineCore_iff (a b : Chip) : lineCore a = lineCore b ↔
    a.line.lanes = b.line.lanes ∧ a.line.align = b.line.align ∧ a.line.portAlign = b.line.portAlign := by
  simp [lineCore]

theorem lineCore_of_line {a b : Chip} (h : a.line = b.line) : lineCore a = lineCore b := by rw [lineCore, h, lineCore]

/-- What a port's frames carried is forgotten; its lanes and units stay. -/
theorem dropPortFrames_lineCore (p : Nat) (c : Chip) : lineCore (dropPortFrames p c) = lineCore c := by
  unfold dropPortFrames lineCore
  dsimp only
  rw [line_of_mask (l := [.dfx]) (dropKeys_mask (by decide) _ c) (by decide)]

/-- A port's units that leave frame change no lane and no unit. -/
@[simp] theorem leftFrame_lineCore (stops : Bool) (p : Nat) (c : Chip) : lineCore (leftFrame stops p c) = lineCore c := by
  have h : (leftFrame stops p c).line = (dropPortFrames p (breakChannels p c)).line := by
    unfold leftFrame ingressLost
    split
    · rfl
    · exact line_of_mask (l := [.ctx]) (by simp) (by decide)
  exact (lineCore_of_line h).trans (dropPortFrames_lineCore _ _)

theorem updUnit_lanes (p u : Nat) (f : AlignSt → AlignSt) (c : Chip) : (updUnit p u f c).line.lanes = c.line.lanes := rfl

theorem unitsToHunt_lanes (p : Nat) (c : Chip) : (unitsToHunt p c).line.lanes = c.line.lanes := by
  unfold unitsToHunt
  rw [((lineCore_iff _ _).1 (leftFrame_lineCore _ _ _)).1]
  exact forEach_keeps (fun d => d.line.lanes) (f := fun u c => updUnit p u (huntState (now c)) c) (fun _ _ => rfl) _ c

/-- Every unit of a port that stops delivering is in HUNT. -/
theorem unitsToHunt_hunt {p u : Nat} {c : Chip} (hu : u ∈ portUnits (theImage c) p) : (getUnit (unitsToHunt p c) p u).state = .hunt := by
  have hkey : ∀ v w (d : Chip), (getUnit d p w).state = .hunt → (getUnit (updUnit p v (huntState (now d)) d) p w).state = .hunt := by
    intro v w d h
    by_cases hv : unitKey p w = unitKey p v
    · simp [getUnit, updUnit, hv, huntState]
    · simpa [getUnit, updUnit, tget_tupd_other _ _ _ hv] using h
  have hall := forEach_all (Q := fun v d => (getUnit d p v).state = .hunt) (f := fun u c => updUnit p u (huntState (now c)) c)
    (fun v d => by simp [huntState]) hkey (portUnits (theImage c) p) c u hu
  unfold unitsToHunt getUnit
  rw [((lineCore_iff _ _).1 (leftFrame_lineCore _ _ _)).2.1]
  exact hall

theorem portDefects_line (p : Nat) (c : Chip) : (portDefects p c).line = c.line := line_of_mask (l := [.dfx]) (by simp) (by decide)

theorem laneChanged_lanes (l : Nat) (was : Bool) (c : Chip) : (laneChanged l was c).line.lanes = c.line.lanes := by
  unfold laneChanged
  split
  · rfl
  · dsimp only
    split
    · rw [unitsToHunt_lanes, portDefects_line]
    · rw [portDefects_line]

/-- What follows a lane's change changes no lane. -/
@[simp] theorem laneStep_getLane (l : Nat) (f : Chip → Chip) (c : Chip) (j : Nat) : getLane (laneStep l f c) j = getLane (f c) j := by
  unfold getLane laneStep
  rw [laneChanged_lanes]

/-- The lane record after it goes to a state (R138). -/
def laneTo (rx : RxState) (n : Nat) (x : LaneSt) : LaneSt :=
  { countLoss x with rx := rx, lowWin := 0, lockTick := x.lockTick || rx = .locked, huntTick := if rx = .qicHunt then n else x.huntTick }

@[simp] theorem laneGo_getLane (l : Nat) (rx : RxState) (c : Chip) : getLane (laneGo l rx c) l = laneTo rx (now c) (getLane c l) :=
  updLane_get l _ c

theorem laneGo_getLane_other {l j : Nat} (rx : RxState) (c : Chip) (h : j ≠ l) : getLane (laneGo l rx c) j = getLane c j :=
  updLane_get_other _ c h

/-- A lane that locks changes as its move to LOCKED does; measured skew and defects are none of its record. -/
theorem laneLocks_getLane (l skewNs : Nat) (c : Chip) (j : Nat) : getLane (laneLocks l skewNs c) j = getLane (laneGo l .locked c) j := by
  have h : (laneLocks l skewNs c).line.lanes = (laneGo l .locked c).line.lanes := by
    unfold laneLocks
    dsimp only
    split
    · rw [portDefects_line]
      unfold measureSkew
      dsimp only
      split <;> rfl
    · rfl
  unfold getLane
  rw [h]

theorem countLoss_of_ne {x : LaneSt} (h : x.rx ≠ .locked) : countLoss x = x := if_neg h

theorem countLoss_locked {x : LaneSt} (h : x.rx = .locked) : countLoss x = { x with losses := BitVec.ofNat 16 (satInc 0xFFFF x.losses.toNat) } :=
  if_pos h

/-! ### Laser inputs -/

theorem setLaser_get_other {i j : Nat} (v : LaserSt) (c : Chip) (h : j ≠ i) : getLaser (setLaser i v c) j = getLaser c j := by
  simp [getLaser, setLaser, tget_tset_other _ _ _ h]

/-- The defects that follow a laser input's change are none of its record. -/
theorem laserStep_getLaser (i : Nat) (v : LaserSt) (c : Chip) (j : Nat) : getLaser (laserStep i v c) j = getLaser (setLaser i v c) j := by
  have h : (laserStep i v c).line = (setLaser i v c).line := line_of_mask (l := [.dfx]) (by simp [laserStep]) (by decide)
  unfold getLaser
  rw [h]

theorem laserStep_same (i : Nat) (v : LaserSt) (c : Chip) : getLaser (laserStep i v c) i = v := by
  rw [laserStep_getLaser, setLaser_get]

theorem laserStep_other {i : Nat} (v : LaserSt) (c : Chip) : ∀ j, j ≠ i → getLaser (laserStep i v c) j = getLaser c j := fun j h => by
  rw [laserStep_getLaser, setLaser_get_other v c h]

/-- `FEED_LOSS` of a port shows its input lost or recalibrating (R120). -/
theorem feedLoss_of {c : Chip} {p i : Nat} (hp : p < 256) (hi : laserOf p = i) : feedLoss c p = ((getLaser c i).lost || (getLaser c i).recal) := by
  simp [feedLoss, hp, hi]

/-- No port of a dark laser input is lit (R120). -/
theorem portLit_dark {c : Chip} {p i : Nat} (hp : p < 256) (hi : laserOf p = i) (hd : (getLaser c i).dark = true) : portLit c p = false := by
  simp [portLit, hp, hi, hd]

theorem laserLive_of {s : State} {i : Nat} (hs : s.c.dev.state ≠ .cold) (hi : i < 32) (hg : groupOn s.c (0x40 + i / 2) = true) : laserLive s.c i = true := by
  simp [laserLive, awake_of hs, hi, hg]

/-- Settles O21: each laser event sets its input's record alone, from which the feed loss and the light of its ports are read. -/
theorem lasersFollowTheFeed : Obligations.LasersFollowTheFeed := by
  unfold Obligations.LasersFollowTheFeed
  refine ⟨fun s i hs hi hg => ?_, fun s i hs hi hg hl hr => ?_, fun s i hs hi hg hr => ?_⟩
  · refine does_guard (f := fun c => laserStep i { getLaser c i with lost := true, recal := false, dark := true }) rfl
      (laserLive_of hs hi hg) (laserStep_mask (by decide) (by decide) i _ s.c) ?_
    have hsame := laserStep_same i { getLaser s.c i with lost := true, recal := false, dark := true } s.c
    refine ⟨hsame, laserStep_other _ s.c, fun p hp hpi => ⟨?_, ?_⟩⟩
    · rw [feedLoss_of hp hpi, hsame]; rfl
    · exact portLit_dark hp hpi (by rw [hsame])
  · refine does_guard (f := fun c => laserStep i { getLaser c i with recal := true }) rfl
      (by simp [laserLive_of hs hi hg, hl, hr]) (laserStep_mask (by decide) (by decide) i _ s.c) ?_
    have hsame := laserStep_same i { getLaser s.c i with recal := true } s.c
    refine ⟨hsame, laserStep_other _ s.c, fun p hp hpi => ?_⟩
    rw [feedLoss_of hp hpi, hsame, Bool.or_true]
  · refine does_guard (f := fun c => laserStep i { getLaser c i with lost := false, recal := false, dark := true }) rfl
      (by simp [laserLive_of hs hi hg, hr]) (laserStep_mask (by decide) (by decide) i _ s.c) ?_
    have hsame := laserStep_same i { getLaser s.c i with lost := false, recal := false, dark := true } s.c
    refine ⟨hsame, laserStep_other _ s.c, fun p hp hpi => ⟨?_, ?_⟩⟩
    · rw [feedLoss_of hp hpi, hsame]; rfl
    · exact portLit_dark hp hpi (by rw [hsame])

/-! ### Lane states -/

theorem fillLock_of {fills : List Nat} (hn : 64 ≤ fills.length) (h : ∀ k, k < 64 → fills.getD k 0 = 0) : fillLock fills = true := by
  simp only [fillLock, Bool.and_eq_true, decide_eq_true_eq, List.all_eq_true, List.mem_iff_getElem, List.length_take]
  refine ⟨hn, ?_⟩
  rintro x ⟨k, hk, rfl⟩
  have := h k (by omega)
  rwa [List.getD_eq_getElem?_getD, List.getElem?_eq_getElem (by omega), Option.getD_some, ← List.getElem_take (h := by rw [List.length_take]; exact hk)] at this

theorem fillLost_of {fills : List Nat} (hn : 16 ≤ fills.length) (h : ∀ k, k < 16 → 8 ≤ fills.getD k 0) : fillLost fills = true := by
  simp only [fillLost, Bool.and_eq_true, decide_eq_true_eq, List.all_eq_true, List.mem_iff_getElem, List.length_take]
  refine ⟨hn, ?_⟩
  rintro x ⟨k, hk, rfl⟩
  have := h k (by omega)
  rwa [List.getD_eq_getElem?_getD, List.getElem?_eq_getElem (by omega), Option.getD_some, ← List.getElem_take (h := by rw [List.length_take]; exact hk)] at this

/-- A lane command that runs `f` where its condition holds, whatever follows for the lane's port. -/
theorem does_laneStep {i : Instr} {s : State} {l : Nat} {f : Chip → Chip} {v : LaneSt}
    (he : exec i s = .next (onChip (laneStep l f) s)) (hf : ∀ c, mask [.ctx, .line, .dfx] (f c) = mask [.ctx, .line, .dfx] c)
    (hv : getLane (f s.c) l = v) (ho : ∀ j, j ≠ l → getLane (f s.c) j = getLane s.c j) :
    Does i s [.ctx, .line, .dfx] (fun c => getLane c l = v ∧ ∀ j, j ≠ l → getLane c j = getLane s.c j) := by
  refine does_onChip (laneStep l f) he (laneStep_mask (by decide) (by decide) (by decide) l f hf s.c) ⟨?_, fun j hj => ?_⟩
  · rw [laneStep_getLane, hv]
  · rw [laneStep_getLane, ho j hj]

/-- A command whose condition holds acts as its step. -/
theorem next_onChip_if {p : Chip → Prop} [DecidablePred p] {f : Chip → Chip} {s : State} (h : p s.c) :
    (Host.Outcome.next (onChip (fun c => if p c then f c else c) s) : Host.Outcome State Fault Refusal) = .next (onChip f s) := by
  simp only [onChip, if_pos h]

/-- Settles O22: each event's step of the lane is its move to the next state; what it brings the port leaves every lane. -/
theorem lanesMoveByTheirEvents : Obligations.LanesMoveByTheirEvents := by
  unfold Obligations.LanesMoveByTheirEvents
  refine ⟨fun s l hr hi => ?_, fun s l k hr hp hf => ?_, fun s l fills k hr hf hn hz => ?_, fun s l hr => ?_,
    fun s l fills hr hf hn hz => ?_, fun s l hr => ?_⟩
  · refine does_laneStep (f := fun c => laneGo l .adapting (updLane l (fun s => { s with los := false }) c))
      (next_onChip_if (p := fun c => ((getLane c l).rx = .noSignal && !(injDrops 1 l c)) = true) (by simp [hr, hi])) (fun c => by simp) ?_
      (fun j hj => by rw [laneGo_getLane_other _ _ hj, updLane_get_other _ _ hj])
    simp [laneTo, countLoss, hr]
  · refine does_laneStep (f := cdrLocks l k) rfl (fun c => by simp) ?_ ?_
    · unfold cdrLocks
      by_cases hq : laneQic (lineImage s.c) l = true
      · simp [hr, hf, hq, laneTo, countLoss, now, Option.isSome_iff_ne_none.1 hp]
      · simp [hr, hf, hq, laneTo, countLoss, laneLocks_getLane, Option.isSome_iff_ne_none.1 hp]
    · intro j hj
      unfold cdrLocks
      dsimp only
      split
      · rfl
      · split
        · exact laneGo_getLane_other _ _ hj
        · rw [laneLocks_getLane, laneGo_getLane_other _ _ hj]
  · refine does_laneStep (f := laneLocks l k)
      (next_onChip_if (p := fun c => ((getLane c l).rx = .adapting && laneFramed (lineImage c) l && fillLock fills) = true)
        (by simp [hr, hf, fillLock_of hn hz])) (fun c => by simp) ?_
      (fun j hj => by rw [laneLocks_getLane, laneGo_getLane_other _ _ hj])
    simp [laneLocks_getLane, laneTo, countLoss, hr]
  · refine does_laneStep (f := laneGo l .adapting) (next_onChip_if (p := fun c => (getLane c l).rx = .locked) hr) (fun c => by simp) ?_
      (fun j hj => laneGo_getLane_other _ _ hj)
    simp [laneTo, countLoss, hr]
  · refine does_laneStep (f := laneGo l .adapting)
      (next_onChip_if (p := fun c => ((getLane c l).rx = .locked && laneFramed (lineImage c) l && fillLost fills) = true)
        (by simp [hr, hf, fillLost_of hn hz])) (fun c => by simp) ?_ (fun j hj => laneGo_getLane_other _ _ hj)
    simp [laneTo, countLoss, hr]
  · refine does_laneStep (f := fun c => updLane l (fun s => { s with los := true }) (laneGo l .noSignal c))
      (next_onChip_if (p := fun c => (getLane c l).rx ≠ .off) hr) (fun c => by simp) ?_
      (fun j hj => by rw [updLane_get_other _ _ hj, laneGo_getLane_other _ _ hj])
    rw [updLane_get, laneGo_getLane]
    unfold laneTo countLoss
    split <;> simp

/-! ### QIC windows -/

/-- The hypothesis with 64 zero syndromes that leads every other is the one adopted (R127). -/
theorem qicBest_of_lead {counts : List (Nat × Nat)} {h : Nat} (hc : counts.map (·.1) = upto 1024) (hh : h < 1024) (h64 : 64 ≤ countOf counts h)
    (hl : ∀ k, k < 1024 → k ≠ h → countOf counts k + 32 ≤ countOf counts h) : qicBest counts = some h := by
  have hmem : ∀ k, k ∈ counts.map (·.1) ↔ k < 1024 := fun k => by rw [hc]; simp [upto]
  have hk : ∀ e, e ∈ counts → e.1 < 1024 := fun e he => (hmem _).1 (List.mem_map_of_mem he)
  obtain ⟨x, hx, hxh⟩ := List.mem_map.1 ((hmem h).2 hh)
  unfold qicBest
  rw [List.head?_eq_some_iff]
  generalize hm : (counts.filter _).map (·.1) = m
  have hall : ∀ k, k ∈ m → k = h := by
    intro k hkm
    refine Decidable.byContradiction fun hne => ?_
    rw [← hm] at hkm
    simp only [List.mem_map, List.mem_filter, Bool.and_eq_true, decide_eq_true_eq, List.all_eq_true, Bool.or_eq_true] at hkm
    obtain ⟨e, ⟨he, -, hlead⟩, rfl⟩ := hkm
    have h1 := hlead x hx
    have h2 := hl e.1 (hk e he) hne
    rw [hxh] at h1
    omega
  have hin : h ∈ m := by
    rw [← hm]
    simp only [List.mem_map, List.mem_filter, Bool.and_eq_true, decide_eq_true_eq, List.all_eq_true, Bool.or_eq_true]
    refine ⟨x, ⟨hx, ⟨by rw [hxh]; exact hh, by rw [hxh]; exact h64⟩, fun f hf => ?_⟩, hxh⟩
    rw [hxh]
    by_cases hfh : f.1 = h
    · exact .inl hfh
    · exact .inr (hl f.1 (hk f hf) hfh)
  match m with
  | [] => simp at hin
  | a :: t => exact ⟨t, by rw [hall a List.mem_cons_self]⟩

/-- Where no hypothesis reaches 64 and leads, none is adopted (R127). -/
theorem qicBest_none {counts : List (Nat × Nat)} (hc : counts.map (·.1) = upto 1024)
    (hn : ∀ h, h < 1024 → countOf counts h < 64 ∨ ∃ k, k < 1024 ∧ k ≠ h ∧ countOf counts h < countOf counts k + 32) : qicBest counts = none := by
  have hmem : ∀ k, k ∈ counts.map (·.1) ↔ k < 1024 := fun k => by rw [hc]; simp [upto]
  unfold qicBest
  rw [List.head?_eq_none_iff, List.map_eq_nil_iff, List.filter_eq_nil_iff]
  intro e he hcond
  simp only [Bool.and_eq_true, decide_eq_true_eq, List.all_eq_true, Bool.or_eq_true] at hcond
  obtain ⟨⟨hlt, h64⟩, hlead⟩ := hcond
  obtain hlow | ⟨k, hk, hne, hlt'⟩ := hn e.1 hlt
  · omega
  · obtain ⟨f, hf, rfl⟩ := List.mem_map.1 ((hmem k).2 hk)
    have := hlead f hf
    omega

/-- The record of a LOCKED lane after a window of its adopted hypothesis (R127). -/
theorem qicLockedWindow_getLane (l best : Nat) {c : Chip} (hr : (getLane c l).rx = .locked) : getLane (qicLockedWindow l best c) l =
    if 32 ≤ best then { getLane c l with lowWin := 0 } else if (getLane c l).lowWin + 1 < 4 then { getLane c l with lowWin := (getLane c l).lowWin + 1 } else { getLane c l with rx := .qicHunt, lowWin := 0, huntTick := c.dev.tick, losses := BitVec.ofNat 16 (satInc 0xFFFF (getLane c l).losses.toNat) } := by
  unfold qicLockedWindow
  by_cases hb : 32 ≤ best
  · rw [if_pos hb, if_pos hb, updLane_get]
  · rw [if_neg hb, if_neg hb]
    by_cases h4 : (getLane c l).lowWin + 1 < 4
    · rw [if_pos h4, if_neg (by omega), updLane_get]
    · rw [if_neg h4, if_pos (by omega), laneStep_getLane, laneGo_getLane]
      simp [laneTo, countLoss_locked hr, now]

theorem qicLockedWindow_getLane_other {l j : Nat} (best : Nat) (c : Chip) (h : j ≠ l) : getLane (qicLockedWindow l best c) j = getLane c j := by
  unfold qicLockedWindow
  split
  · exact updLane_get_other _ _ h
  · split
    · rw [laneStep_getLane, laneGo_getLane_other _ _ h]
    · exact updLane_get_other _ _ h

/-- Settles O23: the counts name the hypothesis that is adopted, or none; a LOCKED lane's windows count. -/
theorem qicWindows : Obligations.QicWindows := by
  unfold Obligations.QicWindows
  refine ⟨fun s l counts h k hq hr hc hh h64 hl => ?_, fun s l counts k hq hr hc hn => ?_, fun s l counts k hq hr => ?_, fun s l hr ht => ?_⟩
  · refine does_laneStep (f := fun c => laneLocks l k (qicAdopt l h c)) ?_ (fun c => by simp) ?_ ?_
    · show Host.Outcome.next _ = _
      simp only [onChip, hq, hr, qicBest_of_lead hc hh h64 hl]
      rfl
    · rw [laneLocks_getLane, laneGo_getLane, qicAdopt, updLane_get]
      simp [laneTo, countLoss, hr]
    · intro j hj
      rw [laneLocks_getLane, laneGo_getLane_other _ _ hj, qicAdopt, updLane_get_other _ _ hj]
  · show Host.Outcome.next _ = _
    simp only [onChip, hq, hr, qicBest_none hc hn]
    rfl
  · refine does_onChip (qicLockedWindow l (countOf counts (getLane s.c l).hyp)) ?_ (by simp) ⟨qicLockedWindow_getLane _ _ hr, fun j hj => qicLockedWindow_getLane_other _ _ hj⟩
    show Host.Outcome.next _ = _
    simp only [onChip, hq, hr]
    rfl
  · refine does_laneStep (f := laneGo l .adapting)
      (next_onChip_if (p := fun c => ((getLane c l).rx = .qicHunt && (getLane c l).huntTick + 160 ≤ now c) = true) (by simp [hr, now, ht]))
      (fun c => by simp) ?_ (fun j hj => laneGo_getLane_other _ _ hj)
    simp [laneTo, countLoss, hr]

/-! ### Entries held for the boundary -/

theorem laneEqOk_iff (v : Word64) : laneEqOk v = true ↔ bits v 33 31 = 0 ∧ bits v 30 2 = 0 ∧ tapSum v ≤ 63 := by
  simp [laneEqOk, and_assoc]

/-- Settles O24: the write changes its entry's written value alone. -/
theorem timedEntriesAreHeld : Obligations.TimedEntriesAreHeld := by
  unfold Obligations.TimedEntriesAreHeld
  refine ⟨fun s l v hs hl h31 h2 ht => ?_, fun s l v hs hl hbad => ?_, fun s p v hs hp => ?_⟩
  · refine does_onChip (laneEqWrite l v) ((if_pos (by simp [awake_of hs, hl])).trans (if_pos ((laneEqOk_iff v).2 ⟨h31, h2, ht⟩)))
      (laneEqWrite_mask (by decide) l v s.c) ⟨rfl, ?_, ?_, fun j hj => ?_⟩
    · simp [laneEqWrite]
    · simp [laneEqWrite]
    · simp [laneEqWrite, tget_tupd_other _ _ _ hj]
  · have hno : ¬ laneEqOk v = true := by
      rw [laneEqOk_iff]
      rintro ⟨h31, h2, ht⟩
      rcases hbad with h | h | h
      · exact h h31
      · exact h h2
      · omega
    exact (if_pos (by simp [awake_of hs, hl])).trans (if_neg hno)
  · refine does_onChip (fun c => { c with line := { c.line with tsPort := tupd tsDflt c.line.tsPort p (fun t => { t with wr := v }) } })
      ?_ (mask_set_line (by decide) s.c _) ⟨rfl, ?_, ?_, fun j hj => ?_⟩
    · show Host.Outcome.next _ = _
      simp only [onChip, awake_of hs, hp, decide_true, Bool.and_true, when_true]
    · simp
    · simp
    · simp [tget_tupd_other _ _ _ hj]

/-! ### A port that loses a lane -/

theorem lineImage_of_mask {l : List Part} {a b : Chip} (h : mask l a = mask l b) (hi : Part.img ∉ l) (hd : Part.dev ∉ l) (hc : Part.cm ∉ l) :
    lineImage a = lineImage b := by
  unfold lineImage
  rw [img_of_mask h hi, dev_of_mask h hd, cm_of_mask h hc]

/-- A port with a lane that is not LOCKED delivers nothing (R137). -/
theorem delivers_false {c : Chip} {p l : Nat} (hl : l ∈ portLanes (lineImage c) p) (hr : (getLane c l).rx ≠ .locked) : delivers c p = false := by
  have hall : (portLanes (lineImage c) p).all (fun x => (getLane c x).rx = .locked) = false := by
    rw [List.all_eq_false]
    exact ⟨l, hl, by simp [hr]⟩
  simp [delivers, deskewOk, hall]

/-- The lane's change takes it out of LOCKED: its port delivers no more, and every unit of it hunts. -/
theorem laneStep_stops {s : State} {l p u : Nat} {f : Chip → Chip} (hp : portOfLane (lineImage s.c) l = some p)
    (hl : l ∈ portLanes (lineImage s.c) p) (hd : delivers s.c p = true) (hu : u ∈ portUnits (theImage s.c) p)
    (hm : mask [.line] (f s.c) = mask [.line] s.c) (hr : (getLane (f s.c) l).rx ≠ .locked) :
    delivers (laneStep l f s.c) p = false ∧ (getUnit (laneStep l f s.c) p u).state = .hunt := by
  have him : lineImage (f s.c) = lineImage s.c := lineImage_of_mask hm (by decide) (by decide) (by decide)
  have hpd : mask [.line, .dfx] (portDefects p (f s.c)) = mask [.line, .dfx] s.c :=
    (portDefects_mask (by decide) p (f s.c)).trans (mask_mono (by decide) hm)
  have hstop : delivers (portDefects p (f s.c)) p = false := by
    refine delivers_false (l := l) ?_ ?_
    · rwa [lineImage_of_mask hpd (by decide) (by decide) (by decide)]
    · rwa [getLane, portDefects_line]
  have he : laneStep l f s.c = unitsToHunt p (portDefects p (f s.c)) := by
    unfold laneStep laneChanged
    simp only [hp, him, hd, hstop]
    rfl
  constructor
  · refine delivers_false (l := l) ?_ ?_
    · have hm3 : mask [.ctx, .line, .dfx] (laneStep l f s.c) = mask [.ctx, .line, .dfx] s.c := by
        rw [he]
        exact (unitsToHunt_mask (by decide) (by decide) (by decide) p _).trans (mask_mono (by decide) hpd)
      rwa [lineImage_of_mask hm3 (by decide) (by decide) (by decide)]
    · rwa [laneStep_getLane]
  · rw [he]
    refine unitsToHunt_hunt ?_
    rwa [theImage, img_of_mask hpd (by decide)]

/-- Settles O25: either loss takes the lane out of LOCKED, and its port then delivers nothing. -/
theorem laneLossStopsThePort : Obligations.LaneLossStopsThePort := by
  unfold Obligations.LaneLossStopsThePort
  intro s l p u hr hp hl hd hu
  constructor
  · exact does_onChip (laneStep l (laneGo l .adapting)) (next_onChip_if (p := fun c => (getLane c l).rx = .locked) hr) (by simp)
      (laneStep_stops hp hl hd hu (by simp) (by simp [laneTo]))
  · exact does_onChip (laneStep l (fun c => updLane l (fun s => { s with los := true }) (laneGo l .noSignal c)))
      (next_onChip_if (p := fun c => (getLane c l).rx ≠ .off) (by simp [hr])) (by simp)
      (laneStep_stops hp hl hd hu (by simp) (by simp [laneTo]))

end Sys2Proof.Machine
end

section
/-!
PROOFS. Frame alignment: the search (O26; R145, R146, R153), arbitration (O27; R145, R147, R157) and a unit in frame (O28; R145, R146).
-/
namespace Sys2Proof.Machine
open Sys2Proof

/-! ### Units and what leaves them -/

theorem updUnit_get_other {p u p' v : Nat} (f : AlignSt → AlignSt) (c : Chip) (h : unitKey p' v ≠ unitKey p u) :
    getUnit (updUnit p u f c) p' v = getUnit c p' v := by
  simp [getUnit, updUnit, tget_tupd_other _ _ _ h]

/-- A unit that changes as `f` says, every other staying. -/
def OnlyUnit (p u : Nat) (x : AlignSt) (c d : Chip) : Prop :=
  getUnit d p u = x ∧ ∀ p' v, unitKey p' v ≠ unitKey p u → getUnit d p' v = getUnit c p' v

theorem onlyUnit_updUnit (p u : Nat) (f : AlignSt → AlignSt) (c : Chip) : OnlyUnit p u (f (getUnit c p u)) c (updUnit p u f c) :=
  ⟨updUnit_get p u f c, fun _ _ h => updUnit_get_other f c h⟩

/-- The units read the same where their table is the same. -/
theorem OnlyUnit.congr {p u : Nat} {x : AlignSt} {c d e : Chip} (h : OnlyUnit p u x c d) (he : e.line.align = d.line.align) : OnlyUnit p u x c e := by
  obtain ⟨hx, ho⟩ := h
  refine ⟨?_, fun p' v hv => ?_⟩
  · rw [getUnit, he]; exact hx
  · rw [getUnit, he]; exact ho p' v hv

theorem oorReturns_line (p : Nat) (c : Chip) : (oorReturns p c).line = c.line := line_of_mask (l := [.dfx]) (by simp) (by decide)

/-- The logical lane is the lanes' own; units and ports stay. -/
theorem markLogical_tables (p u : Nat) (y : Cand) (c : Chip) :
    (markLogical p u y c).line.align = c.line.align ∧ (markLogical p u y c).line.portAlign = c.line.portAlign := by
  unfold markLogical
  dsimp only
  split <;> exact ⟨rfl, rfl⟩

theorem adopt_portAlign (p u : Nat) (y : Cand) (c : Chip) : (adopt p u y c).line.portAlign = c.line.portAlign := by
  unfold adopt
  rw [oorReturns_line, (markLogical_tables _ _ _ _).2]
  rfl

/-- A unit that adopts a candidate is in frame at its position (R145). -/
theorem adopt_onlyUnit (p u : Nat) (y : Cand) (c : Chip) : OnlyUnit p u
    { getUnit c p u with state := .inFrame, cands := [], pos := y.pos, miss := 0, seen := 0, inSince := c.dev.tick, ids := if unitKind (theImage c) p u = 5 then some (y.tag, 0, 0) else none } c (adopt p u y c) := by
  have h := onlyUnit_updUnit p u (fun s => { s with state := .inFrame, cands := [], pos := y.pos, miss := 0, seen := 0, inSince := now c, ids := if unitKind (theImage c) p u = 5 then some (y.tag, 0, 0) else none }) c
  refine h.congr ?_
  unfold adopt
  rw [oorReturns_line, (markLogical_tables _ _ _ _).1]

/-! ### The search -/

theorem delivers_of_search {c : Chip} {p u : Nat} (h : searchAllowed c p u = true) : delivers c p = true := by
  simp only [searchAllowed, Bool.and_eq_true] at h
  exact h.1

/-- A candidate not yet confirmed, at its expected place: counted, confirmed or closed (R145). -/
theorem expectHunt_eq {k q : Nat} {present : Bool} {r : PatternRep} {l : List Cand} {x : Cand}
    (hf : l.find? (fun y => y.pos = q) = some x) (hc : x.confirmed = false) : expectHunt k q present r l =
      if present && sameMarker k x r then (if x.hits + 1 < hitsNeed k then l.map (fun y => if y.pos = q then { x with hits := x.hits + 1, tag := r.tag, crc := r.crcOk } else y) else if discriminates k x r then l.map (fun y => if y.pos = q then { x with hits := x.hits + 1, tag := r.tag, crc := r.crcOk, confirmed := true } else { y with rival := y.rival || y.confirmed }) else l.filter (fun y => y.pos ≠ q)) else l.filter (fun y => y.pos ≠ q) := by
  unfold expectHunt
  rw [hf]
  dsimp only
  cases hp : present && sameMarker k x r
  · rw [if_pos (by revert hp; cases present <;> cases sameMarker k x r <;> simp), if_neg (by simp)]
  · rw [if_neg (by revert hp; cases present <;> cases sameMarker k x r <;> simp), if_pos rfl]
    by_cases hn : x.hits + 1 < hitsNeed k
    · rw [if_pos (by simp [hn]), if_pos hn]
    · rw [if_neg (by simp [hn, hc]), if_neg hn]

/-- Settles O26: each step of the search changes its unit as the candidates ask, and no other unit. -/
theorem unitsSearch : Obligations.UnitsSearch := by
  unfold Obligations.UnitsSearch
  refine ⟨fun s p u pos r q hq hk hs hi hst hp hn hx hsl => ?_, fun s p u pos r q k x hq hk hk0 hs hi hst hf hc => ?_,
    fun s p u pos q x hq hf hst hs => ?_⟩
  · subst hq
    refine does_onChip (patternHit p u pos r) rfl (patternHit_mask (by decide) p u pos r s.c) ?_
    have hany : (getUnit s.c p u).cands.any (fun y => y.pos = inPeriod (unitPeriod (theImage s.c) p u) pos) = false := by
      rw [List.any_eq_false]
      intro y hy
      simpa using hx y hy
    have hslip : (!(slips (unitKind (theImage s.c) p u)) || decide (inPeriod (unitPeriod (theImage s.c) p u) pos = (getUnit s.c p u).pos)) = true := by
      cases h : slips (unitKind (theImage s.c) p u)
      · rfl
      · simp [hsl h]
    have he : patternHit p u pos r s.c = updUnit p u (fun a => { a with cands := a.cands ++ [{ pos := inPeriod (unitPeriod (theImage s.c) p u) pos, hits := 1, confirmed := false, rival := false, score := 0, frames := 0, tag := r.tag, crc := r.crcOk }] }) s.c := by
      unfold patternHit
      exact if_pos (by simp only [decide_eq_true hk, hs, hi, hst, hp, hn, hany, hslip]; rfl)
    rw [he]
    exact onlyUnit_updUnit p u _ s.c
  · subst hq
    subst hk
    refine does_onChip (expectedPosition p u pos (injDrops 2 p s.c) r) rfl (expectedPosition_mask (by decide) (by decide) (by decide) p u pos _ r s.c) ?_
    have he : expectedPosition p u pos (injDrops 2 p s.c) r s.c = updUnit p u (fun a => slipHunt (unitKind (theImage s.c) p u) (inPeriod (unitPeriod (theImage s.c) p u) pos) (patternSeen (unitKind (theImage s.c) p u) false r) { a with cands := expectHunt (unitKind (theImage s.c) p u) (inPeriod (unitPeriod (theImage s.c) p u) pos) (patternSeen (unitKind (theImage s.c) p u) false r) r a.cands }) s.c := by
      unfold expectedPosition
      simp only [hk0, delivers_of_search hs, hst, hs, hi]
      rfl
    rw [he]
    have h := onlyUnit_updUnit p u (fun a => slipHunt (unitKind (theImage s.c) p u) (inPeriod (unitPeriod (theImage s.c) p u) pos) (patternSeen (unitKind (theImage s.c) p u) false r) { a with cands := expectHunt (unitKind (theImage s.c) p u) (inPeriod (unitPeriod (theImage s.c) p u) pos) (patternSeen (unitKind (theImage s.c) p u) false r) r a.cands }) s.c
    rw [expectHunt_eq hf hc] at h
    exact h
  · subst hq
    have hxq : x.pos = inPeriod (unitPeriod (theImage s.c) p u) pos := by
      have := List.find?_some hf
      simp only [Bool.and_eq_true, decide_eq_true_eq] at this
      exact this.1
    refine does_onChip (settleEnd p u pos) rfl (settleEnd_mask (by decide) (by decide) p u pos s.c) ?_
    have he : settleEnd p u pos s.c = if !x.rival then adopt p u x s.c
        else updUnit p u (fun a => { a with state := .arbitrate, cands := a.cands.filter (·.confirmed) }) s.c := by
      unfold settleEnd
      simp only [hf, hst, hs]
      rfl
    rw [he]
    cases hr : x.rival
    · have h := adopt_onlyUnit p u x s.c
      rw [hxq] at h
      exact h
    · exact onlyUnit_updUnit p u _ s.c

/-! ### Arbitration -/

theorem winLead_pos (k : Nat) : 0 < (winLead k).2 := by
  unfold winLead
  split <;> decide

/-- The candidate that reaches the win score and leads every other is the winner (R147). -/
theorem winner_of_lead {k : Nat} {l : List Cand} {x : Cand} (hx : x ∈ l) (hw : (winLead k).1 ≤ x.score)
    (hl : ∀ y, y ∈ l → y = x ∨ y.pos ≠ x.pos ∧ y.score + (winLead k).2 ≤ x.score) : winner k l = some x := by
  have hsome : (winner k l).isSome = true := by
    unfold winner
    rw [List.find?_isSome]
    refine ⟨x, hx, ?_⟩
    simp only [Bool.and_eq_true, decide_eq_true_eq, List.all_eq_true, Bool.or_eq_true]
    refine ⟨hw, fun y hy => ?_⟩
    rcases hl y hy with rfl | ⟨-, h⟩
    · exact .inl rfl
    · exact .inr h
  obtain ⟨y, hy⟩ := Option.isSome_iff_exists.1 hsome
  have hwin := List.find?_some hy
  simp only [Bool.and_eq_true, decide_eq_true_eq, List.all_eq_true, Bool.or_eq_true] at hwin
  rcases hl y (List.mem_of_find?_eq_some hy) with rfl | ⟨hne, hlt⟩
  · exact hy
  · have hpos := winLead_pos k
    rcases hwin.2 x hx with h | h
    · exact absurd h.symm hne
    · omega

/-- Where no candidate reaches the score and the lead, there is no winner (R147). -/
theorem winner_none {k : Nat} {l : List Cand}
    (h : ∀ x, x ∈ l → x.score < (winLead k).1 ∨ ∃ y, y ∈ l ∧ y.pos ≠ x.pos ∧ x.score < y.score + (winLead k).2) : winner k l = none := by
  unfold winner
  rw [List.find?_eq_none]
  intro x hx hc
  simp only [Bool.and_eq_true, decide_eq_true_eq, List.all_eq_true, Bool.or_eq_true] at hc
  obtain ⟨hw, hlead⟩ := hc
  rcases h x hx with hlow | ⟨y, hy, hne, hlt⟩
  · omega
  · rcases hlead y hy with he | hle
    · exact hne he
    · omega

/-- Settles O27: the scores name the winner, which is adopted, or none, and the unit hunts again. -/
theorem arbitrationDecides : Obligations.ArbitrationDecides := by
  unfold Obligations.ArbitrationDecides
  refine ⟨fun s p u x hst hs h16 hx hw hl => ?_, fun s p u hst hs h16 hn => ?_⟩
  · have hall : (getUnit s.c p u).cands.all (fun y => decide (16 ≤ y.frames)) = true := by
      rw [List.all_eq_true]
      exact fun y hy => by simpa using h16 y hy
    refine does_onChip (arbitrationEnds p u) rfl (arbitrationEnds_mask (by decide) (by decide) p u s.c) ?_
    have he : arbitrationEnds p u s.c = updPortAlign p (fun a => { a with rival := true }) (adopt p u x s.c) := by
      unfold arbitrationEnds
      simp only [hst, hs, hall, winner_of_lead hx hw hl]
      rfl
    rw [he]
    refine ⟨(adopt_onlyUnit p u x s.c).1, ?_, ?_⟩
    · simp [updPortAlign]
    · simp [updPortAlign, adopt_portAlign p u x s.c]
  · have hall : (getUnit s.c p u).cands.all (fun y => decide (16 ≤ y.frames)) = true := by
      rw [List.all_eq_true]
      exact fun y hy => by simpa using h16 y hy
    refine does_onChip (arbitrationEnds p u) rfl (arbitrationEnds_mask (by decide) (by decide) p u s.c) ?_
    have he : arbitrationEnds p u s.c = updPortAlign p (fun a => { a with rival := true, lookalike := true })
        (updUnit p u (fun s => { s with state := .hunt, cands := [] }) s.c) := by
      unfold arbitrationEnds
      simp only [hst, hs, hall, winner_none hn]
      rfl
    rw [he]
    refine ⟨(onlyUnit_updUnit p u (fun s => { s with state := .hunt, cands := [] }) s.c).1, ?_, ?_⟩
    · simp [updPortAlign]
    · simp [updPortAlign]

/-! ### A unit in frame -/

/-- At the adopted position of a unit in frame, the step is that of the position. -/
theorem does_adopted {s : State} {p u pos : Nat} {r : PatternRep} {P : Chip → Prop} (hk : unitKind (theImage s.c) p u ≠ 0)
    (hq : inPeriod (unitPeriod (theImage s.c) p u) pos = (getUnit s.c p u).pos) (hd : delivers s.c p = true)
    (hst : (getUnit s.c p u).state = .inFrame)
    (hP : P (adoptedPosition p u (unitKind (theImage s.c) p u) (!(injDrops 2 p s.c) && adoptedSeen (unitKind (theImage s.c) p u) (getUnit s.c p u) r) s.c)) :
    Does (.candidateExpectedPosition p u pos r) s [.ctx, .line, .dfx] P := by
  refine does_onChip (expectedPosition p u pos (injDrops 2 p s.c) r) rfl (expectedPosition_mask (by decide) (by decide) (by decide) p u pos _ r s.c) ?_
  have he : expectedPosition p u pos (injDrops 2 p s.c) r s.c =
      adoptedPosition p u (unitKind (theImage s.c) p u) (!(injDrops 2 p s.c) && adoptedSeen (unitKind (theImage s.c) p u) (getUnit s.c p u) r) s.c := by
    unfold expectedPosition
    simp only [hk, hd, hst, hq]
    rfl
  rwa [he]

/-- A unit that loses frame hunts, out of its multiframes, its exit counted on the port (R145, R157). -/
theorem loseFrame_effect (p u : Nat) (c : Chip) : OnlyUnit p u (huntState c.dev.tick (getUnit c p u)) c (loseFrame p u c) ∧
    (tget portAlignDflt (loseFrame p u c).line.portAlign p).losses = BitVec.ofNat 16 (satAdd 0xFFFF (tget portAlignDflt c.line.portAlign p).losses.toNat 1) := by
  obtain ⟨-, ha, hp⟩ := (lineCore_iff _ _).1 (leftFrame_lineCore false p (countExit p 1 (updUnit p u (huntState (now c)) c)))
  refine ⟨(onlyUnit_updUnit p u (huntState (now c)) c).congr ha, ?_⟩
  unfold loseFrame
  rw [hp]
  simp [countExit, updPortAlign, updUnit]

/-- Settles O28: a pattern found clears the misses, one missing counts, and the last of the count loses the frame. -/
theorem unitsKeepFrame : Obligations.UnitsKeepFrame := by
  unfold Obligations.UnitsKeepFrame
  refine ⟨fun s p u pos r k hk hk0 hq hd hi hst hm ha => ?_, fun s p u pos r k hk hk0 hq hd hst hno => ?_⟩
  · subst hk
    refine does_adopted hk0 hq hd hst ?_
    simp only [hi, ha, Bool.not_false, Bool.and_self]
    generalize unitKind (theImage s.c) p u = k at *
    have hmiss : ¬ missMax k ≤ (if k = 7 then (getUnit s.c p u).miss else 0) := by
      split <;> omega
    by_cases h7 : k = 7
    · subst h7
      by_cases h64 : (getUnit s.c p u).seen + 1 = 64
      · have he : adoptedPosition p u 7 true s.c = updUnit p u (fun s => { s with miss := 0, seen := 0 }) s.c := by
          unfold adoptedPosition
          exact (if_neg hmiss).trans (if_pos (by simp [h64]))
        rw [he, if_neg (by simp [h64])]
        exact onlyUnit_updUnit p u _ s.c
      · have he : adoptedPosition p u 7 true s.c = updUnit p u (fun a => { a with miss := (getUnit s.c p u).miss, seen := a.seen + 1 }) s.c := by
          unfold adoptedPosition
          exact (if_neg hmiss).trans (if_neg (by simp [h64]))
        rw [he, if_pos ⟨rfl, h64⟩]
        exact onlyUnit_updUnit p u _ s.c
    · have he : adoptedPosition p u k true s.c = updUnit p u (fun a => { a with miss := 0, seen := 0 }) s.c := by
        unfold adoptedPosition
        refine (if_neg hmiss).trans ((if_neg (by simp [h7])).trans ?_)
        simp only [h7, if_false, if_true]
      rw [he, if_neg (by simp [h7])]
      exact onlyUnit_updUnit p u _ s.c
  · subst hk
    refine does_adopted hk0 hq hd hst ?_
    have hseen : (!(injDrops 2 p s.c) && adoptedSeen (unitKind (theImage s.c) p u) (getUnit s.c p u) r) = false := by
      rcases hno with h | h <;> simp [h]
    rw [hseen]
    generalize unitKind (theImage s.c) p u = k at *
    by_cases hm : (getUnit s.c p u).miss + 1 < missMax k
    · rw [if_pos hm]
      by_cases h7 : k = 7 ∧ (getUnit s.c p u).seen + 1 = 64
      · have he : adoptedPosition p u k false s.c = updUnit p u (fun s => { s with miss := 0, seen := 0 }) s.c := by
          unfold adoptedPosition
          exact (if_neg (by simpa using hm)).trans (if_pos (by simp [h7]))
        rw [he, if_pos h7]
        exact onlyUnit_updUnit p u _ s.c
      · have he : adoptedPosition p u k false s.c = updUnit p u (fun a => { a with miss := (getUnit s.c p u).miss + 1, seen := if k = 7 then a.seen + 1 else 0 }) s.c := by
          unfold adoptedPosition
          exact (if_neg (by simpa using hm)).trans (if_neg (by simpa using h7))
        rw [he, if_neg h7]
        exact onlyUnit_updUnit p u _ s.c
    · rw [if_neg hm]
      have he : adoptedPosition p u k false s.c = loseFrame p u s.c := by
        unfold adoptedPosition
        exact if_pos (by simpa using hm)
      rw [he]
      obtain ⟨⟨hu, ho⟩, hl⟩ := loseFrame_effect p u s.c
      rw [hu]
      exact ⟨⟨rfl, rfl, rfl, hl⟩, ho⟩

end Sys2Proof.Machine
end

section
/-!
PROOFS. Overhead: the transmit ring (O30; R167, R171, R172, R339) and what is received (O31; R163, R168, R170, R296, R339).
-/
namespace Sys2Proof.Machine
open Sys2Proof

/-! ### A port's ring record -/

theorem getOh_of_line {a b : Chip} (h : a.line = b.line) (p : Nat) : getOh a p = getOh b p := by rw [getOh, h, getOh]

/-- Where the head packet stands from is all the head's step changes. -/
theorem headTick_getOh (mem : List Host.Cell) (p : Nat) (c : Chip) : ∃ t, getOh (headTick mem p c) p = { getOh c p with pktTick := t } :=
  ⟨_, updOh_get p _ c⟩

theorem headTick_getOh_other {p q : Nat} (mem : List Host.Cell) (c : Chip) (h : q ≠ p) : getOh (headTick mem p c) q = getOh c q :=
  updOh_get_other _ c h

/-- Items that leave the ring advance `CONS` (R171). -/
theorem ohConsume_getOh (n : Nat) (mem : List Host.Cell) (p : Nat) (c : Chip) :
    ∃ t, getOh (ohConsume n mem p c) p = { getOh c p with cons := (getOh c p).cons + BitVec.ofNat 16 n, pktTick := t } := by
  obtain ⟨t, ht⟩ := headTick_getOh mem p (updOh p (fun o => { o with cons := o.cons + BitVec.ofNat 16 n, pktTick := none }) c)
  exact ⟨t, by rw [ohConsume, ht, updOh_get]⟩

theorem ohConsume_getOh_other {p q : Nat} (n : Nat) (mem : List Host.Cell) (c : Chip) (h : q ≠ p) :
    getOh (ohConsume n mem p c) q = getOh c q := by
  rw [ohConsume, headTick_getOh_other _ _ h, updOh_get_other _ _ h]

/-- A packet discarded leaves the ring and is counted (R172). -/
theorem txDiscard_getOh (pk : List (BitVec 128)) (mem : List Host.Cell) (p : Nat) (c : Chip) :
    (getOh (txDiscard pk mem p c) p).cons = (getOh c p).cons + BitVec.ofNat 16 pk.length ∧
    (getOh (txDiscard pk mem p c) p).txDiscard = BitVec.ofNat 16 (satInc 0xFFFF (getOh c p).txDiscard.toNat) ∧
    ∀ q, q ≠ p → getOh (txDiscard pk mem p c) q = getOh c q := by
  obtain ⟨t, ht⟩ := ohConsume_getOh pk.length mem p (updOh p (fun o => { o with txDiscard := BitVec.ofNat 16 (satInc 0xFFFF o.txDiscard.toNat) }) c)
  refine ⟨?_, ?_, fun q hq => ?_⟩
  · rw [txDiscard, ht, updOh_get]
  · rw [txDiscard, ht, updOh_get]
  · rw [txDiscard, ohConsume_getOh_other _ _ _ hq, updOh_get_other _ _ hq]

/-! ### What the part takes -/

/-- On an image, a ring of the types it takes is served (R172). -/
theorem ohTxTake_exec {s : State} {p : Nat} (gap : Bool) (stamp : Nat) (hi : onImage s.c = true)
    (hr : portLit s.c p = false ∨ ringOk s.mem s.c p = true) :
    exec (.ohTxTake p gap stamp) s = .next (onChip (ohTake s.mem p gap stamp) s) :=
  (if_neg (by simp [hi])).trans (if_neg (by rcases hr with h | h <;> simp [h]))

theorem wholePacket_head {i : BitVec 128} {l pk : List (BitVec 128)} (h : wholePacket (i :: l) = some pk) : pk.headD 0 = i ∧ pk ≠ [] := by
  have hp : pk = headPacket (i :: l) := by
    unfold wholePacket at h
    dsimp only at h
    split at h
    · split at h
      · exact (Option.some.inj h).symm
      · cases h
    · cases h
  rw [hp]
  unfold headPacket
  split <;> simp

theorem itemType_packet {i : BitVec 128} (h : itemType i = 0x20 ∨ itemType i = 0x30) : isPacket i = true := by
  rcases h with h | h <;> simp [isPacket, h]

section taken
variable {mem : List Host.Cell} {p : Nat} {gap : Bool} {stamp : Nat} {c : Chip} {i : BitVec 128} {l pk : List (BitVec 128)}

theorem ohTake_dark (hl : portLit c p = false) : ohTake mem p gap stamp c = ohConsume (ohWaiting mem (getOh c p) p).length mem p c := by
  simp [ohTake, hl]

theorem ohTake_empty (hl : portLit c p = true) (hw : ohWaiting mem (getOh c p) p = []) :
    ohTake mem p gap stamp c = emit (.ohFill p (channelFill (stackType (stackRec c p)))) c := by
  simp [ohTake, hl, hw]

theorem ohTake_item (hl : portLit c p = true) (hw : ohWaiting mem (getOh c p) p = i :: l) (hi : isPacket i = false) :
    ohTake mem p gap stamp c = ohConsume 1 mem p (emit (.ohSent p [i]) c) := by
  simp [ohTake, hl, hw, hi]

theorem ohTake_short (hl : portLit c p = true) (hw : ohWaiting mem (getOh c p) p = i :: l) (hi : isPacket i = true)
    (hp : wholePacket (i :: l) = some pk) (hs : packetShort pk = true) : ohTake mem p gap stamp c = txDiscard pk mem p c := by
  simp [ohTake, hl, hw, hi, hp, hs]

theorem ohTake_packet (hl : portLit c p = true) (hw : ohWaiting mem (getOh c p) p = i :: l) (hi : isPacket i = true)
    (hp : wholePacket (i :: l) = some pk) (hs : packetShort pk = false) : ohTake mem p true stamp c = txSend pk stamp mem p c := by
  simp [ohTake, hl, hw, hi, hp, hs]

end taken

/-- A stamped message's chip before its items leave the ring. -/
def txEmitted (pk sent : List (BitVec 128)) (p : Nat) (c : Chip) : Chip :=
  countEvent 0x055 p (bnat (itemType (pk.headD 0) = 0x30)) (emit (.ohSent p sent) c)

theorem txEmitted_getOh (pk sent : List (BitVec 128)) (p : Nat) (c : Chip) (q : Nat) : getOh (txEmitted pk sent p c) q = getOh c q :=
  getOh_of_line (line_of_mask (l := [.host, .dep]) (by simp [txEmitted]) (by decide)) q

theorem txEmitted_out (pk sent : List (BitVec 128)) (p : Nat) (c : Chip) : (txEmitted pk sent p c).host.out = c.host.out ++ [.ohSent p sent] := by
  unfold txEmitted
  rw [host_of_mask (l := [.dep]) (countEvent_mask (by decide) _ _ _ _) (by decide)]
  rfl

theorem ohConsume_host (n : Nat) (mem : List Host.Cell) (p : Nat) (c : Chip) : (ohConsume n mem p c).host = c.host :=
  host_of_mask (l := [.line]) (ohConsume_mask (by decide) n mem p c) (by decide)

/-- A client packet is sent as it stands. -/
theorem txSend_plain {pk : List (BitVec 128)} {p : Nat} (stamp : Nat) (mem : List Host.Cell) (c : Chip) (h : itemType (pk.headD 0) = 0x20) :
    txSend pk stamp mem p c = ohConsume pk.length mem p (txEmitted pk pk p c) := by
  unfold txSend txEmitted
  generalize pk.headD 0 = x at *
  simp [h]

/-- A PTP message is sent behind its first item, and where that asks, its timestamp is kept for the host (R339). -/
theorem txSend_ptp {pk : List (BitVec 128)} {p : Nat} (stamp : Nat) (mem : List Host.Cell) (c : Chip) (h : itemType (pk.headD 0) = 0x30) :
    ∃ sent, txSend pk stamp mem p c = ohConsume pk.length mem p (if bitAt (pk.headD 0) 96 then
      updOh p (fun o => { o with twoStep := o.twoStep ++ [{ cookie := BitVec.ofNat 16 (bits (pk.headD 0) 16 16), stamp := stampAdd stamp (txAdj c p) }] })
        (txEmitted pk (pk.headD 0 :: sent) p c) else txEmitted pk (pk.headD 0 :: sent) p c) := by
  unfold txSend
  simp only [h, txEmitted, decide_true, Bool.true_and, if_true]
  exact ⟨_, rfl⟩

/-- Settles O30: each state of the ring's head and of the port's light selects one step of the ring. -/
theorem transmitRing : Obligations.TransmitRing := by
  unfold Obligations.TransmitRing
  refine ⟨fun s p prod hs hp hn => ?_, fun s p prod hs hp hn => ?_, fun s p gap stamp hi hl => ?_, fun s p gap stamp i l hi hl hr hw hk => ?_,
    fun s p stamp i l pk hi hl hr hw ht hp => ?_, fun s p stamp i l pk hi hl hr hw ht hp hsh => ?_,
    fun s p gap stamp i l pk hi hl hr hw hk hp hsh => ?_, fun s p gap stamp hi hl hw => ?_, fun s p gap stamp hi hl hr => ?_,
    fun s p t pk ht hp hd hl => ?_⟩
  · refine does_onChip (fun c => headTick s.mem p (updOh p (fun o => { o with prod := prod }) c))
      ((if_neg (by simp [awake_of hs, hp])).trans (if_neg (by omega))) (by simp) ?_
    obtain ⟨t, h⟩ := headTick_getOh s.mem p (updOh p (fun o => { o with prod := prod }) s.c)
    refine ⟨?_, ?_, fun q hq => ?_⟩
    · rw [h, updOh_get]
    · rw [h, updOh_get]
    · rw [headTick_getOh_other _ _ hq, updOh_get_other _ _ hq]
  · exact (if_neg (by simp [awake_of hs, hp])).trans (if_pos hn)
  · refine does_onChip _ (ohTxTake_exec gap stamp hi (.inl hl)) (by rw [ohTake_dark hl]; simp) ?_
    rw [ohTake_dark hl]
    obtain ⟨t, h⟩ := ohConsume_getOh (ohWaiting s.mem (getOh s.c p) p).length s.mem p s.c
    refine ⟨?_, by rw [h], fun q hq => ohConsume_getOh_other _ _ _ hq⟩
    have hn : (ohWaiting s.mem (getOh s.c p) p).length = ((getOh s.c p).prod - (getOh s.c p).cons).toNat := by
      simp only [ohWaiting, upto, List.length_map, List.length_range]
    rw [h, hn, BitVec.ofNat_toNat, BitVec.setWidth_eq, BitVec.add_comm, BitVec.sub_add_cancel]
  · refine does_onChip _ (ohTxTake_exec gap stamp hi (.inr hr)) (by rw [ohTake_item hl hw hk]; simp) ?_
    rw [ohTake_item hl hw hk]
    obtain ⟨t, h⟩ := ohConsume_getOh 1 s.mem p (emit (.ohSent p [i]) s.c)
    refine ⟨?_, ?_, fun q hq => ohConsume_getOh_other _ _ _ hq⟩
    · rw [ohConsume_host]; rfl
    · rw [h]; rfl
  · obtain ⟨hhead, -⟩ := wholePacket_head hp
    have ht' : itemType (pk.headD 0) = 0x20 := by rw [hhead]; exact ht
    have hsh : packetShort pk = false := by
      unfold packetShort
      generalize pk.headD 0 = x at *
      simp [ht']
    have he := ohTake_packet (stamp := stamp) hl hw (itemType_packet (.inl ht)) hp hsh
    refine does_onChip _ (ohTxTake_exec true stamp hi (.inr hr)) (by rw [he]; simp) ?_
    rw [he, txSend_plain stamp s.mem s.c ht']
    obtain ⟨t, h⟩ := ohConsume_getOh pk.length s.mem p (txEmitted pk pk p s.c)
    refine ⟨?_, ?_, fun q hq => ?_⟩
    · rw [ohConsume_host, txEmitted_out]
    · rw [h, txEmitted_getOh]
    · rw [ohConsume_getOh_other _ _ _ hq, txEmitted_getOh]
  · obtain ⟨hhead, -⟩ := wholePacket_head hp
    have he := ohTake_packet (stamp := stamp) hl hw (itemType_packet (.inr ht)) hp hsh
    refine does_onChip _ (ohTxTake_exec true stamp hi (.inr hr)) (by rw [he]; simp) ?_
    obtain ⟨sent, hs⟩ := txSend_ptp stamp s.mem s.c (show itemType (pk.headD 0) = 0x30 by rw [hhead]; exact ht)
    rw [he, hs, hhead]
    cases hb : bitAt i 96
    · rw [if_neg (by simp), if_neg (by simp)]
      obtain ⟨t, h⟩ := ohConsume_getOh pk.length s.mem p (txEmitted pk (i :: sent) p s.c)
      refine ⟨⟨sent, ?_⟩, ?_, ?_, fun q hq => ?_⟩
      · rw [ohConsume_host, txEmitted_out]
      · rw [h, txEmitted_getOh]
      · rw [h, txEmitted_getOh]
      · rw [ohConsume_getOh_other _ _ _ hq, txEmitted_getOh]
    · rw [if_pos rfl, if_pos rfl]
      obtain ⟨t, h⟩ := ohConsume_getOh pk.length s.mem p (updOh p (fun o => { o with twoStep := o.twoStep ++ [{ cookie := BitVec.ofNat 16 (bits i 16 16), stamp := stampAdd stamp (txAdj s.c p) }] }) (txEmitted pk (i :: sent) p s.c))
      refine ⟨⟨sent, ?_⟩, ?_, ?_, fun q hq => ?_⟩
      · rw [ohConsume_host]; exact txEmitted_out pk (i :: sent) p s.c
      · rw [h, updOh_get, txEmitted_getOh]
      · rw [h, updOh_get, txEmitted_getOh]
      · rw [ohConsume_getOh_other _ _ _ hq, updOh_get_other _ _ hq, txEmitted_getOh]
  · refine does_onChip _ (ohTxTake_exec gap stamp hi (.inr hr)) (by rw [ohTake_short hl hw hk hp hsh]; simp) ?_
    rw [ohTake_short hl hw hk hp hsh]
    exact txDiscard_getOh pk s.mem p s.c
  · have hr : ringOk s.mem s.c p = true := by simp [ringOk, hw]
    refine does_onChip _ (ohTxTake_exec gap stamp hi (.inr hr)) (by rw [ohTake_empty hl hw]; simp) ?_
    rw [ohTake_empty hl hw]
    rfl
  · exact (if_neg (by simp [hi])).trans (if_pos (by simp [hl, hr]))
  · refine does_onChip (txDiscard pk s.mem p) ?_ (txDiscard_mask (by decide) pk s.mem p s.c) (txDiscard_getOh pk s.mem p s.c)
    show Host.Outcome.next _ = _
    simp only [onChip, ht, hp, now, hd, hl]
    rfl

/-! ### Staging -/

/-- The items of a port and type that fit enter the port's island's staging whole, and end its gap mark (R168, R170). -/
theorem ohStage_room {p ty : Nat} {items : List (BitVec 128)} {c : Chip} (hne : items ≠ []) (hlen : items.length ≤ 128)
    (hroom : (tget [] c.line.staging (portIsland (theImage c) p)).length + items.length ≤ stagingRoom)
    (hgap : (getOh c p).gaps.contains ty = false) : ohStage p ty items c =
      updOh p (fun o => { o with gaps := o.gaps.filter (· ≠ ty) })
        { c with line := { c.line with staging := tset [] c.line.staging (portIsland (theImage c) p) (tget [] c.line.staging (portIsland (theImage c) p) ++ items) } } := by
  unfold ohStage
  refine (if_neg hne).trans ((if_neg (by simp; omega)).trans ?_)
  simp only [hgap]
  rfl

theorem packetItems_length (ty prio port : Nat) : ∀ (f : Bool) (l : List (List Byte)), (packetItems ty prio port f l).length = l.length
  | _, [] => rfl
  | _, [_] => rfl
  | _, _ :: b :: t => congrArg (· + 1) (packetItems_length ty prio port false (b :: t))

/-- Bytes fill their items of 12. -/
theorem chunks12_length (n : Nat) (l : List Byte) : 12 * (chunks12 n l).length ≤ l.length + 11 := by
  induction n generalizing l with
  | zero => simp [chunks12]
  | succ n ih =>
    unfold chunks12
    split
    · simp
    · next h =>
      have hpos := List.length_pos_iff.2 h
      have := ih (l.drop 12)
      rw [List.length_drop] at this
      rw [List.length_cons]
      omega

theorem ptpItems_length (p prio : Nat) (flexe : Bool) (stamp : Nat) (msg : List Byte) (h : msg.length ≤ 1500) :
    (ptpItems p prio flexe stamp msg).length ≤ 126 := by
  have := chunks12_length msg.length msg
  rw [ptpItems, List.length_cons, packetItems_length]
  omega

/-- The chip after a port's classified message is staged, counted and replaced by idle. -/
theorem ptpArrives_message {p : Nat} {flexe : Bool} {stamp : Nat} {frame msg : List Byte} {c : Chip} (he : exported c p 0x30 = true)
    (hm : ptpOf frame = some msg) : ptpArrives p flexe stamp frame c =
      emit (.client p true frame) (countEvent 0x055 p 1 (ohStage p 0x30 (ptpItems p (stackPrio (stackRec c p)) flexe (stampAdd stamp (rxAdj c p)) msg) c)) := by
  simp [ptpArrives, he, hm]

theorem ptpArrives_other {p : Nat} {flexe : Bool} {stamp : Nat} {frame : List Byte} {c : Chip}
    (h : exported c p 0x30 = false ∨ ptpOf frame = none) : ptpArrives p flexe stamp frame c = emit (.client p false frame) c := by
  unfold ptpArrives
  rcases h with h | h
  · simp [h]
  · simp [h]

/-! ### ESMC -/

/-- An input's record after an ESMC frame's quality level is read (R296). -/
def esmcRead (ql n : Nat) (x : InSt) : InSt := { x with rxQl := if 1 ≤ ql ∧ ql ≤ 9 then ql else 9, esmcTick := n }

/-- One input in the reading of an ESMC frame. -/
def esmcInput (p ql i : Nat) (c : Chip) : Chip :=
  if tapPort c i = some p && tapEsmc c i then updIn i (esmcRead ql (now c)) c else c

theorem esmcReceived_eq (p ql : Nat) (c : Chip) : esmcReceived p ql c = forEach (tkeys c.tim.ins) (esmcInput p ql) c := by
  have h : (fun i c => if tapPort c i = some p && tapEsmc c i then
      updIn i (fun s => { s with rxQl := if 1 ≤ ql && ql ≤ 9 then ql else 9, esmcTick := now c }) c else c) = esmcInput p ql := by
    funext i c
    unfold esmcInput esmcRead
    simp only [Bool.and_eq_true, decide_eq_true_eq]
  rw [esmcReceived, h]

theorem updIn_lookup_other {i j : Nat} (f : InSt → InSt) (c : Chip) (h : j ≠ i) : (updIn i f c).tim.ins.lookup j = c.tim.ins.lookup j := by
  unfold updIn
  split
  · exact lookup_tput_other _ _ h
  · rfl

theorem esmcInput_mask (p ql i : Nat) (c : Chip) : mask [.tim] (esmcInput p ql i c) = mask [.tim] c := by
  unfold esmcInput
  split <;> simp

theorem tap_congr {a b : Chip} (h : a.img = b.img) (i : Nat) : tapPort a i = tapPort b i ∧ tapEsmc a i = tapEsmc b i := by
  have hp : tapPort a i = tapPort b i := by
    unfold tapPort inRec theImage
    rw [h]
  refine ⟨hp, ?_⟩
  unfold tapEsmc stackRec theImage
  rw [hp, h]

/-- The inputs that take their level from the port read the frame once, the others never. -/
theorem esmcInputs_lookup {p i ql : Nat} {x : InSt} (ks : List Nat) (c : Chip) (hp : tapPort c i = some p) (he : tapEsmc c i = true)
    (hx : c.tim.ins.lookup i = some x) : (forEach ks (esmcInput p ql) c).tim.ins.lookup i =
      some (if i ∈ ks then esmcRead ql c.dev.tick x else x) := by
  induction ks generalizing c x with
  | nil => simpa using hx
  | cons k t ih =>
    have hm := esmcInput_mask p ql k c
    have himg := img_of_mask hm (by decide)
    obtain ⟨h1, h2⟩ := tap_congr himg i
    rw [forEach_cons]
    by_cases hk : i = k
    · subst hk
      have hnew : (esmcInput p ql i c).tim.ins.lookup i = some (esmcRead ql c.dev.tick x) := by
        rw [esmcInput, if_pos (by simp [hp, he]), updIn_lookup, hx]
        rfl
      rw [ih _ (h1.trans hp) (h2.trans he) hnew, dev_of_mask hm (by decide), if_pos List.mem_cons_self]
      split <;> rfl
    · have hsame : (esmcInput p ql k c).tim.ins.lookup i = some x := by
        unfold esmcInput
        split
        · rw [updIn_lookup_other _ _ hk, hx]
        · exact hx
      rw [ih _ (h1.trans hp) (h2.trans he) hsame, dev_of_mask hm (by decide)]
      simp [hk]

theorem esmcReceived_lookup {p i ql : Nat} {x : InSt} {c : Chip} (hp : tapPort c i = some p) (he : tapEsmc c i = true)
    (hx : c.tim.ins.lookup i = some x) : (esmcReceived p ql c).tim.ins.lookup i = some (esmcRead ql c.dev.tick x) := by
  rw [esmcReceived_eq, esmcInputs_lookup _ _ hp he hx, if_pos (mem_tkeys _ _ _ hx)]

/-- A port an input takes its ESMC level from is Ethernet or FlexE and exports the frames (R162, R296). -/
theorem tapEsmc_port {c : Chip} {i p : Nat} (hp : tapPort c i = some p) (he : tapEsmc c i = true) :
    (portStack (theImage c) p = 0x10 ∨ portStack (theImage c) p = 0x20) ∧ exported c p 0x20 = true := by
  unfold tapEsmc at he
  rw [hp] at he
  simpa [exported, exportBit] using he

/-! ### The item of a two-step timestamp -/

theorem packN_append (l : List (Nat × Nat)) (w v : Nat) : packN (l ++ [(w, v)]) = packN l * 2 ^ w + v % 2 ^ w := by
  simp [packN]

/-- Induction from the end of a list. -/
theorem list_snoc_induction {α : Type} {P : List α → Prop} (nil : P []) (append_singleton : ∀ l a, P l → P (l ++ [a])) (l : List α) : P l := by
  have h : ∀ m : List α, P m.reverse := fun m => by
    induction m with
    | nil => exact nil
    | cons a t ih =>
      rw [List.reverse_cons]
      exact append_singleton _ a ih
  rw [← List.reverse_reverse l]
  exact h _

/-- The first field of a packed value stands above the widths of the others. -/
theorem packN_cons_shift (w v : Nat) (l : List (Nat × Nat)) : packN ((w, v) :: l) >>> (l.map (·.1)).sum = v % 2 ^ w := by
  induction l using list_snoc_induction with
  | nil => simp [packN]
  | append_singleton l a ih =>
    obtain ⟨u, x⟩ := a
    have hsum : ((l ++ [(u, x)]).map (·.1)).sum = u + (l.map (·.1)).sum := by simp [Nat.add_comm]
    rw [← List.cons_append, packN_append, hsum, Nat.shiftRight_add]
    have hx : x % 2 ^ u < 2 ^ u := Nat.mod_lt _ (Nat.two_pow_pos u)
    have hu : (packN ((w, v) :: l) * 2 ^ u + x % 2 ^ u) >>> u = packN ((w, v) :: l) := by
      rw [Nat.shiftRight_eq_div_pow, Nat.add_comm, Nat.add_mul_div_right _ _ (Nat.two_pow_pos u), Nat.div_eq_of_lt hx, Nat.zero_add]
    rw [hu, ih]

/-- The type of an item is its first packed field (R166). -/
theorem itemType_pack {ty : Nat} {l : List (Nat × Nat)} (h : (l.map (·.1)).sum = 120) (ht : ty < 256) :
    itemType (BitVec.ofNat 128 (packN ((8, ty) :: l))) = ty := by
  have hs := packN_cons_shift 8 ty l
  rw [h, Nat.shiftRight_eq_div_pow] at hs
  rw [itemType, bits, BitVec.toNat_ofNat, Nat.shiftRight_eq_div_pow]
  omega

/-- Settles O31: what is received is staged whole where there is room, and ESMC levels reach the inputs of their port. -/
theorem overheadReceived : Obligations.OverheadReceived := by
  unfold Obligations.OverheadReceived
  refine ⟨fun s isl hne hroom => ?_, fun s p flexe stamp frame msg hd hf hi ht he hm hg hlen hroom => ?_,
    fun s p flexe stamp frame hd hf hi ht hno => ?_, fun s p ql pdu i x hon hd hf hi hx hp he hes => ?_, fun s p t tl ht hg hroom => ?_⟩
  · have he : ohEnqueue isl s.c = countEvent 0x061 0x1FF (headPacket (tget [] s.c.line.staging isl)).length
        { s.c with oq := { s.c.oq with items := s.c.oq.items ++ headPacket (tget [] s.c.line.staging isl) },
                   line := { s.c.line with staging := tset [] s.c.line.staging isl ((tget [] s.c.line.staging isl).drop (headPacket (tget [] s.c.line.staging isl)).length) } } :=
      if_pos (by simp [hne, hroom])
    refine does_onChip (ohEnqueue isl) rfl (ohEnqueue_mask (by decide) (by decide) (by decide) isl s.c) ?_
    rw [he]
    have hm := countEvent_mask (l := [.dep]) (by decide) 0x061 0x1FF (headPacket (tget [] s.c.line.staging isl)).length
        { s.c with oq := { s.c.oq with items := s.c.oq.items ++ headPacket (tget [] s.c.line.staging isl) },
                   line := { s.c.line with staging := tset [] s.c.line.staging isl ((tget [] s.c.line.staging isl).drop (headPacket (tget [] s.c.line.staging isl)).length) } }
    rw [oq_of_mask hm (by decide), line_of_mask hm (by decide)]
    exact ⟨rfl, tget_tset_same _ _ _ _, fun j hj => tget_tset_other _ _ _ hj⟩
  · have hst : (decide (stackType (stackRec s.c p) = 0x10) || decide (stackType (stackRec s.c p) = 0x20)) = true := by
      rcases ht with h | h <;> simp [h]
    refine does_guard (f := fun c => ptpArrives p (stackType (stackRec c p) = 0x20 && flexe) stamp frame) rfl (by simp only [hd, hf, hi, hst]; rfl)
      (by simp) ?_
    rw [ptpArrives_message he hm]
    have hl := ptpItems_length p (stackPrio (stackRec s.c p)) (stackType (stackRec s.c p) = 0x20 && flexe) (stampAdd stamp (rxAdj s.c p)) msg hlen
    rw [ohStage_room (by simp [ptpItems]) (by omega) (by omega) hg]
    generalize hd : updOh p _ _ = d
    have hmask := countEvent_mask (l := [.dep]) (by decide) 0x055 p 1 d
    refine ⟨?_, ?_⟩
    · rw [emit_out, host_of_mask hmask (by decide), ← hd]
      rfl
    · show tget [] (countEvent 0x055 p 1 d).line.staging _ = _
      rw [line_of_mask hmask (by decide), ← hd]
      exact tget_tset_same _ _ _ _
  · have hst : (decide (stackType (stackRec s.c p) = 0x10) || decide (stackType (stackRec s.c p) = 0x20)) = true := by
      rcases ht with h | h <;> simp [h]
    refine does_guard (f := fun c => ptpArrives p (stackType (stackRec c p) = 0x20 && flexe) stamp frame) rfl (by simp only [hd, hf, hi, hst]; rfl)
      (by rw [ptpArrives_other hno]; simp) ?_
    rw [ptpArrives_other hno]
    rfl
  · obtain ⟨hst, hexp⟩ := tapEsmc_port hp he
    have hst' : (decide (portStack (theImage s.c) p = 0x10) || decide (portStack (theImage s.c) p = 0x20)) = true := by
      rcases hst with h | h <;> simp [h]
    refine does_guard (f := fun _ => esmcArrives p ql pdu) rfl (by simp only [hon, hd, hf, hi, hst']; rfl)
      (esmcArrives_mask (by decide) (by decide) (by decide) p ql pdu s.c) ?_
    have ha : esmcArrives p ql pdu s.c = emit (.client p true pdu) (ohBytes p 0x20 pdu (esmcReceived p ql s.c)) := if_pos (by simp [hes, hexp])
    rw [ha]
    show (ohBytes p 0x20 pdu (esmcReceived p ql s.c)).tim.ins.lookup i = _
    rw [tim_of_mask (l := [.line]) (ohBytes_mask (by decide) _ _ _ _) (by decide)]
    exact esmcReceived_lookup hp he hx
  · have hstep : exec (.ptpTxTimestamp p) s = .next (onChip (fun c => ohStage p 0x31 [BitVec.ofNat 128 (packN ([(8, 0x31), (2, stackPrio (stackRec c p)), (1, 1), (1, 1), (1, 0), (9, p), (4, 12), (6, 0)] ++ timeFields t.stamp ++ [(16, t.cookie.toNat)]))]
        (updOh p (fun o => { o with twoStep := tl }) c)) s) := by
      show Host.Outcome.next _ = _
      simp only [onChip, ht]
    refine does_onChip _ hstep (by simp) ?_
    have hst : (updOh p (fun o => { o with twoStep := tl }) s.c).line.staging = s.c.line.staging := rfl
    rw [ohStage_room (by simp) (by simp) (by rw [hst]; exact hroom) (by rw [updOh_get]; exact hg)]
    refine ⟨?_, _, tget_tset_same _ _ _ _, ?_⟩
    · rw [updOh_get]
      simp [getOh, updOh]
    · exact itemType_pack (by simp [timeFields]) (by omega)

end Sys2Proof.Machine
end

section
/-!
PROOFS. Trail traces, FlexE calendars and slices (O32; R152, R164, R165, R187).
-/
namespace Sys2Proof.Machine
open Sys2Proof

/-! ### Bytes as a number -/

theorem leNat_append (a b : List Byte) : leNat (a ++ b) = leNat a + 2 ^ (8 * a.length) * leNat b := by
  induction a with
  | nil => simp [leNat]
  | cons x t ih =>
    rw [List.cons_append, leNat, leNat, ih, List.length_cons, Nat.mul_succ, Nat.pow_add]
    grind

@[simp] theorem leBytes_length (n v : Nat) : (leBytes n v).length = n := by
  induction n generalizing v with
  | zero => rfl
  | succ n ih => rw [leBytes, List.length_cons, ih]

theorem leNat_leBytes (n v : Nat) : leNat (leBytes n v) = v % 2 ^ (8 * n) := by
  induction n generalizing v with
  | zero => simp [leNat, leBytes, Nat.mod_one]
  | succ n ih =>
    rw [leBytes, leNat, ih, Nat.mul_succ, Nat.add_comm (8 * n), Nat.pow_add, Nat.mod_mul]
    simp

theorem leNat_lt (l : List Byte) : leNat l < 2 ^ (8 * l.length) := by
  induction l with
  | nil => simp [leNat]
  | cons b t ih =>
    have hb : b.toNat < 256 := b.isLt
    rw [leNat, List.length_cons, Nat.mul_succ, Nat.pow_add]
    omega

/-- The bytes of a number after bytes `l` are written over those from `off`. -/
def overwritten (n w off : Nat) (l : List Byte) : Nat := leNat ((leBytes n w).take off ++ l ++ (leBytes n w).drop (off + l.length))

section written
variable {n w off : Nat} {l : List Byte}

theorem leNat_take (h : off ≤ n) : leNat ((leBytes n w).take off) = w % 2 ^ (8 * off) := by
  have hsplit := congrArg leNat (List.take_append_drop off (leBytes n w))
  rw [leNat_append, leNat_leBytes, List.length_take, leBytes_length, Nat.min_eq_left h] at hsplit
  have hlt := leNat_lt ((leBytes n w).take off)
  rw [List.length_take, leBytes_length, Nat.min_eq_left h] at hlt
  have hmod := congrArg (· % 2 ^ (8 * off)) hsplit
  simp only [Nat.add_mul_mod_self_left] at hmod
  rw [Nat.mod_eq_of_lt hlt, Nat.mod_mod_of_dvd _ (Nat.pow_dvd_pow 2 (by omega))] at hmod
  exact hmod

theorem leNat_drop (h : off ≤ n) : leNat ((leBytes n w).drop off) = (w % 2 ^ (8 * n)) >>> (8 * off) := by
  have hsplit := congrArg leNat (List.take_append_drop off (leBytes n w))
  rw [leNat_append, leNat_leBytes, leNat_take h, List.length_take, leBytes_length, Nat.min_eq_left h] at hsplit
  rw [← hsplit, Nat.shiftRight_eq_div_pow, Nat.add_mul_div_left _ _ (Nat.two_pow_pos _),
    Nat.div_eq_of_lt (Nat.mod_lt _ (Nat.two_pow_pos _)), Nat.zero_add]

theorem overwritten_eq (h : off ≤ n) : overwritten n w off l =
    w % 2 ^ (8 * off) + 2 ^ (8 * off) * (leNat l + 2 ^ (8 * l.length) * leNat ((leBytes n w).drop (off + l.length))) := by
  rw [overwritten, List.append_assoc, leNat_append, leNat_take h, leNat_append, List.length_take, leBytes_length, Nat.min_eq_left h]

/-- Below the place written, nothing changes. -/
theorem overwritten_mod (h : off ≤ n) : overwritten n w off l % 2 ^ (8 * off) = w % 2 ^ (8 * off) := by
  rw [overwritten_eq h, Nat.add_mul_mod_self_left, Nat.mod_mod]

/-- From the place written, the new bytes stand, then the old ones. -/
theorem overwritten_shift (h : off ≤ n) : overwritten n w off l >>> (8 * off) =
    leNat l + 2 ^ (8 * l.length) * leNat ((leBytes n w).drop (off + l.length)) := by
  rw [overwritten_eq h, Nat.shiftRight_eq_div_pow, Nat.add_mul_div_left _ _ (Nat.two_pow_pos _),
    Nat.div_eq_of_lt (Nat.mod_lt _ (Nat.two_pow_pos _)), Nat.zero_add]

/-- Above the bytes written, nothing changes. -/
theorem overwritten_above (h : off + l.length ≤ n) : overwritten n w off l >>> (8 * (off + l.length)) = (w % 2 ^ (8 * n)) >>> (8 * (off + l.length)) := by
  rw [Nat.mul_add, Nat.shiftRight_add, overwritten_shift (by omega), leNat_drop h, Nat.mul_add, Nat.shiftRight_eq_div_pow,
    Nat.add_mul_div_left _ _ (Nat.two_pow_pos _), Nat.div_eq_of_lt (leNat_lt l), Nat.zero_add]

end written

theorem ofNat_add_mul (n a z : Nat) : BitVec.ofNat n (a + 2 ^ n * z) = BitVec.ofNat n a := by
  apply BitVec.eq_of_toNat_eq
  rw [BitVec.toNat_ofNat, BitVec.toNat_ofNat, Nat.add_mul_mod_self_left]

/-- Numbers that agree below bit `m` agree in every bit below it. -/
theorem testBit_of_mod {m a b k : Nat} (h : a % 2 ^ m = b % 2 ^ m) (hk : k < m) : a.testBit k = b.testBit k := by
  have := congrArg (Nat.testBit · k) h
  simpa [Nat.testBit_mod_two_pow, hk] using this

/-- Numbers that agree below bit `m` have the same fields below it. -/
theorem ofNat_shift_of_mod {m a b lo n : Nat} (h : a % 2 ^ m = b % 2 ^ m) (hk : lo + n ≤ m) :
    BitVec.ofNat n (a >>> lo) = BitVec.ofNat n (b >>> lo) := by
  apply BitVec.eq_of_getLsbD_eq
  intro i hi
  simp only [BitVec.getLsbD_ofNat, Nat.testBit_shiftRight]
  rw [testBit_of_mod h (by omega)]

/-! ### A trace entry -/

theorem packN_lt (l : List (Nat × Nat)) : packN l < 2 ^ (l.map (·.1)).sum := by
  induction l using list_snoc_induction with
  | nil => simp [packN]
  | append_singleton l a ih =>
    obtain ⟨u, x⟩ := a
    have hx : x % 2 ^ u < 2 ^ u := Nat.mod_lt _ (Nat.two_pow_pos u)
    have hsum : ((l ++ [(u, x)]).map (·.1)).sum = (l.map (·.1)).sum + u := by simp
    rw [packN_append, hsum, Nat.pow_add]
    calc packN l * 2 ^ u + x % 2 ^ u < packN l * 2 ^ u + 2 ^ u := by omega
      _ = (packN l + 1) * 2 ^ u := by rw [Nat.add_mul, Nat.one_mul]
      _ ≤ 2 ^ (l.map (·.1)).sum * 2 ^ u := Nat.mul_le_mul_right _ ih

/-- Fields packed below others. -/
theorem packN_join (a b : List (Nat × Nat)) : packN (a ++ b) = packN a * 2 ^ (b.map (·.1)).sum + packN b := by
  induction b using list_snoc_induction with
  | nil => simp [packN]
  | append_singleton l x ih =>
    obtain ⟨u, v⟩ := x
    have hsum : ((l ++ [(u, v)]).map (·.1)).sum = (l.map (·.1)).sum + u := by simp
    rw [← List.append_assoc, packN_append, ih, packN_append, hsum, Nat.pow_add, Nat.add_mul, Nat.mul_assoc, Nat.add_assoc]

theorem packN_join_mod (a b : List (Nat × Nat)) : packN (a ++ b) % 2 ^ (b.map (·.1)).sum = packN b := by
  rw [packN_join, Nat.mul_add_mod_self_right, Nat.mod_eq_of_lt (packN_lt b)]

theorem packN_join_shift (a b : List (Nat × Nat)) : packN (a ++ b) >>> (b.map (·.1)).sum = packN a := by
  rw [packN_join, Nat.shiftRight_eq_div_pow, Nat.add_comm, Nat.add_mul_div_right _ _ (Nat.two_pow_pos _), Nat.div_eq_of_lt (packN_lt b), Nat.zero_add]

/-- The fields below the two traces a host writes. -/
def traceLow (x : TraceSt) : List (Nat × Nat) := [(512, x.acc.toNat), (504, 0), (1, bnat x.accValid), (1, bnat x.format), (3, 0), (3, x.timMode.toNat)]

theorem traceLow_width (x : TraceSt) : ((traceLow x).map (·.1)).sum = 1024 := by simp [traceLow]

theorem traceWord_eq (x : TraceSt) : traceWord x = packN ([(512, x.tx.toNat), (512, x.exp.toNat)] ++ traceLow x) := rfl

theorem traceWord_tx (x : TraceSt) : BitVec.ofNat 512 (traceWord x >>> 1536) = x.tx := by
  have h := packN_cons_shift 512 x.tx.toNat ([(512, x.exp.toNat)] ++ traceLow x)
  have hsum : (([(512, x.exp.toNat)] ++ traceLow x).map (fun e : Nat × Nat => e.1)).sum = 1536 := by rw [List.map_append, List.sum_append, traceLow_width]; rfl
  rw [hsum] at h
  rw [traceWord_eq, List.cons_append, h, Nat.mod_eq_of_lt x.tx.isLt, BitVec.ofNat_toNat, BitVec.setWidth_eq]

theorem traceWord_exp (x : TraceSt) : BitVec.ofNat 512 (traceWord x >>> 1024) = x.exp := by
  have h := packN_join_shift [(512, x.tx.toNat), (512, x.exp.toNat)] (traceLow x)
  rw [traceLow_width] at h
  have hp : packN [(512, x.tx.toNat), (512, x.exp.toNat)] = x.exp.toNat % 2 ^ 512 + 2 ^ 512 * packN [(512, x.tx.toNat)] := by
    rw [Nat.add_comm, Nat.mul_comm]
    exact packN_append [(512, x.tx.toNat)] 512 x.exp.toNat
  rw [traceWord_eq, h, hp, ofNat_add_mul, Nat.mod_eq_of_lt x.exp.isLt, BitVec.ofNat_toNat, BitVec.setWidth_eq]

theorem traceWord_low (x : TraceSt) : traceWord x % 2 ^ 8 = 128 * bnat x.accValid + 64 * bnat x.format + x.timMode.toNat := by
  have h : traceWord x % 2 ^ 8 = packN [(1, bnat x.accValid), (1, bnat x.format), (3, 0), (3, x.timMode.toNat)] :=
    packN_join_mod [(512, x.tx.toNat), (512, x.exp.toNat), (512, x.acc.toNat), (504, 0)] [(1, bnat x.accValid), (1, bnat x.format), (3, 0), (3, x.timMode.toNat)]
  have ht := x.timMode.isLt
  rw [h]
  simp only [packN, List.foldl]
  cases x.accValid <;> cases x.format <;> simp [bnat] <;> omega

theorem traceWord_format (x : TraceSt) : (traceWord x).testBit 6 = x.format := by
  have h := traceWord_low x
  have ht := x.timMode.isLt
  rw [testBit_of_mod (m := 8) (b := 128 * bnat x.accValid + 64 * bnat x.format + x.timMode.toNat) (by rw [← h, Nat.mod_mod]) (by decide)]
  rw [Nat.testBit_eq_decide_div_mod_eq]
  cases x.accValid <;> cases x.format <;> simp [bnat] <;> omega

theorem traceWord_tim (x : TraceSt) : BitVec.ofNat 3 (traceWord x) = x.timMode := by
  have h := traceWord_low x
  have ht := x.timMode.isLt
  apply BitVec.eq_of_toNat_eq
  rw [BitVec.toNat_ofNat]
  cases hv : x.accValid <;> cases hf : x.format <;> simp [bnat, hv, hf] at h <;> omega

/-- Bytes from offset 192 are the trace to send (R164). -/
theorem traceSet_tx {l : List Byte} (h : l.length = 64) (x : TraceSt) : traceSet 192 l x = { x with tx := BitVec.ofNat 512 (leNat l) } := by
  have hv : ∀ k, k ≤ 1536 → overwritten 256 (traceWord x) 192 l % 2 ^ k = traceWord x % 2 ^ k := fun k hk => by
    have := overwritten_mod (n := 256) (w := traceWord x) (off := 192) (l := l) (by omega)
    rw [← Nat.mod_mod_of_dvd _ (Nat.pow_dvd_pow 2 hk), this, Nat.mod_mod_of_dvd _ (Nat.pow_dvd_pow 2 hk)]
  have htx : overwritten 256 (traceWord x) 192 l >>> 1536 = leNat l := by
    have hs := overwritten_shift (n := 256) (w := traceWord x) (off := 192) (l := l) (by omega)
    rw [h, List.drop_eq_nil_of_le (by simp), leNat, Nat.mul_zero, Nat.add_zero] at hs
    exact hs
  have he : BitVec.ofNat 512 (overwritten 256 (traceWord x) 192 l >>> 1024) = x.exp :=
    (ofNat_shift_of_mod (hv 1536 (by omega)) (by omega)).trans (traceWord_exp x)
  have hf : (overwritten 256 (traceWord x) 192 l).testBit 6 = x.format := (testBit_of_mod (hv 8 (by omega)) (by omega)).trans (traceWord_format x)
  have ht : BitVec.ofNat 3 (overwritten 256 (traceWord x) 192 l) = x.timMode :=
    (ofNat_shift_of_mod (lo := 0) (hv 8 (by omega)) (by omega)).trans (traceWord_tim x)
  have hd : traceSet 192 l x = { x with tx := BitVec.ofNat 512 (overwritten 256 (traceWord x) 192 l >>> 1536), exp := BitVec.ofNat 512 (overwritten 256 (traceWord x) 192 l >>> 1024), format := (overwritten 256 (traceWord x) 192 l).testBit 6, timMode := BitVec.ofNat 3 (overwritten 256 (traceWord x) 192 l) } := rfl
  rw [hd, htx, he, hf, ht]

/-- Bytes from offset 128 are the trace expected (R164). -/
theorem traceSet_exp {l : List Byte} (h : l.length = 64) (x : TraceSt) : traceSet 128 l x = { x with exp := BitVec.ofNat 512 (leNat l) } := by
  have hv : ∀ k, k ≤ 1024 → overwritten 256 (traceWord x) 128 l % 2 ^ k = traceWord x % 2 ^ k := fun k hk => by
    have := overwritten_mod (n := 256) (w := traceWord x) (off := 128) (l := l) (by omega)
    rw [← Nat.mod_mod_of_dvd _ (Nat.pow_dvd_pow 2 hk), this, Nat.mod_mod_of_dvd _ (Nat.pow_dvd_pow 2 hk)]
  have htx : BitVec.ofNat 512 (overwritten 256 (traceWord x) 128 l >>> 1536) = x.tx := by
    have hs := overwritten_above (n := 256) (w := traceWord x) (off := 128) (l := l) (by omega)
    rw [h] at hs
    rw [← traceWord_tx x]
    refine (congrArg (BitVec.ofNat 512) hs).trans ?_
    exact ofNat_shift_of_mod (m := 2048) (Nat.mod_mod _ _) (by omega)
  have he : BitVec.ofNat 512 (overwritten 256 (traceWord x) 128 l >>> 1024) = BitVec.ofNat 512 (leNat l) := by
    have hs := overwritten_shift (n := 256) (w := traceWord x) (off := 128) (l := l) (by omega)
    rw [h] at hs
    exact (congrArg (BitVec.ofNat 512) hs).trans (ofNat_add_mul 512 _ _)
  have hf : (overwritten 256 (traceWord x) 128 l).testBit 6 = x.format := (testBit_of_mod (hv 8 (by omega)) (by omega)).trans (traceWord_format x)
  have ht : BitVec.ofNat 3 (overwritten 256 (traceWord x) 128 l) = x.timMode :=
    (ofNat_shift_of_mod (lo := 0) (hv 8 (by omega)) (by omega)).trans (traceWord_tim x)
  have hd : traceSet 128 l x = { x with tx := BitVec.ofNat 512 (overwritten 256 (traceWord x) 128 l >>> 1536), exp := BitVec.ofNat 512 (overwritten 256 (traceWord x) 128 l >>> 1024), format := (overwritten 256 (traceWord x) 128 l).testBit 6, timMode := BitVec.ofNat 3 (overwritten 256 (traceWord x) 128 l) } := rfl
  rw [hd, htx, he, hf, ht]

theorem traceJudge_getTrace (e : Nat) (c : Chip) (j : Nat) : getTrace (traceJudge e c) j = getTrace c j := by
  rw [getTrace, line_of_mask (l := [.dfx]) (traceJudge_mask (by decide) e c) (by decide), getTrace]

/-- A write of whole words above the control word is one R164 allows. -/
theorem traceWriteOk_of {off : Nat} {l : List Byte} (h : l.length = 64) (h4 : off % 4 = 0) (h64 : 64 ≤ off) (hr : off + 64 ≤ 256) :
    traceWriteOk off l = true := by
  have hl : l ≠ [] := by
    rintro rfl
    simp at h
  have h0 : 64 - off = 0 := by omega
  simp [traceWriteOk, h, h4, hl, hr, h0, upto]

/-- A write of an entry changes its own record as its bytes say. -/
theorem does_traceWrite {s : State} {e off : Nat} {l : List Byte} {v : TraceSt} (hs : s.c.dev.state ≠ .cold) (he : e < 262464)
    (hok : traceWriteOk off l = true) (hv : traceSet off l (getTrace s.c e) = v) :
    Does (.traceWrite e off l) s [.line, .dfx] (fun c => getTrace c e = v ∧ ∀ j, j ≠ e → getTrace c j = getTrace s.c j) := by
  refine does_onChip (traceWrite e off l) ((if_pos (by simp [awake_of hs, he])).trans (if_pos hok)) (traceWrite_mask (by decide) (by decide) e off l s.c) ⟨?_, fun j hj => ?_⟩
  · rw [traceWrite, traceJudge_getTrace, updTrace_get, hv]
  · rw [traceWrite, traceJudge_getTrace, updTrace_get_other _ _ hj]

/-! ### FlexE calendars -/

theorem bitAt_setBits_zero {n : Nat} (x : BitVec n) (k : Nat) : bitAt (setBits x k 1 0) k = false := by
  have hp : 0 < 2 ^ k := Nat.two_pow_pos k
  have hx := Nat.div_add_mod x.toNat (2 ^ k)
  have hr := Nat.mod_lt x.toNat hp
  simp only [bitAt, setBits, BitVec.toNat_ofNat, Nat.shiftRight_eq_div_pow, Nat.pow_one, Nat.zero_mod, Nat.zero_mul, Nat.add_zero]
  have hlt : x.toNat - x.toNat / 2 ^ k % 2 * 2 ^ k < 2 ^ n := Nat.lt_of_le_of_lt (Nat.sub_le _ _) x.isLt
  rw [Nat.mod_eq_of_lt hlt]
  generalize x.toNat / 2 ^ k = q at *
  generalize x.toNat % 2 ^ k = r at *
  have he : x.toNat - q % 2 * 2 ^ k = 2 ^ k * (2 * (q / 2)) + r := by
    have hq : q = 2 * (q / 2) + q % 2 := (Nat.div_add_mod q 2).symm
    have : 2 ^ k * q = 2 ^ k * (2 * (q / 2)) + q % 2 * 2 ^ k := by
      conv => lhs; rw [hq]
      rw [Nat.mul_add, Nat.mul_comm (q % 2)]
    omega
  rw [he, Nat.mul_add_div hp, Nat.div_eq_of_lt hr]
  simp

theorem bitAt_setBits_bnat (x : BitVec 96) (b : Bool) : bitAt (setBits x 94 1 (bnat b)) 94 = b := by
  cases b
  · exact bitAt_setBits_zero x 94
  · exact bitAt_setBits_same x 94 (by decide)

/-- A client's context after its group's calendar switches. -/
def calClient (b : Bool) (x : CtxSt) : CtxSt := { x with func := setBits x.func 94 1 (bnat b), calTx := false }

theorem calClient_switched (b : Bool) (x : CtxSt) : bitAt (calClient b x).func 94 = b ∧ (calClient b x).calTx = false :=
  ⟨bitAt_setBits_bnat _ _, rfl⟩

theorem updCal_getCal (g : Nat) (f : CalSt → CalSt) (c : Chip) : getCal (updCal g f c) g = f (getCal c g) := by
  simp [getCal, updCal]

theorem calSwitch_due {g : Nat} {c : Chip} (h : (getCal c g).due = true) : calSwitch g c =
    forEach (groupClients c g) (fun t => updCtx t (calClient (!(getCal c g).inUse))) (updCal g (fun x => { x with inUse := !(getCal c g).inUse, due := false }) c) :=
  if_pos h

/-- Every context in a list that is placed meets `Q` after a change that brings it about. -/
theorem forEach_updCtx {Q : CtxSt → Prop} {f : CtxSt → CtxSt} (hf : ∀ x, Q (f x)) (hk : ∀ x, Q x → Q (f x)) {ts : List Nat} {c : Chip} {t : Nat}
    (ht : t ∈ ts) (hp : (c.img.place.tribs.lookup t).isSome = true) : Q (getCtx (forEach ts (fun u => updCtx u f) c) t) := by
  have h := forEach_all (Q := fun u d => d.img = c.img → (c.img.place.tribs.lookup u).isSome = true → Q (getCtx d u)) (f := fun u => updCtx u f)
    (fun u d hd hu => by rw [updCtx_img] at hd; rw [updCtx_get _ (by rw [hd]; exact hu)]; exact hf _)
    (fun u v d hv hd hu => by
      rw [updCtx_img] at hd
      by_cases huv : v = u
      · subst huv
        rw [updCtx_get _ (by rw [hd]; exact hu)]
        exact hk _ (hv hd hu)
      · rw [updCtx_get_other _ _ huv]
        exact hv hd hu) ts c t ht
  exact h (forEach_img (fun u d => updCtx_img u f d) ts c) hp

theorem forEach_updCtx_line (f : CtxSt → CtxSt) (ts : List Nat) (c : Chip) : (forEach ts (fun u => updCtx u f) c).line = c.line :=
  forEach_keeps Chip.line (fun u d => updCtx_line u f d) ts c

theorem forEach_updCtx_other {f : CtxSt → CtxSt} {ts : List Nat} {t : Nat} (ht : t ∉ ts) (c : Chip) :
    getCtx (forEach ts (fun u => updCtx u f) c) t = getCtx c t := by
  induction ts generalizing c with
  | nil => rfl
  | cons u us ih =>
    rw [List.mem_cons, not_or] at ht
    rw [forEach_cons, ih ht.2, updCtx_get_other _ _ ht.1]

/-! ### Frames that carry a trace -/

/-- A frame's multiframe changes no unit's frame state, nor a trace. -/
theorem multiframe_keeps (p u v : Nat) (b : Bool) (c : Chip) :
    (multiframe p u v b c).line.trace = c.line.trace ∧
    ∀ p' w, (getUnit (multiframe p u v b c) p' w).state = (getUnit c p' w).state ∧ (getUnit (multiframe p u v b c) p' w).sliceOof = (getUnit c p' w).sliceOof := by
  have hm : ∀ x y d, (mfChanged p x y d).line.trace = d.line.trace ∧ (mfChanged p x y d).line.align = d.line.align := by
    intro x y d
    unfold mfChanged
    split
    · exact ⟨rfl, rfl⟩
    · split
      · rw [line_of_mask (l := [.dfx]) (sectionDefects_mask (by decide) p d) (by decide)]
        exact ⟨rfl, rfl⟩
      · exact ⟨rfl, rfl⟩
  unfold multiframe
  dsimp only
  split
  · exact ⟨rfl, fun _ _ => ⟨rfl, rfl⟩⟩
  · obtain ⟨ht, ha⟩ := hm (getUnit c p u).mf (mfFrame (mfKind (unitKind (theImage c) p u)) v (now c) (getUnit c p u).mf)
      (updUnit p u (fun s => { s with mf := mfFrame (mfKind (unitKind (theImage c) p u)) v (now c) (getUnit c p u).mf }) c)
    refine ⟨ht, fun p' w => ?_⟩
    rw [getUnit, ha]
    change (getUnit (updUnit p u _ c) p' w).state = _ ∧ (getUnit (updUnit p u _ c) p' w).sliceOof = _
    by_cases hk : unitKey p' w = unitKey p u
    · have h1 : ∀ d, getUnit d p' w = getUnit d p u := fun d => by rw [getUnit, hk, getUnit]
      rw [h1, h1 c, updUnit_get]
      exact ⟨rfl, rfl⟩
    · rw [updUnit_get_other _ _ hk]
      exact ⟨rfl, rfl⟩

/-- The multiframe of a unit in frame after one frame of it (R156). -/
theorem multiframe_mf {p u v k : Nat} {c : Chip} (hk : unitKind (theImage c) p u = k) (h1 : k = 2 ∨ k = 3) (hs : (getUnit c p u).state = .inFrame) :
    (getUnit (multiframe p u v true c) p u).mf = mfFrame 1 v c.dev.tick (getUnit c p u).mf := by
  have hm : ∀ x y d, (mfChanged p x y d).line.align = d.line.align := by
    intro x y d
    unfold mfChanged
    split
    · rfl
    · split
      · rw [line_of_mask (l := [.dfx]) (sectionDefects_mask (by decide) p d) (by decide)]
      · rfl
  have he : multiframe p u v true c = mfChanged p (getUnit c p u).mf (mfFrame 1 v (now c) (getUnit c p u).mf)
      (updUnit p u (fun s => { s with mf := mfFrame 1 v (now c) (getUnit c p u).mf }) c) := by
    unfold multiframe
    rw [hk]
    rcases h1 with rfl | rfl
    · exact if_neg (by simp [hs, mfKind])
    · exact if_neg (by simp [hs, mfKind])
  rw [he, getUnit, hm]
  change (getUnit (updUnit p u _ c) p u).mf = _
  rw [updUnit_get]
  rfl

theorem portFramed_congr {a b : Chip} (hi : a.img = b.img) (h : ∀ p u, (getUnit a p u).state = (getUnit b p u).state ∧ (getUnit a p u).sliceOof = (getUnit b p u).sliceOof)
    (p : Nat) : portFramed a p = portFramed b p := by
  have hu : ∀ u, unitIn (getUnit a p u) = unitIn (getUnit b p u) := fun u => by rw [unitIn, (h p u).1, (h p u).2, unitIn]
  unfold portFramed theImage
  rw [hi]
  simp only [hu]

/-- A section frame that shows no indication but what its multiframe brings is read as that (R224). -/
theorem frameRead_plain {rep : FrameRep} {c : Chip} (hi : sectionInds c rep = []) (hl : rep.layer = 2) (ht : frameTrib rep c = c)
    (ha : rep.aps = none) (hs : rep.s1 = none) (hm : mfHeld c rep = true) : frameRead rep c = frameMf rep c := by
  simp [frameRead, hi, hl, ht, ha, hs, hm]

/-- A section frame with nothing for its unit but its multiframe is read once its port is in frame. -/
theorem frameSeen_section {rep : FrameRep} {c : Chip} (hl : rep.layer = 2) (hs : rep.slice = false) (hids : rep.ids = none) (hb : rep.hiBer = none)
    (hp : portFramed (multiframe rep.port rep.unit rep.mf rep.crcOk c) rep.ref = true) :
    frameSeen rep c = frameRead rep (multiframe rep.port rep.unit rep.mf rep.crcOk c) := by
  have hid : idsSeen rep (multiframe rep.port rep.unit rep.mf rep.crcOk c) = multiframe rep.port rep.unit rep.mf rep.crcOk c := by
    simp [idsSeen, hids]
  simp [frameSeen, hl, hs, hb, hid, pointFramed, hp]

/-- A frame of a port's first unit that carries a trace. -/
def traceFrame (p m : Nat) (v : BitVec 512) : FrameRep := { plainFrame p 0 m with trace := some v }

/-- A frame that carries no indication but a trace brings its multiframe and its trace (R165). -/
theorem frameSeen_trace {p m : Nat} {v : BitVec 512} {c : Chip} (hs : (getUnit c p 0).state = .inFrame) (hf : portFramed c p = true)
    (hst : portStack (theImage c) p ≠ 1)
    (hm : unitKind (theImage c) p 0 = 4 ∨ (unitKind (theImage c) p 0 = 2 ∨ unitKind (theImage c) p 0 = 3) ∧ (mfFrame 1 m c.dev.tick (getUnit c p 0).mf).isIn = true) :
    frameSeen (traceFrame p m v) c = traceReceived p v (multiframe p 0 m true c) := by
  have hmask := multiframe_mask (l := [.line, .dfx]) (by decide) (by decide) p 0 m true c
  have himg : (multiframe p 0 m true c).img = c.img := img_of_mask hmask (by decide)
  have him : theImage (multiframe p 0 m true c) = theImage c := by rw [theImage, himg, theImage]
  have hframed : portFramed (multiframe p 0 m true c) p = true := by rwa [portFramed_congr himg (multiframe_keeps p 0 m true c).2]
  have hinds : sectionInds (multiframe p 0 m true c) (traceFrame p m v) = [] := by
    simp [sectionInds, traceFrame, plainFrame, shows]
  have htrib : frameTrib (traceFrame p m v) (multiframe p 0 m true c) = multiframe p 0 m true c := by
    simp [frameTrib, traceFrame, plainFrame]
  have hheld : mfHeld (multiframe p 0 m true c) (traceFrame p m v) = true := by
    simp only [mfHeld, traceFrame, plainFrame, him]
    rcases hm with h4 | ⟨h23, hin⟩
    · simp [h4, mfKind]
    · rw [multiframe_mf rfl h23 hs, hin]
      rcases h23 with h | h <;> simp [h]
  have hmf : frameMf (traceFrame p m v) (multiframe p 0 m true c) = traceReceived p v (multiframe p 0 m true c) := by
    simp [frameMf, firstSlice, him, hst, traceFrame, plainFrame, traceEntry]
  rw [frameSeen_section (rep := traceFrame p m v) rfl rfl rfl rfl hframed]
  exact (frameRead_plain hinds rfl htrib rfl rfl hheld).trans hmf

/-- Settles O32: the bytes written are one field of the entry, the calendar reaches its group's clients, and a frame's trace and a slice's
missing alignment word count. -/
theorem tracesAndFrames : Obligations.TracesAndFrames := by
  unfold Obligations.TracesAndFrames
  refine ⟨fun s e l hs he hl => ?_, fun s e l hs he hl => ?_, fun s g hon hd => ?_, fun s p m v hin hf hst hm hfmt hrun hcand => ?_,
    fun s p u m hin hk ho h4 hu => ?_⟩
  · exact does_traceWrite hs he (traceWriteOk_of hl (by decide) (by decide) (by decide)) (traceSet_tx hl _)
  · exact does_traceWrite hs he (traceWriteOk_of hl (by decide) (by decide) (by decide)) (traceSet_exp hl _)
  · refine does_guard (f := fun _ => calSwitch g) rfl hon (calSwitch_mask (by decide) (by decide) g s.c) ?_
    rw [calSwitch_due hd]
    refine ⟨?_, fun t ht => ?_, fun t ht => forEach_updCtx_other ht _⟩
    · rw [getCal, forEach_updCtx_line]
      exact updCal_getCal g _ s.c
    · have hp : (s.c.img.place.tribs.lookup t).isSome = true := by
        simp only [groupClients, List.mem_filter, Bool.and_eq_true, flexeClient] at ht
        exact ht.2.1.2
      exact forEach_updCtx (Q := fun x => bitAt x.func 94 = !(getCal s.c g).inUse ∧ x.calTx = false) (calClient_switched _) (fun x _ => calClient_switched _ x)
        (c := updCal g (fun x => { x with inUse := !(getCal s.c g).inUse, due := false }) s.c) ht hp
  · have hs : (getUnit s.c p 0).state = .inFrame := by
      simp only [frameIn, Bool.and_eq_true, decide_eq_true_eq] at hin
      exact hin.2
    have he := frameSeen_trace (v := v) hs hf hst hm
    refine does_guard (f := fun _ => frameSeen (traceFrame p m v)) rfl hin (by rw [he]; simp) ?_
    rw [he]
    have htr : ∀ j, getTrace (multiframe p 0 m true s.c) j = getTrace s.c j := fun j => by
      rw [getTrace, (multiframe_keeps p 0 m true s.c).1, getTrace]
    have hrec : traceReceived p v (multiframe p 0 m true s.c) = traceJudge p (updTrace p (fun x => { x with cand := v, run := 3, acc := v, accValid := x.accValid || true }) (multiframe p 0 m true s.c)) := by
      unfold traceReceived
      rw [htr]
      refine (if_neg ?_).trans ?_
      · rcases hfmt with h | h <;> simp [h]
      · simp [hrun, hcand]
    rw [hrec]
    refine ⟨?_, fun j hj => ?_⟩
    · rw [traceJudge_getTrace, updTrace_get, htr, Bool.or_true, ← hcand]
    · rw [traceJudge_getTrace, updTrace_get_other _ _ hj, htr]
  · have hs : (getUnit s.c p u).state = .inFrame := by
      simp only [frameIn, Bool.and_eq_true, decide_eq_true_eq] at hin
      exact hin.2
    have hsl : sliceFrame p u m false s.c = leftFrame false p (updUnit p u (fun x => { x with fasMiss := 5, sliceOof := true, outSince := now s.c, smf := mfDrop (now s.c) x.smf }) s.c) := by
      unfold sliceFrame
      simp [hk, hs, h4, ho]
    have hu' : (getUnit (sliceFrame p u m false s.c) p u).sliceOof = true := by
      rw [hsl, getUnit, ((lineCore_iff _ _).1 (leftFrame_lineCore _ _ _)).2.1]
      change (getUnit (updUnit p u _ s.c) p u).sliceOof = true
      rw [updUnit_get]
    have hmask := sliceFrame_mask (l := [.ctx, .line, .dfx]) (by decide) (by decide) (by decide) p u m false s.c
    have hout : portFramed (sliceFrame p u m false s.c) p = false := by
      have hmem : u ∈ portUnits (theImage (sliceFrame p u m false s.c)) p := by rwa [theImage, img_of_mask hmask (by decide)]
      have hall : (portUnits (theImage (sliceFrame p u m false s.c)) p).all (fun v => unitIn (getUnit (sliceFrame p u m false s.c) p v)) = false := by
        rw [List.all_eq_false]
        exact ⟨u, hmem, by simp [unitIn, hu']⟩
      unfold portFramed
      simp [hall]
    have he : frameSeen { plainFrame p u m with slice := true, fas := false } s.c = sliceFrame p u m false s.c := by
      unfold frameSeen
      simp [plainFrame, pointFramed, hout]
    refine does_guard (f := fun _ => frameSeen { plainFrame p u m with slice := true, fas := false }) rfl hin (by rw [he]; exact hmask) ?_
    rw [he]
    exact ⟨hu', hout⟩

end Sys2Proof.Machine
end

section
/-!
PROOFS. Timing: the tables of inputs and DPLLs, inputs' monitors (O33; R293, R296, R298, R313), time references and the oscillator
(O34; R300, R303, R315).
-/
namespace Sys2Proof.Machine
open Sys2Proof

/-! ### Inputs and DPLLs -/

theorem getIn_of {c : Chip} {i : Nat} {x : InSt} (h : c.tim.ins.lookup i = some x) : getIn c i = x := by rw [getIn, h]; rfl

theorem getDp_of {c : Chip} {d : Nat} {x : DpSt} (h : c.tim.dps.lookup d = some x) : getDp c d = x := by rw [getDp, h]; rfl

theorem updDp_lookup_other {d k : Nat} (f : DpSt → DpSt) (c : Chip) (h : k ≠ d) : (updDp d f c).tim.dps.lookup k = c.tim.dps.lookup k := by
  unfold updDp
  split
  · exact lookup_tput_other _ _ h
  · rfl

theorem updIn_some {c : Chip} {i : Nat} {x : InSt} (f : InSt → InSt) (h : c.tim.ins.lookup i = some x) : (updIn i f c).tim.ins.lookup i = some (f x) := by
  rw [updIn_lookup, h]
  rfl

theorem updDp_some {c : Chip} {d : Nat} {x : DpSt} (f : DpSt → DpSt) (h : c.tim.dps.lookup d = some x) : (updDp d f c).tim.dps.lookup d = some (f x) := by
  rw [updDp_lookup, h]
  rfl

/-- An input's change leaves every other part of the timing block. -/
theorem updIn_tim (i : Nat) (f : InSt → InSt) (c : Chip) : (updIn i f c).tim = { c.tim with ins := (updIn i f c).tim.ins } := by
  unfold updIn
  split <;> rfl

/-- A DPLL's change leaves every other part of the timing block. -/
theorem updDp_tim (d : Nat) (f : DpSt → DpSt) (c : Chip) : (updDp d f c).tim = { c.tim with dps := (updDp d f c).tim.dps } := by
  unfold updDp
  split <;> rfl

@[simp] theorem timNotice_tim (ty ref bit conseq n : Nat) (clear : Bool) (c : Chip) : (timNotice ty ref bit conseq n clear c).tim = c.tim :=
  tim_of_mask (l := [.nq, .notice, .dep]) (timNotice_mask (by decide) (by decide) (by decide) ty ref bit conseq n clear c) (by decide)

theorem timNotice_raised {ty ref bit conseq n : Nat} {clear : Bool} {c : Chip} (h : NoticeRoom 1 c) :
    Raised (event ty 0 0 bit ref conseq n clear) (timNotice ty ref bit conseq n clear c) := notify_raised _ h

/-- A loop whose turn `d` changes DPLL d's record by an idempotent `f` changes each record it meets by `f`. -/
theorem forEach_dps {step : Nat → Chip → Chip} {f : DpSt → DpSt}
    (hs : ∀ d c y, c.tim.dps.lookup d = some y → (step d c).tim.dps.lookup d = some (f y))
    (ho : ∀ d k c, k ≠ d → (step d c).tim.dps.lookup k = c.tim.dps.lookup k) (hf : ∀ y, f (f y) = f y)
    (ds : List Nat) (c : Chip) (d : Nat) (y : DpSt) (hy : c.tim.dps.lookup d = some y) :
    (forEach ds step c).tim.dps.lookup d = some (if d ∈ ds then f y else y) := by
  induction ds generalizing c y with
  | nil => simpa using hy
  | cons k t ih =>
    rw [forEach_cons]
    by_cases hk : d = k
    · subst hk
      rw [ih _ _ (hs d c y hy), if_pos List.mem_cons_self]
      split
      · rw [hf]
      · rfl
    · rw [ih _ _ ((ho k d c hk).trans hy)]
      simp [hk]

/-- Over every DPLL there is, each record changes. -/
theorem forEach_allDps {step : Nat → Chip → Chip} {f : DpSt → DpSt}
    (hs : ∀ d c y, c.tim.dps.lookup d = some y → (step d c).tim.dps.lookup d = some (f y))
    (ho : ∀ d k c, k ≠ d → (step d c).tim.dps.lookup k = c.tim.dps.lookup k) (hf : ∀ y, f (f y) = f y)
    (c : Chip) (d : Nat) (y : DpSt) (hy : c.tim.dps.lookup d = some y) :
    (forEach (tkeys c.tim.dps) step c).tim.dps.lookup d = some (f y) := by
  rw [forEach_dps hs ho hf _ _ _ _ hy, if_pos (mem_tkeys _ _ _ hy)]

/-! ### Monitors of the inputs -/

/-- A DPLL's record after input `i` loses its activity: it holds its mean frequency where it followed that input (R313). -/
def holdMean (i : Nat) (y : DpSt) : DpSt := if y.sel = i ∧ (y.state = dpAcq ∨ y.state = dpLocked) then { y with ffo := meanTicks y } else y

theorem holdMean_idem (i : Nat) (y : DpSt) : holdMean i (holdMean i y) = holdMean i y := by
  by_cases h : y.sel = i ∧ (y.state = dpAcq ∨ y.state = dpLocked)
  · have hm : meanTicks { y with ffo := meanTicks y } = meanTicks y := by
      unfold meanTicks
      dsimp only
      split <;> rfl
    simp only [holdMean, if_pos h, hm]
  · simp only [holdMean, if_neg h]

/-- One DPLL in the loss of an input's activity. -/
def holdStep1 (i d : Nat) (c : Chip) : Chip :=
  let x := getDp c d
  if x.sel = i && (x.state = dpAcq || x.state = dpLocked) then updDp d (fun x => { x with ffo := meanTicks x }) c else c

theorem inputNoActivity_eq (i : Nat) (c : Chip) : inputNoActivity i c =
    forEach (tkeys c.tim.dps) (holdStep1 i) (updIn i (fun s => { s with act := false, open_ := true }) c) := rfl

theorem holdStep1_some {i d : Nat} {c : Chip} {y : DpSt} (h : c.tim.dps.lookup d = some y) :
    (holdStep1 i d c).tim.dps.lookup d = some (holdMean i y) := by
  unfold holdStep1 holdMean
  rw [getDp_of h]
  by_cases hc : y.sel = i ∧ (y.state = dpAcq ∨ y.state = dpLocked)
  · rw [if_pos hc, ← updDp_some (fun x => { x with ffo := meanTicks x }) h]
    exact congrArg (fun d' : Chip => d'.tim.dps.lookup d) (if_pos (by simpa using hc))
  · rw [if_neg hc, ← h]
    exact congrArg (fun d' : Chip => d'.tim.dps.lookup d) (if_neg (by simpa using hc))

theorem holdStep1_other {i d k : Nat} (c : Chip) (h : k ≠ d) : (holdStep1 i d c).tim.dps.lookup k = c.tim.dps.lookup k := by
  unfold holdStep1
  dsimp only
  split
  · exact updDp_lookup_other _ c h
  · rfl

theorem holdStep1_ins (i d : Nat) (c : Chip) : (holdStep1 i d c).tim.ins = c.tim.ins := by
  unfold holdStep1
  dsimp only
  split
  · rw [updDp_tim]
  · rfl

theorem inputNoActivity_ins (i : Nat) (c : Chip) : (inputNoActivity i c).tim.ins = (updIn i (fun s => { s with act := false, open_ := true }) c).tim.ins :=
  forEach_keeps (fun d => d.tim.ins) (holdStep1_ins i) _ _

/-- Settles O33: each event of a monitor changes its input's record, the loss of activity also the DPLLs that follow the input. -/
theorem inputsAreMonitored : Obligations.InputsAreMonitored := by
  unfold Obligations.InputsAreMonitored
  refine ⟨fun s i x hon hi hx => ?_, fun s i x hon hi hr hx => ?_, fun s i x m hon h8 h11 hm hx hrun hlast hpos => ?_,
    fun s i x hon hx hok ht => ?_, fun s i x hon hx he ht => ?_⟩
  · refine does_onChip (inputNoActivity i) (next_onChip_if (p := fun c => (onImage c && (i < 16 || !(tapActive c i))) = true) ?_)
      (inputNoActivity_mask (by decide) i s.c) ⟨?_, fun j hj => ?_, fun d y hy => ?_⟩
    · rcases hi with h | h <;> simp [hon, h]
    · rw [inputNoActivity_ins]
      exact updIn_some _ hx
    · rw [inputNoActivity_ins]
      exact updIn_lookup_other _ _ hj
    · have hdps : (updIn i (fun s => { s with act := false, open_ := true }) s.c).tim.dps = s.c.tim.dps := by rw [updIn_tim]
      rw [inputNoActivity_eq, ← hdps]
      exact forEach_allDps (fun d c y => holdStep1_some) (fun d k c => holdStep1_other c) (holdMean_idem i) _ d y (by rw [hdps]; exact hy)
  · have hon' : (true && (decide (8 ≤ i) || refinOn s.c i) && (decide (i < 16) || tapActive s.c i)) = true := by
      rcases hi with h | h <;> rcases hr with h' | h' <;> simp [h, h']
    refine does_guard (f := fun _ => setActive i true) rfl hon (setActive_mask (by decide) i true s.c) ⟨?_, fun j hj => updIn_lookup_other _ _ hj⟩
    unfold setActive
    rw [hon', updIn_some _ hx]
    simp
  · have hcond : (onImage s.c && decide (8 ≤ i) && decide (i ≤ 11) && todValid m) = true := by simp [hon, h8, h11, hm]
    refine does_onChip _ (next_onChip_if (p := fun c => (onImage c && 8 ≤ i && i ≤ 11 && todValid m) = true) hcond) (by simp) ?_
    refine ⟨_, updIn_some _ hx, ?_, rfl, rfl⟩
    simp [hrun, hlast, hpos]
  · refine does_guard (f := fun c => todExpire (now c) i) rfl hon (by simp [todExpire]) ?_
    rw [todExpire, updIn_some _ hx, if_pos (by simp [hok, now, ht])]
  · refine does_guard (f := fun c => esmcExpire (now c) i) rfl hon (by simp [esmcExpire]) ?_
    have e : esmcExpire (now s.c) i s.c = updIn i (fun s => { s with rxQl := 0xB }) s.c := if_pos (by simp [he, getIn_of hx, now, ht])
    rw [e, updIn_some _ hx]

/-! ### Steps of T1's time -/

/-- A step of T1's time moves that time, and no DPLL (R336). -/
theorem timeStep_t1 (a : Int) (c : Chip) : (timeStep a c).tim.t1 = { c.tim.t1 with time := ((c.tim.t1.time : Int) + a).toNat } ∧
    (timeStep a c).tim.dps = c.tim.dps := by
  have hins : ∀ (ks : List Nat) (d : Chip), (forEach ks (fun i => updIn i (fun s => { s with timePrev := none })) d).tim.t1 = d.tim.t1 ∧
      (forEach ks (fun i => updIn i (fun s => { s with timePrev := none })) d).tim.dps = d.tim.dps := fun ks d =>
    ⟨forEach_keeps (fun d => d.tim.t1) (fun i d => by rw [updIn_tim]) ks d, forEach_keeps (fun d => d.tim.dps) (fun i d => by rw [updIn_tim]) ks d⟩
  have houts : ∀ (ks : List Nat) (f : Nat → Chip → OutSt) (d : Chip), (forEach ks (fun t c => setOut t (f t c) c) d).tim.t1 = d.tim.t1 ∧
      (forEach ks (fun t c => setOut t (f t c) c) d).tim.dps = d.tim.dps := fun ks f d =>
    ⟨forEach_keeps (fun d => d.tim.t1) (f := fun t c => setOut t (f t c) c) (fun _ _ => rfl) ks d,
      forEach_keeps (fun d => d.tim.dps) (f := fun t c => setOut t (f t c) c) (fun _ _ => rfl) ks d⟩
  unfold timeStep
  dsimp only
  rw [(hins _ _).1, (hins _ _).2]
  exact houts _ (fun t c => { getOut c t with off := normOff ((getOut c t).off + a) (outPeriod (theImage _) t), last := (((getOut c t).last : Int) + a).toNat }) _

/-- The pulse T1 steps to sets its time to the second named (R315). -/
theorem refinPulse_steps {i sec : Nat} {x : InSt} {c : Chip} (hx : c.tim.ins.lookup i = some x) (hl : x.todLast = some sec) (hf : x.todFresh = true)
    (hs : c.tim.t1.stepTo = some i) : ∃ d, refinPulse i c = updDp 1 (fun d => { d with buildOut := 0 }) (setT1 { d.tim.t1 with stepTo := none } d) ∧
      d.tim.t1.time = sec * 4000000000 ∧ d.tim.dps = c.tim.dps := by
  have ht1 : (updIn i (fun s => { s with todPulses := s.todPulses + 1, todFresh := false }) c).tim.t1 = c.tim.t1 := by rw [updIn_tim]
  refine ⟨timeStep (((sec * secQ : Nat) : Int) - (updIn i (fun s => { s with todPulses := s.todPulses + 1, todFresh := false }) c).tim.t1.time)
    (updIn i (fun s => { s with todPulses := s.todPulses + 1, todFresh := false }) c), ?_, ?_, ?_⟩
  · unfold refinPulse
    simp only [getIn_of hx, hl, hf, hs]
    rfl
  · rw [(timeStep_t1 _ _).1]
    simp only [secQ]
    omega
  · rw [(timeStep_t1 _ _).2, updIn_tim]

theorem refinPulse_counts {i : Nat} {c : Chip} (hs : c.tim.t1.stepTo ≠ some i) :
    refinPulse i c = updIn i (fun s => { s with todPulses := s.todPulses + 1, todFresh := false }) c := by
  unfold refinPulse
  dsimp only
  split
  · exact if_neg (by simp [hs])
  · rfl

/-! ### Drift and the oscillator -/

/-- With no other input qualified there is nothing to compare a drift with (R300). -/
theorem others_nil {c : Chip} {i : Nat} (h : ∀ j, j ≠ i → qualified c j = false) :
    (tkeys c.tim.ins).filterMap (fun j => if j ≠ i && qualified c j then (getIn c j).dRaw else none) = [] := by
  rw [List.filterMap_eq_nil_iff]
  intro j _
  by_cases hj : j = i
  · simp [hj]
  · simp [h j hj]

/-- An input's own drift at its limit, with nothing to compare, is warned of (R300). -/
theorem driftIn_warns {n i : Nat} {c : Chip} {x : InSt} {r : Rec} {d : Int} (hx : c.tim.ins.lookup i = some x) (hr : inRec c i = some r)
    (hd : x.dRaw = some d) (hw : x.driftWarn = false) (hp : 0 < inDriftLim r) (hlim : inDriftLim r * 1000 ≤ d.natAbs)
    (ho : ∀ j, j ≠ i → qualified c j = false) : driftIn n i c = warnNotice i 1 n false
      (updIn i (fun s => { s with driftWarn := true, driftRun := 1, driftTick := n }) (updIn i (fun s => { s with drift := d }) c)) := by
  have hne : ¬ inDriftLim r * 1000 = 0 := by omega
  unfold driftIn
  simp only [getIn_of hx, hr, hd, others_nil ho, hw, List.length_nil, show ¬ 2 ≤ 0 by decide, if_false]
  exact (if_neg hne).trans (if_pos (by simp [hlim]))

theorem oscFails_eq {c : Chip} (h : c.tim.osc.fail = false) : oscFails c = timNotice 0x25 0 0 0 (c.dev.tick + 1) false
    (forEach (tkeys c.tim.dps) (fun d => updDp d (fun x => { x with hoReady := false })) (setOsc { c.tim.osc with fail := true } c)) := by
  unfold oscFails
  exact if_neg (by simp [h])

/-- Settles O34: a pulse steps T1 or is counted, a drift beyond its limit is warned of, and the oscillator's readings are kept. -/
theorem timeReferencesAndOscillator : Obligations.TimeReferencesAndOscillator := by
  unfold Obligations.TimeReferencesAndOscillator
  refine ⟨fun s i x sec hon h8 h11 hx hl hf hs => ?_, fun s i x hon h8 h11 hx hs => ?_, fun s i x r d hon hm h0 hdone hx hr hd hw hp hlim ho => ?_,
    fun s v hs => ?_, fun s hs hb ht hroom => ?_, fun s hs hf hroom => ?_, fun s hs => ?_, fun s hs => ?_⟩
  · refine does_onChip (refinPulse i) (next_onChip_if (p := fun c => (onImage c && 8 ≤ i && i ≤ 11) = true) (by simp [hon, h8, h11]))
      (refinPulse_mask (by decide) i s.c) ?_
    obtain ⟨d, he, ht, hdps⟩ := refinPulse_steps hx hl hf hs
    rw [he]
    refine ⟨?_, ?_, fun y hy => ?_⟩
    · rw [updDp_tim]; exact ht
    · rw [updDp_tim]; rfl
    · exact updDp_some _ (hdps ▸ hy)
  · refine does_onChip (refinPulse i) (next_onChip_if (p := fun c => (onImage c && 8 ≤ i && i ≤ 11) = true) (by simp [hon, h8, h11]))
      (refinPulse_mask (by decide) i s.c) ?_
    rw [refinPulse_counts hs]
    exact ⟨updIn_some _ hx, by rw [updIn_tim]⟩
  · refine does_onChip _ (next_onChip_if (p := fun c => (onImage c && now c % 480000 = 0 && now c ≠ 0 && !(isDone 4 c)) = true)
      (f := fun c => driftIn (now c) i c) (by simp [hon, now, hm, h0, hdone])) (by simp) ?_
    show (driftIn (now s.c) i s.c).tim.ins.lookup i = _
    rw [driftIn_warns hx hr hd hw hp hlim ho, warnNotice, timNotice_tim, updIn_some _ (updIn_some _ hx)]
    rfl
  · refine does_guard (f := fun _ => oscTempRead (some v)) rfl (awake_of hs) (by simp) ?_
    unfold oscTempRead
    dsimp only
    split
    · rw [timNotice_tim]; exact ⟨rfl, rfl⟩
    · exact ⟨rfl, rfl⟩
  · refine does_guard (f := fun _ => oscTempRead none) rfl (awake_of hs) (by simp) ?_
    have e : oscTempRead none s.c = timNotice 0x25 0 1 0 s.c.dev.tick false
        (setOsc { s.c.tim.osc with badReads := 3, goodReads := 0, tempFail := true } s.c) := by
      simp [oscTempRead, hb, ht, now]
    rw [e]
    exact ⟨by rw [timNotice_tim]; rfl, by rw [timNotice_tim]; rfl, timNotice_raised hroom⟩
  · refine does_guard (f := fun _ => oscFails) rfl (awake_of hs) (by simp) ?_
    rw [oscFails_eq hf]
    refine ⟨?_, fun d y hy => ?_, timNotice_raised ?_⟩
    · rw [timNotice_tim]
      have h : ∀ (ks : List Nat) (c : Chip), (forEach ks (fun d => updDp d (fun x => { x with hoReady := false })) c).tim.osc = c.tim.osc :=
        fun ks c => forEach_keeps (fun c => c.tim.osc) (fun d c => by rw [updDp_tim]) ks c
      rw [h]
      rfl
    · rw [timNotice_tim]
      exact forEach_allDps (f := fun x => { x with hoReady := false }) (fun d c y h => updDp_some _ h) (fun d k c h => updDp_lookup_other _ c h)
        (fun y => rfl) (setOsc { s.c.tim.osc with fail := true } s.c) d y hy
    · show (forEach _ _ _).notice.held.length + 1 ≤ heldRoom
      rw [forEach_notice (fun d c => updDp_notice d _ c)]
      exact hroom
  · exact does_guard (f := fun c => setOsc { c.tim.osc with unlock := some (now c) }) rfl (awake_of hs) (by simp) rfl
  · exact does_guard (f := fun c => setOsc { c.tim.osc with unlock := none }) rfl (awake_of hs) (by simp) rfl

end Sys2Proof.Machine
end

section
/-!
PROOFS. Timing: DPLL states (O35; R306, R310, R311, R314, R331, R343), records and the second boundary (O36; R297, R308, R322, R327,
R328), SOFTWARE mode and outputs (O37; R341, R342, R345 to R350).
-/
namespace Sys2Proof.Machine
open Sys2Proof

/-! ### A DPLL enters a state -/

/-- A DPLL's record after it enters a state (R310). -/
def dpEntered (st n : Nat) (x : DpSt) : DpSt :=
  if st = x.state then x
  else { x with state := st, stateTick := n, lockFrom := none, badFrom := none, period := if st = dpAcq then x.period + 1 else x.period }

theorem dpEntered_keeps (st n : Nat) (x : DpSt) : (dpEntered st n x).state = st ∧ (dpEntered st n x).sel = x.sel ∧ (dpEntered st n x).wtr = x.wtr ∧
    (dpEntered st n x).ho = x.ho ∧ (dpEntered st n x).ffo = x.ffo := by
  unfold dpEntered
  split
  · next h => exact ⟨h.symm, rfl, rfl, rfl, rfl⟩
  · exact ⟨rfl, rfl, rfl, rfl, rfl⟩

theorem when_timNotice_tim (b : Bool) (ty ref bit conseq n : Nat) (clear : Bool) (c : Chip) :
    (when b (timNotice ty ref bit conseq n clear) c).tim = c.tim := by
  cases b
  · rfl
  · exact timNotice_tim _ _ _ _ _ _ c

/-- Entering a state changes the DPLL's record, and nothing else of the timing block. -/
theorem dpGo_some {d st n : Nat} {c : Chip} {x : DpSt} (h : c.tim.dps.lookup d = some x) :
    (dpGo d st n c).tim.dps.lookup d = some (dpEntered st n x) ∧ (dpGo d st n c).tim = { c.tim with dps := (dpGo d st n c).tim.dps } := by
  unfold dpGo dpEntered
  dsimp only
  rw [getDp_of h]
  split
  · exact ⟨h, rfl⟩
  · refine ⟨?_, ?_⟩
    · rw [timNotice_tim, updDp_some _ (by rw [when_timNotice_tim]; exact h)]
    · rw [timNotice_tim, updDp_tim, when_timNotice_tim]

/-- Its notice is raised (R319). -/
theorem dpGo_raised {d st n : Nat} {c : Chip} {x : DpSt} (h : c.tim.dps.lookup d = some x) (hst : st ≠ x.state) (hh : x.state ≠ dpHold)
    (hl : x.state ≠ dpLost) (hr : NoticeRoom 1 c) : Raised (event 0x22 0 0 st d x.sel n false) (dpGo d st n c) := by
  have e : dpGo d st n c = timNotice 0x22 d st x.sel n false
      (updDp d (fun x => { x with state := st, stateTick := n, lockFrom := none, badFrom := none, period := if st = dpAcq then x.period + 1 else x.period }) c) := by
    unfold dpGo
    simp only [getDp_of h, if_neg hst, hh, hl, decide_false, Bool.or_false, Bool.false_and, when_false, getDp_of (updDp_some _ h)]
  rw [e]
  refine timNotice_raised ?_
  show (updDp d _ c).notice.held.length + 1 ≤ heldRoom
  rw [updDp_notice]
  exact hr

/-! ### Switches and holdover -/

/-- A DPLL that takes the host's input (R306, R310). -/
theorem dpSwitch_host {d n : Nat} {c : Chip} {x : DpSt} (h : c.tim.dps.lookup d = some x) :
    ∃ y, (dpSwitch d x.host 2 n c).tim.dps.lookup d = some y ∧ y.sel = x.host ∧ y.wtr = none ∧ (y.state = dpLocked ∨ y.state = dpAcq) := by
  have hst : ∀ (b : Bool), (if b then dpLocked else dpAcq) = dpLocked ∨ (if b then dpLocked else dpAcq) = dpAcq := by
    intro b; cases b <;> simp
  unfold dpSwitch
  dsimp only
  rw [getDp_of h]
  generalize hsteps : ((decide (x.state = dpFree) || decide (x.state = dpLost)) && timeRef c d x.host) = steps
  have hwhen : ∀ (b : Bool) (e : Chip), (when b (fun c => setTim { c.tim with t1 := { c.tim.t1 with stepTo := if steps then some x.host else none } } c) e).tim.dps = e.tim.dps := by
    intro b e; cases b <;> rfl
  refine ⟨_, (dpGo_some (by rw [hwhen]; exact updDp_some _ (by rw [timNotice_tim]; exact h))).1, ?_, ?_, ?_⟩
  · rw [(dpEntered_keeps _ _ _).2.1]
  · rw [(dpEntered_keeps _ _ _).2.2.1]
    exact if_pos rfl
  · rw [(dpEntered_keeps _ _ _).1]
    exact hst _

/-- A holdover past its bound is LOST, with its record (R331). -/
theorem lostStep_lost {d n : Nat} {c : Chip} {x : DpSt} {h : HoSt} (hx : c.tim.dps.lookup d = some x) (hst : x.state = dpHold) (hh : x.ho = some h)
    (hl : lostOnDays c d n h = true) : (lostStep d n c).tim.dps.lookup d = some (dpEntered dpLost n x) := by
  have e : lostStep d n c = timNotice 0x27 d (if lostOnP c d n h then 1 else 2) (min (h.pred / 1000000) 0xFFFF) n false (dpGo d dpLost n c) := by
    unfold lostStep
    simp only [getDp_of hx, hh, hst, hl, Bool.or_true, if_true]
    exact if_neg (by simp)
  rw [e, timNotice_tim]
  exact (dpGo_some hx).1

/-- Settles O35: each event moves its DPLL to the state the rules give, with the record of the move. -/
theorem dpllsChangeState : Obligations.DpllsChangeState := by
  unfold Obligations.DpllsChangeState
  refine ⟨fun s d x f hs hx hst hsp hf ht hroom => ?_, fun s d x f hs hx hst hf ht hroom => ?_, fun s d x diff e hs hx he ht => ?_,
    fun s d x hon hx hw hh hm => ?_, fun s d x h hs hx hst hh hl => ?_, fun s x hon hx hr hsw hex h0 hto hroom => ?_⟩
  · have he : exec (.dpllLock d) s = .next (onChip (fun c => dpGo d dpLocked (now c) c) s) := by
      show Host.Outcome.next _ = _
      simp only [onChip, getDp_of hx, hf, hst, hsp, awake_of hs]
      refine congrArg (fun c => Host.Outcome.next { s with c := c }) (if_pos ?_)
      simp [now, ht]
    refine does_onChip _ he (dpGo_mask (by decide) (by decide) (by decide) (by decide) d _ _ s.c)
      ⟨?_, dpGo_raised hx (by rw [hst]; decide) (by rw [hst]; decide) (by rw [hst]; decide) hroom⟩
    rw [(dpGo_some hx).1, dpEntered, if_neg (by rw [hst]; decide)]
    rfl
  · have he : exec (.dpllLockLoss d) s = .next (onChip (fun c => dpGo d dpAcq (now c) c) s) := by
      show Host.Outcome.next _ = _
      simp only [onChip, getDp_of hx, hf, hst, awake_of hs]
      refine congrArg (fun c => Host.Outcome.next { s with c := c }) (if_pos ?_)
      simp [now, ht]
    refine does_onChip _ he (dpGo_mask (by decide) (by decide) (by decide) (by decide) d _ _ s.c)
      ⟨?_, dpGo_raised hx (by rw [hst]; decide) (by rw [hst]; decide) (by rw [hst]; decide) hroom⟩
    rw [(dpGo_some hx).1, dpEntered, if_neg (by rw [hst]; decide)]
    rfl
  · refine does_guard (f := fun _ => switchSpanEnd d diff) rfl (awake_of hs) (switchSpanEnd_mask (by decide) d diff s.c) ?_
    have hstep : switchSpanEnd d diff s.c = updDp d (fun x => { x with span := none, buildOut := x.buildOut + diff, pulling := x.pullNext && x.buildOut + diff ≠ 0, pullNext := false }) s.c := by
      unfold switchSpanEnd
      simp only [getDp_of hx, he]
      exact if_neg (by simp [now, ht])
    rw [hstep]
    exact ⟨updDp_some _ hx, fun k hk => updDp_lookup_other _ _ hk⟩
  · have he : exec (.refWtrExpiry d) s = .next (onChip (fun c => dpSwitch d x.host 2 (now c) c) s) := by
      show Host.Outcome.next _ = _
      simp only [onChip, getDp_of hx]
      refine congrArg (fun c => Host.Outcome.next { s with c := c }) (if_pos ?_)
      simp [hon, hw, hh, hm]
    exact does_onChip _ he (dpSwitch_mask (by decide) (by decide) (by decide) (by decide) d _ _ _ s.c) (dpSwitch_host hx)
  · refine does_guard (f := fun c => lostStep d (now c)) rfl (awake_of hs) (by simp) ⟨_, lostStep_lost hx hst hh hl, ?_, ?_, ?_⟩
    · exact (dpEntered_keeps _ _ _).1
    · rw [dpEntered, if_neg (by rw [hst]; decide)]
      rfl
    · rw [(dpEntered_keeps _ _ _).2.2.2.1, hh]
  · have hx' : (timNotice 0x2A 1 0 0 (now s.c) false (setT1 { s.c.tim.t1 with expired := true } s.c)).tim.dps.lookup 1 = some x := by
      rw [timNotice_tim]; exact hx
    have hnone : dpNone 1 (now s.c) (timNotice 0x2A 1 0 0 (now s.c) false (setT1 { s.c.tim.t1 with expired := true } s.c)) =
        dpGo 1 dpFree (now s.c) (updDp 1 (fun x => { x with sel := noInput, span := none, pulling := false, pullNext := false, ffo := 0 })
          (timNotice 0x2A 1 0 0 (now s.c) false (setT1 { s.c.tim.t1 with expired := true } s.c))) := by
      unfold dpNone
      exact if_neg (by rw [getDp_of hx', hr]; simp)
    refine does_onChip (fun c => dpNone 1 (now c) (timNotice 0x2A 1 0 0 (now c) false (setT1 { c.tim.t1 with expired := true } c)))
      (next_onChip_if (p := fun c => (onImage c && c.tim.t1.swMode && !c.tim.t1.expired && swTimeout c ≠ 0 && c.tim.t1.ownTick + swTimeout c < now c) = true)
        (by simp [hon, hsw, hex, h0, now, hto])) (by simp [setT1]) ?_
    simp only [hnone]
    have hgo := dpGo_some (st := dpFree) (n := now s.c) (updDp_some (fun x => { x with sel := noInput, span := none, pulling := false, pullNext := false, ffo := 0 }) hx')
    refine ⟨?_, _, hgo.1, (dpEntered_keeps _ _ _).1, ?_, ?_⟩
    · rw [hgo.2, updDp_tim, timNotice_tim]
      rfl
    · rw [(dpEntered_keeps _ _ _).2.1]
    · rw [(dpEntered_keeps _ _ _).2.2.2.2]

/-! ### Records -/

theorem isDone_markDone (k : Nat) (c : Chip) : isDone k (markDone k c) = true := by
  simp [isDone, markDone, mem_insAsc]

theorem foldl_learn_hours (l : List MinRec) (o : OscSt) : (l.foldl learn o).hours = o.hours := by
  induction l generalizing o with
  | nil => rfl
  | cons r t ih => exact ih _

/-- A refit publishes the models refitted (R328). -/
theorem refitStep_tim (n : Nat) (c : Chip) :
    (refitStep n c).tim = { c.tim with osc := refit c.tim.osc, modelPub := modelWord (refit c.tim.osc) n, refitDue := false } := by
  unfold refitStep
  dsimp only
  rw [when_timNotice_tim, when_timNotice_tim]
  rfl

/-- At an hour without a throttle the hours advance and the models are refitted (R327, R328). -/
theorem hourStep_refits {n : Nat} {c : Chip} (h : c.power.throt = []) : (hourStep n c).tim.osc.hours = c.tim.osc.hours + 1 ∧
    (hourStep n c).tim.modelPub = modelWord (hourStep n c).tim.osc n := by
  have e : hourStep n c = refitStep n (setTim { c.tim with osc := (learnRecords n c).foldl learn { c.tim.osc with hours := c.tim.osc.hours + 1, learnTo := n } } c) :=
    if_pos h
  rw [e, refitStep_tim]
  exact ⟨foldl_learn_hours _ _, rfl⟩

/-- What the quality level sent is read from (R297). -/
theorem qlSent_congr {a b : Chip} (hi : a.img = b.img) (hd : a.tim.dps = b.tim.dps) (ht : a.tim.tim = b.tim.tim)
    (hq : ∀ i, (getIn a i).rxQl = (getIn b i).rxQl) : qlSent a = qlSent b ∧ loopPort a = loopPort b := by
  have hdp : ∀ d, getDp a d = getDp b d := fun d => by rw [getDp, hd, getDp]
  have him : theImage a = theImage b := by rw [theImage, hi, theImage]
  have heff : ∀ i, effQl a i = effQl b i := fun i => by
    unfold effQl inRec
    rw [him, hq]
  refine ⟨?_, ?_⟩
  · unfold qlSent timOscQl
    rw [hdp, ht]
    dsimp only
    rw [heff]
  · unfold loopPort tapPort inRec
    rw [hdp, him]

/-- The level and the port it is timed from follow at once (R297). -/
theorem qlStep_tim (n : Nat) (c : Chip) : (qlStep n c).tim = { c.tim with ql := qlSent c, loop := loopPort c } := by
  unfold qlStep
  dsimp only
  split
  · next h =>
    simp only [Bool.and_eq_true, decide_eq_true_eq] at h
    rw [h.1, h.2]
  · rw [timNotice_tim]
    rfl

theorem todSend_tim (n : Nat) (c : Chip) : (todSend n c).tim = { c.tim with todDue := (todSend n c).tim.todDue } := by
  unfold todSend
  split
  · split
    · rfl
    · dsimp only
      split <;> rfl
  · rfl

/-- The end of a second: no input's open mark is left. -/
def closeMarks (c : Chip) : Chip := forEach (tkeys c.tim.ins) (fun i => updIn i (fun s => { s with open_ := false })) c

theorem forEach_updIn {f : InSt → InSt} (hf : ∀ x, f (f x) = f x) (ks : List Nat) (c : Chip) (i : Nat) :
    (forEach ks (fun i => updIn i f) c).tim.ins.lookup i = (c.tim.ins.lookup i).map (fun x => if i ∈ ks then f x else x) := by
  induction ks generalizing c with
  | nil => simp
  | cons k t ih =>
    rw [forEach_cons, ih]
    by_cases hk : i = k
    · subst hk
      rw [updIn_lookup, Option.map_map]
      congr 1
      funext x
      simp only [Function.comp, List.mem_cons_self, if_true]
      split
      · exact hf x
      · rfl
    · rw [updIn_lookup_other _ _ hk]
      simp [hk]

theorem closeMarks_lookup (c : Chip) (i : Nat) : (closeMarks c).tim.ins.lookup i = (c.tim.ins.lookup i).map (fun x => { x with open_ := false }) := by
  rw [closeMarks, forEach_updIn (f := fun s => { s with open_ := false }) (fun x => rfl)]
  cases h : c.tim.ins.lookup i with
  | none => rfl
  | some x => simp [mem_tkeys _ _ _ h]

theorem closeMarks_tim (c : Chip) : (closeMarks c).tim = { c.tim with ins := (closeMarks c).tim.ins } :=
  forEach_ind (Q := fun d => d.tim = { c.tim with ins := d.tim.ins }) (fun i d hd => by rw [updIn_tim, hd]) _ c rfl

theorem closeMarks_img (c : Chip) : (closeMarks c).img = c.img := forEach_img (fun i d => updIn_img i _ d) _ c

/-- After the level is set and the marks are closed, both read as the last chip gives them. -/
theorem closeMarks_sent (n : Nat) (c : Chip) : (closeMarks (todSend n (qlStep n c))).tim.ql = qlSent (closeMarks (todSend n (qlStep n c))) ∧
    (closeMarks (todSend n (qlStep n c))).tim.loop = loopPort (closeMarks (todSend n (qlStep n c))) := by
  have himg : (todSend n (qlStep n c)).img = c.img :=
    (img_of_mask (l := [.host, .tim]) (todSend_mask (by decide) (by decide) n _) (by decide)).trans
      (img_of_mask (l := [.nq, .notice, .tim, .dep]) (qlStep_mask (by decide) (by decide) (by decide) (by decide) n c) (by decide))
  have hins : (todSend n (qlStep n c)).tim.ins = c.tim.ins := by rw [todSend_tim, qlStep_tim]
  have hq : ∀ i, (getIn (closeMarks (todSend n (qlStep n c))) i).rxQl = (getIn c i).rxQl := fun i => by
    rw [getIn, closeMarks_lookup, hins, getIn]
    cases c.tim.ins.lookup i <;> rfl
  have hdps : (closeMarks (todSend n (qlStep n c))).tim.dps = c.tim.dps := by rw [closeMarks_tim, todSend_tim, qlStep_tim]
  have hctl : (closeMarks (todSend n (qlStep n c))).tim.tim = c.tim.tim := by rw [closeMarks_tim, todSend_tim, qlStep_tim]
  obtain ⟨h1, h2⟩ := qlSent_congr ((closeMarks_img _).trans himg) hdps hctl hq
  rw [h1, h2]
  constructor
  · rw [closeMarks_tim, todSend_tim, qlStep_tim]
  · rw [closeMarks_tim, todSend_tim, qlStep_tim]

/-- The steps of a second end with the level sent and the marks closed. -/
theorem timingAfter_ends (n : Nat) (c : Chip) : ∃ d, timingAfter n c = closeMarks (todSend n (qlStep n d)) := ⟨_, rfl⟩

/-- Settles O36: the minute's record, the hour's refit and the second's steps are those of the model. -/
theorem timingRecords_hold : Obligations.TimingRecords := by
  unfold Obligations.TimingRecords
  refine ⟨fun s d x hs hm h0 hx hc => ?_, fun s hs hm h0 hdone ht => ?_, fun s refs hs hm hdone => ?_, fun s refs hdone => ?_⟩
  · refine does_onChip (fun c => minuteRecord (now c) d c) (next_onChip_if (p := fun c => (awake c && now c % 480000 = 0 && now c ≠ 0) = true)
      (by simp [awake_of hs, now, hm, h0])) (by simp [minuteRecord]) ⟨?_, fun k hk => updDp_lookup_other _ _ hk⟩
    refine (updDp_some _ hx).trans ?_
    rw [if_neg hc]
    rfl
  · refine does_onChip (fun c => markDone 5 (hourStep (now c) c))
      (next_onChip_if (p := fun c => (awake c && now c % 28800000 = 0 && now c ≠ 0 && !(isDone 5 c)) = true)
        (by simp [awake_of hs, now, hm, h0, hdone])) (by simp) ?_
    obtain ⟨h1, h2⟩ := hourStep_refits (n := s.c.dev.tick) ht
    exact ⟨h1, h2, isDone_markDone 5 _⟩
  · refine does_onChip (fun c => markDone 3 (timingAfter (now c) (if tfBusy c then timingDefer (now c) c else timingSelect refs (now c) c)))
      (next_onChip_if (p := fun c => (awake c && now c % 8000 = 0 && !(isDone 3 c)) = true) (by simp [awake_of hs, now, hm, hdone])) ?_ ?_
    · simp
    · obtain ⟨d, hd⟩ := timingAfter_ends (now s.c) (if tfBusy s.c then timingDefer (now s.c) s.c else timingSelect refs (now s.c) s.c)
      simp only [hd]
      obtain ⟨h1, h2⟩ := closeMarks_sent (now s.c) d
      refine ⟨h1, h2, fun i x hx => ?_, isDone_markDone 3 _⟩
      have hx' : (closeMarks (todSend (now s.c) (qlStep (now s.c) d))).tim.ins.lookup i = some x := hx
      rw [closeMarks_lookup, Option.map_eq_some_iff] at hx'
      obtain ⟨y, -, rfl⟩ := hx'
      rfl
  · show Host.Outcome.next _ = _
    simp [onChip, hdone]

/-! ### SOFTWARE mode and outputs -/

theorem getOut_of_tim {a b : Chip} (h : a.tim = b.tim) (t : Nat) : getOut a t = getOut b t := by rw [getOut, h, getOut]

/-- A servo's sample beyond 1 µs steps T1's time while it is not locked (R342). -/
theorem servoRun_steps {c : Chip} {v : Int} (hso : dpSoft c 1 = true) (hw : swOwner c = false) (hsb : c.dev.sbDown = false)
    (hv : c.tim.t1.sample = some v) (hl : c.tim.t1.swLocked = false) (h4 : 4000 ≤ v.natAbs) :
    servoRun c = setT1 { (timeStep (-v) c).tim.t1 with sample := none, goodFrom := none } (timeStep (-v) c) := by
  unfold servoRun
  refine (if_neg (by simp [hso, hw, hsb])).trans ?_
  simp only [hv]
  exact if_pos (by simp [hl, h4])

/-- Any other sample moves the frequency by the servo's step (R342). -/
theorem servoRun_moves {c : Chip} {v : Int} (hso : dpSoft c 1 = true) (hw : swOwner c = false) (hsb : c.dev.sbDown = false)
    (hv : c.tim.t1.sample = some v) (hn : ¬ (c.tim.t1.swLocked = false ∧ 4000 ≤ v.natAbs)) :
    ∃ t, servoRun c = setT1 t c ∧ t.time = c.tim.t1.time ∧ t.ffoNew = true ∧
      t.ffoWr = BitVec.ofNat 32 (ofSigned 32 (clampInt (-2147483648) 2147483647 (toSigned 32 c.tim.t1.ffoWr.toNat + Config.servoStep (dpBw (dpRec c 1)) (toSigned 32 c.tim.t1.ffoWr.toNat) v))) := by
  unfold servoRun
  simp only [hv]
  refine ⟨_, (if_neg (by simp [hso, hw, hsb])).trans (if_neg (by simpa using hn)), rfl, rfl, rfl⟩

/-- The edge of an output that is moved by a step ends its move (R347). -/
theorem outAdvance_step {t n : Nat} {c : Chip} (hm : (getOut c t).move = 2)
    (he : ((getOut c t).last : Int) + outPeriod (theImage c) t + (getOut c t).step ≤ c.tim.t1.time) :
    (outAdvance c.tim.t1.time (c.tim.t1.time + 1) n t c).host.out = c.host.out ++ [.edge t n] ∧
    getOut (outAdvance c.tim.t1.time (c.tim.t1.time + 1) n t c) t = { off := normOff ((getOut c t).off + (getOut c t).step) (outPeriod (theImage c) t), shown := normOff ((getOut c t).off + (getOut c t).step) (outPeriod (theImage c) t), last := (((getOut c t).last : Int) + outPeriod (theImage c) t + (getOut c t).step).toNat, move := 0, step := 0 } := by
  have hne : ¬ (getOut c t).move = 0 := by omega
  have hlt : ((getOut c t).last : Int) + outPeriod (theImage c) t + (getOut c t).step < c.tim.t1.time + 1 := by omega
  generalize hr : ({ off := normOff ((getOut c t).off + (getOut c t).step) (outPeriod (theImage c) t), shown := normOff ((getOut c t).off + (getOut c t).step) (outPeriod (theImage c) t), last := (((getOut c t).last : Int) + outPeriod (theImage c) t + (getOut c t).step).toNat, move := 0, step := 0 } : OutSt) = r
  have e : outAdvance c.tim.t1.time (c.tim.t1.time + 1) n t c = emit (.edge t n) (timNotice 0x29 t 2 0 n false
      (if t = 0x18 then setTim { (setOut t r c).tim with todDue := some (n - 1 + 80) } (setOut t r c) else setOut t r c)) := by
    unfold outAdvance
    dsimp only
    rw [if_neg hne, hm, if_neg (by decide : ¬ (2 : Nat) = 1), if_neg (by decide : ¬ (2 : Nat) = 1), if_pos hlt, hr]
  rw [e]
  constructor
  · rw [emit_out, host_of_mask (l := [.nq, .notice, .dep]) (timNotice_mask (by decide) (by decide) (by decide) _ _ _ _ _ _ _) (by decide)]
    split <;> rfl
  · have ho : ∀ d, getOut (emit (.edge t n) (timNotice 0x29 t 2 0 n false d)) t = getOut d t := fun d => getOut_of_tim (timNotice_tim _ _ _ _ _ _ d) t
    rw [ho]
    split
    · exact setOut_get t r c
    · exact setOut_get t r c

/-- Settles O37: registers of T1 are taken from their owner, and moves and messages end as they are due. -/
theorem softwareAndOutputs : Obligations.SoftwareAndOutputs := by
  unfold Obligations.SoftwareAndOutputs
  refine ⟨fun s v hs hv => ?_, fun s v hs hv => ?_, fun s v hs => ?_, fun s v hs => ?_, fun s v hon hdone hso hw hsb hv => ?_,
    fun s hs hm hl hroom => ?_, fun s t hon hf hm he => ?_, fun s d hon hd ht => ?_⟩
  · refine does_onChip (fun c => setT1 { c.tim.t1 with ctrl := { c.tim.t1.ctrl with wr := v } } c) ((if_neg (by simp [hv])).trans ?_) (by simp [setT1]) rfl
    simp only [onChip, awake_of hs, when_true]
  · exact if_pos (by simp [awake_of hs, hv])
  · refine does_onChip (t1SwFfoWrite v) ?_ (by simp) ?_
    · show Host.Outcome.next _ = _
      simp only [onChip, awake_of hs, when_true]
    · unfold t1SwFfoWrite
      cases swOwner s.c <;> rfl
  · refine does_onChip (t1SwOffsetWrite v) ?_ (by simp) ?_
    · show Host.Outcome.next _ = _
      simp only [onChip, awake_of hs, when_true]
    · unfold t1SwOffsetWrite
      cases swOwner s.c <;> rfl
  · refine does_onChip (fun c => markDone 6 (servoRun c)) (next_onChip_if (p := fun c => (onImage c && !(isDone 6 c)) = true) (by simp [hon, hdone]))
      (by simp) ⟨isDone_markDone 6 _, ?_⟩
    by_cases hstep : s.c.tim.t1.swLocked = false ∧ 4000 ≤ v.natAbs
    · rw [if_pos hstep]
      show (servoRun s.c).tim.t1.time = _ ∧ (servoRun s.c).tim.t1.sample = _
      rw [servoRun_steps hso hw hsb hv hstep.1 hstep.2]
      refine ⟨?_, rfl⟩
      show (timeStep (-v) s.c).tim.t1.time = _
      rw [(timeStep_t1 _ _).1, Int.sub_eq_add_neg]
    · rw [if_neg hstep]
      obtain ⟨t, hr, h1, h2, h3⟩ := servoRun_moves hso hw hsb hv hstep
      show (servoRun s.c).tim.t1.time = _ ∧ (servoRun s.c).tim.t1.ffoNew = _ ∧ (servoRun s.c).tim.t1.ffoWr = _
      rw [hr]
      exact ⟨h1, h2, h3⟩
  · refine does_guard (f := fun c => tickMoveEnd (now c)) rfl (awake_of hs) (by simp) ?_
    have e : tickMoveEnd (now s.c) s.c = timNotice 0x29 0 s.c.tim.tickKind 0 s.c.dev.tick false (setTim { s.c.tim with tickMoving := false, tickLeft := 0 } s.c) :=
      if_pos (by simp [hm, hl])
    rw [e]
    exact ⟨by rw [timNotice_tim]; rfl, timNotice_raised hroom⟩
  · refine does_onChip (fun c => outAdvance c.tim.t1.time (c.tim.t1.time + 1) (now c) t c)
      (next_onChip_if (p := fun c => (onImage c && framePulse (theImage c) t && (getOut c t).move ≠ 0) = true) (by simp [hon, hf, hm])) (by simp) ?_
    exact outAdvance_step hm he
  · refine does_guard (f := fun c => todSend (now c)) rfl hon (by simp) ?_
    have e : todSend (now s.c) s.c = if outLow s.c 0x18 then setTim { s.c.tim with todDue := none } s.c else emit (.todout (todBytes s.c)) (setTim { s.c.tim with todDue := none } s.c) := by
      unfold todSend
      rw [hd]
      exact if_neg (by simp [now, ht])
    rw [e]
    cases outLow s.c 0x18 <;> exact ⟨rfl, rfl⟩

end Sys2Proof.Machine
end

section
/-!
PROOFS. Failures, correlation and notices (O38, O39; R230 to R237, R242, R243).
-/
namespace Sys2Proof.Machine
open Sys2Proof

/-! ### What opening and closing leaves of the defect part -/

theorem placeRoot_dfx (r : Root) (c : Chip) : (placeRoot r c).2.dfx = c.dfx := by
  unfold placeRoot
  dsimp only
  split <;> rfl

theorem placeRoot_names (r : Root) (c : Chip) : (placeRoot r c).1.kind = r.kind ∧ (placeRoot r c).1.family = r.family ∧
    (placeRoot r c).1.ref = r.ref ∧ (placeRoot r c).1.list = r.list := by
  unfold placeRoot
  dsimp only
  split <;> exact ⟨rfl, rfl, rfl, rfl⟩

/-- An operation changes of the defect part the open roots alone. -/
def RootsOnly (a b : Chip) : Prop := b.dfx = { a.dfx with roots := b.dfx.roots }

theorem RootsOnly.trans {a b c : Chip} (h : RootsOnly a b) (g : RootsOnly b c) : RootsOnly a c := by
  unfold RootsOnly at *
  rw [g, h]

theorem openRoot_rootsOnly (r : Root) (c : Chip) : RootsOnly c (openRoot r c) := by
  unfold RootsOnly openRoot setRoots
  dsimp only
  rw [placeRoot_dfx]

theorem relistRoot_rootsOnly (r : Root) (l : List Nat) (c : Chip) : RootsOnly c (relistRoot r l c) := by
  unfold RootsOnly relistRoot
  split
  · rfl
  · dsimp only [setRoots]
    rw [placeRoot_dfx]
    rfl

/-- The bursts of the list are relisted, those without members leave. -/
theorem relistBursts_rootsOnly (l : List Root) (c : Chip) : RootsOnly c
    (forEach l (fun q c => if burstMembers c q.family q.ref = [] then dropRoot q c else relistRoot q (burstList c q.family q.ref) c) c) := by
  refine forEach_ind (Q := RootsOnly c) (fun q b h => h.trans ?_) l c rfl
  split
  · rfl
  · exact relistRoot_rootsOnly _ _ _

/-- A failure that the new root takes over (R232). -/
def takenBy (r : Root) (roots : List Root) (e : Nat × FailSt) : Bool :=
  3 ≤ dkKind e.1 && r.list.contains (dkRef e.1) && !(isMember r e.2) && outranks r roots e.1 e.2

/-- A new root takes failures over and changes the other roots (R232). -/
theorem subsume_dfx (r : Root) (c : Chip) : (subsume r c).dfx = { c.dfx with
    fails := c.dfx.fails.map (fun e => if takenBy r c.dfx.roots e then (e.1, takenFail e.2) else e), roots := (subsume r c).dfx.roots } := by
  unfold subsume
  exact relistBursts_rootsOnly _ _

theorem setFails_d (m : FMap FailSt) (c : Chip) : (setFails m c).dfx.d = c.dfx.d := rfl

theorem relistRoot_d (r : Root) (l : List Nat) (c : Chip) : (relistRoot r l c).dfx.d = c.dfx.d := by
  rw [relistRoot_rootsOnly r l c]

theorem subsume_d (r : Root) (c : Chip) : (subsume r c).dfx.d = c.dfx.d := by
  rw [subsume_dfx]

theorem openRoot_d (r : Root) (c : Chip) : (openRoot r c).dfx.d = c.dfx.d := by
  rw [openRoot_rootsOnly]

theorem rootNotify_dfx (r : Root) (n : Notice) (c : Chip) : (rootNotify r n c).dfx = c.dfx := by
  unfold rootNotify
  split <;> simp

theorem joinBurst_d (k n : Nat) (c : Chip) : (joinBurst k n c).dfx.d = c.dfx.d := by
  unfold joinBurst
  dsimp only
  split
  · rw [relistRoot_d, setFails_d]
  · split <;> rfl

/-- Opening a failure changes no defect. -/
theorem openFail_d (k n : Nat) (c : Chip) : (openFail k n c).dfx.d = c.dfx.d := by
  unfold openFail
  dsimp only
  split
  · split
    · exact joinBurst_d k n c
    · rfl
  · split
    · rw [rootNotify_dfx, openRoot_d, subsume_d, setFails_d]
    · split
      · exact joinBurst_d k n c
      · rw [notifyClass_dfx, setFails_d]

/-- Nor does the release of those held. -/
theorem releaseHeld_d (n : Nat) (c : Chip) : (releaseHeld n c).dfx.d = c.dfx.d := by
  unfold releaseHeld
  refine forEach_keeps (fun b => b.dfx.d) (fun e b => ?_) _ c
  split
  · rw [openFail_d, setFails_d]
  · rfl

theorem when_rootNotify_dfx (b : Bool) (r : Root) (n : Notice) (c : Chip) : (when b (rootNotify r n) c).dfx = c.dfx := by
  cases b
  · rfl
  · exact rootNotify_dfx r n c

theorem when_notifyClass_dfx (b : Bool) (k : Nat) (n : Notice) (c : Chip) : (when b (notifyClass k n) c).dfx = c.dfx := by
  cases b
  · rfl
  · exact notifyClass_dfx k n c

theorem dropRoot_d (r : Root) (c : Chip) : (dropRoot r c).dfx.d = c.dfx.d := rfl

/-- Closing a failure changes no defect. -/
theorem closeFail_d (k n : Nat) (loud : Bool) (c : Chip) : (closeFail k n loud c).dfx.d = c.dfx.d := by
  unfold closeFail
  split
  · rfl
  · dsimp only
    split
    · rw [when_notifyClass_dfx, setFails_d]
    · split
      · split
        · rfl
        · rw [when_rootNotify_dfx, dropRoot_d, setFails_d]
      · split
        · split
          · split
            · rw [notifyClass_dfx, dropRoot_d, setFails_d]
            · rw [relistRoot_d, setFails_d]
          · split <;> rfl
        · rfl

theorem rewriting_dfx (f : Chip → Chip) (c : Chip) : (rewriting f c).dfx = { (f c).dfx with corrSeq := (rewriting f c).dfx.corrSeq } := by
  unfold rewriting
  dsimp only
  split <;> rfl

theorem rewriting_queues (f : Chip → Chip) (c : Chip) : (rewriting f c).nq = (f c).nq ∧ (rewriting f c).notice = (f c).notice := by
  unfold rewriting
  dsimp only
  split <;> exact ⟨rfl, rfl⟩

theorem dget_of_d {a b : Chip} (h : a.dfx.d = b.dfx.d) (k : Nat) : dget a k = dget b k := by
  unfold dget
  rw [h]

theorem dget_rewriting (f : Chip → Chip) (c : Chip) (k : Nat) : dget (rewriting f c) k = dget (f c) k :=
  dget_of_d (by rw [rewriting_dfx]) k

theorem dget_declareFail (k n j : Nat) (c : Chip) :
    dget (declareFail k n c) j = dget (dupd k (fun d => { d with failed := true, abs := 0, decl := n }) c) j :=
  dget_of_d (openFail_d _ _ _) j

theorem dget_dupd_same (k : Nat) (f : DefSt → DefSt) (c : Chip) : dget (dupd k f c) k = f (dget c k) :=
  tget_tupd_same _ _ _ _

theorem dget_dupd_other {k j : Nat} (f : DefSt → DefSt) (c : Chip) (h : j ≠ k) : dget (dupd k f c) j = dget c j :=
  tget_tupd_other _ _ _ h

theorem dget_cleared (k n j : Nat) (c : Chip) :
    dget (releaseHeld n (clearFail k n c)) j = dget (dupd k (fun d => { d with failed := false, abs := 0 }) c) j :=
  dget_of_d ((releaseHeld_d _ _).trans (closeFail_d _ _ _ _)) j

/-- A failure no root holds, with no tributary below it and correlation off, is its class's notice (R242). -/
theorem declareFail_raised {k n : Nat} {c : Chip} (hk : 3 ≤ dkKind k) (hh : holderOf c.dfx.roots (dkRef k) = none)
    (hs : subtree (theImage c) (dkKind k) (dkRef k) = []) (hc : corrOn c = false) (hw : wouldRaise k c = true) (hr : NoticeRoom 1 c) :
    Raised { pointNotice k false n with prio := bits (classRec c (pointClass c (dkKind k) (dkRef k))) 8 2 } (declareFail k n c) := by
  have e : declareFail k n c = notifyClass (pointClass c (dkKind k) (dkRef k)) (pointNotice k false n)
      (setFails (tput c.dfx.fails k { how := 0, told := wouldRaise k c, decl := n, family := defFamily (dkKind k) (dkBit k), port := keyPort (theImage c) (dkRef k) })
        (dupd k (fun d => { d with failed := true, abs := 0, decl := n }) c)) := by
    show openFail k n (dupd k _ c) = _
    unfold openFail
    have hc' : corrOn (dupd k (fun d => { d with failed := true, abs := 0, decl := n }) c) = false := hc
    have hh' : holderOf (dupd k (fun d => { d with failed := true, abs := 0, decl := n }) c).dfx.roots (dkRef k) = none := hh
    have hs' : subtree (theImage (dupd k (fun d => { d with failed := true, abs := 0, decl := n }) c)) (dkKind k) (dkRef k) = [] := hs
    simp only [if_pos hk, hh', hs', hc', ne_eq, not_true_eq_false, if_false, Bool.and_false, Bool.false_and]
    rfl
  rw [e]
  unfold notifyClass
  exact (if_pos hw).symm ▸ notify_raised _ hr

/-- Settles O38: opening, closing and releasing change no defect, so the declaration or clearing of this one stands. -/
theorem failuresDeclareAndClear : Obligations.FailuresDeclareAndClear := by
  unfold Obligations.FailuresDeclareAndClear
  refine ⟨fun s kind ref level bit hd hf hp hi h0 hsup => ?_, fun s kind ref level bit hd hf hi h0 => ?_⟩
  · refine does_onChip (fun c => rewriting (declareFail (dkey kind ref level bit) (now c)) c)
      (next_onChip_if (p := fun c => (detects c && declDue c (dget c (dkey kind ref level bit)) && !(suppressed (theImage c) c (dkey kind ref level bit))) = true)
        (by simp [hd, declDue, hf, hp, hi, h0, hsup])) (by simp [declareFail]) ⟨?_, fun j hj => ?_, fun hk hh hs hc hw hr => ?_⟩
    · rw [dget_rewriting, dget_declareFail, dget_dupd_same]
      rfl
    · rw [dget_rewriting, dget_declareFail, dget_dupd_other _ _ hj]
    · exact (Raised_congr (rewriting_queues _ _).1 (rewriting_queues _ _).2).2 (declareFail_raised hk hh hs hc hw hr)
  · refine does_onChip (fun c => rewriting (fun c => releaseHeld (now c) (clearFail (dkey kind ref level bit) (now c) c)) c)
      (next_onChip_if (p := fun c => (detects c && clearDue c (dget c (dkey kind ref level bit))) = true)
        (by simp [hd, clearDue, hf, hi, h0])) (by simp [clearFail]) ⟨?_, fun j hj => ?_⟩
    · rw [dget_rewriting, dget_cleared, dget_dupd_same]
    · rw [dget_rewriting, dget_cleared, dget_dupd_other _ _ hj]

/-! ### A window of correlation -/

theorem insEvent_ne_nil (l : List (Nat × Bool × Nat)) (x : Nat × Bool × Nat) : insEvent l x ≠ [] := by
  cases l with
  | nil => simp [insEvent]
  | cons y t =>
    simp only [insEvent]
    split <;> simp

theorem foldl_insEvent_ne_nil (xs l : List (Nat × Bool × Nat)) (h : l ≠ []) : xs.foldl insEvent l ≠ [] := by
  induction xs generalizing l with
  | nil => exact h
  | cons x t ih => exact ih _ (insEvent_ne_nil l x)

/-- Members have a first one in order of declaration. -/
theorem membersByDecl_head {ms : List (Nat × FailSt)} (h : ms ≠ []) : ∃ first, (membersByDecl ms).head? = some first := by
  have hne : membersByDecl ms ≠ [] := by
    cases ms with
    | nil => exact absurd rfl h
    | cons e t => exact foldl_insEvent_ne_nil (t.map (fun e => (e.2.decl, false, e.1))) _ (insEvent_ne_nil [] (e.2.decl, false, e.1))
  cases hl : membersByDecl ms with
  | nil => exact absurd hl hne
  | cons x t => exact ⟨x, rfl⟩

/-- A tributary some open root lists has a holder (R232). -/
theorem holderOf_isSome {roots : List Root} {r : Root} {t : Nat} (hr : r ∈ roots) (ht : r.list.contains t = true) :
    (holderOf roots t).isNone = false := by
  have hfold : ∀ (l : List Root) (q : Root), (l.foldl
      (fun h r => match h with | none => some r | some q => if lexLt (rootRank r) (rootRank q) then some r else some q) (some q)).isNone = false := by
    intro l
    induction l with
    | nil => intro q; rfl
    | cons x l ih =>
      intro q
      simp only [List.foldl_cons]
      split <;> exact ih _
  have hmem : r ∈ roots.filter (fun r => r.list.contains t) := List.mem_filter.2 ⟨hr, ht⟩
  unfold holderOf
  cases hf : roots.filter (fun r => r.list.contains t) with
  | nil => rw [hf] at hmem; exact absurd hmem List.not_mem_nil
  | cons x l => exact hfold l x

/-- Where a root holds every failure that is held, nothing is released. -/
theorem releaseHeld_of_held {n : Nat} {c : Chip} (h : ∀ e, e ∈ c.dfx.fails → e.2.how = 3 → (holderOf c.dfx.roots (dkRef e.1)).isNone = false) :
    releaseHeld n c = c := by
  unfold releaseHeld
  have hl : ∀ e, e ∈ c.dfx.fails.filter (fun e => e.2.how = 3) → (holderOf c.dfx.roots (dkRef e.1)).isNone = false := by
    intro e he
    obtain ⟨hm, hh⟩ := List.mem_filter.1 he
    exact h e hm (of_decide_eq_true hh)
  revert hl
  generalize c.dfx.fails.filter (fun e => e.2.how = 3) = l
  intro hl
  induction l with
  | nil => rfl
  | cons e t ih =>
    have hstep : (fun (e : Nat × FailSt) (c : Chip) => if (holderOf c.dfx.roots (dkRef e.1)).isNone && (c.dfx.fails.lookup e.1).isSome then
        openFail e.1 n (setFails (tdel c.dfx.fails e.1) c) else c) e c = c := by
      dsimp only
      rw [hl e List.mem_cons_self]
      rfl
    show forEach t _ _ = c
    rw [hstep]
    exact ih (fun e he => hl e (List.mem_cons_of_mem _ he))

/-- The root a window's end opens (R233). -/
def burstRoot (w : CorrWin) (k : Nat) (c : Chip) : Root :=
  { kind := 2, pk := dkKind k, ref := w.port, lvl := dkLevel k, bit := dkBit k, family := w.family, decl := w.start, cls := 0, list := burstList c w.family w.port, prior := [], slot := none, base := 0, raised := true, reported := (burstMembers c w.family w.port).length, lastUpd := none, ended := false }

/-- The chip without the window's key. -/
def withoutWin (w : CorrWin) (c : Chip) : Chip := setWins (c.dfx.wins.filter (fun v => !(v.family = w.family && v.port = w.port))) c

/-- A window that ends with its least members opens their root. -/
theorem endWindow_burst {w : CorrWin} {c : Chip} (hm : burstMembers c w.family w.port ≠ [])
    (hl : w.least ≤ (burstMembers c w.family w.port).length) :
    ∃ k pr n, endWindow w c = notifyClass 0 n (openRoot { burstRoot w k c with prior := pr } (subsume { burstRoot w k c with prior := pr } (withoutWin w c))) := by
  obtain ⟨first, hf⟩ := membersByDecl_head hm
  refine ⟨first.2.2, priorOf (withoutWin w c) (burstRoot w first.2.2 c),
    rootNotice (burstRoot w first.2.2 c) 3 (burstMembers c w.family w.port).length false w.start, ?_⟩
  unfold endWindow
  simp only [if_pos hl, hf]
  rfl

/-- The root that opens last is among the open ones. -/
theorem openRoot_roots (r : Root) (c : Chip) : (openRoot r c).dfx.roots = c.dfx.roots ++ [(placeRoot r c).1] := by
  show (placeRoot r c).2.dfx.roots ++ _ = _
  rw [placeRoot_dfx]

/-- The window's end, where no failure waits behind a root: the new root stands, and it holds whatever it took over. -/
theorem corrWindowEnd_burst {w : CorrWin} {n : Nat} {c : Chip} (hm : burstMembers c w.family w.port ≠ [])
    (hl : w.least ≤ (burstMembers c w.family w.port).length) (hf : ∀ e, e ∈ c.dfx.fails → e.2.how ≠ 3) :
    (∃ r, r ∈ (releaseHeld n (endWindow w c)).dfx.roots ∧ r.kind = 2 ∧ r.family = w.family ∧ r.ref = w.port ∧ r.list = burstList c w.family w.port) ∧
    (releaseHeld n (endWindow w c)).dfx.wins = c.dfx.wins.filter (fun v => !(v.family = w.family && v.port = w.port)) := by
  obtain ⟨k, pr, nt, he⟩ := endWindow_burst hm hl
  generalize hr : ({ burstRoot w k c with prior := pr } : Root) = r at he
  have hnames : r.kind = 2 ∧ r.family = w.family ∧ r.ref = w.port ∧ r.list = burstList c w.family w.port := by
    rw [← hr]
    exact ⟨rfl, rfl, rfl, rfl⟩
  have hdfx : (endWindow w c).dfx = (openRoot r (subsume r (withoutWin w c))).dfx := by rw [he, notifyClass_dfx]
  obtain ⟨hk, hfam, href, hlist⟩ := placeRoot_names r (subsume r (withoutWin w c))
  have hin : (placeRoot r (subsume r (withoutWin w c))).1 ∈ (endWindow w c).dfx.roots := by
    rw [hdfx, openRoot_roots]
    exact List.mem_append_right _ List.mem_cons_self
  have hfails : (endWindow w c).dfx.fails = c.dfx.fails.map (fun e => if takenBy r c.dfx.roots e then (e.1, takenFail e.2) else e) := by
    rw [hdfx, openRoot_rootsOnly, subsume_dfx]
    rfl
  have hrel : releaseHeld n (endWindow w c) = endWindow w c := by
    refine releaseHeld_of_held (fun e hmem hhow => holderOf_isSome hin ?_)
    rw [hfails] at hmem
    obtain ⟨e0, h0, rfl⟩ := List.mem_map.1 hmem
    by_cases ht : takenBy r c.dfx.roots e0 = true
    · rw [if_pos ht, hlist]
      simp only [takenBy, Bool.and_eq_true] at ht
      exact ht.1.1.2
    · rw [if_neg ht] at hhow
      exact absurd hhow (hf e0 h0)
  rw [hrel]
  refine ⟨⟨_, hin, hk.trans hnames.1, hfam.trans hnames.2.1, href.trans hnames.2.2.1, hlist.trans hnames.2.2.2⟩, ?_⟩
  rw [hdfx, openRoot_rootsOnly, subsume_dfx]
  rfl

/-! ### The notice queue -/

/-- Held notices move whole from the front, until none is held or the queue is full (R243). -/
theorem drainList_take (l : List Notice) (q : QueueSt) : ∃ k, (drainList l q).2.items = q.items ++ (l.take k).map noticeItem ∧
    (drainList l q).1 = l.drop k ∧ ((drainList l q).1 = [] ∨ nqRoom ≤ qCount (drainList l q).2) := by
  induction l generalizing q with
  | nil => exact ⟨0, by simp [drainList], rfl, .inl rfl⟩
  | cons n t ih =>
    unfold drainList
    split
    · obtain ⟨k, hi, hd, hq⟩ := ih { q with items := q.items ++ [noticeItem n] }
      exact ⟨k + 1, by simpa using hi, hd, hq⟩
    · next h => exact ⟨0, by simp, rfl, .inr (Nat.le_of_not_lt h)⟩

/-- Settles O39: the window's burst root stands among the roots; a register write is its written value; the drain moves a prefix. -/
theorem correlationAndNotices : Obligations.CorrelationAndNotices := by
  unfold Obligations.CorrelationAndNotices
  refine ⟨fun s family port w m hw hn hm hl hf => ?_, fun s v hs hv => ?_, fun s v hs hv => ?_, fun s v hs hv => ?_, fun s v hs hv => ?_,
    fun s hs hsb => ?_⟩
  · have hkey := List.find?_some hw
    simp only [Bool.and_eq_true, decide_eq_true_eq] at hkey
    obtain ⟨rfl, rfl⟩ := hkey
    have he : exec (.corrWindowEnd w.family w.port) s = .next (onChip (fun c => rewriting (fun c => releaseHeld (now c) (endWindow w c)) c) s) := by
      show Host.Outcome.next _ = _
      simp only [onChip, hw]
      exact congrArg (fun c => Host.Outcome.next { s with c := c }) (if_pos hn)
    obtain ⟨⟨r, hr, hnames⟩, hwins⟩ := corrWindowEnd_burst (n := now s.c) (List.ne_nil_of_mem hm) hl hf
    refine does_onChip _ he (by simp) ⟨⟨r, ?_, hnames⟩, ?_⟩
    · rw [rewriting_dfx]
      exact hr
    · rw [rewriting_dfx]
      exact hwins
  · exact does_onChip (when (awake s.c) (fun c => jnlWrite 0x3080 v { c with dfx := { c.dfx with ctrl := { c.dfx.ctrl with wr := v } } }))
      (if_neg (by simp [hv])) (by simp [awake_of hs]) (by simp [awake_of hs])
  · exact if_pos (by simp [hv, awake_of hs])
  · exact does_onChip (when (awake s.c) (fun c => jnlWrite 0x3084 v { c with dfx := { c.dfx with corr := { c.dfx.corr with wr := v } } }))
      (if_neg (by simp [hv])) (by simp [awake_of hs]) (by simp [awake_of hs])
  · exact if_pos (by simp [hv, awake_of hs])
  · refine does_guard (f := fun _ => drainNotices) rfl (awake_of hs) (by simp) ?_
    have e : drainNotices s.c = countEvent 0x060 0x1FF (s.c.notice.held.length - (drainList s.c.notice.held s.c.nq).1.length)
        { s.c with nq := (drainList s.c.notice.held s.c.nq).2, notice := { s.c.notice with held := (drainList s.c.notice.held s.c.nq).1 } } :=
      if_neg (by simp [hsb])
    rw [e, countEvent_nq, countEvent_notice]
    exact drainList_take s.c.notice.held s.c.nq

end Sys2Proof.Machine
end

section
/-!
PROOFS. Path protection: evaluations and their timers (O40; R274 to R278, R281), selectors and the mailbox's lockout (O41; R211, R284,
R285, R287).
-/
namespace Sys2Proof.Machine
open Sys2Proof

/-! ### One evaluation of a group -/

/-- A manual command ends at a higher request (R278). -/
def manualDropped (far : Bool) (x : GrpSt) : GrpSt :=
  if (x.standing = 3 || x.standing = 4) && (x.w.reqSf || x.w.reqSd || x.p.reqSf || x.p.reqSd || far) then { x with standing := 0 } else x

theorem manualDropped_keeps (far : Bool) (x : GrpSt) : (manualDropped far x).w = x.w ∧ (manualDropped far x).p = x.p ∧
    (manualDropped far x).loc = x.loc ∧ (manualDropped far x).wtr = x.wtr ∧
    ((manualDropped far x).standing = x.standing ∨ (manualDropped far x).standing = 0) ∧
    (manualDropped far x).select = x.select ∧ (manualDropped far x).decided = x.decided := by
  unfold manualDropped
  split
  · exact ⟨rfl, rfl, rfl, rfl, .inr rfl, rfl, rfl⟩
  · exact ⟨rfl, rfl, rfl, rfl, .inl rfl, rfl, rfl⟩

/-- Which of two requests counts changes the state and its source alone. -/
theorem ite_request (p : Prop) [Decidable p] (y : GrpSt) (a b : Nat) :
    (if p then { y with state := a, remote := true } else { y with state := b, remote := false }) =
    { y with state := if p then a else b, remote := decide p } := by
  split
  · next h => rw [decide_eq_true h]
  · next h => rw [decide_eq_false h]

/-- Resolving requests writes the state, its source and the wait to restore (R277, R278). -/
theorem resolveState_form (r : Rec) (x : GrpSt) : ∃ b st loc wtr rem,
    resolveState r x = { manualDropped b x with state := st, loc := loc, wtr := wtr, remote := rem } := by
  unfold resolveState
  cases farRequest r x with
  | some f => exact ⟨_, _, _, _, _, ite_request _ { manualDropped (reqRank f.1 ≤ 5) x with loc := _, wtr := _ } _ _⟩
  | none => exact ⟨false, _, _, _, _, rfl⟩

/-- Resolving requests leaves members and selection. -/
theorem resolveState_keeps (r : Rec) (x : GrpSt) : (resolveState r x).w = x.w ∧ (resolveState r x).p = x.p ∧
    (resolveState r x).select = x.select ∧ (resolveState r x).decided = x.decided := by
  obtain ⟨b, st, loc, wtr, rem, h⟩ := resolveState_form r x
  obtain ⟨hw, hp, -, -, -, hs, hd⟩ := manualDropped_keeps b x
  rw [h]
  exact ⟨hw, hp, hs, hd⟩

/-- Cancelling hold-off timers changes the timers alone. -/
theorem cancelHold_keeps (x : GrpSt) : (cancelHold x).state = x.state ∧ (cancelHold x).loc = x.loc ∧ (cancelHold x).wtr = x.wtr ∧
    (cancelHold x).standing = x.standing ∧ (cancelHold x).select = x.select ∧ (cancelHold x).decided = x.decided ∧
    (cancelHold x).w.reqSf = x.w.reqSf ∧ (x.w.hold = 0 → (cancelHold x).w.hold = 0) := by
  unfold cancelHold
  dsimp only
  split
  · exact ⟨rfl, rfl, rfl, rfl, rfl, rfl, rfl, fun _ => rfl⟩
  · exact ⟨rfl, rfl, rfl, rfl, rfl, rfl, rfl, fun h => h⟩

/-- A group that counts no far end's request is in the state of its own. -/
theorem resolveState_near {r : Rec} {x : GrpSt} {st : Nat} (hf : farRequest r x = none)
    (hst : (match ownRequest (manualDropped false x) with | some s => s | none => idleState r (manualDropped false x)) = st) :
    (resolveState r x).state = st ∧ (resolveState r x).loc = st ∧
    (resolveState r x).wtr = (if st ≠ stWTR then 0 else if (manualDropped false x).loc = stWTR then (manualDropped false x).wtr else protWtr r * 8000) := by
  subst hst
  unfold resolveState
  simp only [hf, Bool.and_false]
  exact ⟨rfl, rfl, rfl⟩

/-- A working member's SF below lockout and forced switch is the request SFW. -/
theorem ownRequest_sfw {x : GrpSt} (hw : x.w.reqSf = true) (hp : x.p.reqSf = false) (h1 : x.standing ≠ 1) (h2 : x.standing ≠ 2) :
    ownRequest (manualDropped false x) = some stSFW := by
  obtain ⟨ew, ep, -, -, hs, -, -⟩ := manualDropped_keeps false x
  have hg : ∀ k, 0 ≠ k → x.standing ≠ k → (manualDropped false x).standing ≠ k := by
    intro k h0 hk
    rcases hs with h | h <;> rw [h] <;> assumption
  have g1 := hg 1 (by decide) h1
  have g2 := hg 2 (by decide) h2
  simp [ownRequest, g1, g2, ew, ep, hw, hp]

/-- No condition and no command: no request of the group's own. -/
theorem ownRequest_none {x : GrpSt} (hw : x.w.reqSf = false) (hwd : x.w.reqSd = false) (hp : x.p.reqSf = false) (hpd : x.p.reqSd = false)
    (h0 : x.standing = 0) : ownRequest x = none := by
  simp [ownRequest, hw, hwd, hp, hpd, h0]

theorem manualDropped_idle {x : GrpSt} (h0 : x.standing = 0) : manualDropped false x = x := by
  simp [manualDropped, h0]

theorem farRequest_uni {r : Rec} (x : GrpSt) (h : protBidir r = false) : farRequest r x = none := by
  simp [farRequest, h]

theorem fopStep_uni {r : Rec} (n : Nat) (x : GrpSt) (h : protBidir r = false) : fopStep r n x = x := by
  simp [fopStep, h]

/-- A group's record as its evaluation resolves it. -/
def stepped (r : Rec) (n : Nat) (x : GrpSt) : GrpSt :=
  { x with w := memberStep (protHold r) n x.w, p := memberStep (protHold r) n x.p, wtr := x.wtr - 1 }

/-- What an evaluation without a command makes of a unidirectional group. -/
theorem evalGroup_uni {r : Rec} (n : Nat) (x : GrpSt) (h : protBidir r = false) :
    (evalGroup r n none x).1 = decide_ r n x.state (cancelHold (resolveState r (stepped r n x))) := by
  unfold evalGroup
  dsimp only
  rw [fopStep_uni n _ h]
  rfl

/-- A member whose hold-off time is 0 or ends shows its condition as a request (R275). -/
theorem memberStep_raised {hold n : Nat} {m : MemSt} (h : hold = 0 ∨ m.hold = 1) :
    (memberStep hold n m).reqSf = m.inSf ∧ (memberStep hold n m).reqSd = (m.inSd && !m.inSf) ∧ (memberStep hold n m).hold = 0 := by
  unfold memberStep
  dsimp only
  split
  · exact ⟨rfl, rfl, rfl⟩
  · next h0 =>
    have h1 : m.hold = 1 := by
      rcases h with h | h
      · simp [h] at h0
      · exact h
    rw [if_neg (by omega), if_pos h1]
    exact ⟨rfl, rfl, rfl⟩

/-- A member without condition and request raises none. -/
theorem memberStep_noSf {hold n : Nat} {m : MemSt} (h : m.inSf = false) (hr : m.reqSf = false) : (memberStep hold n m).reqSf = false := by
  unfold memberStep
  dsimp only
  split
  · exact h
  · split
    · exact hr
    · split
      · exact h
      · split <;> exact hr

theorem memberStep_noSd {hold n : Nat} {m : MemSt} (h : m.inSd = false) (hr : m.reqSd = false) : (memberStep hold n m).reqSd = false := by
  have hd : (m.inSd && !m.inSf) = false := by rw [h]; rfl
  unfold memberStep
  dsimp only
  split
  · exact hd
  · split
    · exact hr
    · split
      · exact hd
      · split <;> exact hr

/-- What a decided evaluation says in its state (R274). -/
theorem decided_of_state {r : Rec} {n old st : Nat} {x : GrpSt} (h : x.state = st) :
    (decide_ r n old x).state = st ∧ (decide_ r n old x).select = selectsP st ∧ (decide_ r n old x).evalAt = n := by
  subst h
  exact ⟨rfl, rfl, rfl⟩

/-- An evaluation that resolves to a state has that state, its selection, and a change of selection due at the next boundary. -/
theorem evalGroup_resolved {r : Rec} {n st : Nat} {x : GrpSt} (h : protBidir r = false) (hst : (resolveState r (stepped r n x)).state = st) :
    (evalGroup r n none x).1.state = st ∧ (evalGroup r n none x).1.select = selectsP st ∧ (evalGroup r n none x).1.evalAt = n ∧
    (evalGroup r n none x).1.loc = (resolveState r (stepped r n x)).loc ∧ (evalGroup r n none x).1.wtr = (resolveState r (stepped r n x)).wtr ∧
    (selectsP st ≠ x.select → (evalGroup r n none x).1.decided = some (n + 1)) := by
  rw [evalGroup_uni n x h]
  obtain ⟨kst, kloc, kwtr, -, ksel, -, -, -⟩ := cancelHold_keeps (resolveState r (stepped r n x))
  obtain ⟨-, -, rsel, -⟩ := resolveState_keeps r (stepped r n x)
  obtain ⟨h1, h2, h3⟩ := decided_of_state (r := r) (n := n) (old := x.state) (kst.trans hst)
  refine ⟨h1, h2, h3, kloc, kwtr, fun hne => ?_⟩
  unfold decide_
  dsimp only
  rw [if_neg]
  rw [kst.trans hst, ksel, rsel]
  exact hne

/-- The working member's SF that counts selects protection. -/
theorem evalGroup_sfw {r : Rec} {n : Nat} {x : GrpSt} (hb : protBidir r = false) (hw : (memberStep (protHold r) n x.w).reqSf = true)
    (hp : (memberStep (protHold r) n x.p).reqSf = false) (h1 : x.standing ≠ 1) (h2 : x.standing ≠ 2) :
    (resolveState r (stepped r n x)).state = stSFW := by
  have hown : ownRequest (manualDropped false (stepped r n x)) = some stSFW := ownRequest_sfw hw hp h1 h2
  exact (resolveState_near (farRequest_uni _ hb) (by rw [hown])).1

/-- Without a condition the state is the one the group falls back to. -/
theorem evalGroup_idle {r : Rec} {n st : Nat} {x : GrpSt} (hb : protBidir r = false) (hw : (memberStep (protHold r) n x.w).reqSf = false)
    (hwd : (memberStep (protHold r) n x.w).reqSd = false) (hp : (memberStep (protHold r) n x.p).reqSf = false)
    (hpd : (memberStep (protHold r) n x.p).reqSd = false) (h0 : x.standing = 0) (hi : idleState r (stepped r n x) = st) :
    (resolveState r (stepped r n x)).state = st ∧ (resolveState r (stepped r n x)).loc = st ∧
    (resolveState r (stepped r n x)).wtr = (if st ≠ stWTR then 0 else if x.loc = stWTR then x.wtr - 1 else protWtr r * 8000) := by
  have hd : manualDropped false (stepped r n x) = stepped r n x := manualDropped_idle h0
  have hown : ownRequest (stepped r n x) = none := ownRequest_none hw hwd hp hpd h0
  have h := resolveState_near (st := st) (farRequest_uni (stepped r n x) hb) (by rw [hd, hown]; exact hi)
  rw [hd] at h
  exact h

/-! ### Groups in turn -/

/-- A loop reaches what the turn of one of its elements establishes, where the turns before keep its premise and all keep its result. -/
theorem forEach_reaches {α : Type} {Q R : Chip → Prop} {f : α → Chip → Chip} {g : α} (stay : ∀ a b, a ≠ g → Q b → Q (f a b))
    (go : ∀ b, Q b → R (f g b)) (keep : ∀ a b, R b → R (f a b)) {l : List α} {c : Chip} (hg : g ∈ l) (hQ : Q c) : R (forEach l f c) := by
  induction l generalizing c with
  | nil => exact absurd hg List.not_mem_nil
  | cons a t ih =>
    by_cases h : a = g
    · exact forEach_ind keep t _ (h ▸ go c hQ)
    · exact ih (List.mem_of_ne_of_mem (Ne.symm h) hg) (stay a c h hQ)

/-- A group that is evaluated in the tick already is left as it is. -/
theorem protEval1_done {g : Nat} {c : Chip} {x : GrpSt} (hx : c.prot.groups.lookup g = some x) (h : evalDue c x = false) : protEval1 g c = c := by
  unfold protEval1
  rw [hx]
  split
  · next heq _ =>
    obtain rfl := Option.some.inj heq
    rw [h]
    rfl
  · rfl

/-- A group's evaluation without a command changes its own entry alone. -/
theorem protEval1_quiet {j : Nat} {c : Chip} (h : ∀ w, protWaiting c = some w → w.2 ≠ j) :
    ∃ m, protEval1 j c = setGroups m c ∧ ∀ k, k ≠ j → m.lookup k = c.prot.groups.lookup k := by
  unfold protEval1
  split
  · split
    · exact ⟨c.prot.groups, rfl, fun _ _ => rfl⟩
    · cases hw : protWaiting c with
      | none => exact ⟨_, rfl, fun k hk => lookup_tput_other _ _ hk⟩
      | some w =>
        simp only [if_neg (h w hw)]
        exact ⟨_, rfl, fun k hk => lookup_tput_other _ _ hk⟩
  · exact ⟨c.prot.groups, rfl, fun _ _ => rfl⟩

/-- The evaluation of a group that is due, no command waiting for it. -/
theorem protEval1_due {g : Nat} {c : Chip} {x : GrpSt} {r : Rec} (hx : c.prot.groups.lookup g = some x) (hr : protRec c g = some r)
    (hd : evalDue c x = true) (hw : protWaiting c = none) :
    protEval1 g c = setGroups (tput c.prot.groups g (evalGroup r (now c) none x).1) c := by
  unfold protEval1
  simp only [hx, hr, hd, hw, Bool.not_true, Bool.false_eq_true, if_false]

/-- Every group's evaluation without a command: the group has its own outcome, and only the protection part changes. -/
theorem protEvaluate_quiet {g : Nat} {c : Chip} {x : GrpSt} {r : Rec} (hx : c.prot.groups.lookup g = some x) (hr : protRec c g = some r)
    (hd : evalDue c x = true) (hw : protWaiting c = none) (hat : (evalGroup r (now c) none x).1.evalAt = now c) :
    ∃ m, protEvaluate c = setGroups m c ∧ m.lookup g = some (evalGroup r (now c) none x).1 := by
  have hquiet : ∀ m j, ∃ m', protEval1 j (setGroups m c) = setGroups m' c ∧ ∀ k, k ≠ j → m'.lookup k = m.lookup k := by
    intro m j
    obtain ⟨m', he, hl⟩ := protEval1_quiet (j := j) (c := setGroups m c) (fun w h => by
      rw [show protWaiting (setGroups m c) = protWaiting c from rfl, hw] at h
      exact absurd h (by simp))
    exact ⟨m', he, hl⟩
  have hloop : ∃ m, forEach (tkeys c.prot.groups) protEval1 c = setGroups m c ∧ m.lookup g = some (evalGroup r (now c) none x).1 := by
    refine forEach_reaches (Q := fun b => ∃ m, b = setGroups m c ∧ m.lookup g = some x)
      (R := fun b => ∃ m, b = setGroups m c ∧ m.lookup g = some (evalGroup r (now c) none x).1) (g := g) ?_ ?_ ?_ (mem_tkeys _ _ _ hx) ⟨c.prot.groups, rfl, hx⟩
    · rintro j _ hj ⟨m, rfl, hm⟩
      obtain ⟨m', he, hl⟩ := hquiet m j
      exact ⟨m', he, (hl g (Ne.symm hj)).trans hm⟩
    · rintro _ ⟨m, rfl, hm⟩
      exact ⟨_, protEval1_due (c := setGroups m c) hm hr hd hw, lookup_tput_same _ _ _⟩
    · rintro j _ ⟨m, rfl, hm⟩
      by_cases hj : j = g
      · subst hj
        refine ⟨m, protEval1_done (c := setGroups m c) hm ?_, hm⟩
        unfold evalDue
        rw [hat]
        simp [now, setGroups]
      · obtain ⟨m', he, hl⟩ := hquiet m j
        exact ⟨m', he, (hl g (Ne.symm hj)).trans hm⟩
  obtain ⟨m, he, hm⟩ := hloop
  refine ⟨m, ?_, hm⟩
  unfold protEvaluate
  rw [he]
  unfold protNoGroup
  rw [show protWaiting (setGroups m c) = none from hw]

theorem updGrp_lookup_other {i j : Nat} (f : GrpSt → GrpSt) (c : Chip) (h : j ≠ i) :
    (updGrp i f c).prot.groups.lookup j = c.prot.groups.lookup j := by
  unfold updGrp
  split
  · exact lookup_tput_other _ _ h
  · rfl

theorem evalDue_of {c : Chip} {x : GrpSt} (h1 : x.evalAt < c.dev.tick) (h2 : x.born < c.dev.tick) : evalDue c x = true := by
  simp [evalDue, now, h1, h2]

/-- The tick's evaluation is carried out as a change of the groups. -/
theorem does_protEvaluate {s : State} {g : Nat} {x : GrpSt} {r : Rec} {P : Chip → Prop} (hi : onImage s.c = true)
    (hx : s.c.prot.groups.lookup g = some x) (hr : protRec s.c g = some r) (hd : evalDue s.c x = true) (hw : protWaiting s.c = none)
    (hat : (evalGroup r (now s.c) none x).1.evalAt = now s.c)
    (hP : ∀ c, c.prot.groups.lookup g = some (evalGroup r (now s.c) none x).1 → P c) : Does .protectionEvaluation s [.prot] P := by
  obtain ⟨m, he, hm⟩ := protEvaluate_quiet hx hr hd hw hat
  refine does_onChip (fun c => if onImage c then protEvaluate c else protNoGroup c) rfl ?_ (hP _ ?_)
  · rw [if_pos hi, he]
    rfl
  · rw [if_pos hi, he]
    exact hm

/-- A timer's expiry is carried out as its group's evaluation. -/
theorem does_protEval1 {i : Instr} {s : State} {g : Nat} {x : GrpSt} {r : Rec} {P : Chip → Prop} (he : exec i s = .next (onChip (protEval1 g) s))
    (hx : s.c.prot.groups.lookup g = some x) (hr : protRec s.c g = some r) (hd : evalDue s.c x = true) (hw : protWaiting s.c = none)
    (hP : P (setGroups (tput s.c.prot.groups g (evalGroup r (now s.c) none x).1) s.c)) : Does i s [.prot] P := by
  have e := protEval1_due hx hr hd hw
  exact does_onChip (protEval1 g) he (by rw [e]; rfl) (by rw [e]; exact hP)

/-- Settles O40: the conditions resolve to the state named, and the group's entry is the evaluation's. -/
theorem protectionEvaluates : Obligations.ProtectionEvaluates := by
  unfold Obligations.ProtectionEvaluates
  refine ⟨fun s g x r hi hx hr h1 h2 hw hb hh hws hps n1 n2 => ?_, fun s g x r hi hx hr h1 h2 hw hb hrv hwt hl hh hws hwd hps hpd h0 => ?_,
    fun s g x r hi hx hr h1 h2 hw hb hh hws hps hpr hph n1 n2 => ?_,
    fun s g x r hi hx hr h1 h2 hw hb hl ht hws hwd hps hpd gws gwd gps gpd h0 => ?_, fun s g x t hi hx ht hn => ?_⟩
  · have hst := evalGroup_sfw (n := now s.c) hb ((memberStep_raised (.inl hh)).1.trans hws) ((memberStep_raised (.inl hh)).1.trans hps) n1 n2
    obtain ⟨e1, e2, e3, -, -, e6⟩ := evalGroup_resolved hb hst
    exact does_protEvaluate hi hx hr (evalDue_of h1 h2) hw e3 (fun c hc => ⟨_, hc, e1, e2, e3, fun hs => e6 (by rw [hs]; decide)⟩)
  · obtain ⟨w1, w2, -⟩ := memberStep_raised (hold := protHold r) (n := now s.c) (m := x.w) (.inl hh)
    obtain ⟨p1, p2, -⟩ := memberStep_raised (hold := protHold r) (n := now s.c) (m := x.p) (.inl hh)
    obtain ⟨i1, -, i3⟩ := evalGroup_idle (st := stWTR) (n := now s.c) hb (w1.trans hws) (by rw [w2, hwd]; rfl) (p1.trans hps) (by rw [p2, hpd]; rfl) h0
      (by simp [idleState, stepped, hl, hrv, hwt])
    obtain ⟨e1, e2, e3, -, e5, -⟩ := evalGroup_resolved hb i1
    refine does_protEvaluate hi hx hr (evalDue_of h1 h2) hw e3 (fun c hc => ⟨_, hc, e1, ?_, e2⟩)
    rw [e5, i3, hl]
    rfl
  · obtain ⟨w1, -, w3⟩ := memberStep_raised (hold := protHold r) (n := now s.c) (m := x.w) (.inr hh)
    have hst := evalGroup_sfw (n := now s.c) hb (w1.trans hws) (memberStep_noSf hps hpr) n1 n2
    obtain ⟨e1, e2, -, -, -, -⟩ := evalGroup_resolved hb hst
    have he : exec (.holdoffExpiry g 0) s = .next (onChip (protEval1 g) s) := by
      show Host.Outcome.next _ = _
      simp only [onChip, hx]
      refine congrArg (fun c => Host.Outcome.next { s with c := c }) (if_pos ?_)
      simp [hi, hh]
    refine does_protEval1 he hx hr (evalDue_of h1 h2) hw ⟨⟨_, lookup_tput_same _ _ _, ?_, ?_, e1, e2⟩, fun k hk => lookup_tput_other _ _ hk⟩
    · rw [evalGroup_uni _ _ hb]
      obtain ⟨-, -, -, -, -, -, k7, -⟩ := cancelHold_keeps (resolveState r (stepped r (now s.c) x))
      obtain ⟨rw', -, -, -⟩ := resolveState_keeps r (stepped r (now s.c) x)
      exact k7.trans (by rw [rw']; exact w1.trans hws)
    · rw [evalGroup_uni _ _ hb]
      obtain ⟨-, -, -, -, -, -, -, k8⟩ := cancelHold_keeps (resolveState r (stepped r (now s.c) x))
      obtain ⟨rw', -, -, -⟩ := resolveState_keeps r (stepped r (now s.c) x)
      exact k8 (by rw [rw']; exact w3)
  · obtain ⟨i1, i2, i3⟩ := evalGroup_idle (st := stNR) (n := now s.c) hb (memberStep_noSf hws gws) (memberStep_noSd hwd gwd) (memberStep_noSf hps gps)
      (memberStep_noSd hpd gpd) h0 (by simp [idleState, stepped, hl, ht, stWTR, stSFW, stSDW])
    obtain ⟨e1, e2, -, e4, e5, -⟩ := evalGroup_resolved hb i1
    have he : exec (.wtrExpiry g) s = .next (onChip (protEval1 g) s) := by
      show Host.Outcome.next _ = _
      simp only [onChip, hx]
      refine congrArg (fun c => Host.Outcome.next { s with c := c }) (if_pos ?_)
      simp [hi, hl, ht]
    refine does_protEval1 he hx hr (evalDue_of h1 h2) hw ⟨⟨_, lookup_tput_same _ _ _, e1, e4.trans i2, ?_, e2⟩, fun k hk => lookup_tput_other _ _ hk⟩
    rw [e5, i3]
    rfl
  · refine does_guard (f := fun c => updGrp g (fun x => match x.nrSince with | some t => if t + 400 ≤ now c then { x with fopNr := true } else x | none => x))
      rfl hi (by simp) ⟨?_, fun k hk => ?_⟩
    · rw [updGrp_lookup, hx]
      simp [ht, now, hn]
    · exact updGrp_lookup_other _ _ hk

/-! ### Selectors and the lockout -/

/-- No request outranks lockout (R277). -/
theorem reqRank_pos (st : Nat) : 1 ≤ reqRank st := by
  unfold reqRank
  split <;> decide

/-- A lockout that stands is the state, whatever the far end asks. -/
theorem resolveState_lockout (r : Rec) {x : GrpSt} (h : x.standing = 1) :
    (resolveState r x).state = stLO ∧ (resolveState r x).standing = 1 := by
  have hm : ∀ (b : Bool), (if (decide (x.standing = 3) || decide (x.standing = 4)) && b then { x with standing := 0 } else x) = x :=
    fun b => if_neg (by simp [h])
  have hown : ownRequest x = some stLO := if_pos h
  unfold resolveState
  simp only [hm, hown]
  split
  · next f _ =>
    have hno : ¬ reqRank f.1 < reqRank stLO := Nat.not_lt.2 (reqRank_pos f.1)
    simp only [if_neg hno, h, and_self]
  · exact ⟨rfl, h⟩

/-- An evaluation always accepts a lockout (R285). -/
theorem evalGroup_lockout (r : Rec) (n : Nat) (x : GrpSt) : (evalGroup r n (some 1) x).2 = 0 ∧ (evalGroup r n (some 1) x).1.standing = 1 ∧
    (evalGroup r n (some 1) x).1.state = stLO ∧ (evalGroup r n (some 1) x).1.select = false ∧ (evalGroup r n (some 1) x).1.evalAt = n := by
  have key : ∀ x2 : GrpSt, (cancelHold (applyCmd r x2 1)).state = stLO ∧ (cancelHold (applyCmd r x2 1)).standing = 1 := by
    intro x2
    obtain ⟨kst, -, -, kstand, -⟩ := cancelHold_keeps (applyCmd r x2 1)
    obtain ⟨h1, h2⟩ := resolveState_lockout r (x := { x2 with standing := 1 }) rfl
    exact ⟨kst.trans h1, kstand.trans h2⟩
  unfold evalGroup
  dsimp only
  obtain ⟨h1, h2⟩ := key (cancelHold (resolveState r (fopStep r n { x with w := memberStep (protHold r) n x.w, p := memberStep (protHold r) n x.p, wtr := x.wtr - 1 })))
  rw [if_pos (show judgeCmd _ 1 = 0 from rfl)]
  obtain ⟨d1, d2, d3⟩ := decided_of_state (r := r) (n := n) (old := x.state) h1
  exact ⟨rfl, h2, d1, d2, d3⟩

/-- What the mailbox shows once a lockout is answered (R284). -/
def LockoutAnswered (c : Chip) : Prop := c.mb.cur = none ∧ c.mb.done = true ∧ c.mb.result = 0 ∧ c.mb.reply0 = 0x1A00

/-- The command that waits is the mailbox's. -/
theorem cur_of_protWaiting {c : Chip} {w : Nat × Nat} (h : protWaiting c = some w) : ∃ k, c.mb.cur = some k := by
  cases hk : c.mb.cur with
  | some k => exact ⟨k, rfl⟩
  | none =>
    rw [protWaiting, mbHolds, hk] at h
    exact absurd h (by simp)

theorem protWaiting_of_idle {c : Chip} (h : c.mb.cur = none) : protWaiting c = none := by
  rw [protWaiting, mbHolds, h]
  rfl

/-- The evaluation of the group a lockout waits for. -/
theorem protEval1_lockout {g : Nat} {c : Chip} {x : GrpSt} {r : Rec} (hx : c.prot.groups.lookup g = some x) (hr : protRec c g = some r)
    (hd : evalDue c x = true) (hw : protWaiting c = some (1, g)) (hsb : c.dev.sbDown = false) :
    (protEval1 g c).prot.groups.lookup g = some (evalGroup r (now c) (some 1) x).1 ∧ LockoutAnswered (protEval1 g c) ∧ (protEval1 g c).dev = c.dev := by
  obtain ⟨h0, hstand, hst, -, -⟩ := evalGroup_lockout r (now c) x
  obtain ⟨k, hk⟩ := cur_of_protWaiting hw
  have e : protEval1 g c = mbReply 0 0x1A00 0 (jnlCmd (BitVec.ofNat 32 (1 * 65536 + g)) (setGroups (tput c.prot.groups g (evalGroup r (now c) (some 1) x).1) c)) := by
    unfold protEval1
    simp only [hx, hr, hd, hw, Bool.not_true, Bool.false_eq_true, if_false, if_true, h0, hstand, hst]
    rfl
  have hmb : (jnlCmd (BitVec.ofNat 32 (1 * 65536 + g)) (setGroups (tput c.prot.groups g (evalGroup r (now c) (some 1) x).1) c)).mb = c.mb := by simp
  rw [e]
  refine ⟨?_, ?_, by simp⟩
  · rw [mbReply_prot, jnlCmd_prot]
    exact lookup_tput_same _ _ _
  · unfold LockoutAnswered
    rw [mbReply_up (by simpa using hsb), (mbDeliver_mb _ (hmb ▸ hk)).1]
    exact ⟨rfl, rfl, rfl, rfl⟩

/-- The tick's evaluation answers the lockout that waits. -/
theorem protEvaluate_lockout {g : Nat} {c : Chip} {x : GrpSt} {r : Rec} (hx : c.prot.groups.lookup g = some x) (hr : protRec c g = some r)
    (hd : evalDue c x = true) (hw : protWaiting c = some (1, g)) (hsb : c.dev.sbDown = false) :
    (protEvaluate c).prot.groups.lookup g = some (evalGroup r (now c) (some 1) x).1 ∧ LockoutAnswered (protEvaluate c) := by
  obtain ⟨-, -, -, -, hat⟩ := evalGroup_lockout r (now c) x
  have hloop : (forEach (tkeys c.prot.groups) protEval1 c).prot.groups.lookup g = some (evalGroup r (now c) (some 1) x).1 ∧
      LockoutAnswered (forEach (tkeys c.prot.groups) protEval1 c) ∧ (forEach (tkeys c.prot.groups) protEval1 c).dev = c.dev := by
    refine forEach_reaches (Q := fun b => ∃ m, b = setGroups m c ∧ m.lookup g = some x)
      (R := fun b => b.prot.groups.lookup g = some (evalGroup r (now c) (some 1) x).1 ∧ LockoutAnswered b ∧ b.dev = c.dev) (g := g) ?_ ?_ ?_
      (mem_tkeys _ _ _ hx) ⟨c.prot.groups, rfl, hx⟩
    · rintro j _ hj ⟨m, rfl, hm⟩
      obtain ⟨m', he, hl⟩ := protEval1_quiet (j := j) (c := setGroups m c) (fun w h => by
        rw [show protWaiting (setGroups m c) = protWaiting c from rfl, hw] at h
        rw [← Option.some.inj h]
        exact Ne.symm hj)
      exact ⟨m', he, (hl g (Ne.symm hj)).trans hm⟩
    · rintro _ ⟨m, rfl, hm⟩
      exact protEval1_lockout (c := setGroups m c) hm hr hd hw hsb
    · rintro j b ⟨hb, hans, hdev⟩
      by_cases hj : j = g
      · subst hj
        rw [protEval1_done hb (by unfold evalDue; rw [hat, now, now, hdev]; simp)]
        exact ⟨hb, hans, hdev⟩
      · obtain ⟨m', he, hl⟩ := protEval1_quiet (j := j) (c := b) (fun w h => by
          rw [protWaiting_of_idle hans.1] at h
          exact absurd h (by simp))
        rw [he]
        exact ⟨(hl g (Ne.symm hj)).trans hb, hans, hdev⟩
  obtain ⟨hg, hans, -⟩ := hloop
  unfold protEvaluate protNoGroup
  rw [protWaiting_of_idle hans.1]
  exact ⟨hg, hans⟩

/-- A selection that is due and differs from the selector's. -/
theorem selectorChange_eq {g n d : Nat} {c : Chip} {x : GrpSt} {r : Rec} (hx : c.prot.groups.lookup g = some x) (hr : protRec c g = some r)
    (hd : x.decided = some d) (hn : d ≤ n) (hs : (getSel c g).select ≠ x.select) :
    selectorChange g n c = grpNotify r (event 0x15 0 0 x.cause g (bnat x.select) n false)
      (updSel g (fun s => { s with select := x.select, switches := s.switches + 1 }) (updGrp g (fun x => { x with decided := none, lastSwitch := n }) c)) := by
  have hsel : getSel (updGrp g (fun x => { x with decided := none, lastSwitch := n }) c) g = getSel c g := by simp [getSel]
  unfold selectorChange
  simp only [hx, hr, hd, if_neg (Nat.not_lt.2 hn), hsel, if_neg hs]

theorem grpNotify_keeps (r : Rec) (n : Notice) (c : Chip) : (grpNotify r n c).jct = c.jct ∧ (grpNotify r n c).prot = c.prot := by
  unfold grpNotify
  dsimp only
  split <;> simp

/-- A group's notice that its class does not mute is raised (R287). -/
theorem grpNotify_raised {r : Rec} (n : Notice) {c : Chip} (h : noticeMute (classRec c (grpClass c r)) = false) (hr : NoticeRoom 1 c) :
    Raised { n with prio := bits (classRec c (grpClass c r)) 8 2 } (grpNotify r n c) := by
  unfold grpNotify
  dsimp only
  rw [h]
  exact notify_raised _ hr

/-- Settles O41: the selector takes the selection; the loop over the groups answers the lockout at its group. -/
theorem selectorsAndCommands : Obligations.SelectorsAndCommands := by
  unfold Obligations.SelectorsAndCommands
  refine ⟨fun s g x r d hi hx hr hd hn hs hroom => ?_, fun s g x r hi hx hr h1 h2 hw hsb => ?_⟩
  · refine does_guard (f := fun c => selectorChange g (now c)) rfl hi (by simp) ?_
    rw [selectorChange_eq (n := now s.c) hx hr hd hn hs]
    generalize hc1 : updSel g (fun s => { s with select := x.select, switches := s.switches + 1 }) (updGrp g (fun x => { x with decided := none, lastSwitch := now s.c }) s.c) = c1
    obtain ⟨hj, hp⟩ := grpNotify_keeps r (event 0x15 0 0 x.cause g (bnat x.select) (now s.c) false) c1
    have hsel : ∀ k, getSel (grpNotify r (event 0x15 0 0 x.cause g (bnat x.select) (now s.c) false) c1) k = getSel c1 k := by
      intro k
      unfold getSel
      rw [hj]
    have himg : c1.img = s.c.img := by rw [← hc1]; simp
    have hold : ∀ k, getSel (updGrp g (fun x => { x with decided := none, lastSwitch := now s.c }) s.c) k = getSel s.c k := by
      intro k
      simp [getSel]
    refine ⟨?_, fun k hk => ?_, ?_, fun hm => ?_⟩
    · rw [hsel, ← hc1, updSel_get, hold]
    · rw [hsel, ← hc1, updSel_get_other _ _ hk, hold]
    · rw [hp, ← hc1, updSel_prot, updGrp_lookup, hx]
      rfl
    · have hcls : classRec c1 (grpClass c1 r) = classRec s.c (grpClass s.c r) := by
        unfold classRec grpClass theImage
        rw [himg]
      have hraise := grpNotify_raised (event 0x15 0 0 x.cause g (bnat x.select) (now s.c) false) (c := c1) (by rw [hcls]; exact hm)
        (by rw [← hc1]; simpa [NoticeRoom] using hroom)
      rw [hcls] at hraise
      exact hraise
  · obtain ⟨hg, hans⟩ := protEvaluate_lockout hx hr (evalDue_of h1 h2) hw hsb
    obtain ⟨-, e1, e2, e3, -⟩ := evalGroup_lockout r (now s.c) x
    refine does_onChip (fun c => if onImage c then protEvaluate c else protNoGroup c) rfl (by rw [if_pos hi]; simp) ?_
    rw [if_pos hi]
    exact ⟨⟨_, hg, e1, e2, e3⟩, hans⟩

end Sys2Proof.Machine
end

section
/-!
PROOFS. The mailbox: a submission is discarded, refused or accepted (O42, O43; R425 to R427, R430).
-/
namespace Sys2Proof.Machine
open Sys2Proof

/-! ### What a submission does -/

/-- The command as the mailbox holds it once accepted (R425). -/
def mbEntry (code : Nat) (tag : Byte) (c : Chip) : MbCur :=
  { code := code, tag := tag, accept := now c, p0 := c.mb.p0, p1 := c.mb.p1, p2 := c.mb.p2, p3 := c.mb.p3 }

/-- The chip with a command accepted, before it is judged. -/
def mbAccepted (code : Nat) (tag : Byte) (c : Chip) : Chip :=
  countEvent 0x080 0x1FF 1 { c with mb := { c.mb with cur := some (mbEntry code tag c), accept := now c } }

theorem mbAccepted_mb (code : Nat) (tag : Byte) (c : Chip) :
    (mbAccepted code tag c).mb = { c.mb with cur := some (mbEntry code tag c), accept := now c } := by
  simp [mbAccepted]

theorem mbAccepted_mask {l : List Part} (hmb : Part.mb ∈ l) (hdep : Part.dep ∈ l) (code : Nat) (tag : Byte) (c : Chip) :
    mask l (mbAccepted code tag c) = mask l c := by
  simp [mbAccepted, hmb, hdep]

section
variable {code : Nat} {tag : Byte} {bf : Bool} {ok : Chip → Bool} {act : Chip → Chip} {c : Chip}

theorem awake_of_state (hs : c.dev.state ≠ .cold) : awake c = true := by
  simp [awake, hs]

theorem mbSubmit_busy (hs : c.dev.state ≠ .cold) (hb : c.mb.cur ≠ none) :
    mbSubmit code tag bf ok act c = { c with mb := { c.mb with overrun := true } } := by
  have hsome : c.mb.cur.isSome = true := Option.isSome_iff_ne_none.2 hb
  unfold mbSubmit
  simp only [awake_of_state hs, hsome, Bool.not_true, Bool.false_eq_true, if_false, if_true]

/-- With the mailbox free a submission is accepted and judged. -/
theorem mbSubmit_free (hs : c.dev.state ≠ .cold) (hb : c.mb.cur = none) (hcode : mbCodes.contains code = true) :
    mbSubmit code tag bf ok act c = if !mbLegal code c.dev.state bf then mbReply 1 0 0 (mbAccepted code tag c)
      else if !(mbParamsOk code c.dev.state c && ok c) then mbReply 3 0 0 (mbAccepted code tag c)
      else act (mbAccepted code tag c) := by
  unfold mbSubmit
  simp only [awake_of_state hs, hb, hcode, Option.isSome_none, Bool.not_true, Bool.false_eq_true, if_false]
  rfl

theorem mbSubmit_taken (hs : c.dev.state ≠ .cold) (hb : c.mb.cur = none) (hcode : mbCodes.contains code = true)
    (hl : mbLegal code c.dev.state bf = true) (hp : mbParamsOk code c.dev.state c = true) (hok : ok c = true) :
    mbSubmit code tag bf ok act c = act (mbAccepted code tag c) := by
  rw [mbSubmit_free hs hb hcode, if_neg (by simp [hl]), if_neg (by simp [hp, hok])]

/-- A reply that is given at once (R426). -/
theorem mbReply_accepted (hb : c.dev.sbDown = false) (result r0 r1 : Nat) :
    (mbReply result r0 r1 (mbAccepted code tag c)).mb = { c.mb with cur := none, held := none, done := true, code := BitVec.ofNat 12 code, tag := tag, result := BitVec.ofNat 8 result, reply0 := BitVec.ofNat 32 r0, reply1 := BitVec.ofNat 32 r1, accept := now c } ∧
    IntSet 0 (mbReply result r0 r1 (mbAccepted code tag c)) := by
  have hsb : (mbAccepted code tag c).dev.sbDown = false := by simpa [mbAccepted] using hb
  have hcur : (mbAccepted code tag c).mb.cur = some (mbEntry code tag c) := by rw [mbAccepted_mb]
  obtain ⟨hmb, hint⟩ := mbDeliver_mb { result := result, r0 := BitVec.ofNat 32 r0, r1 := BitVec.ofNat 32 r1 } hcur
  rw [mbReply_up hsb]
  exact ⟨by rw [hmb, mbAccepted_mb]; rfl, hint⟩

end

/-! ### Commands that wait -/

/-- The commands of kind B: each row submits its code, and its own check is the one given. -/
theorem exec_kindB {s : State} {tag : Byte} {i : Instr} {code : Nat} {ok : Bool}
    (h : (i, code, ok) ∈ [(Instr.protCmd tag, 0x020, protCmdOk s.c), (.refSelect tag, 0x030, refSelectOk s.c),
      (.timeAdjust tag, 0x031, timeAdjustOk s.c), (.tickAlign tag, 0x032, tickAlignOk s.c), (.ppsAlign tag, 0x033, ppsAlignOk s.c),
      (.phaseStep tag, 0x034, phaseStepOk s.c), (.hoReset tag, 0x035, true), (.tabletClaim tag, 0x041, true)]) :
    ∃ check, exec i s = .next (onChip (mbSubmit code tag false check id) s) ∧ check s.c = ok ∧ mbCodes.contains code = true := by
  simp only [List.mem_cons, Prod.mk.injEq, List.not_mem_nil, or_false] at h
  rcases h with ⟨rfl, rfl, rfl⟩ | ⟨rfl, rfl, rfl⟩ | ⟨rfl, rfl, rfl⟩ | ⟨rfl, rfl, rfl⟩ | ⟨rfl, rfl, rfl⟩ | ⟨rfl, rfl, rfl⟩ | ⟨rfl, rfl, rfl⟩ |
    ⟨rfl, rfl, rfl⟩ <;> exact ⟨_, rfl, rfl, by decide⟩

/-- `BUSY` is the top bit of `MB_STATUS` (R425). -/
theorem mbStatusWord_busy {m : MbSt} {k : MbCur} (h : m.cur = some k) : bitAt (mbStatusWord m) 31 = true := by
  have hval : packN [(1, bnat m.cur.isSome), (1, bnat m.done), (1, bnat m.overrun), (1, 0), (12, m.code.toNat), (8, m.tag.toNat), (8, m.result.toNat)] >>> 31 = 1 := by
    have hshift := packN_cons_shift 1 (bnat m.cur.isSome) [(1, bnat m.done), (1, bnat m.overrun), (1, 0), (12, m.code.toNat), (8, m.tag.toNat), (8, m.result.toNat)]
    rw [h] at hshift ⊢
    exact hshift
  have hlt := packN_lt [(1, bnat m.cur.isSome), (1, bnat m.done), (1, bnat m.overrun), (1, 0), (12, m.code.toNat), (8, m.tag.toNat), (8, m.result.toNat)]
  have hmod := Nat.mod_eq_of_lt hlt
  unfold bitAt mbStatusWord reg32
  rw [BitVec.toNat_ofNat]
  exact (congrArg (fun v => v >>> 31 % 2 == 1) hmod).trans (by rw [hval]; rfl)

/-- The command a mailbox holds, as later boundaries see it. -/
theorem mbHolds_entry {c d : Chip} {code : Nat} {tag : Byte} (h : d.mb.cur = some (mbEntry code tag c)) : mbHolds code d = some (mbEntry code tag c) := by
  rw [mbHolds, h]
  simp [mbEntry]

/-- Settles O42: the submission is accepted as it stands, and each boundary's step reads it from the mailbox. -/
theorem mailboxCommandsWait : Obligations.MailboxCommandsWait := by
  unfold Obligations.MailboxCommandsWait
  intro s tag code ok i hmem hs hcur hl hp hok
  obtain ⟨check, he, hcheck, hcode⟩ := exec_kindB hmem
  have hstep : mbSubmit code tag false check id s.c = mbAccepted code tag s.c := mbSubmit_taken hs hcur hcode hl hp (hcheck.trans hok)
  refine does_onChip _ he (by rw [hstep]; exact mbAccepted_mask (by decide) (by decide) code tag s.c) ?_
  rw [hstep, mbAccepted_mb]
  refine ⟨rfl, mbStatusWord_busy rfl, fun d n hd hheld hn => ?_⟩
  have hholds : mbHolds code d = some (mbEntry code tag s.c) := mbHolds_entry (by rw [hd])
  refine ⟨?_, fun h20 htick => ?_, fun h30 => ?_⟩
  · rw [cmdWaiting, hholds]
    simp [mbEntry, now, hheld, hn]
  · subst h20
    rw [protWaiting, hholds]
    simp [mbEntry, now, hheld, htick, hn]
  · subst h30
    rw [refWaiting, hholds]
    simp [mbEntry, now, hheld, hn]

/-! ### Commands that are refused -/

/-- Every row of the mailbox submits its code; what else it writes before is a card's file as found, and what it writes to memory it
writes only where the command is taken. -/
def RowSubmits (s : State) (tag : Byte) (p : Nat × Instr) : Prop :=
  ∃ bf check act u m, exec p.2 s = .next { s with c := mbSubmit p.1 tag bf check act { s.c with upd := u }, mem := m } ∧
    u.live = s.c.upd.live ∧ u.act = s.c.upd.act ∧ mbCodes.contains p.1 = true ∧
    (bf = decide (s.c.upd.bootFail ≠ 0) ∨ (p.1 < 0x050 ∧ bf = false)) ∧ (mbTaken p.1 bf check s.c = false → m = s.mem)

section
variable {s : State} {tag : Byte} {code : Nat} {i : Instr} {check : Chip → Bool} {act : Chip → Chip}

/-- A row of the image, protection, timing and pairing groups. -/
theorem rowSubmits_host (he : exec i s = .next (onChip (mbSubmit code tag false check act) s)) (hcode : mbCodes.contains code = true)
    (hlow : code < 0x050) : RowSubmits s tag (code, i) :=
  ⟨false, check, act, s.c.upd, s.mem, he, rfl, rfl, hcode, .inr ⟨hlow, rfl⟩, fun _ => rfl⟩

/-- A row of the update group, with the card's file it has found. -/
theorem rowSubmits_upd (u : UpdSt) (he : exec i s = .next (onChip (fun c => mbSubmit code tag (inBootFail s.c) check act { c with upd := u }) s))
    (hcode : mbCodes.contains code = true) (hlive : u.live = s.c.upd.live) (hact : u.act = s.c.upd.act) : RowSubmits s tag (code, i) :=
  ⟨inBootFail s.c, check, act, u, s.mem, he, hlive, hact, hcode, .inl rfl, fun _ => rfl⟩

/-- A row that writes its bytes to memory where the command is taken. -/
theorem rowSubmits_mem {bf : Bool} {m : List Host.Cell} (he : exec i s = .next { s with c := mbSubmit code tag bf check act s.c, mem := if mbTaken code bf check s.c then m else s.mem })
    (hcode : mbCodes.contains code = true) (hbf : bf = decide (s.c.upd.bootFail ≠ 0) ∨ (code < 0x050 ∧ bf = false)) : RowSubmits s tag (code, i) :=
  ⟨bf, check, act, s.c.upd, _, he, rfl, rfl, hcode, hbf, fun h => by rw [h]; rfl⟩

end

theorem rowSubmits_settingsRead (s : State) (tag : Byte) : RowSubmits s tag (0x058, .settingsRead tag) := by
  have he : exec (.settingsRead tag) s = .next (settingsReadCmd tag s) := rfl
  unfold settingsReadCmd at he
  cases ho : settingsReadOut s.c with
  | some l =>
    rw [ho] at he
    exact rowSubmits_mem he (by decide) (.inl rfl)
  | none =>
    rw [ho] at he
    exact rowSubmits_upd s.c.upd he (by decide) rfl rfl

/-- Every row of the mailbox's table submits its code. -/
theorem rowSubmits (s : State) (tag : Byte) (file : Option (List Byte)) : ∀ p, p ∈ mbRows tag file → RowSubmits s tag p := by
  simp only [mbRows, List.forall_mem_cons]
  exact ⟨rowSubmits_host rfl (by decide) (by decide), rowSubmits_host rfl (by decide) (by decide), rowSubmits_host rfl (by decide) (by decide),
    rowSubmits_mem rfl (by decide) (.inr ⟨by decide, rfl⟩), rowSubmits_host rfl (by decide) (by decide), rowSubmits_host rfl (by decide) (by decide),
    rowSubmits_host rfl (by decide) (by decide), rowSubmits_host rfl (by decide) (by decide), rowSubmits_host rfl (by decide) (by decide),
    rowSubmits_host rfl (by decide) (by decide), rowSubmits_host rfl (by decide) (by decide), rowSubmits_host rfl (by decide) (by decide),
    rowSubmits_host rfl (by decide) (by decide), rowSubmits_mem rfl (by decide) (.inl rfl), rowSubmits_upd s.c.upd rfl (by decide) rfl rfl,
    rowSubmits_upd s.c.upd rfl (by decide) rfl rfl, rowSubmits_upd { s.c.upd with file := file } rfl (by decide) rfl rfl,
    rowSubmits_upd s.c.upd rfl (by decide) rfl rfl, rowSubmits_upd s.c.upd rfl (by decide) rfl rfl, rowSubmits_upd s.c.upd rfl (by decide) rfl rfl,
    rowSubmits_upd s.c.upd rfl (by decide) rfl rfl, rowSubmits_settingsRead s tag, rowSubmits_upd s.c.upd rfl (by decide) rfl rfl,
    rowSubmits_upd { s.c.upd with wipe := file } rfl (by decide) rfl rfl, fun _ h => absurd h List.not_mem_nil⟩

/-- A row whose command is refused with a code. -/
theorem does_rowRefused {s : State} {tag : Byte} {p : Nat × Instr} {u : UpdSt} {m : List Host.Cell} {bf : Bool} {check : Chip → Bool} {act : Chip → Chip} {result : Nat}
    (he : exec p.2 s = .next { s with c := mbSubmit p.1 tag bf check act { s.c with upd := u }, mem := m }) (hm : m = s.mem) (hsb : s.c.dev.sbDown = false)
    (hlive : u.live = s.c.upd.live) (hact : u.act = s.c.upd.act)
    (hr : mbSubmit p.1 tag bf check act { s.c with upd := u } = mbReply result 0 0 (mbAccepted p.1 tag { s.c with upd := u })) :
    Does p.2 s [.mb, .int, .host, .upd, .dep] (fun c => IntSet 0 c ∧ c.upd.live = s.c.upd.live ∧ c.upd.act = s.c.upd.act ∧
      c.mb = { s.c.mb with cur := none, held := none, done := true, code := BitVec.ofNat 12 p.1, tag := tag, result := BitVec.ofNat 8 result, reply0 := 0, reply1 := 0, accept := s.c.dev.tick }) := by
  obtain ⟨hmb, hint⟩ := mbReply_accepted (c := { s.c with upd := u }) (code := p.1) (tag := tag) hsb result 0 0
  have hupd : (mbReply result 0 0 (mbAccepted p.1 tag { s.c with upd := u })).upd = u := by
    rw [mbReply_upd]
    simp [mbAccepted]
  have hmask : mask [.mb, .int, .host, .upd, .dep] (mbReply result 0 0 (mbAccepted p.1 tag { s.c with upd := u })) = mask [.mb, .int, .host, .upd, .dep] s.c := by
    rw [mbReply_mask (by decide) (by decide) (by decide), mbAccepted_mask (by decide) (by decide), mask_set_upd (by decide)]
  rw [hr] at he
  exact ⟨_, he, ⟨hm, rfl, (mask_eq_iff _ _).1 hmask⟩, hint, by rw [hupd, hlive], by rw [hupd, hact], hmb⟩

/-- Settles O43: each row submits its code, and the submission is discarded or refused before the command's own step. -/
theorem mailboxRefuses : Obligations.MailboxRefuses := by
  unfold Obligations.MailboxRefuses
  refine ⟨fun s tag file p hp hs hb => ?_, fun s tag file p hp hs hb hsb hl hlow => ?_, fun s tag file p hp hs hb hsb hl hlow hpar => ?_⟩
  · obtain ⟨bf, check, act, u, m, he, hlive, hact, -, -, hm⟩ := rowSubmits s tag file p hp
    rw [mbSubmit_busy (c := { s.c with upd := u }) hs hb] at he
    refine ⟨_, he, ⟨hm ?_, rfl, (mask_eq_iff _ _).1 ((mask_set_mb (by decide) _ _).trans (mask_set_upd (by decide) s.c u))⟩, rfl, hlive, hact⟩
    have hsome : s.c.mb.cur.isSome = true := Option.isSome_iff_ne_none.2 hb
    simp [mbTaken, Option.isNone_eq_false_iff.2 hsome]
  · obtain ⟨bf, check, act, u, m, he, hlive, hact, hcode, hbf, hm⟩ := rowSubmits s tag file p hp
    have hl' : mbLegal p.1 s.c.dev.state bf = false := by
      rcases hbf with h | ⟨h, hf⟩
      · rw [h]; exact hl
      · rw [hf]; exact hlow h
    exact does_rowRefused (result := 1) he (hm (by simp [mbTaken, hl'])) hsb hlive hact
      ((mbSubmit_free (c := { s.c with upd := u }) hs hb hcode).trans (if_pos (by simp [hl'])))
  · obtain ⟨bf, check, act, u, m, he, hlive, hact, hcode, hbf, hm⟩ := rowSubmits s tag file p hp
    have hl' : mbLegal p.1 s.c.dev.state bf = true := by
      rcases hbf with h | ⟨h, hf⟩
      · rw [h]; exact hl
      · rw [hf]; exact hlow h
    have hpar' : mbParamsOk p.1 s.c.dev.state { s.c with upd := u } = false := hpar
    exact does_rowRefused (result := 3) he (hm (by simp [mbTaken, hpar])) hsb hlive hact
      ((mbSubmit_free (c := { s.c with upd := u }) hs hb hcode).trans ((if_neg (by simp [hl'])).trans (if_pos (by simp [hpar']))))

end Sys2Proof.Machine
end

section
/-!
PROOFS. Register and memory writes (O45; R11, R418 to R420), reads and table access ports (O48; R41, R418, R426, R491, R492).
-/
namespace Sys2Proof.Machine
open Sys2Proof

/-! ### Writes -/

theorem registerWrite_eq {s : State} (hs : s.c.dev.state ≠ .cold) (w a : Nat) (l : List Byte) :
    exec (.registerWrite w a l) s = written w a (hostWrite w a l s) :=
  if_pos (awake_of hs)

/-- A 32-bit write of Window A. -/
theorem hostWrite_A {a : Nat} {l : List Byte} {s : State} (hl : l.length = 4) (ha : a % 4 = 0) (hin : a + 4 ≤ windowSize 0) :
    hostWrite 0 a l s = writeA a (BitVec.ofNat 32 (leNat l)) s := by
  have hform : writeForm 0 a l.length = true := by simp [writeForm, aligned, hl, ha, hin]
  unfold hostWrite
  rw [hform]
  simp only [Bool.not_true, Bool.false_eq_true, if_false, hl, if_true, List.take_of_length_le (Nat.le_of_eq hl)]

/-- A write the host may make of Window B. -/
theorem hostWrite_B {a : Nat} {l : List Byte} {s : State} (hl : l.length = 4 ∧ a % 4 = 0 ∨ l.length = 8 ∧ a % 8 = 0) (hin : a + l.length ≤ 0x01000000) :
    hostWrite 1 a l s = writeB a l s := by
  have hal : aligned a l.length = true := by
    rcases hl with ⟨h, h'⟩ | ⟨h, h'⟩ <;> simp [aligned, h, h']
  have hform : writeForm 1 a l.length = true := by
    have hsize : a + l.length ≤ windowSize 1 := Nat.le_trans hin (by decide)
    simp [writeForm, hal, hsize]
  unfold hostWrite
  rw [hform]
  rfl

theorem inMemory_image {a : Nat} (h : a < 0x01000000) : inMemory a = true := by
  simp [inMemory, h]

/-- A write of the image's staging region, by what the mailbox holds (R420). -/
theorem writeB_image {a : Nat} {l : List Byte} {s : State} (ha : a < 0x01000000) :
    writeB a l s = if stageBusy [0x010, 0x012, 0x013] s.c then none else some { s with mem := writeBytes 0 s.mem a l } := by
  have hb : ¬ bundleStage ≤ a := by unfold bundleStage; omega
  unfold writeB
  rw [if_pos (inMemory_image ha)]
  simp [ha, hb]

/-- The bytes a host reads of the image's staging region are those of memory (R494). -/
theorem bytesB_image {s : State} {a n : Nat} (h : a + n ≤ 0x01000000) : bytesB s a n = readBytes 0 s.mem a n := by
  have hbyte : ∀ k, k < n → byteB s (a + k) = tget 0 s.mem (a + k) := fun k hk => if_pos (inMemory_image (by omega))
  unfold bytesB upto
  clear h
  induction n generalizing a with
  | zero => rfl
  | succ n ih =>
    rw [List.range_succ_eq_map, List.map_cons, List.map_map, readBytes]
    refine congr (congrArg List.cons (hbyte 0 (Nat.succ_pos n))) ?_
    have hrest := ih (a := a + 1) (fun k hk => by
      have := hbyte (k + 1) (by omega)
      rwa [show a + 1 + k = a + (k + 1) by omega])
    rw [← hrest]
    refine List.map_congr_left (fun k _ => ?_)
    show byteB s (a + (k + 1)) = byteB s (a + 1 + k)
    rw [show a + 1 + k = a + (k + 1) by omega]

/-- Settles O45: each offset's branch of the write, and the staging region's bytes as memory's. -/
theorem registerWritesAct : Obligations.RegisterWritesAct := by
  unfold Obligations.RegisterWritesAct
  refine ⟨fun s b0 b1 b2 b3 hs => ?_, fun s b0 b1 b2 b3 hs hb => ?_, fun s b0 b1 b2 b3 hs hb => ?_, fun s a l hs hb hl hin => ?_,
    fun s a k l hs hk hcode hl hin => ?_, fun s b0 b1 b2 b3 hs => ⟨?_, ?_, ?_⟩, fun s w a l hs h4 h8 => ?_⟩
  · refine does_onChip (fun c => { c with dev := { c.dev with scratch := BitVec.ofNat 32 (leNat [b0, b1, b2, b3]) } }) ?_ (by simp) ⟨rfl, rfl⟩
    rw [registerWrite_eq hs, hostWrite_A rfl (by decide) (by decide)]
    rfl
  · refine does_onChip (setParam 0 (BitVec.ofNat 32 (leNat [b0, b1, b2, b3]))) ?_ (by simp [setParam]) rfl
    rw [registerWrite_eq hs, hostWrite_A rfl (by decide) (by decide)]
    have hfree : s.c.mb.cur.isNone = true := by rw [hb]; rfl
    show written 0 0x1010 (keepIf s.c.mb.cur.isNone _ s) = _
    rw [keepIf, if_pos hfree]
    rfl
  · rw [registerWrite_eq hs, hostWrite_A rfl (by decide) (by decide)]
    have hbusy : ¬ s.c.mb.cur.isNone = true := by simpa using hb
    show written 0 0x1010 (keepIf s.c.mb.cur.isNone _ s) = _
    rw [keepIf, if_neg hbusy]
    rfl
  · have hpos : 0 < l.length := by rcases hl with ⟨h, -⟩ | ⟨h, -⟩ <;> omega
    have he : exec (.registerWrite 1 a l) s = .next { s with mem := writeBytes 0 s.mem a l } := by
      rw [registerWrite_eq hs, hostWrite_B hl hin, writeB_image (by omega), if_neg (by simp [stageBusy, hb])]
      rfl
    refine ⟨_, he, rfl, rfl, ?_, fun j hj => tget_writeBytes_other 0 l s.mem a j hj⟩
    rw [bytesB_image hin]
    exact readBytes_writeBytes 0 l s.mem a
  · have hpos : 0 < l.length := by rcases hl with ⟨h, -⟩ | ⟨h, -⟩ <;> omega
    rw [registerWrite_eq hs, hostWrite_B hl hin, writeB_image (by omega), if_pos (by simpa [stageBusy, hk] using hcode)]
    rfl
  · rw [registerWrite_eq hs, hostWrite_A rfl (by decide) (by decide)]
    rfl
  · rw [registerWrite_eq hs, hostWrite_A rfl (by decide) (by decide)]
    rfl
  · rw [registerWrite_eq hs]
    rfl
  · have hform : writeForm w a l.length = false := by simp [writeForm, aligned, h4, h8]
    have hnone : hostWrite w a l s = none := by
      unfold hostWrite
      exact if_pos (by rw [hform]; rfl)
    rw [registerWrite_eq hs, hnone]
    rfl

/-! ### Reads -/

theorem latchedRead_eq {s : State} (hs : s.c.dev.state ≠ .cold) {w a n : Nat} (hf : readForm w a n = true) (cyc : Nat) :
    exec (.latchedRead w a n cyc) s = .next (hostRead w a n (cyc % 375000) s) :=
  (if_neg (by simp [awake_of hs])).trans (if_pos hf)

theorem lo32_toNat (v : Nat) : (lo32 v).toNat = v % 2 ^ 32 := BitVec.toNat_ofNat v 32

/-! ### Table access ports -/

/-- A 32-bit read of Window A that is no pop: its value, and what it captures. -/
theorem does_readA {s : State} {a cyc : Nat} {l : List Part} {P : Chip → Prop} (hs : s.c.dev.state ≠ .cold) (ha : a % 4 = 0) (hin : a + 4 ≤ windowSize 0)
    (h1 : a ≠ 0x3000) (h2 : a ≠ 0x3020) (hl : Part.host ∈ l) (hm : mask l (captureA (cyc % 375000) a s.c) = mask l s.c)
    (hP : P (answer (leBytes 4 (readA s.c (cyc % 375000) a).toNat) (captureA (cyc % 375000) a s.c))) : Does (.latchedRead 0 a 4 cyc) s l P := by
  have hform : readForm 0 a 4 = true := by simp [readForm, aligned, ha, hin]
  have hstep : ∀ c, readStepA (cyc % 375000) a c = (leBytes 4 (readA c (cyc % 375000) a).toNat, captureA (cyc % 375000) a c) :=
    fun c => (if_neg h1).trans (if_neg h2)
  refine does_onChip (fun c => answer (readStepA (cyc % 375000) a c).1 (readStepA (cyc % 375000) a c).2) ((latchedRead_eq hs hform cyc).trans rfl) ?_ ?_
  · rw [hstep]
    exact (mask_set_host hl _ _).trans hm
  · rw [hstep]
    exact hP

/-- A `GO` the port takes (R491, R492). -/
theorem does_tablePortGo {s : State} {k : Nat} {v : Word} {P : Chip → Prop} (hs : s.c.dev.state ≠ .cold) (hk : k < 4) (hok : tapCtrlOk (getTap s.c k) v = true)
    (hP : P (tapCtrl k v s.c)) : Does (.tablePortGo k v) s [.taps] P :=
  does_onChip (tapCtrl k v) ((if_pos (by simp [awake_of hs, hk])).trans (if_pos hok)) (by simp) hP

/-- Words that are 0 need no entry in a port's data. -/
theorem tget_filter_words (f : Nat → Word) (n j : Nat) (h : j < n) :
    tget 0 (((upto n).map (fun j => (j, f j))).filter (fun e => e.2 ≠ (0 : Word))) j = f j := by
  have key : ∀ l : List Nat, tget 0 ((l.map (fun j => (j, f j))).filter (fun e => e.2 ≠ (0 : Word))) j = if j ∈ l then f j else 0 := by
    intro l
    induction l with
    | nil => rfl
    | cons i t ih =>
      by_cases hz : f i = 0
      · rw [List.map_cons, List.filter_cons_of_neg (by simp [hz]), ih]
        by_cases hij : j = i
        · subst hij
          simp [hz]
        · simp [hij]
      · rw [List.map_cons, List.filter_cons_of_pos (p := fun e : Nat × Word => decide (e.2 ≠ 0)) (decide_eq_true hz)]
        show (if i = j then f i else tget 0 _ j) = _
        by_cases hij : i = j
        · subst hij
          simp
        · rw [if_neg hij, ih]
          simp [Ne.symm hij]
  rw [key]
  exact if_pos (List.mem_range.2 h)

/-- A read of a block in the image's staging region captures nothing (R257). -/
theorem captureB_image {a n : Nat} (h : a + n ≤ 0x01000000) (c : Chip) : captureB a n c = c := by
  unfold captureB
  exact if_neg (by simp; omega)

theorem tapOffset_block {t : TapSt} (h : tapOffset t < 0x01000000) : tapOffset t + 64 ≤ 0x01000000 := by
  unfold tapOffset at *
  omega

/-- With its first word alone enabled, a port stores that word (R492). -/
theorem tapStore_first {t : TapSt} {s s1 : State} (hen : t.wordEn = 1) (hw : writeB (tapOffset t) (leBytes 4 (tget 0 t.data 0).toNat) s = some s1) (n : Nat) :
    tapStore t (n + 1) s = some s1 := by
  induction n with
  | zero =>
    have hbit : bitAt t.wordEn 0 = true := by rw [hen]; decide
    show (if bitAt t.wordEn 0 then writeB (tapOffset t + 4 * 0) _ s else some s) = some s1
    rw [if_pos hbit]
    exact hw
  | succ n ih =>
    have hbit : bitAt t.wordEn (n + 1) = false := by
      have hz : 1 >>> (n + 1) = 0 := by rw [Nat.shiftRight_eq_div_pow, Nat.div_eq_of_lt (Nat.one_lt_two_pow (Nat.succ_ne_zero n))]
      rw [hen]
      show ((1 >>> (n + 1)) % 2 == 1) = false
      rw [hz]
      rfl
    show (tapStore t (n + 1) s).bind (fun s1 => if bitAt t.wordEn (n + 1) then _ else some s1) = some s1
    rw [ih, Option.bind_some, hbit]
    rfl

/-- Settles O48: each read's value and capture; a port's operation on the block it names. -/
theorem readsAndPorts : Obligations.ReadsAndPorts := by
  unfold Obligations.ReadsAndPorts
  refine ⟨fun s cyc hs hc => ?_, fun s cyc hs => ?_, fun s cyc hs => ?_, fun s a n cyc hs ha hn h0 h4 hin => ?_, fun s cyc a n hs h4 h8 => ?_,
    fun s k v hs hk hv hgo hb => ?_, fun s k v hs hk hv hgo hb hw hen => ?_, fun s k hs hk hb hw hoff => ?_, fun s k hs hk hb hw hen hoff hfree => ?_⟩
  · refine does_readA hs (by decide) (by decide) (by decide) (by decide) (by decide) (mask_set_dev (by decide) _ _) ⟨?_, rfl, ?_, rfl, rfl⟩
    · show leBytes 4 (lo32 s.c.dev.tick).toNat = _
      rw [lo32_toNat]
    · show BitVec.ofNat 19 (cyc % 375000) = _
      rw [Nat.mod_eq_of_lt hc]
  · refine does_readA hs (by decide) (by decide) (by decide) (by decide) (by decide) (mask_set_mb (by decide) _ _) ⟨?_, rfl⟩
    show leBytes 4 (lo32 s.c.mb.accept).toNat = _
    rw [lo32_toNat]
  · exact does_readA hs (by decide) (by decide) (by decide) (by decide) (by decide) rfl (by decide : leBytes 4 (0 : Word).toNat = [0, 0, 0, 0])
  · have hform : readForm 1 a n = true := by
      have hsize : a + n ≤ windowSize 1 := Nat.le_trans hin (by decide)
      simp [readForm, ha, hn, h4, hsize, Nat.one_le_iff_ne_zero.2 (Nat.ne_of_gt h0)]
    refine does_onChip (fun c => answer (bytesB s a n) (captureB a n c)) ((latchedRead_eq hs hform cyc).trans rfl) ?_ ?_
    · rw [captureB_image hin]
      simp [answer]
    · exact bytesB_image hin
  · exact (if_neg (by simp [awake_of hs])).trans (if_neg (by simp [readForm, aligned, h4, h8]))
  · refine does_tablePortGo hs hk (by simp [tapCtrlOk, hv, hb]) ⟨?_, ?_, ?_, fun j hj => updTap_get_other _ _ hj⟩ <;>
      simp [tapCtrl, hgo, hb]
  · refine does_tablePortGo hs hk (by simp [tapCtrlOk, hv, hw, hen]) ⟨?_, ?_⟩ <;> simp [tapCtrl, hgo, hb]
  · have hblk := tapOffset_block hoff
    refine does_onChip (fun c => captureB (tapOffset (getTap s.c k)) 64 (updTap k (fun t => { t with busy := false, done := true })
      (updTap k (fun t => { t with data := ((upto 16).map (fun j => (j, BitVec.ofNat 32 (leNat (bytesB s (tapOffset (getTap s.c k) + 4 * j) 4))))).filter (fun e => e.2 ≠ (0 : Word)) }) c)))
      ((if_pos (by simp [awake_of hs, hk, hb])).trans ?_) ?_ ⟨?_, ?_, fun j hj => ?_⟩
    · unfold tapEnd
      dsimp only
      rw [hw]
      rfl
    · rw [captureB_image hblk]
      simp
    · rw [captureB_image hblk]
      simp
    · rw [captureB_image hblk]
      simp
    · rw [captureB_image hblk, updTap_get, updTap_get]
      refine (tget_filter_words (fun j => BitVec.ofNat 32 (leNat (bytesB s (tapOffset (getTap s.c k) + 4 * j) 4))) 16 j hj).trans ?_
      rw [bytesB_image (by omega)]
  · have hblk := tapOffset_block hoff
    have hst : tapStore (getTap s.c k) 16 s = some { s with mem := writeBytes 0 s.mem (tapOffset (getTap s.c k)) (leBytes 4 (tget 0 (getTap s.c k).data 0).toNat) } :=
      tapStore_first hen (by rw [writeB_image hoff, if_neg (by simp [stageBusy, hfree])]) 15
    have he : exec (.tablePortDone k) s = .next (onChip (updTap k (fun t => { t with busy := false, done := true }))
        { s with mem := writeBytes 0 s.mem (tapOffset (getTap s.c k)) (leBytes 4 (tget 0 (getTap s.c k).data 0).toNat) }) := by
      refine (if_pos (by simp [awake_of hs, hk, hb])).trans ?_
      unfold tapEnd
      dsimp only
      rw [if_pos hw, hst]
      rfl
    refine ⟨_, he, (mask_eq_iff _ _).1 (by simp), by simp, by simp, ?_, fun j hj => ?_⟩
    · have hread := readBytes_writeBytes 0 (leBytes 4 (tget 0 (getTap s.c k).data 0).toNat) s.mem (tapOffset (getTap s.c k))
      rw [leBytes_length] at hread
      exact hread
    · exact tget_writeBytes_other 0 _ s.mem _ j (by rw [leBytes_length]; exact hj)

end Sys2Proof.Machine
end

section
/-!
PROOFS. The strait link: what is sent and what every message shows (O49; R104, R355, R357, R363 to R367, R374, R406, R480, R486).
-/
namespace Sys2Proof.Machine
open Sys2Proof

/-! ### Messages sent with no slot acting on the link -/

theorem mem_tput {α : Type} (m : FMap α) (i : Nat) (v : α) (e : Nat × α) (h : e ∈ tput m i v) : e = (i, v) ∨ e ∈ m := by
  induction m with
  | nil => exact .inl (List.mem_singleton.1 h)
  | cons x t ih =>
    obtain ⟨k, w⟩ := x
    unfold tput at h
    split at h
    · rcases List.mem_cons.1 h with h | h
      · exact .inl h
      · exact .inr h
    · split at h
      · rcases List.mem_cons.1 h with h | h
        · exact .inl h
        · exact .inr (List.mem_cons_of_mem _ h)
      · rcases List.mem_cons.1 h with h | h
        · exact .inr (h ▸ List.mem_cons_self)
        · exact (ih h).imp_right (List.mem_cons_of_mem _)

/-- An injection slot that neither runs nor holds a message back. -/
def SlotQuiet (x : InjSlot) : Prop := x.running = false ∧ x.late = []

theorem tget_quiet {m : FMap InjSlot} (h : ∀ e, e ∈ m → SlotQuiet e.2) (k : Nat) : SlotQuiet (tget injDflt m k) := by
  induction m with
  | nil => exact ⟨rfl, rfl⟩
  | cons x t ih =>
    show SlotQuiet (if x.1 = k then x.2 else tget injDflt t k)
    split
    · exact h x List.mem_cons_self
    · exact ih (fun e he => h e (List.mem_cons_of_mem _ he))

/-- A change that leaves every slot quiet leaves the link clear. -/
theorem updInj_clear {k : Nat} {f : InjSlot → InjSlot} {c : Chip} (h : StraitClear c) (hf : ∀ x, SlotQuiet x → SlotQuiet (f x)) :
    StraitClear (updInj k f c) := by
  intro e he
  have hq := hf _ (tget_quiet h k)
  have hmem : e ∈ tupd injDflt c.dep.inj k f := he
  unfold tupd tset at hmem
  split at hmem
  · exact h e (List.mem_filter.1 hmem).1
  · rcases mem_tput _ _ _ _ hmem with rfl | h'
    · exact hq
    · exact h e h'

theorem straitClear_congr {a b : Chip} (h : b.dep.inj = a.dep.inj) (hc : StraitClear a) : StraitClear b := by
  unfold StraitClear at *
  rw [h]
  exact hc

theorem straitSlot_quiet {x : InjSlot} (kind : Nat) (h : x.running = false) : straitSlot kind x = (false, x) := by
  simp [straitSlot, h]

/-- With no late message, none comes nearer or goes out (R488). -/
theorem lateStep_clear {c : Chip} (h : StraitClear c) : (lateStep c).host = c.host ∧ StraitClear (lateStep c) := by
  unfold lateStep
  refine forEach_ind (Q := fun b => b.host = c.host ∧ StraitClear b) (fun k b hb => ?_) _ _ ⟨rfl, h⟩
  obtain ⟨hh, hc⟩ := hb
  have hlate : (tget injDflt b.dep.inj k).late = [] := (tget_quiet hc k).2
  simp only [hlate, List.map_nil, List.filter_nil]
  exact ⟨hh, updInj_clear hc (fun x hx => ⟨hx.1, rfl⟩)⟩

/-- A message no slot acts on is sent as it is (R480). -/
theorem straitSend_clear {c : Chip} (kind : Nat) (words : List Nat) (h : StraitClear c) :
    (straitSend kind words c).host.out = c.host.out ++ [.hokua kind words] ∧ StraitClear (straitSend kind words c) := by
  have hhits : c.dep.inj.filter (fun e => (straitSlot kind e.2).1) = [] := by
    refine List.filter_eq_nil_iff.2 (fun e he => ?_)
    rw [straitSlot_quiet kind (h e he).1]
    exact Bool.false_ne_true
  obtain ⟨hh, hc⟩ : (forEach (tkeys c.dep.inj) (fun k => updInj k (fun x => (straitSlot kind x).2)) c).host = c.host ∧
      StraitClear (forEach (tkeys c.dep.inj) (fun k => updInj k (fun x => (straitSlot kind x).2)) c) := by
    refine forEach_ind (Q := fun b => b.host = c.host ∧ StraitClear b) (f := fun k => updInj k (fun x => (straitSlot kind x).2))
      (fun k b hb => ⟨hb.1, updInj_clear hb.2 (fun x hx => ?_)⟩) _ _ ⟨rfl, h⟩
    rw [straitSlot_quiet kind hx.1]
    exact hx
  unfold straitSend
  simp only [hhits, List.map_nil, List.any_nil, List.find?_nil, Bool.false_eq_true, if_false]
  obtain ⟨lh, lc⟩ := lateStep_clear (c := emit (.hokua kind words) (forEach (tkeys c.dep.inj) (fun k => updInj k (fun x => (straitSlot kind x).2)) c)) hc
  refine ⟨?_, lc⟩
  rw [lh, emit_out, hh]

theorem pcntAdd_inj (n k : Nat) (c : Chip) : (pcntAdd n k c).dep.inj = c.dep.inj := rfl

/-- Counting touches no slot. -/
theorem countEvent_inj (ev scope k : Nat) (c : Chip) : (countEvent ev scope k c).dep.inj = c.dep.inj := by
  unfold countEvent
  split
  · rfl
  · exact forEach_keeps (fun b => b.dep.inj) (fun n b => pcntAdd_inj n k b) _ c

theorem countEvent_clear {c : Chip} (ev scope k : Nat) (h : StraitClear c) : StraitClear (countEvent ev scope k c) :=
  straitClear_congr (countEvent_inj ev scope k c) h

/-- A message sent (R364): its header as of now and its body, and the next sequence number. -/
theorem hokua_sent {c : Chip} (kind : Nat) (body : List Nat) (n : Nat) (h : StraitClear c) :
    (hokua kind body n c).host.out = c.host.out ++ [.hokua kind (hokuaHead n c ++ body)] ∧ StraitClear (hokua kind body n c) := by
  obtain ⟨ho, hc⟩ := straitSend_clear kind (hokuaHead n c ++ body) h
  refine ⟨?_, straitClear_congr rfl (countEvent_clear 0x070 0x1FF 1 hc)⟩
  show (countEvent 0x070 0x1FF 1 (straitSend kind (hokuaHead n c ++ body) c)).host.out = _
  rw [countEvent_host, ho]

theorem eq_of_mask_dep {a b : Chip} (h : mask [.dep] a = mask [.dep] b) : a = { b with dep := a.dep } := by
  cases a
  cases b
  simpa [mask] using h

theorem eq_of_mask_host_dep {a b : Chip} (h : mask [.host, .dep] a = mask [.host, .dep] b) : a = { b with host := a.host, dep := a.dep } := by
  cases a
  cases b
  simpa [mask] using h

/-- A message changes what was sent, the sequence number and the counters. -/
theorem hokua_form (kind : Nat) (body : List Nat) (n : Nat) (c : Chip) : ∃ o d,
    hokua kind body n c = { c with host := o, pair := { c.pair with msgSeq := (c.pair.msgSeq + 1) % 4294967296 }, dep := d } := by
  have hs := eq_of_mask_host_dep (straitSend_mask (l := [.host, .dep]) (by decide) (by decide) kind (hokuaHead n c ++ body) c)
  unfold hokua
  dsimp only
  rw [eq_of_mask_dep (countEvent_mask (by decide) 0x070 0x1FF 1 (straitSend kind (hokuaHead n c ++ body) c)), hs]
  exact ⟨_, _, rfl⟩

theorem hokua_pair (kind : Nat) (body : List Nat) (n : Nat) (c : Chip) :
    (hokua kind body n c).pair = { c.pair with msgSeq := (c.pair.msgSeq + 1) % 4294967296 } := by
  obtain ⟨o, d, h⟩ := hokua_form kind body n c
  rw [h]

theorem hokuaHead_congr {a b : Chip} (n : Nat) (hp : b.pair.epoch = a.pair.epoch) (hs : b.pair.msgSeq = a.pair.msgSeq) (hi : b.img = a.img)
    (hd : b.dev.state = a.dev.state) (hh : b.pair.holder = a.pair.holder) (hpow : b.power = a.power) : hokuaHead n b = hokuaHead n a := by
  unfold hokuaHead imgSeq theImage pairStrap
  rw [hp, hs, hi, hd, hh, hpow]

/-- A message and what follows it in one step: only interrupt messages after it (R422). -/
def MsixAfter (a c : Chip) : Prop := ∃ rest, c.host.out = a.host.out ++ rest ∧ ∀ o, o ∈ rest → ∃ v x d, o = Output.msix v x d

theorem msixAfter_of_host {a c : Chip} (h : c.host.out = a.host.out) : MsixAfter a c :=
  ⟨[], by rw [h, List.append_nil], fun _ ho => absurd ho List.not_mem_nil⟩

theorem MsixAfter.trans {a b c : Chip} (h : MsixAfter a b) (g : MsixAfter b c) : MsixAfter a c := by
  obtain ⟨r1, e1, h1⟩ := h
  obtain ⟨r2, e2, h2⟩ := g
  refine ⟨r1 ++ r2, by rw [e2, e1, List.append_assoc], fun o ho => ?_⟩
  rcases List.mem_append.1 ho with h | h
  · exact h1 o h
  · exact h2 o h

theorem msixAfter_sendVector (v : Nat) (c : Chip) : MsixAfter c (sendVector v c) := by
  unfold sendVector
  dsimp only
  split
  · exact msixAfter_of_host rfl
  · exact ⟨_, rfl, fun o ho => ⟨_, _, _, List.mem_singleton.1 ho⟩⟩

theorem msixAfter_setInt (src : Nat) (c : Chip) : MsixAfter c (setInt src c) := by
  unfold setInt
  split
  · exact msixAfter_of_host rfl
  · dsimp only
    split
    · exact MsixAfter.trans (msixAfter_of_host rfl) (msixAfter_sendVector _ _)
    · exact msixAfter_of_host rfl

theorem msixAfter_setDev (st : DevState) (c : Chip) : MsixAfter c (setDev st c) := by
  unfold setDev
  split
  · exact msixAfter_of_host rfl
  · exact MsixAfter.trans (msixAfter_of_host rfl) (msixAfter_setInt 4 _)

theorem MsixAfter.when {f : Chip → Chip} (h : ∀ c, MsixAfter c (f c)) (b : Bool) (c : Chip) : MsixAfter c (Machine.when b f c) := by
  cases b
  · exact msixAfter_of_host rfl
  · exact h c

/-- A message sent first in a step, only interrupt messages following. -/
theorem sent_of {kind : Nat} {body : List Nat} {n : Nat} {a b c : Chip} (ha : StraitClear a → StraitClear b) (hout : b.host.out = a.host.out)
    (hhead : hokuaHead n b = hokuaHead n a) (hafter : MsixAfter (hokua kind body n b) c) : Sent kind body n a c := by
  intro hc
  obtain ⟨rest, hr, hm⟩ := hafter
  refine ⟨rest, ?_, hm⟩
  rw [hr, (hokua_sent kind body n (ha hc)).1, hout, hhead, List.append_assoc]
  rfl

/-! ### What every message shows -/

/-- The part with the mirror as a message leaves it: ended where the twin's image changed (R374). -/
def seenMirror (h : HokuaHdr) (c : Chip) : Chip := if h.imgSeq = c.pair.twin.imgSeq then c else mirrorReset c

theorem seenMirror_form (h : HokuaHdr) (c : Chip) : ∃ m, seenMirror h c = setMirror m c ∧ m.twinRec = c.pair.mirror.twinRec ∧
    m.again = c.pair.mirror.again ∧ (m.full = true → c.pair.mirror.full = true ∧ h.imgSeq = c.pair.twin.imgSeq) := by
  unfold seenMirror
  split
  · next hi => exact ⟨c.pair.mirror, rfl, rfl, rfl, fun hf => ⟨hf, hi⟩⟩
  · exact ⟨_, rfl, rfl, rfl, fun hf => absurd hf (by simp)⟩

/-- The pairing part after a message's header (R355, R357, R364, R365). -/
def seenPair (h : HokuaHdr) (c : Chip) (m : MirrorSt) : PairSt :=
  { c.pair with mirror := m, lastMsg := now c, seen := max c.pair.seen h.epoch, strapMis := c.pair.strapMis || h.pairId == pairStrap c, twin := { c.pair.twin with state := h.devState, holder := h.holder, epoch := h.epoch, imgSeq := h.imgSeq, strap := some h.pairId } }

/-- A message's header changes the pairing part, and the counters. -/
theorem hokuaSeen_form (h : HokuaHdr) (c : Chip) : ∃ d, hokuaSeen h c = { c with pair := seenPair h c (seenMirror h c).pair.mirror, dep := d } := by
  obtain ⟨m, hm, -⟩ := seenMirror_form h c
  have e : hokuaSeen h c = countEvent 0x071 0x1FF 1 (setPair (seenPair h c (seenMirror h c).pair.mirror) c) := by
    show countEvent 0x071 0x1FF 1 (setPair { (seenMirror h c).pair with lastMsg := now (seenMirror h c), seen := max (seenMirror h c).pair.seen h.epoch, strapMis := (seenMirror h c).pair.strapMis || h.pairId == pairStrap (seenMirror h c), twin := { (seenMirror h c).pair.twin with state := h.devState, holder := h.holder, epoch := h.epoch, imgSeq := h.imgSeq, strap := some h.pairId } } (seenMirror h c)) = _
    rw [hm]
    rfl
  rw [e]
  exact ⟨_, eq_of_mask_dep (countEvent_mask (by decide) _ _ _ _)⟩

theorem hokuaSeen_pair (h : HokuaHdr) (c : Chip) : (hokuaSeen h c).pair = seenPair h c (seenMirror h c).pair.mirror := by
  obtain ⟨d, hd⟩ := hokuaSeen_form h c
  rw [hd]

theorem hokuaSeen_seen (h : HokuaHdr) (c : Chip) : Seen h c (hokuaSeen h c) := by
  unfold Seen
  rw [hokuaSeen_pair]
  exact ⟨rfl, rfl, rfl, rfl, rfl, rfl⟩

/-- A later step that keeps the pairing part but for the mirror and what no header shows. -/
theorem Seen.congr {h : HokuaHdr} {a b c : Chip} (hs : Seen h a b) (h1 : c.pair.lastMsg = b.pair.lastMsg) (h2 : c.pair.seen = b.pair.seen)
    (h3 : c.pair.twin.state = b.pair.twin.state) (h4 : c.pair.twin.epoch = b.pair.twin.epoch) (h5 : c.pair.twin.imgSeq = b.pair.twin.imgSeq)
    (h6 : c.pair.twin.strap = b.pair.twin.strap) : Seen h a c := by
  obtain ⟨e1, e2, e3, e4, e5, e6⟩ := hs
  exact ⟨h1.trans e1, h2.trans e2, h3.trans e3, h4.trans e4, h5.trans e5, h6.trans e6⟩

theorem seenMirror_dep (h : HokuaHdr) (c : Chip) : (seenMirror h c).dep = c.dep := by
  unfold seenMirror
  split <;> rfl

theorem hokuaSeen_clear {c : Chip} (h : HokuaHdr) (hc : StraitClear c) : StraitClear (hokuaSeen h c) := by
  refine countEvent_clear 0x071 0x1FF 1 (straitClear_congr (a := c) ?_ hc)
  show (seenMirror h c).dep.inj = c.dep.inj
  rw [seenMirror_dep]

/-! ### HELLO, STATUS and the fault map -/

theorem hokua_dev (kind : Nat) (body : List Nat) (n : Nat) (c : Chip) : (hokua kind body n c).dev = c.dev :=
  dev_of_mask (l := [.host, .pair, .dep]) (hokua_mask (by decide) (by decide) (by decide) kind body n c) (by decide)

theorem hokua_isl (kind : Nat) (body : List Nat) (n : Nat) (c : Chip) : (hokua kind body n c).isl = c.isl :=
  isl_of_mask (l := [.host, .pair, .dep]) (hokua_mask (by decide) (by decide) (by decide) kind body n c) (by decide)

theorem ownMap_congr {a b : Chip} (h : b.isl = a.isl) : ownMap b = ownMap a := by
  unfold ownMap getIsl
  rw [h]

/-- `HELLO` goes out with the fault map behind it (R366). -/
theorem helloSend_sent {n : Nat} {c : Chip} (h : StraitClear c) : ∃ body head map,
    (helloSend n c).host.out = c.host.out ++ [.hokua 0x01 (hokuaHead n c ++ body), .hokua 0x07 (head ++ map)] := by
  unfold helloSend faultMapSend
  dsimp only
  generalize ([c.cm.digest.toNat, c.cm.placeRev.toNat] ++ ((upto 4).map (fun k => (compOf c.upd.run k).ver)) ++
    [(handRec c).toNat % 2 ^ 128, bnat c.pair.unproven + 2 * bnat c.pair.yielded + 4 * bnat (ownReady c), ownFp]) = body
  obtain ⟨ho, hc⟩ := hokua_sent 0x01 body n h
  generalize hokua 0x01 body n c = c1 at ho hc
  generalize hc2 : setPair { c1.pair with helloAt := n, lanesUp := true } c1 = c2
  have hc2clear : StraitClear c2 := straitClear_congr (a := c1) (by rw [← hc2]; rfl) hc
  have hout : c2.host.out = c1.host.out := by rw [← hc2]; rfl
  generalize (upto 64).map (fun i => (getIsl c2 i).engOut.toNat) ++ ((upto 64).map (fun i => (getIsl c2 i).regions)).flatten = map
  obtain ⟨ho2, -⟩ := hokua_sent 0x07 map n hc2clear
  refine ⟨body, hokuaHead n c2, map, ?_⟩
  rw [setPair_host, ho2, hout, ho, List.append_assoc]
  rfl

theorem helloSend_pair (n : Nat) (c : Chip) :
    (helloSend n c).pair = { c.pair with msgSeq := (c.pair.msgSeq + 2) % 4294967296, helloAt := n, lanesUp := true, mapSent := ownMap c } := by
  have hseq : ((c.pair.msgSeq + 1) % 4294967296 + 1) % 4294967296 = (c.pair.msgSeq + 2) % 4294967296 := by omega
  unfold helloSend faultMapSend
  dsimp only
  rw [setPair_pair, hokua_pair, setPair_pair, hokua_pair, ownMap_congr (a := c) (by rw [setPair_isl, hokua_isl])]
  dsimp only
  rw [hseq]

/-- A `HELLO` received shows its body (R355, R364, R406). -/
def helloPair (h : HokuaHdr) (b : HelloBody) (c : Chip) : PairSt :=
  let p := c.pair
  { p with linkUp := true, lanesUp := true, gaveOnce := if p.linkUp then p.gaveOnce else false, yielded := if p.linkUp then p.yielded else false, strapMis := h.pairId = pairStrap c, placeMis := b.rev ≠ c.cm.placeRev.toNat || b.digest ≠ c.cm.digest || h.imgSeq ≠ imgSeq c || b.vers.getD 3 0 ≠ BitVec.ofNat 32 (compOf c.upd.run 3).ver, cfgMis := b.pairRec ≠ BitVec.ofNat 128 (handRec c).toNat && handRec c ≠ 0, twin := { p.twin with fp := some b.fp, role := bits b.pairRec 56 2, unproven := b.unproven, ready := b.ready }, twinTick := twinOffset h.txTick 0 c }

theorem helloReceived_eq (h : HokuaHdr) (b : HelloBody) (c : Chip) : helloReceived h b c = mirrorCheck
    (when ((hokuaSeen h c).pair.twin.unproven && !b.unproven) (pairNotice 0x35 1 (now (hokuaSeen h c)) false) (setPair (helloPair h b (hokuaSeen h c)) (hokuaSeen h c))) := by
  unfold helloReceived
  rfl

/-- Where the images or digests differ no region stays held (R374). -/
theorem mirrorCheck_form (c : Chip) : ∃ m, mirrorCheck c = setMirror m c ∧ (c.pair.placeMis = true → m.regions = [] ∧ m.full = false) := by
  unfold mirrorCheck
  split
  · exact ⟨_, rfl, fun _ => ⟨rfl, rfl⟩⟩
  · next h =>
    refine ⟨c.pair.mirror, rfl, fun hp => absurd ?_ h⟩
    rw [hp]
    rfl

theorem pairNotice_pair (ty bit n : Nat) (clear : Bool) (c : Chip) : (pairNotice ty bit n clear c).pair = c.pair := by
  simp [pairNotice]

theorem when_pairNotice_pair (b : Bool) (ty bit n : Nat) (clear : Bool) (c : Chip) : (when b (pairNotice ty bit n clear) c).pair = c.pair := by
  cases b
  · rfl
  · exact pairNotice_pair ty bit n clear c

/-- A pairing notice is raised (R382). -/
theorem pairNotice_raised (ty bit n : Nat) (clear : Bool) {c : Chip} (h : NoticeRoom 1 c) :
    Raised (event ty 0 0 bit 0 (c.pair.epoch % 262144) n clear) (pairNotice ty bit n clear c) := notify_raised _ h

/-- A `HELLO` received: its pairing part, but for the mirror. -/
theorem helloReceived_pair (h : HokuaHdr) (b : HelloBody) (c : Chip) : ∃ m, (helloReceived h b c).pair = { helloPair h b (hokuaSeen h c) with mirror := m } ∧
    ((helloPair h b (hokuaSeen h c)).placeMis = true → m.regions = [] ∧ m.full = false) := by
  rw [helloReceived_eq]
  obtain ⟨m, hm, hp⟩ := mirrorCheck_form (when ((hokuaSeen h c).pair.twin.unproven && !b.unproven) (pairNotice 0x35 1 (now (hokuaSeen h c)) false) (setPair (helloPair h b (hokuaSeen h c)) (hokuaSeen h c)))
  rw [when_pairNotice_pair] at hp
  refine ⟨m, ?_, hp⟩
  rw [hm]
  show { (when _ (pairNotice _ _ _ _) _).pair with mirror := m } = _
  rw [when_pairNotice_pair]
  rfl

/-- The twin's path proven is told (R382). -/
theorem helloReceived_raised {h : HokuaHdr} {b : HelloBody} {c : Chip} (hu : c.pair.twin.unproven = true) (hb : b.unproven = false) (hr : NoticeRoom 1 c) :
    Raised (event 0x35 0 0 1 0 (c.pair.epoch % 262144) c.dev.tick false) (helloReceived h b c) := by
  rw [helloReceived_eq]
  obtain ⟨m, hm, -⟩ := mirrorCheck_form (when ((hokuaSeen h c).pair.twin.unproven && !b.unproven) (pairNotice 0x35 1 (now (hokuaSeen h c)) false) (setPair (helloPair h b (hokuaSeen h c)) (hokuaSeen h c)))
  obtain ⟨d, hd⟩ := hokuaSeen_form h c
  have hun : ((hokuaSeen h c).pair.twin.unproven && !b.unproven) = true := by
    rw [hd, hb]
    show (c.pair.twin.unproven && true) = true
    rw [hu]
    rfl
  rw [hm]
  refine (Raised_congr rfl rfl).1 (?_ : Raised _ (when _ _ _))
  rw [hun, when_true]
  have hraise := pairNotice_raised 0x35 1 (now (hokuaSeen h c)) false (c := setPair (helloPair h b (hokuaSeen h c)) (hokuaSeen h c)) (by
    rw [hd]
    exact hr)
  rw [hd] at hraise ⊢
  exact hraise

/-- A `STATUS` received: its body as remembered (R363, R374). -/
def statusPair (b : StatusBody) (c : Chip) : PairSt :=
  { c.pair with mirror := { c.pair.mirror with twinRec := b.lastJournal, again := c.pair.mirror.again || journalStuck b c }, twin := { c.pair.twin with ready := b.ready, unproven := b.unproven, warm := b.warm, statTick := some (now c) } }

theorem statusReceived_pair (h : HokuaHdr) (b : StatusBody) (c : Chip) : (statusReceived h b c).pair = statusPair b (hokuaSeen h c) := by
  unfold statusReceived
  dsimp only
  rw [when_pairNotice_pair]
  rfl

/-- The turn of an island takes the twin's map (R367). -/
def twinMap (es : List (Nat × BitVec 16)) (rs : List (Nat × Nat)) (i : Nat) (x : IslSt) : IslSt :=
  { x with twinOut := tget 0 es i, twinRegions := ((rs.filter (fun r => r.1 = i)).map (·.2)).foldl insAsc [], twinMerged := true }

theorem mem_foldl_insAsc (xs l : List Nat) (j : Nat) : j ∈ xs.foldl insAsc l ↔ j ∈ xs ∨ j ∈ l := by
  induction xs generalizing l with
  | nil => simp
  | cons x t ih => rw [List.foldl_cons, ih, mem_insAsc, List.mem_cons, or_assoc, or_left_comm]

theorem mem_twinMap_regions (es : List (Nat × BitVec 16)) (rs : List (Nat × Nat)) (i : Nat) (x : IslSt) (r : Nat) :
    r ∈ (twinMap es rs i x).twinRegions ↔ (i, r) ∈ rs := by
  show r ∈ ((rs.filter (fun r => r.1 = i)).map (·.2)).foldl insAsc [] ↔ _
  rw [mem_foldl_insAsc]
  simp

/-- Every island of the map shows what the twin has out, its own state staying. -/
theorem faultMapReceived_getIsl (h : HokuaHdr) (es : List (Nat × BitVec 16)) (rs : List (Nat × Nat)) (c : Chip) {i : Nat} (hi : i < 64) :
    getIsl (faultMapReceived h es rs c) i = twinMap es rs i (getIsl c i) := by
  have hisl : getIsl (hokuaSeen h c) i = getIsl c i := by
    obtain ⟨d, hd⟩ := hokuaSeen_form h c
    rw [hd]
    rfl
  refine forEach_reaches (Q := fun b => getIsl b i = getIsl c i) (R := fun b => getIsl b i = twinMap es rs i (getIsl c i)) (g := i)
    (f := fun i => updIsl i (twinMap es rs i)) ?_ ?_ ?_ (List.mem_range.2 hi) hisl
  · intro a b ha hb
    exact (updIsl_get_other _ _ (Ne.symm ha)).trans hb
  · intro b hb
    rw [updIsl_get, hb]
  · intro a b hb
    by_cases ha : a = i
    · subst ha
      rw [updIsl_get, hb]
      rfl
    · exact (updIsl_get_other _ _ (Ne.symm ha)).trans hb

theorem faultMapReceived_pair (h : HokuaHdr) (es : List (Nat × BitVec 16)) (rs : List (Nat × Nat)) (c : Chip) :
    (faultMapReceived h es rs c).pair = (hokuaSeen h c).pair :=
  forEach_keeps (fun b => b.pair) (f := fun i => updIsl i (twinMap es rs i)) (fun _ _ => rfl) (upto 64) (hokuaSeen h c)

/-- Settles O49: each message's pairing part is the header's with the body's fields; what is sent stands at the end of what was sent. -/
theorem straitMessages : Obligations.StraitMessages := by
  unfold Obligations.StraitMessages
  refine ⟨fun s hs => ?_, fun s hs hl hd => ?_, fun s hd => ?_, fun s h b hs hr => ?_, fun s h b hs => ?_, fun s h mode hs => ?_,
    fun s h es rs i hs hi => ?_, fun s hs => ?_, fun s hs hl ht => ?_⟩
  · exact does_guard (f := fun c => helloSend (now c)) rfl (awake_of hs) (by simp) ⟨helloSend_sent, helloSend_pair _ _⟩
  · refine does_onChip (fun c => markDone 7 (statusSend (now c) c))
      (next_onChip_if (p := fun c => (awake c && c.pair.lanesUp && !(isDone 7 c)) = true) (by simp [awake_of hs, hl, hd])) (by simp [statusSend])
      ⟨⟨_, sent_of id rfl rfl (msixAfter_of_host rfl)⟩, hokua_pair _ _ _ _, isDone_markDone _ _⟩
  · show Host.Outcome.next _ = _
    refine congrArg (fun c => Host.Outcome.next { s with c := c }) (if_neg ?_)
    simp [hd]
  · obtain ⟨m, hp, hm⟩ := helloReceived_pair h b s.c
    obtain ⟨d, hd⟩ := hokuaSeen_form h s.c
    rw [hd] at hp hm
    refine does_guard (f := fun _ => helloReceived h b) rfl (awake_of hs) (by simp) ⟨?_, ?_, ?_, ?_, ?_, ?_, ?_, ?_, ?_, ?_⟩
    · unfold Seen
      rw [hp]
      exact ⟨rfl, rfl, rfl, rfl, rfl, rfl⟩
    · rw [hp]
      rfl
    · rw [hp]
      exact decide_eq_true_iff
    · rw [hp]
      simp only [helloPair, Bool.or_eq_true, decide_eq_true_eq, or_assoc]
      rfl
    · rw [hp]
      simp only [helloPair, Bool.and_eq_true, decide_eq_true_eq]
      rfl
    · rw [hp]
      rfl
    · rw [hp]
      rfl
    · intro hl
      rw [hp]
      show (if s.c.pair.linkUp then s.c.pair.yielded else false) = false
      rw [hl]
      rfl
    · intro hpl
      rw [hp] at hpl ⊢
      exact hm hpl
    · exact fun hu hb => helloReceived_raised hu hb hr
  · refine does_guard (f := fun _ => statusReceived h b) rfl (awake_of hs) (by simp) ?_
    obtain ⟨m, hm, hrec, hagain, -⟩ := seenMirror_form h s.c
    rw [statusReceived_pair]
    obtain ⟨d, hd⟩ := hokuaSeen_form h s.c
    rw [hd, hm]
    refine ⟨?_, rfl, rfl, rfl, rfl, rfl, fun hh h7 h0 hj hst => ?_⟩
    · unfold Seen
      rw [statusReceived_pair, hd]
      exact ⟨rfl, rfl, rfl, rfl, rfl, rfl⟩
    · show (m.again || (s.c.pair.holder && h.devState = 7 && b.lastJournal ≠ 0 && b.lastJournal = m.twinRec && s.c.pair.twin.statTick ≠ some (now s.c))) = true
      rw [hrec]
      have h0' := hj ▸ h0
      simp [hh, h7, hj, h0', hst, now]
  · refine does_guard (f := fun _ => hokuaSeen h) rfl (awake_of hs) (by simp) ⟨hokuaSeen_seen h s.c, ?_⟩
    rw [hokuaSeen_pair]
    exact ⟨rfl, rfl, rfl⟩
  · refine does_guard (f := fun _ => faultMapReceived h es rs) rfl (awake_of hs) (by simp) ⟨?_, ?_, fun r => ?_, ?_⟩
    · unfold Seen
      rw [faultMapReceived_pair]
      exact hokuaSeen_seen h s.c
    · rw [faultMapReceived_getIsl h es rs s.c hi]
      rfl
    · rw [faultMapReceived_getIsl h es rs s.c hi]
      exact mem_twinMap_regions es rs i _ r
    · rw [faultMapReceived_getIsl h es rs s.c hi]
      rfl
  · exact does_guard (f := fun _ => linkDown true) rfl (by simp [awake_of hs]) (by simp) (by simp [linkDown])
  · exact does_guard (f := fun _ => linkDown false) rfl (by simp [awake_of hs, linkTimeout, hl, now, ht]) (by simp) (by simp [linkDown])

end Sys2Proof.Machine
end

section
/-!
PROOFS. The tablet: leases and release (O50; R357 to R360, R363, R382), takeover, interlock and hub health (O51; R355, R357, R359, R361,
R362, R375 to R377).
-/
namespace Sys2Proof.Machine
open Sys2Proof

/-! ### Giving up the tablet -/

/-- The pairing part of a part that gave the tablet up (R357). -/
def gaveUpPair (code n : Nat) (p : PairSt) : PairSt :=
  { p with msgSeq := (p.msgSeq + 1) % 4294967296, holder := false, lastRel := code, renewed := none, entered := n, released := none, tieRun := 0, run := 0, retAt := none, withheld := [] }

/-- The chip after the release is sent and the transmitters are dark, before its flags and notice. -/
def gaveUpChip (code n : Nat) (c : Chip) : Chip :=
  setPair (gaveUpPair code n c.pair) { hokua 0x05 [code] n c with dev := { c.dev with lit := false } }

theorem giveUp_eq (code n : Nat) (c : Chip) : giveUp code n c = pairNotice 0x31 code n false
    (when (c.dev.state = .running) (setDev .standby) (when c.pair.holder (setInt 5) (gaveUpChip code n c))) := by
  unfold giveUp gaveUpChip gaveUpPair
  dsimp only
  rw [hokua_pair, hokua_dev]
  rfl

theorem when_setInt_dev (b : Bool) (src : Nat) (c : Chip) : (when b (setInt src) c).dev = c.dev := by
  cases b
  · rfl
  · exact setInt_dev src c

theorem when_setInt_pair (b : Bool) (src : Nat) (c : Chip) : (when b (setInt src) c).pair = c.pair := by
  cases b
  · rfl
  · exact setInt_pair src c

theorem when_setDev_pair (b : Bool) (st : DevState) (c : Chip) : (when b (setDev st) c).pair = c.pair := by
  cases b
  · rfl
  · exact setDev_pair st c

theorem giveUp_pair (code n : Nat) (c : Chip) : (giveUp code n c).pair = gaveUpPair code n c.pair := by
  rw [giveUp_eq, pairNotice_pair, when_setDev_pair, when_setInt_pair]
  rfl

theorem pairNotice_dev (ty bit n : Nat) (clear : Bool) (c : Chip) : (pairNotice ty bit n clear c).dev = c.dev := by
  simp [pairNotice]

theorem giveUp_dev (code n : Nat) (c : Chip) :
    (giveUp code n c).dev = { c.dev with lit := false, state := if c.dev.state = .running then .standby else c.dev.state } := by
  rw [giveUp_eq, pairNotice_dev]
  by_cases h : c.dev.state = .running
  · rw [decide_eq_true h, when_true, setDev_dev, when_setInt_dev, if_pos h]
    rfl
  · rw [decide_eq_false h, when_false, when_setInt_dev, if_neg h]
    rfl

theorem giveUp_gaveUp (code : Nat) (c : Chip) (n : Nat) : GaveUp code c (giveUp code n c) := by
  unfold GaveUp
  rw [giveUp_pair, giveUp_dev]
  exact ⟨rfl, rfl, rfl, rfl, rfl⟩

/-- A state change leaves the other interrupt sources that stand. -/
theorem IntSet_setDev {j : Nat} {st : DevState} {c : Chip} (h : IntSet j c) : IntSet j (setDev st c) := by
  unfold setDev
  split
  · exact h
  · exact IntSet_setInt (by decide) h

theorem IntSet_when_setDev {j : Nat} {st : DevState} {c : Chip} (b : Bool) (h : IntSet j c) : IntSet j (when b (setDev st) c) := by
  cases b
  · exact h
  · exact IntSet_setDev h

theorem IntSet_congr {j : Nat} {a b : Chip} (h : b.int = a.int) (hi : IntSet j a) : IntSet j b := by
  unfold IntSet at *
  rw [h]
  exact hi

theorem pairNotice_int (ty bit n : Nat) (clear : Bool) (c : Chip) : (pairNotice ty bit n clear c).int = c.int := by
  simp [pairNotice]

theorem giveUp_int {c : Chip} (code n : Nat) (h : c.pair.holder = true) : IntSet 5 (giveUp code n c) := by
  rw [giveUp_eq]
  refine IntSet_congr (pairNotice_int _ _ _ _ _) (IntSet_when_setDev _ ?_)
  rw [h]
  exact setInt_set (by decide) _

theorem pairNotice_host (ty bit n : Nat) (clear : Bool) (c : Chip) : (pairNotice ty bit n clear c).host = c.host := by
  simp [pairNotice]

/-- The release goes out first, then at most interrupt messages. -/
theorem giveUp_msix (code n : Nat) (c : Chip) : MsixAfter (hokua 0x05 [code] n c) (giveUp code n c) := by
  rw [giveUp_eq]
  refine MsixAfter.trans (MsixAfter.trans ?_ (MsixAfter.when (msixAfter_setDev .standby) _ _)) (msixAfter_of_host (congrArg HostSt.out (pairNotice_host _ _ _ _ _)))
  exact MsixAfter.trans (msixAfter_of_host rfl) (MsixAfter.when (msixAfter_setInt 5) _ _)

theorem giveUp_sent (code : Nat) (c : Chip) : Sent 0x05 [code] c.dev.tick c (giveUp code c.dev.tick c) :=
  sent_of id rfl rfl (giveUp_msix code c.dev.tick c)

/-- A later step that sends nothing. -/
theorem Sent.congr {kind : Nat} {body : List Nat} {n : Nat} {a b c : Chip} (h : Sent kind body n a b) (e : c.host = b.host) : Sent kind body n a c := by
  unfold Sent at *
  rw [e]
  exact h

/-- Its notice is raised (R382). -/
theorem giveUp_raised {c : Chip} (code n : Nat) (h : NoticeRoom 1 c) :
    Raised (event 0x31 0 0 code 0 (c.pair.epoch % 262144) n false) (giveUp code n c) := by
  rw [giveUp_eq]
  have hmask : mask [.dev, .int, .host, .pair, .dep] (when (c.dev.state = .running) (setDev .standby) (when c.pair.holder (setInt 5) (gaveUpChip code n c))) =
      mask [.dev, .int, .host, .pair, .dep] c := by
    simp [gaveUpChip]
  have hraise := pairNotice_raised 0x31 code n false
    (c := when (c.dev.state = .running) (setDev .standby) (when c.pair.holder (setInt 5) (gaveUpChip code n c))) (by
      unfold NoticeRoom
      rw [notice_of_mask hmask (by decide)]
      exact h)
  rw [when_setDev_pair, when_setInt_pair] at hraise
  exact hraise

/-! ### Leases -/

theorem hokua_seen {h : HokuaHdr} {a b : Chip} (kind : Nat) (body : List Nat) (n : Nat) (hs : Seen h a b) : Seen h a (hokua kind body n b) := by
  unfold Seen
  rw [hokua_pair]
  exact hs

/-- A renewal received, but for the answer (R358). -/
def renewSeen (h : HokuaHdr) (c : Chip) : Chip :=
  if (hokuaSeen h c).dev.state = .standby then setPair { (hokuaSeen h c).pair with renewed := some (now (hokuaSeen h c)), released := none } (hokuaSeen h c) else hokuaSeen h c

theorem renewSeen_form (h : HokuaHdr) (c : Chip) : ∃ r d, renewSeen h c = { c with dep := d, pair := { seenPair h c (seenMirror h c).pair.mirror with renewed := if c.dev.state = .standby then some c.dev.tick else c.pair.renewed, released := r } } ∧
    d = (hokuaSeen h c).dep := by
  obtain ⟨d, hd⟩ := hokuaSeen_form h c
  unfold renewSeen
  rw [hd]
  by_cases hs : c.dev.state = .standby
  · simp only [if_pos hs]
    exact ⟨_, _, rfl, rfl⟩
  · simp only [if_neg hs]
    exact ⟨_, _, rfl, rfl⟩

/-- Withholding one further condition tells it (R363, R382). -/
theorem withhold_one {k n : Nat} {c : Chip} (h : c.pair.withheld = []) :
    withhold [k] n c = pairNotice 0x33 k n false (setPair { c.pair with withheld := [k] } c) := by
  have hfirst : forEach (([k].filter (fun k => !(c.pair.withheld.contains k)))) (fun k c => pairNotice 0x33 k n false (setPair { c.pair with withheld := insAsc c.pair.withheld k } c)) c =
      pairNotice 0x33 k n false (setPair { c.pair with withheld := [k] } c) := by
    rw [h]
    show pairNotice 0x33 k n false (setPair { c.pair with withheld := insAsc c.pair.withheld k } c) = _
    rw [h]
    rfl
  unfold withhold
  rw [hfirst]
  have hheld : (pairNotice 0x33 k n false (setPair { c.pair with withheld := [k] } c)).pair.withheld = [k] := by
    rw [pairNotice_pair]
    rfl
  have hnone : ([k].filter (fun k' => !([k].contains k'))) = [] := by simp
  dsimp only
  rw [hheld, hnone]
  rfl

theorem yieldNow_eq (n : Nat) (c : Chip) : yieldNow n c = setPair { (giveUp 9 n c).pair with yielded := true } (giveUp 9 n c) := rfl

/-- Settles O50: renewals and their acknowledgements, and the release with its dark part. -/
theorem leaseAndRelease : Obligations.LeaseAndRelease := by
  unfold Obligations.LeaseAndRelease
  refine ⟨fun s hd => ?_, fun s h hs => ?_, fun s h q t hs hq ha => ?_, fun s h code hs he => ?_, fun s h code hs he => ?_,
    fun s hh hp he hy hecho hr => ?_, fun s hy => ?_, fun s k t hh hp hrun hown htw hr => ?_, fun s k hh hp hrun hown htw hw hr => ?_⟩
  · refine does_guard (b := fun c => renewDue (now c) c) (f := fun c => renewSend (now c)) rfl hd (by simp) ⟨sent_of id rfl rfl (msixAfter_of_host rfl), rfl, ?_, ?_⟩
    · show List.lookup s.c.pair.msgSeq (((s.c.pair.msgSeq, s.c.dev.tick) :: _).take 4096) = _
      simp
    · show (hokua 0x03 [] _ s.c).pair.acked = _
      rw [hokua_pair]
  · obtain ⟨r, d, hd, hdep⟩ := renewSeen_form h s.c
    have hclear : StraitClear s.c → StraitClear (renewSeen h s.c) := fun hc =>
      straitClear_congr (a := hokuaSeen h s.c) (by rw [hd, hdep]) (hokuaSeen_clear h hc)
    have hout : (renewSeen h s.c).host.out = s.c.host.out := by rw [hd]
    refine does_guard (f := fun _ => renewReceived h) rfl (awake_of hs) (by simp) ⟨?_, ?_, fun hc => ⟨hokuaHead (now (hokuaSeen h s.c)) (renewSeen h s.c), ?_⟩⟩
    · exact hokua_seen 0x04 [h.seq] (now (hokuaSeen h s.c)) (by rw [hd]; exact ⟨rfl, rfl, rfl, rfl, rfl, rfl⟩ : Seen h s.c (renewSeen h s.c))
    · show (hokua 0x04 [h.seq] (now (hokuaSeen h s.c)) (renewSeen h s.c)).pair.renewed = _
      rw [hokua_pair, hd]
    · show (hokua 0x04 [h.seq] (now (hokuaSeen h s.c)) (renewSeen h s.c)).host.out = _
      rw [(hokua_sent 0x04 [h.seq] _ (hclear hc)).1, hout]
  · obtain ⟨d, hd⟩ := hokuaSeen_form h s.c
    have e : ackReceived h q s.c = setPair { (hokuaSeen h s.c).pair with acked := max s.c.pair.acked t, sends := s.c.pair.sends.filter (fun e => t < e.2), twinTick := twinOffset h.txTick ((now s.c - t) / 2) s.c } (hokuaSeen h s.c) := by
      unfold ackReceived
      rw [hd]
      simp only [seenPair, hq]
      rfl
    have hmax : max s.c.pair.acked t = t := Nat.max_eq_right ha
    refine does_guard (f := fun _ => ackReceived h q) rfl (awake_of hs) (by simp) ?_
    rw [e, hd, hmax]
    exact ⟨⟨rfl, rfl, rfl, rfl, rfl, rfl⟩, rfl, rfl, rfl⟩
  · obtain ⟨d, hd⟩ := hokuaSeen_form h s.c
    refine does_guard (f := fun _ => releaseReceived h code) rfl (awake_of hs) (by simp) ?_
    unfold releaseReceived
    rw [hd]
    simp only [if_pos he]
    exact ⟨⟨rfl, rfl, rfl, rfl, rfl, rfl⟩, rfl, rfl, rfl⟩
  · obtain ⟨d, hd⟩ := hokuaSeen_form h s.c
    refine does_guard (f := fun _ => releaseReceived h code) rfl (awake_of hs) (by simp) ?_
    unfold releaseReceived
    rw [hd]
    simp only [if_neg (Nat.not_le.2 he)]
    exact ⟨⟨rfl, rfl, rfl, rfl, rfl, rfl⟩, rfl, rfl⟩
  · have hno : inThroughout s.c.pair.echo = false := by
      rcases hecho with h | h <;> simp [inThroughout, h]
    have hdue : yieldDue (now s.c) s.c = true := by simp [yieldDue, hh, hp, hno, hy, holderEnd, now, he]
    refine does_guard (b := fun c => yieldDue (now c) c) (f := fun c => yieldNow (now c)) rfl hdue (by simp) ?_
    have hgave := giveUp_gaveUp 9 s.c (now s.c)
    have hint := giveUp_int 9 (now s.c) hh
    have hsent : Sent 0x05 [9] s.c.dev.tick s.c (giveUp 9 (now s.c) s.c) := giveUp_sent 9 s.c
    have hraised := giveUp_raised 9 (now s.c) hr
    rw [yieldNow_eq]
    generalize giveUp 9 (now s.c) s.c = g at hgave hint hsent hraised
    exact ⟨hgave, rfl, hint, hsent.congr rfl, hraised⟩
  · have hdue : yieldDue (now s.c) s.c = false := by simp [yieldDue, hy]
    have e : when (yieldDue (now s.c) s.c) (yieldNow (now s.c)) s.c = s.c := by rw [hdue, when_false]
    exact congrArg (fun c => Host.Outcome.next { s with c := c }) e
  · have e : selfRelease (now s.c) s.c = giveUp k (now s.c) s.c := by
      unfold selfRelease
      rw [if_neg (by simp [hh, hp, hrun]), hown]
      exact if_pos htw
    have hk := giveUp_gaveUp k s.c (now s.c)
    refine does_onChip (fun c => selfRelease (now c) c) rfl (by rw [e]; simp) ?_
    rw [e]
    exact ⟨hk, giveUp_int k (now s.c) hh, giveUp_sent k s.c, giveUp_raised k (now s.c) hr⟩
  · have e : selfRelease (now s.c) s.c = pairNotice 0x33 k (now s.c) false (setPair { s.c.pair with withheld := [k] } s.c) := by
      unfold selfRelease
      rw [if_neg (by simp [hh, hp, hrun]), hown]
      exact (if_neg (by simp [htw])).trans (withhold_one hw)
    refine does_onChip (fun c => selfRelease (now c) c) rfl (by rw [e]; simp [pairNotice]) ?_
    rw [e, pairNotice_pair]
    exact ⟨hh, rfl, pairNotice_raised 0x33 k (now s.c) false (c := setPair { s.c.pair with withheld := [k] } s.c) hr⟩

/-! ### Taking the tablet -/

/-- The pairing part of a part that acquires the tablet (R357), but for the message's sequence number. -/
def acquiredPair (mode n : Nat) (p : PairSt) : PairSt :=
  { p with holder := true, epoch := (max p.epoch p.seen + 1) % 4294967296, acq := n, acked := n, renewAt := 0, sends := [], mode := mode, run := 0, withheld := [] }

theorem acquire_pair (mode n : Nat) (c : Chip) : ∃ q, (acquire mode n c).pair = { acquiredPair mode n c.pair with msgSeq := q } := by
  have hw : ∀ (b : Bool) (e : Chip), ∃ q, (when b (hokua 0x06 [mode] n) e).pair = { e.pair with msgSeq := q } := by
    intro b e
    cases b
    · exact ⟨e.pair.msgSeq, rfl⟩
    · exact ⟨_, hokua_pair _ _ _ e⟩
  unfold acquire
  dsimp only
  rw [pairNotice_pair]
  obtain ⟨q, hq⟩ := hw (paired (setPair (acquiredPair mode n c.pair) c)) (when (!c.pair.holder) (setInt 5) (setPair (acquiredPair mode n c.pair) c))
  rw [when_setInt_pair] at hq
  exact ⟨q, hq⟩

theorem acquire_dev (mode n : Nat) (c : Chip) : (acquire mode n c).dev = c.dev :=
  dev_of_mask (l := [.int, .nq, .notice, .host, .pair, .dep]) (acquire_mask (by decide) (by decide) (by decide) (by decide) (by decide) (by decide) mode n c) (by decide)

theorem acquire_pm (mode n : Nat) (c : Chip) : (acquire mode n c).pm = c.pm :=
  pm_of_mask (l := [.int, .nq, .notice, .host, .pair, .dep]) (acquire_mask (by decide) (by decide) (by decide) (by decide) (by decide) (by decide) mode n c) (by decide)

theorem acquire_prot (mode n : Nat) (c : Chip) : (acquire mode n c).prot = c.prot :=
  prot_of_mask (l := [.int, .nq, .notice, .host, .pair, .dep]) (acquire_mask (by decide) (by decide) (by decide) (by decide) (by decide) (by decide) mode n c) (by decide)

theorem acquire_img (mode n : Nat) (c : Chip) : (acquire mode n c).img = c.img :=
  img_of_mask (l := [.int, .nq, .notice, .host, .pair, .dep]) (acquire_mask (by decide) (by decide) (by decide) (by decide) (by decide) (by decide) mode n c) (by decide)

/-- The chip that has taken the tablet at a boundary, before it installs a state (R359). -/
def takenChip (mode n : Nat) (warm : Bool) (c : Chip) : Chip :=
  setPair { (acquire mode n c).pair with handAt := n, warm := warm, released := none } (acquire mode n c)

theorem takenChip_pair (mode n : Nat) (warm : Bool) (c : Chip) : ∃ q, (takenChip mode n warm c).pair =
    { acquiredPair mode n c.pair with msgSeq := q, handAt := n, warm := warm, released := none } := by
  obtain ⟨q, hq⟩ := acquire_pair mode n c
  refine ⟨q, ?_⟩
  unfold takenChip
  rw [setPair_pair, hq]

/-- One group's turn in the cold state (R375). -/
def coldTurn (n g : Nat) (c : Chip) : Chip :=
  match protRec c g with
  | some r => updSel g (fun s => { s with select := false }) (updGrp g (fun _ => grpNew r n) c)
  | none => c

theorem installCold_eq (n : Nat) (c : Chip) : installCold n c =
    forEach (tkeys c.prot.groups) (coldTurn n) (setPm { c.pm with recs := c.pm.recs.map (fun e => (e.1, freshRec c n)) } c) := rfl

theorem coldTurn_mask (n g : Nat) (c : Chip) : mask [.jct, .prot] (coldTurn n g c) = mask [.jct, .prot] c := by
  unfold coldTurn
  split <;> simp

/-- Points start as if added now. -/
theorem installCold_recs {n k : Nat} {c : Chip} {r : PmRecSt} (h : c.pm.recs.lookup k = some r) :
    (installCold n c).pm.recs.lookup k = some (freshRec c n) := by
  have hpm : (installCold n c).pm = { c.pm with recs := c.pm.recs.map (fun e => (e.1, freshRec c n)) } := by
    rw [installCold_eq, forEach_keeps Chip.pm (f := coldTurn n) (fun g b => pm_of_mask (coldTurn_mask n g b) (by decide))]
    rfl
  rw [hpm]
  show (c.pm.recs.map (fun e => (e.1, (fun _ => freshRec c n) e.2))).lookup k = _
  rw [lookup_map_snd (fun _ => freshRec c n), h]
  rfl

/-- Groups start in NR-W (R375). -/
theorem installCold_groups {n g : Nat} {c : Chip} {r : Rec} {x : GrpSt} (hr : protRec c g = some r) (hx : c.prot.groups.lookup g = some x) :
    (installCold n c).prot.groups.lookup g = some (grpNew r n) ∧ (getSel (installCold n c) g).select = false := by
  rw [installCold_eq]
  have hrec : ∀ b : Chip, b.img = c.img → protRec b g = some r := by
    intro b hb
    unfold protRec theImage at *
    rw [hb]
    exact hr
  have himg : ∀ a b, (coldTurn n a b).img = b.img := fun a b => img_of_mask (coldTurn_mask n a b) (by decide)
  have hown : ∀ b : Chip, b.img = c.img → coldTurn n g b = updSel g (fun s => { s with select := false }) (updGrp g (fun _ => grpNew r n) b) := by
    intro b hb
    unfold coldTurn
    rw [hrec b hb]
  have hother : ∀ a b, a ≠ g → (coldTurn n a b).prot.groups.lookup g = b.prot.groups.lookup g ∧ getSel (coldTurn n a b) g = getSel b g := by
    intro a b ha
    unfold coldTurn
    split
    · refine ⟨?_, ?_⟩
      · rw [updSel_prot, updGrp_lookup_other _ _ (Ne.symm ha)]
      · rw [updSel_get_other _ _ (Ne.symm ha)]
        simp [getSel]
    · exact ⟨rfl, rfl⟩
  refine (forEach_reaches (g := g) (c := setPm { c.pm with recs := c.pm.recs.map (fun e => (e.1, freshRec c n)) } c)
    (f := coldTurn n) (Q := fun b => b.img = c.img ∧ b.prot.groups.lookup g = some x)
    (R := fun b => b.img = c.img ∧ b.prot.groups.lookup g = some (grpNew r n) ∧ (getSel b g).select = false) ?_ ?_ ?_ (mem_tkeys _ _ _ hx) ⟨rfl, hx⟩).2
  · rintro a b ha ⟨hi, hb⟩
    exact ⟨(himg a b).trans hi, (hother a b ha).1.trans hb⟩
  · rintro b ⟨hi, hb⟩
    refine ⟨(himg g b).trans hi, ?_, ?_⟩
    · rw [hown b hi, updSel_prot, updGrp_lookup, hb]
      rfl
    · rw [hown b hi, updSel_get]
  · rintro a b ⟨hi, hb, hsel⟩
    by_cases ha : a = g
    · subst ha
      refine ⟨(himg a b).trans hi, ?_, ?_⟩
      · rw [hown b hi, updSel_prot, updGrp_lookup, hb]
        rfl
      · rw [hown b hi, updSel_get]
    · exact ⟨(himg a b).trans hi, (hother a b ha).1.trans hb, by rw [(hother a b ha).2]; exact hsel⟩

theorem installCold_dev (n : Nat) (c : Chip) : (installCold n c).dev = c.dev := by
  rw [installCold_eq, forEach_keeps Chip.dev (f := coldTurn n) (fun g b => dev_of_mask (coldTurn_mask n g b) (by decide))]
  rfl

theorem installCold_pair (n : Nat) (c : Chip) : (installCold n c).pair = c.pair := by
  rw [installCold_eq, forEach_keeps Chip.pair (f := coldTurn n) (fun g b => pair_of_mask (coldTurn_mask n g b) (by decide))]
  rfl

/-- The mode of `TAKEN` a takeover sends (R359, R366). -/
def takenMode (mode : Nat) (warm : Bool) : Nat := if mode = 0 then (if warm then 1 else 2) else mode

theorem takeOver_eq (mode n : Nat) (c : Chip) : takeOver mode n c = setDev .handover
    (if warmOk c then takenChip (takenMode mode (warmOk c)) n (warmOk c) c else installCold n (takenChip (takenMode mode (warmOk c)) n (warmOk c) c)) := rfl

/-- The turn of a group as a warm takeover ends (R375). -/
def adopted (n : Nat) (x : GrpSt) : GrpSt := { x with select := selectsP x.state, decided := some n }

theorem adoptSel_eq (n g : Nat) (c : Chip) : adoptSel n g c = updGrp g (adopted n) c := by
  unfold adoptSel updGrp
  cases c.prot.groups.lookup g <;> rfl

/-- Every group adopts its state's selection. -/
theorem adoptAll_lookup {n g : Nat} {c : Chip} {x : GrpSt} (hx : c.prot.groups.lookup g = some x) :
    (forEach (tkeys c.prot.groups) (adoptSel n) c).prot.groups.lookup g = some (adopted n x) := by
  refine forEach_reaches (g := g) (f := adoptSel n) (Q := fun b => b.prot.groups.lookup g = some x)
    (R := fun b => b.prot.groups.lookup g = some (adopted n x)) ?_ ?_ ?_ (mem_tkeys _ _ _ hx) hx
  · intro a b ha hb
    rw [adoptSel_eq, updGrp_lookup_other _ _ (Ne.symm ha), hb]
  · intro b hb
    rw [adoptSel_eq, updGrp_lookup, hb]
    rfl
  · intro a b hb
    by_cases ha : a = g
    · subst ha
      rw [adoptSel_eq, updGrp_lookup, hb]
      rfl
    · rw [adoptSel_eq, updGrp_lookup_other _ _ (Ne.symm ha), hb]

theorem adoptAll_form (n : Nat) (l : List Nat) (c : Chip) : ∃ m, forEach l (adoptSel n) c = setGroups m c := by
  refine forEach_ind (Q := fun b => ∃ m, b = setGroups m c) (f := adoptSel n) ?_ l c ⟨c.prot.groups, rfl⟩
  rintro g b ⟨m, rfl⟩
  rw [adoptSel_eq]
  unfold updGrp
  split
  · exact ⟨_, rfl⟩
  · exact ⟨m, rfl⟩

/-- A mirror that holds no region installs nothing but the PARTIAL bins (R375). -/
theorem installWarm_empty {c : Chip} (h : c.pair.mirror.regions = []) :
    installWarm c = setPm { c.pm with recs := c.pm.recs.map (fun e => (e.1, partBins c e.2)) } c := by
  unfold installWarm
  simp only [h, heldRecords, List.map_nil, List.flatten_nil, forEach_nil]

/-- The chip as HANDOVER ends, its state installed (R376). -/
def runChip (c : Chip) : Chip :=
  if c.pair.holder then setDev .running { c with dev := { c.dev with lit := !c.pair.hubBad } } else setDev .standby (setDev .running c)

theorem runChip_dev (c : Chip) : (runChip c).dev = if c.pair.holder then { c.dev with lit := !c.pair.hubBad, state := .running } else { c.dev with state := .standby } := by
  unfold runChip
  split <;> simp

theorem runChip_pair (c : Chip) : (runChip c).pair = c.pair := by
  unfold runChip
  split <;> simp

theorem runChip_mask (c : Chip) : mask [.dev, .int, .host] (runChip c) = mask [.dev, .int, .host] c := by
  unfold runChip
  split <;> simp

theorem runChip_int {c : Chip} (h : c.dev.state = .handover) : IntSet 4 (runChip c) := by
  unfold runChip
  split
  · exact setDev_int (by rw [h]; decide)
  · exact IntSet_setDev (setDev_int (by rw [h]; decide))

/-- The pairing part as HANDOVER ends. -/
def runPair (n : Nat) (c : Chip) : PairSt :=
  { (mirrorReset c).pair with retAt := if c.pair.mode = 5 && c.pair.drillRet ≠ 0 then some (n + 8000 * c.pair.drillRet) else none, drillIn := none, run := 0, mirror := { (mirrorReset c).pair.mirror with records := [] } }

theorem handoverComplete_cold {n : Nat} {c : Chip} (h : c.pair.warm = false) :
    handoverComplete n c = setPair (runPair n (runChip c)) (runChip c) := by
  unfold handoverComplete
  simp only [h, Bool.false_eq_true, if_false]
  rfl

theorem handoverComplete_warm {n : Nat} {c : Chip} (h : c.pair.warm = true) : handoverComplete n c =
    setPair (runPair n (runChip (forEach (tkeys (installWarm c).prot.groups) (adoptSel n) (installWarm c)))) (runChip (forEach (tkeys (installWarm c).prot.groups) (adoptSel n) (installWarm c))) := by
  unfold handoverComplete
  simp only [h, if_true]
  rfl

/-- A holder's release on the interlock (R355, R357). -/
theorem tieLost_eq (n : Nat) (c : Chip) : tieLost n c = setPair { (giveUp 0xA n c).pair with gaveOnce := !c.pair.linkUp || c.pair.gaveOnce, yielded := (giveUp 0xA n c).pair.yielded || (c.pair.gaveOnce && !c.pair.linkUp) } (giveUp 0xA n c) := rfl

/-- Settles O51: each boundary's step of the pair, by its state. -/
theorem takeoverAndInterlock : Obligations.TakeoverAndInterlock := by
  unfold Obligations.TakeoverAndInterlock
  refine ⟨fun s hd hw hr => ?_, fun s hd hw hr => ?_, fun s hs ht hw hh => ?_, fun s hs ht hw hh => ?_, fun s hs ht hw hh hm => ?_,
    fun s hs => ?_, fun s hs => ?_, fun s b hs => ?_, fun s hh hp ht hr => ?_, fun s hs => ?_, fun s hu hrun hr => ?_⟩
  · have e : takeOver (takeMode s.c) (now s.c) s.c = setDev .handover (installCold (now s.c) (takenChip (takenMode (takeMode s.c) false) (now s.c) false s.c)) := by
      rw [takeOver_eq, hw]
      rfl
    refine does_guard (b := fun c => takeDue (now c) c) (f := fun c => takeOver (takeMode c) (now c)) rfl hd (by simp) ?_
    obtain ⟨q, hq⟩ := takenChip_pair (takenMode (takeMode s.c) false) (now s.c) false s.c
    have hdev : (takenChip (takenMode (takeMode s.c) false) (now s.c) false s.c).dev = s.c.dev := acquire_dev _ _ _
    have hpm : (takenChip (takenMode (takeMode s.c) false) (now s.c) false s.c).pm = s.c.pm := acquire_pm _ _ _
    have hprot : (takenChip (takenMode (takeMode s.c) false) (now s.c) false s.c).prot = s.c.prot := acquire_prot _ _ _
    have himg : (takenChip (takenMode (takeMode s.c) false) (now s.c) false s.c).img = s.c.img := acquire_img _ _ _
    rw [e, setDev_pair, setDev_dev, setDev_pm, setDev_prot, installCold_pair, installCold_dev, hq, hdev]
    refine ⟨rfl, rfl, rfl, rfl, rfl, rfl, fun k r hk => ?_, fun g r x hrec hx => ?_⟩
    · rw [installCold_recs (by rw [hpm]; exact hk)]
      unfold freshRec
      rw [hpm]
      rfl
    · have hrec' : protRec (takenChip (takenMode (takeMode s.c) false) (now s.c) false s.c) g = some r := by
        unfold protRec theImage at *
        rw [himg]
        exact hrec
      obtain ⟨hg, hsel⟩ := installCold_groups (n := now s.c) hrec' (by rw [hprot]; exact hx)
      refine ⟨hg, ?_⟩
      unfold getSel at *
      rw [setDev_jct]
      exact hsel
  · have e : takeOver (takeMode s.c) (now s.c) s.c = setDev .handover (takenChip (takenMode (takeMode s.c) true) (now s.c) true s.c) := by
      rw [takeOver_eq, hw]
      rfl
    have hdev : (takenChip (takenMode (takeMode s.c) true) (now s.c) true s.c).dev = s.c.dev := acquire_dev _ _ _
    have hst : s.c.dev.state = .standby := by
      unfold takeDue at hd
      simp only [Bool.and_eq_true, decide_eq_true_eq, and_assoc] at hd
      exact hd.1
    refine does_guard (b := fun c => takeDue (now c) c) (f := fun c => takeOver (takeMode c) (now c)) rfl hd (by rw [e]; simp [takenChip]) ?_
    obtain ⟨q, hq⟩ := takenChip_pair (takenMode (takeMode s.c) true) (now s.c) true s.c
    rw [e, setDev_pair, setDev_dev, hq]
    exact ⟨rfl, rfl, rfl, rfl, rfl, setDev_int (by rw [hdev, hst]; decide)⟩
  · have hdue : handoverDue (now s.c) s.c = true := by simp [handoverDue, hs, now, ht]
    refine does_guard (b := fun c => handoverDue (now c) c) (f := fun c => handoverComplete (now c)) rfl hdue
      (by rw [handoverComplete_cold hw]; exact (mask_set_pair (by decide) _ _).trans (mask_mono (by decide) (runChip_mask s.c))) ?_
    rw [handoverComplete_cold hw]
    refine ⟨?_, ?_, ?_, rfl, IntSet_congr rfl (runChip_int hs)⟩
    · show (runChip s.c).dev.state = _
      rw [runChip_dev, if_pos hh]
    · show (runChip s.c).dev.lit = _
      rw [runChip_dev, if_pos hh]
    · show (runChip s.c).pair.holder = _
      rw [runChip_pair, hh]
  · have hdue : handoverDue (now s.c) s.c = true := by simp [handoverDue, hs, now, ht]
    refine does_guard (b := fun c => handoverDue (now c) c) (f := fun c => handoverComplete (now c)) rfl hdue
      (by rw [handoverComplete_cold hw]; exact (mask_set_pair (by decide) _ _).trans (mask_mono (by decide) (runChip_mask s.c))) ?_
    rw [handoverComplete_cold hw]
    refine ⟨?_, ?_, ?_, IntSet_congr rfl (runChip_int hs)⟩
    · show (runChip s.c).dev.state = _
      rw [runChip_dev, if_neg (by simp [hh])]
    · show (runChip s.c).dev.lit = _
      rw [runChip_dev, if_neg (by simp [hh])]
    · show (runChip s.c).pair.holder = _
      rw [runChip_pair, hh]
  · have hdue : handoverDue (now s.c) s.c = true := by simp [handoverDue, hs, now, ht]
    obtain ⟨m, hform⟩ := adoptAll_form (now s.c) (tkeys (installWarm s.c).prot.groups) (installWarm s.c)
    have hlook : ∀ g x, s.c.prot.groups.lookup g = some x → m.lookup g = some (adopted (now s.c) x) := by
      intro g x hx
      have h := adoptAll_lookup (n := now s.c) (g := g) (c := installWarm s.c) (x := x) (by rw [installWarm_empty hm]; exact hx)
      rw [hform] at h
      exact h
    refine does_guard (b := fun c => handoverDue (now c) c) (f := fun c => handoverComplete (now c)) rfl hdue ?_ ?_
    · rw [handoverComplete_warm hw, hform, installWarm_empty hm]
      exact (mask_set_pair (by decide) _ _).trans ((mask_mono (by decide) (runChip_mask _)).trans (by simp))
    · rw [handoverComplete_warm hw, hform, installWarm_empty hm]
      generalize hc1 : setGroups m (setPm { s.c.pm with recs := s.c.pm.recs.map (fun e => (e.1, partBins s.c e.2)) } s.c) = c1
      have hprot : (runChip c1).prot = c1.prot := prot_of_mask (runChip_mask c1) (by decide)
      have hpm : (runChip c1).pm = c1.pm := pm_of_mask (runChip_mask c1) (by decide)
      have hholder : c1.pair.holder = true := by rw [← hc1]; exact hh
      refine ⟨?_, ?_, fun g x hx => ?_, fun k r hk => ?_⟩
      · show (runChip c1).dev.state = _
        rw [runChip_dev, if_pos hholder]
      · show (runChip c1).dev.lit = _
        rw [runChip_dev, if_pos hholder, ← hc1]
        rfl
      · show (runChip c1).prot.groups.lookup g = _
        rw [hprot, ← hc1]
        exact hlook g x hx
      · show (runChip c1).pm.recs.lookup k = _
        rw [hpm, ← hc1]
        show (s.c.pm.recs.map (fun e => (e.1, partBins s.c e.2))).lookup k = _
        rw [lookup_map_snd (partBins s.c), hk]
        rfl
  · exact does_guard (f := fun c => setPair { c.pair with intlk := loopSet true c.pair.intlk }) rfl (awake_of hs) (by simp) (by simp [loopSet])
  · exact does_guard (f := fun c => setPair { c.pair with intlk := loopSet false c.pair.intlk }) rfl (awake_of hs) (by simp) (by simp [loopSet])
  · exact does_guard (f := fun c => setPair { c.pair with echo := loopSet b c.pair.echo }) rfl (awake_of hs) (by simp) (by simp [loopSet])
  · refine does_guard (b := fun c => c.pair.holder && paired c && 8000 ≤ c.pair.tieRun) (f := fun c => tieLost (now c)) rfl (by simp [hh, hp, ht]) (by simp) ?_
    have hgave := giveUp_gaveUp 0xA s.c (now s.c)
    have hpair := giveUp_pair 0xA (now s.c) s.c
    have hraised := giveUp_raised 0xA (now s.c) hr
    rw [tieLost_eq]
    generalize giveUp 0xA (now s.c) s.c = g at hgave hpair hraised
    refine ⟨hgave, ?_, fun hg hl => ?_, fun hl => ?_, hraised⟩
    · exact congrArg PairSt.tieRun hpair
    · show (g.pair.yielded || (s.c.pair.gaveOnce && !s.c.pair.linkUp)) = true
      simp [hg, hl]
    · show (!s.c.pair.linkUp || s.c.pair.gaveOnce) = true
      simp [hl]
  · exact does_guard (f := fun _ => hubLost) rfl (awake_of hs) (by simp) ⟨rfl, by simp [drives, hubLost], rfl⟩
  · refine does_guard (b := provenDue) (f := fun c => proven (now c)) rfl (by simp [provenDue, hu, hrun]) (by simp) ⟨?_, ?_⟩
    · exact pairNotice_pair _ _ _ _ _
    · exact pairNotice_raised 0x35 0 (now s.c) false (c := setPair { s.c.pair with unproven := false } s.c) hr

end Sys2Proof.Machine
end

section
/-!
PROOFS. The mirror of the pair (O52; R372 to R374) and the drill (O53; R378).
-/
namespace Sys2Proof.Machine
open Sys2Proof

/-! ### The mirror as it is sent -/

/-- A message sent last in a step. -/
theorem sent_last {kind : Nat} {body : List Nat} {n : Nat} {a b : Chip} (ha : StraitClear a → StraitClear b) (hout : b.host.out = a.host.out)
    (hhead : hokuaHead n b = hokuaHead n a) : Sent kind body n a (hokua kind body n b) :=
  sent_of ha hout hhead (msixAfter_of_host rfl)

/-- The body of a message sent last in a step, behind its header. -/
theorem hokua_body {a b : Chip} (kind : Nat) (body : List Nat) (n : Nat) (hb : StraitClear b) (hout : b.host.out = a.host.out) :
    ∃ head, (hokua kind body n b).host.out = a.host.out ++ [.hokua kind (head ++ body)] :=
  ⟨hokuaHead n b, by rw [(hokua_sent kind body n hb).1, hout]⟩

theorem genStart_eq {n : Nat} {c : Chip} (hm : mirrors c = true) (ha : c.pair.mirror.active = false ∨ c.pair.mirror.again = true) :
    genStart n c = hokua 0x10 [c.pair.mirror.gen + 1, genRegions c, genRegions c * 4144, n] n
      (setMirror { c.pair.mirror with gen := c.pair.mirror.gen + 1, active := true, sent := 0, sentTick := 0, startAt := n, again := false } c) := by
  unfold genStart
  exact if_neg (by rcases ha with h | h <;> simp [hm, h])

/-- The chip with one region counted, before it is sent. -/
def regionSent (c : Chip) : Chip :=
  setMirror { c.pair.mirror with sent := c.pair.mirror.sent + 1, sentTick := c.pair.mirror.sentTick + 1 } (countEvent 0x072 0x1FF 1 c)

/-- One region goes out while the tick's pace lasts (R372). -/
theorem genSend_one {c : Chip} (hm : mirrors c = true) (ha : c.pair.mirror.active = true) (hr : c.pair.mirror.sent < genRegions c)
    (hp : c.pair.mirror.sentTick < genPace c) :
    genSend 1 c = genEnd (hokua 0x11 [c.pair.mirror.gen, c.pair.mirror.sent, 1, now c] (now c) (regionSent c)) := by
  have hj : min 1 (min (genRegions c - c.pair.mirror.sent) (genPace c - c.pair.mirror.sentTick)) = 1 := by omega
  unfold genSend
  dsimp only
  rw [hj, if_neg (by simp [hm, ha])]
  simp [regionSent]

theorem regionSent_pair (c : Chip) :
    (regionSent c).pair = { c.pair with mirror := { c.pair.mirror with sent := c.pair.mirror.sent + 1, sentTick := c.pair.mirror.sentTick + 1 } } := by
  simp [regionSent, setMirror]

/-- A message and a counted region leave the number of regions and the mirror as counted. -/
theorem genEnd_after (c : Chip) (body : List Nat) :
    genEnd (hokua 0x11 body (now c) (regionSent c)) = if c.pair.mirror.active && genRegions c ≤ c.pair.mirror.sent + 1 then
      hokua 0x12 [c.pair.mirror.gen, c.pair.mirror.sent + 1, now c] (now c) (setMirror { (regionSent c).pair.mirror with active := false, lastGen := c.pair.mirror.gen } (hokua 0x11 body (now c) (regionSent c)))
    else hokua 0x11 body (now c) (regionSent c) := by
  have hp : (hokua 0x11 body (now c) (regionSent c)).pair.mirror = (regionSent c).pair.mirror := by rw [hokua_pair]
  have hreg : genRegions (hokua 0x11 body (now c) (regionSent c)) = genRegions c := by
    unfold genRegions
    rw [cm_of_mask (l := [.host, .pair, .dep]) (a := hokua 0x11 body (now c) (regionSent c)) (b := c) (by simp [regionSent]) (by decide)]
  have hnow : now (hokua 0x11 body (now c) (regionSent c)) = now c := by
    unfold now
    rw [hokua_dev, dev_of_mask (l := [.pair, .dep]) (a := regionSent c) (b := c) (by simp [regionSent]) (by decide)]
  unfold genEnd
  dsimp only
  rw [hp, hreg, hnow, regionSent_pair]

/-- The words of a journal record behind its tick (R373). -/
def jnlBody (c : Chip) : List Nat := (c.pair.mirror.lastWrites.map (fun w => [w.1, w.2.toNat])).flatten ++ c.pair.mirror.lastCmds.map (·.toNat)

theorem jnlSend_eq {c : Chip} (hm : mirrors c = true) : jnlSend c = hokua 0x13 ((now c - 1) :: jnlBody c) (now c) c := if_pos hm

/-! ### The mirror as it is received -/

/-- What a message's header leaves as it was. -/
theorem hokuaSeen_keeps (h : HokuaHdr) (c : Chip) :
    (hokuaSeen h c).dev = c.dev ∧ (hokuaSeen h c).pair.placeMis = c.pair.placeMis ∧ imgSeq (hokuaSeen h c) = imgSeq c ∧ ownReady (hokuaSeen h c) = ownReady c := by
  obtain ⟨d, hd⟩ := hokuaSeen_form h c
  rw [hd]
  exact ⟨rfl, rfl, rfl, rfl⟩

theorem hokuaSeen_mirror (h : HokuaHdr) (c : Chip) : (hokuaSeen h c).pair.mirror = (seenMirror h c).pair.mirror := by rw [hokuaSeen_pair]; rfl

section
variable {h : HokuaHdr} {c : Chip} (hd : c.dev.state = .standby) (hp : c.pair.placeMis = false)
include hd hp

/-- A standby on the same placement takes what arrives. -/
theorem standby_takes : ¬(decide ((hokuaSeen h c).dev.state ≠ .standby) || (hokuaSeen h c).pair.placeMis) = true := by
  obtain ⟨hdev, hpl, -⟩ := hokuaSeen_keeps h c
  rw [hdev, hpl, hd, hp]
  decide

theorem genReceived_standby (hi : h.imgSeq = imgSeq c) (g cls r cap : Nat) (items : List MirrorItem) : genReceived h g cls r cap items c =
    setMirror { (seenMirror h c).pair.mirror with active := true, gen := g, regions := tput (seenMirror h c).pair.mirror.regions (cls * 16777216 + r) { gen := g, capture := cap, items := items } } (hokuaSeen h c) := by
  have hseq : imgSeq (hokuaSeen h c) = imgSeq c := (hokuaSeen_keeps h c).2.2.1
  have htake := standby_takes (h := h) hd hp
  unfold genReceived
  dsimp only
  rw [if_neg (by rw [Bool.or_eq_true, decide_eq_true_eq]; exact fun h' => h'.elim htake (fun h' => h' (hi.trans hseq.symm))), hokuaSeen_mirror]

theorem genDone_standby (g n : Nat) : genDone h g n c = setMirror
    (if n ≤ ((seenMirror h c).pair.mirror.regions.filter (fun e => e.2.gen = g)).length then { (seenMirror h c).pair.mirror with active := false, full := true, lastGen := g, stale := false }
      else { (seenMirror h c).pair.mirror with active := false }) (hokuaSeen h c) := by
  unfold genDone
  dsimp only
  rw [if_neg (standby_takes hd hp), hokuaSeen_mirror]
  split <;> rfl

theorem jnlReceived_complete (r : JnlRec) : jnlReceived h r true c = setMirror
    { (seenMirror h c).pair.mirror with records := (seenMirror h c).pair.mirror.records ++ [r], lastRec := some r.tick, stale := (seenMirror h c).pair.mirror.stale || (match (seenMirror h c).pair.mirror.lastRec with | some t => decide (r.tick ≠ t + 1) | none => false) } (hokuaSeen h c) := by
  unfold jnlReceived
  dsimp only
  rw [if_neg (standby_takes hd hp), hokuaSeen_mirror]
  rfl

theorem jnlReceived_incomplete (r : JnlRec) : jnlReceived h r false c = setMirror { (seenMirror h c).pair.mirror with stale := true } (hokuaSeen h c) := by
  unfold jnlReceived
  dsimp only
  rw [if_neg (standby_takes hd hp), hokuaSeen_mirror]
  rfl

end

theorem setMirror_pair (m : MirrorSt) (c : Chip) : (setMirror m c).pair = { c.pair with mirror := m } := rfl

/-- What a header shows, the mirror changing behind it. -/
theorem seen_setMirror (h : HokuaHdr) (m : MirrorSt) (c : Chip) : Seen h c (setMirror m (hokuaSeen h c)) :=
  (hokuaSeen_seen h c).congr rfl rfl rfl rfl rfl rfl

/-- Settles O52: what a mirroring holder sends, a standby on its placement takes, each with the mirror it leaves. -/
theorem mirrorFollows : Obligations.MirrorFollows := by
  unfold Obligations.MirrorFollows
  refine ⟨fun s hm ha => ?_, fun s hm ha hp => ⟨fun hr => ?_, fun hr => ?_⟩, fun s h g cls r cap items m hd hp hi hmir => ?_,
    fun s h g n m hd hp hmir => ?_, fun s hm hj => ?_, fun s hj => ?_, fun s h t ch ws ks m hd hp hmir => ?_, fun s h t ch ws ks m hd hp hmir => ?_,
    fun s hd hp hl hst => ?_⟩
  · refine does_onChip (fun c => genStart (now c) c) rfl (by simp) ?_
    rw [genStart_eq hm ha]
    refine ⟨by rw [hokua_pair]; rfl, sent_last id rfl (hokuaHead_congr _ rfl rfl rfl rfl rfl rfl)⟩
  · have e := genSend_one hm ha (Nat.lt_of_succ_lt hr) hp
    rw [genEnd_after, if_neg (by simp [ha]; omega)] at e
    have hmask : mask [.pair, .dep] (regionSent s.c) = mask [.pair, .dep] s.c := by simp [regionSent]
    refine does_onChip (genSend 1) rfl (by simp) ?_
    rw [e]
    refine ⟨by rw [hokua_pair, regionSent_pair], sent_last (fun hc => countEvent_clear (c := s.c) 0x072 0x1FF 1 hc) ?_ ?_⟩
    · rw [host_of_mask hmask (by decide)]
    · refine hokuaHead_congr _ ?_ ?_ (img_of_mask hmask (by decide)) (by rw [dev_of_mask hmask (by decide)]) ?_ (power_of_mask hmask (by decide)) <;> rw [regionSent_pair]
  · have e := genSend_one hm ha (by omega) hp
    rw [genEnd_after, if_pos (by simp [ha]; omega)] at e
    refine does_onChip (genSend 1) rfl (by simp) ?_
    rw [e, hokua_pair, setMirror_pair, regionSent_pair]
    exact ⟨rfl, rfl, rfl⟩
  · subst hmir
    refine does_guard (f := fun _ => genReceived h g cls r cap items) rfl (awake_of_state (by rw [hd]; decide)) (by simp) ?_
    rw [genReceived_standby hd hp hi]
    exact ⟨seen_setMirror h _ s.c, rfl⟩
  · subst hmir
    refine does_guard (f := fun _ => genDone h g n) rfl (awake_of_state (by rw [hd]; decide)) (by simp) ?_
    rw [genDone_standby hd hp]
    exact ⟨seen_setMirror h _ s.c, rfl⟩
  · have hawake : awake s.c = true := by
      unfold mirrors at hm
      simp only [Bool.and_eq_true, decide_eq_true_eq] at hm
      obtain ⟨⟨⟨-, hrun⟩, -⟩, -⟩ := hm
      exact awake_of_state (by rw [hrun]; decide)
    refine does_onChip (fun c => markDone 8 (jnlSend c))
      (next_onChip_if (p := fun c => (awake c && !(isDone 8 c)) = true) (by simp [hawake, hj])) (by simp) ⟨isDone_markDone _ _, jnlBody s.c, sent_of id rfl rfl ?_⟩
    rw [jnlSend_eq hm]
    exact msixAfter_of_host rfl
  · show Host.Outcome.next _ = _
    refine congrArg (fun c => Host.Outcome.next { s with c := c }) (if_neg ?_)
    simp [hj]
  · subst hmir
    refine does_guard (f := fun _ => jnlReceived h { tick := t, changes := ch, writes := ws, cmds := ks } true) rfl (awake_of_state (by rw [hd]; decide)) (by simp) ?_
    rw [jnlReceived_complete hd hp]
    exact ⟨seen_setMirror h _ s.c, rfl⟩
  · subst hmir
    refine does_guard (f := fun _ => jnlReceived h { tick := t, changes := ch, writes := ws, cmds := ks } false) rfl (awake_of_state (by rw [hd]; decide)) (by simp) ?_
    rw [jnlReceived_incomplete hd hp]
    exact ⟨seen_setMirror h _ s.c, rfl⟩
  · exact does_guard (b := staleDue) (f := fun _ => setStale) rfl (by simp [staleDue, hd, hp, hl, hst]) (by simp) rfl

/-! ### The drill -/

/-- An accepted command changes the mailbox and the count of submissions. -/
theorem mbAccepted_form (code : Nat) (tag : Byte) (c : Chip) : ∃ d, mbAccepted code tag c =
    { c with mb := { c.mb with cur := some (mbEntry code tag c), accept := now c }, dep := d } :=
  ⟨_, eq_of_mask_dep (countEvent_mask (by decide) _ _ _ _)⟩

theorem mbAccepted_clear {c : Chip} (code : Nat) (tag : Byte) (h : StraitClear c) : StraitClear (mbAccepted code tag c) :=
  countEvent_clear 0x080 0x1FF 1 (c := { c with mb := { c.mb with cur := some (mbEntry code tag c), accept := now c } }) h

/-- Why a drill is refused does not turn on the mailbox. -/
theorem drillRefused_accepted (code : Nat) (tag : Byte) (c : Chip) : drillRefused (mbAccepted code tag c) = drillRefused c := by
  obtain ⟨d, hd⟩ := mbAccepted_form code tag c
  rw [hd]
  rfl

/-- What a drill's command does once accepted (R378). -/
def drillJudged (c : Chip) : Chip := if drillRefused c ≠ 0 then mbCode (drillRefused c) c else drillStart true (mbParam c 0) c

section
variable {c : Chip} (hs : c.dev.state = .running) (hb : c.mb.cur = none) (h0 : c.mb.p0.toNat < 65536) (h1 : c.mb.p1 = 0) (h2 : c.mb.p2 = 0) (h3 : c.mb.p3 = 0)
include hs hb h0 h1 h2 h3

theorem drill_taken (tag : Byte) : mbSubmit 0x040 tag false anyOk drillJudged c = drillJudged (mbAccepted 0x040 tag c) :=
  mbSubmit_taken (by rw [hs]; decide) hb (by decide) (by rw [hs]; decide) (by simp [mbParamsOk, mbParam, h0, h1, h2, h3]) rfl

end

theorem drillStart_eq (mailbox : Bool) (ret : Nat) (c : Chip) : drillStart mailbox ret c = setPair
    { (hokua 0x08 [(((now c + 16 : Nat) : Int) + c.pair.twinTick) % (2 ^ 64 : Nat) |>.toNat, ret] (now c) c).pair with drill := some { swap := now c + 16, ret := ret, acked := false, mailbox := mailbox } }
    (hokua 0x08 [(((now c + 16 : Nat) : Int) + c.pair.twinTick) % (2 ^ 64 : Nat) |>.toNat, ret] (now c) c) := rfl

theorem drillStart_pair (mailbox : Bool) (ret : Nat) (c : Chip) : (drillStart mailbox ret c).pair =
    { c.pair with msgSeq := (c.pair.msgSeq + 1) % 4294967296, drill := some { swap := now c + 16, ret := ret, acked := false, mailbox := mailbox } } := by
  rw [drillStart_eq, setPair_pair, hokua_pair]

/-- The reasons against a drill, in the order they are judged (R378). -/
theorem drillRefused_zero {c : Chip} (hp : paired c = true) (hd : c.pair.drill = none)
    (hc : ¬(c.cm.pending = true ∧ c.dev.tick + 16 ≤ c.cm.cTick + 16 ∧ c.cm.cTick ≤ c.dev.tick + 16 + 16)) (ht : twinReady c = true) (hw : c.pair.twin.warm = true) :
    drillRefused c = 0 := by
  simp only [drillRefused, hp, hd, ht, hw, Option.isSome_none, Bool.not_true, Bool.and_self, Bool.false_eq_true, if_false]
  refine if_neg ?_
  simp only [Bool.and_eq_true, decide_eq_true_eq, and_assoc]
  exact hc

theorem drillRefused_code {c : Chip} {k : Nat} (h : k = 1 ∧ paired c = false ∨ paired c = true ∧
    (k = 3 ∧ c.pair.drill.isSome = true ∨ c.pair.drill = none ∧
      (k = 4 ∧ c.cm.pending = true ∧ c.dev.tick + 16 ≤ c.cm.cTick + 16 ∧ c.cm.cTick ≤ c.dev.tick + 16 + 16 ∨
        k = 2 ∧ ¬(c.cm.pending = true ∧ c.dev.tick + 16 ≤ c.cm.cTick + 16 ∧ c.cm.cTick ≤ c.dev.tick + 16 + 16) ∧ (twinReady c = false ∨ c.pair.twin.warm = false)))) :
    drillRefused c = k ∧ k ≠ 0 := by
  rcases h with ⟨rfl, hp⟩ | ⟨hp, ⟨rfl, hd⟩ | ⟨hd, ⟨rfl, hc⟩ | ⟨rfl, hc, ht⟩⟩⟩
  · simp [drillRefused, hp]
  · simp [drillRefused, hp, hd]
  · refine ⟨?_, by decide⟩
    simp only [drillRefused, hp, hd, Option.isSome_none, Bool.not_true, Bool.false_eq_true, if_false]
    refine if_pos ?_
    simp only [Bool.and_eq_true, decide_eq_true_eq, and_assoc]
    exact hc
  · refine ⟨?_, by decide⟩
    simp only [drillRefused, hp, hd, Option.isSome_none, Bool.not_true, Bool.false_eq_true, if_false]
    rw [if_neg, if_pos]
    · rcases ht with ht | ht <;> simp [ht]
    · simp only [Bool.and_eq_true, decide_eq_true_eq, and_assoc]
      exact hc

/-! ### The twin asks for a drill -/

theorem drillReq_eq {h : HokuaHdr} {swap ret : Nat} {c : Chip} {ok : Bool}
    (hok : (decide ((hokuaSeen h c).dev.state = .standby) && ownReady (hokuaSeen h c) && warmOk (hokuaSeen h c)) = ok) :
    drillReq h swap ret c = hokua 0x09 [bnat (!ok)] (now (hokuaSeen h c))
      (if ok then setPair { (hokuaSeen h c).pair with drillIn := some (swap, ret), drillRet := ret } (hokuaSeen h c) else hokuaSeen h c) := by
  rw [← hok]
  rfl

/-- A reply to the command the mailbox holds, given at once (R426). -/
theorem mbReply_held {c : Chip} {code : Nat} {k : MbCur} (hb : c.dev.sbDown = false) (hk : mbHolds code c = some k) (result r0 r1 : Nat) :
    (mbReply result r0 r1 c).mb = { c.mb with cur := none, held := none, done := true, code := BitVec.ofNat 12 k.code, tag := k.tag, result := BitVec.ofNat 8 result, reply0 := BitVec.ofNat 32 r0, reply1 := BitVec.ofNat 32 r1 } := by
  have hcur : c.mb.cur = some k := (Option.filter_eq_some_iff.1 hk).1
  rw [mbReply_up hb]
  exact (mbDeliver_mb _ hcur).1

/-- Settles O53: the drill from its command to the swap back, by the answer and the boundary. -/
theorem drillSwaps : Obligations.DrillSwaps := by
  unfold Obligations.DrillSwaps
  refine ⟨fun s tag hs hb h0 h1 h2 h3 hp hd hc ht hw => ?_, fun s tag k hs hb hsb h0 h1 h2 h3 hk => ?_, fun s h t r hd ho hw hi => ?_,
    fun s h t r hd hno => ?_, fun s d hd => ?_, fun s d k a hd hmb hk hsb ha => ?_, fun s d k hd hn hh hs hmb hk hsb hr => ?_,
    fun s t hr ht hs hh hrd hw => ?_, fun s t hr ht hs hh hrd hroom => ?_⟩
  · have e : mbSubmit 0x040 tag false anyOk drillJudged s.c = drillStart true s.c.mb.p0.toNat (mbAccepted 0x040 tag s.c) := by
      rw [drill_taken hs hb h0 h1 h2 h3, drillJudged, drillRefused_accepted, drillRefused_zero hp hd hc ht hw, if_neg (by decide), mbParam, mbAccepted_mb]
    obtain ⟨dp, hform⟩ := mbAccepted_form 0x040 tag s.c
    refine does_onChip (mbSubmit 0x040 tag false anyOk drillJudged) rfl (by rw [e]; simp [mbAccepted]) ?_
    rw [e]
    refine ⟨?_, ?_, ?_⟩
    · rw [drillStart_pair, hform]
      rfl
    · rw [mbHolds_entry (c := s.c) (tag := tag)]
      · rfl
      · rw [mb_of_mask (l := [.host, .pair, .dep]) (a := drillStart true s.c.mb.p0.toNat (mbAccepted 0x040 tag s.c)) (b := mbAccepted 0x040 tag s.c) (by simp) (by decide), mbAccepted_mb]
    · have hpair : (mbAccepted 0x040 tag s.c).pair = s.c.pair := by rw [hform]
      have hnow : now (mbAccepted 0x040 tag s.c) = s.c.dev.tick := by rw [hform]; rfl
      rw [drillStart_eq, hpair, hnow]
      refine sent_of (mbAccepted_clear 0x040 tag) ?_ ?_ (msixAfter_of_host rfl)
      · rw [hform]
      · rw [hform]
        exact hokuaHead_congr _ rfl rfl rfl rfl rfl rfl
  · obtain ⟨href, hk0⟩ := drillRefused_code hk
    have e : mbSubmit 0x040 tag false anyOk drillJudged s.c = mbCode k (mbAccepted 0x040 tag s.c) := by
      rw [drill_taken hs hb h0 h1 h2 h3, drillJudged, drillRefused_accepted, href, if_pos hk0]
    refine does_onChip (mbSubmit 0x040 tag false anyOk drillJudged) rfl (by rw [e]; simp [mbAccepted]) ?_
    obtain ⟨hm, -⟩ := mbReply_accepted (code := 0x040) (tag := tag) hsb 0 k 0
    rw [e]
    unfold Replied mbCode
    rw [hm]
    exact ⟨rfl, rfl, rfl, rfl, rfl, rfl, rfl⟩
  · obtain ⟨hdev, -, -, hown⟩ := hokuaSeen_keeps h s.c
    have hwarm : warmOk (hokuaSeen h s.c) = true := by
      unfold warmOk
      rw [hokuaSeen_mirror, seenMirror, if_pos hi, hokuaSeen_pair]
      exact hw
    have e := drillReq_eq (swap := t) (ret := r) (h := h) (c := s.c) (ok := true) (by rw [hdev, hd, hown, ho, hwarm]; rfl)
    refine does_guard (f := fun _ => drillReq h t r) rfl (awake_of_state (by rw [hd]; decide)) (by simp) ?_
    rw [e, if_pos rfl]
    refine ⟨?_, by rw [hokua_pair]; rfl, by rw [hokua_pair]; rfl, fun hc => hokua_body 0x09 [bnat (!true)] _ (hokuaSeen_clear h hc) ?_⟩
    · exact hokua_seen _ _ _ ((hokuaSeen_seen h s.c).congr rfl rfl rfl rfl rfl rfl)
    · obtain ⟨dp, hform⟩ := hokuaSeen_form h s.c
      rw [hform]
      rfl
  · obtain ⟨hdev, hpl, -, hown⟩ := hokuaSeen_keeps h s.c
    have hok : (decide ((hokuaSeen h s.c).dev.state = .standby) && ownReady (hokuaSeen h s.c) && warmOk (hokuaSeen h s.c)) = false := by
      obtain ⟨m, hm, -, -, hfull⟩ := seenMirror_form h s.c
      have hmir : (hokuaSeen h s.c).pair.mirror = m := by rw [hokuaSeen_mirror, hm]; rfl
      rw [Bool.and_eq_false_iff, Bool.and_eq_false_iff]
      unfold warmOk
      rw [hdev, hown, hmir, hpl]
      rcases hno with hno | hno | hno | hno | hno
      · exact .inl (.inl (decide_eq_false hno))
      · exact .inl (.inr hno)
      · refine .inr (Bool.and_eq_false_iff.2 (.inl (Bool.eq_false_iff.2 (fun hf => ?_))))
        rw [(hfull hf).1] at hno
        exact absurd hno (by decide)
      · exact .inr (by rw [hno]; simp)
      · exact .inr (Bool.and_eq_false_iff.2 (.inl (Bool.eq_false_iff.2 (fun hf => hno (hfull hf).2))))
    have e := drillReq_eq (swap := t) (ret := r) hok
    obtain ⟨dp, hform⟩ := hokuaSeen_form h s.c
    refine does_guard (f := fun _ => drillReq h t r) rfl (awake_of_state hd) (by simp) ?_
    rw [e, if_neg (by decide)]
    refine ⟨hokua_seen _ _ _ (hokuaSeen_seen h s.c), by rw [hokua_pair, hform]; rfl, fun hc => hokua_body 0x09 [bnat (!false)] _ (hokuaSeen_clear h hc) ?_⟩
    rw [hform]
  · have e : drillAnswer (some true) s.c = setPair { s.c.pair with drill := some { d with acked := true } } s.c := by
      unfold drillAnswer
      rw [hd]
    exact does_onChip (drillAnswer (some true)) rfl (by rw [e]; simp) (by rw [e]; rfl)
  · have e : drillAnswer a s.c = mbReply 0 2 0 (setPair { s.c.pair with drill := none } s.c) := by
      have h1 : drillAnswer a s.c = drillAbandon s.c := by
        unfold drillAnswer
        rw [hd]
        match a, ha with
        | none, _ => rfl
        | some false, _ => rfl
        | some true, ha => exact absurd rfl ha
      rw [h1]
      unfold drillAbandon
      rw [hd]
      exact if_pos (by simp [hmb, hk])
    refine does_onChip (drillAnswer a) rfl (by simp) ?_
    have hm := mbReply_held (c := setPair { s.c.pair with drill := none } s.c) hsb hk 0 2 0
    rw [e, mbReply_pair, hm]
    exact ⟨rfl, rfl, rfl, rfl, rfl⟩
  · have e : drillSwap (now s.c) s.c = mbReply 0 0 0 (giveUp 2 (now s.c) (setPair { s.c.pair with drill := none } s.c)) := by
      have hcond : ((setPair { s.c.pair with drill := none } s.c).pair.holder && decide ((setPair { s.c.pair with drill := none } s.c).dev.state = .running)) = true := by
        show (s.c.pair.holder && decide (s.c.dev.state = .running)) = true
        simp [hh, hs]
      unfold drillSwap
      rw [hd]
      dsimp only
      rw [if_neg (show ¬now s.c < d.swap from Nat.not_lt.2 hn), if_pos hcond, if_pos (by simp [hmb, hk])]
    refine does_onChip (fun c => drillSwap (now c) c) rfl (by simp) ?_
    have hmbs : (giveUp 2 (now s.c) (setPair { s.c.pair with drill := none } s.c)).mb = s.c.mb :=
      mb_of_mask (l := [.dev, .int, .nq, .notice, .host, .pair, .dep]) (by simp) (by decide)
    have hdown : (giveUp 2 (now s.c) (setPair { s.c.pair with drill := none } s.c)).dev.sbDown = false := by
      rw [giveUp_dev]
      exact hsb
    have hholds : mbHolds 0x040 (giveUp 2 (now s.c) (setPair { s.c.pair with drill := none } s.c)) = some k := by
      unfold mbHolds at *
      rw [hmbs]
      exact hk
    have hm := mbReply_held hdown hholds 0 0 0
    have hgave := giveUp_gaveUp 2 (setPair { s.c.pair with drill := none } s.c) (now s.c)
    rw [e]
    refine ⟨?_, ?_, congrArg MbSt.cur hm, congrArg MbSt.reply0 hm, ?_⟩
    · unfold GaveUp
      rw [mbReply_pair, mbReply_dev]
      exact hgave
    · rw [mbReply_pair, giveUp_pair]
      rfl
    · exact (Raised_congr (mbReply_nq _ _ _ _) (mbReply_notice _ _ _ _)).2 (giveUp_raised 2 (now s.c) (c := setPair { s.c.pair with drill := none } s.c) hr)
  · have hdue : returnDue (now s.c) s.c = true := by simp [returnDue, hr, now, ht, hs, hh]
    have e : drillReturn (now s.c) s.c = drillStart false 0 (setPair { s.c.pair with retAt := none, drillRet := 0 } s.c) :=
      if_pos (Bool.and_eq_true_iff.2 ⟨hrd, hw⟩)
    refine does_guard (b := fun c => returnDue (now c) c) (f := fun c => drillReturn (now c)) rfl hdue (by rw [e]; simp) ?_
    rw [e, drillStart_pair]
    exact ⟨rfl, rfl⟩
  · have hdue : returnDue (now s.c) s.c = true := by simp [returnDue, hr, now, ht, hs, hh]
    have hno : ¬(twinReady (setPair { s.c.pair with retAt := none, drillRet := 0 } s.c) && s.c.pair.twin.warm) = true := by
      show ¬(twinReady s.c && s.c.pair.twin.warm) = true
      simp [hrd]
    have e : drillReturn (now s.c) s.c = pairNotice 0x33 2 (now s.c) false (setPair { s.c.pair with retAt := none, drillRet := 0 } s.c) := if_neg hno
    refine does_guard (b := fun c => returnDue (now c) c) (f := fun c => drillReturn (now c)) rfl hdue (by rw [e]; simp [pairNotice]) ?_
    rw [e]
    exact ⟨pairNotice_pair _ _ _ _ _, pairNotice_raised 0x33 2 (now s.c) false (c := setPair { s.c.pair with retAt := none, drillRet := 0 } s.c) hroom⟩

end Sys2Proof.Machine
end

section
/-!
PROOFS. Bundles: received in the inactive slot (O54; R395, R396, R407) and verified, from the mailbox or a card (O55; R397, R398, R428).
-/
namespace Sys2Proof.Machine
open Sys2Proof

/-! ### A command that is taken and answered -/

/-- The part that answers a taken command: the submission goes on to the command's own judgement. -/
theorem taken_submit {code : Nat} {tag : Byte} {bf : Bool} {ok : Chip → Bool} {act : Chip → Chip} {c : Chip} (h : Taken code c)
    (hcode : mbCodes.contains code = true) (hbf : bf = if code < 0x050 then false else decide (c.upd.bootFail ≠ 0)) (hok : ok c = true) :
    mbSubmit code tag bf ok act c = act (mbAccepted code tag c) := by
  obtain ⟨hs, hb, -, hl, hp⟩ := h
  exact mbSubmit_taken hs hb hcode (hbf ▸ hl) hp hok

/-- What of a chip answers a command: it holds it, and the signal box is up. -/
def Holding (code : Nat) (tag : Byte) (c : Chip) : Prop := c.dev.sbDown = false ∧ ∃ k, c.mb.cur = some k ∧ k.code = code ∧ k.tag = tag

theorem Holding.congr {code : Nat} {tag : Byte} {a b : Chip} (h : Holding code tag a) (hd : b.dev = a.dev) (hm : b.mb.cur = a.mb.cur) : Holding code tag b := by
  unfold Holding at *
  rw [hd, hm]
  exact h

theorem Taken.holding {code : Nat} {tag : Byte} {c : Chip} (h : Taken code c) : Holding code tag (mbAccepted code tag c) := by
  obtain ⟨-, -, hsb, -, -⟩ := h
  obtain ⟨d, hd⟩ := mbAccepted_form code tag c
  rw [hd]
  exact ⟨hsb, _, rfl, rfl, rfl⟩

/-- The mailbox after the reply to the command it holds (R426). -/
theorem Holding.reply {code : Nat} {tag : Byte} {c : Chip} (h : Holding code tag c) (result r0 r1 : Nat) : (mbReply result r0 r1 c).mb =
    { c.mb with cur := none, held := none, done := true, code := BitVec.ofNat 12 code, tag := tag, result := BitVec.ofNat 8 result, reply0 := BitVec.ofNat 32 r0, reply1 := BitVec.ofNat 32 r1 } := by
  obtain ⟨hsb, k, hk, rfl, rfl⟩ := h
  rw [mbReply_up hsb]
  exact (mbDeliver_mb _ hk).1

theorem Holding.replied {code : Nat} {tag : Byte} {c : Chip} (h : Holding code tag c) (r0 r1 : Nat) : Replied code tag r0 r1 (mbReply 0 r0 r1 c) := by
  unfold Replied
  rw [h.reply]
  exact ⟨rfl, rfl, rfl, rfl, rfl, rfl, rfl⟩

theorem Replied.congr {code : Nat} {tag : Byte} {r0 r1 : Nat} {a b : Chip} (h : Replied code tag r0 r1 a) (hm : b.mb = a.mb) : Replied code tag r0 r1 b := by
  unfold Replied at *
  rw [hm]
  exact h

section
variable {code : Nat} {tag : Byte} {i : Instr} {s : State} {bf : Bool} {ok : Chip → Bool} {act : Chip → Chip}

/-- A taken command whose own judgement ends in a result code, nothing else changing (R427). -/
theorem does_answered (h : Taken code s.c) (he : exec i s = .next (onChip (mbSubmit code tag bf ok act) s)) (hcode : mbCodes.contains code = true)
    (hbf : bf = if code < 0x050 then false else decide (s.c.upd.bootFail ≠ 0)) (hok : ok s.c = true) {k : Nat}
    (hact : act (mbAccepted code tag s.c) = mbCode k (mbAccepted code tag s.c)) : Does i s [.mb, .int, .host, .dep] (fun c => Replied code tag k 0 c) := by
  have e := (taken_submit (tag := tag) h hcode hbf hok).trans hact
  refine does_onChip _ he (by rw [e]; simp [mbAccepted_mask]) ?_
  rw [e]
  exact h.holding.replied k 0

/-- A taken command that changes the update state and is answered with its result words. -/
theorem does_updAnswered (h : Taken code s.c) (he : exec i s = .next (onChip (mbSubmit code tag bf ok act) s)) (hcode : mbCodes.contains code = true)
    (hbf : bf = if code < 0x050 then false else decide (s.c.upd.bootFail ≠ 0)) (hok : ok s.c = true) {r1 : Nat} {u : UpdSt} {P : Chip → Prop}
    (hact : act (mbAccepted code tag s.c) = updDone r1 (setUpd u (mbAccepted code tag s.c)))
    (hP : ∀ c, Replied code tag 0 r1 c → c.upd = { u with lastCode := 0 } → P c) : Does i s [.mb, .int, .host, .upd, .dep] P := by
  have e := (taken_submit (tag := tag) h hcode hbf hok).trans hact
  refine does_onChip _ he (by rw [e]; simp [mbAccepted_mask]) ?_
  rw [e]
  have hh : Holding code tag (setUpd { u with lastCode := 0 } (setUpd u (mbAccepted code tag s.c))) := h.holding.congr rfl rfl
  exact hP _ (hh.replied 0 r1) (mbReply_upd _ _ _ _)

end

/-! ### The slots of the boot flash -/

theorem slotOf_setSlot (b : Bool) (x : SlotSt) (u : UpdSt) : slotOf (setSlot b x u) b = x := by cases b <;> rfl

theorem slotOf_setSlot_other (b : Bool) (x : SlotSt) (u : UpdSt) : slotOf (setSlot b x u) (!b) = slotOf u (!b) := by cases b <;> rfl

theorem recInForce_setSlot (b : Bool) (x : SlotSt) (u : UpdSt) : recInForce (setSlot b x u) = recInForce u := by cases b <;> rfl

theorem otherSlot_setSlot (b : Bool) (x : SlotSt) (u : UpdSt) : otherSlot (setSlot b x u) = otherSlot u := by cases b <;> rfl

theorem inactive_setSlot (x : SlotSt) (u : UpdSt) : inactive (setSlot (otherSlot u) x u) = x := by
  unfold inactive
  rw [otherSlot_setSlot, slotOf_setSlot]

/-- A slot written, with the next chunk and the last reason code: the other slot and the boot record stay. -/
theorem slotWritten (x : SlotSt) (u : UpdSt) (n k : Nat) : inactive { setSlot (otherSlot u) x u with nextChunk := n, lastCode := k } = x ∧
    slotOf { setSlot (otherSlot u) x u with nextChunk := n, lastCode := k } (!otherSlot u) = slotOf u (!otherSlot u) ∧
    recInForce { setSlot (otherSlot u) x u with nextChunk := n, lastCode := k } = recInForce u := by
  refine ⟨?_, ?_, recInForce_setSlot _ x u⟩
  · show slotOf (setSlot (otherSlot u) x u) (otherSlot (setSlot (otherSlot u) x u)) = x
    rw [otherSlot_setSlot, slotOf_setSlot]
  · exact slotOf_setSlot_other (otherSlot u) x u

theorem updBusy_false {c : Chip} (ha : c.upd.act = none) (hf : c.mb.finalUpd.pending = false) : updBusy c = false := by
  simp [updBusy, ha, hf]

theorem updBusy_act {c : Chip} (ha : c.upd.act ≠ none) : updBusy c = true := by
  simp [updBusy, Option.isSome_iff_ne_none.2 ha]

theorem updBusy_accepted (code : Nat) (tag : Byte) (c : Chip) : updBusy (mbAccepted code tag c) = updBusy c := by
  obtain ⟨d, hd⟩ := mbAccepted_form code tag c
  rw [hd]
  rfl

theorem mbAccepted_upd (code : Nat) (tag : Byte) (c : Chip) : (mbAccepted code tag c).upd = c.upd := by
  obtain ⟨d, hd⟩ := mbAccepted_form code tag c
  rw [hd]

theorem mbParam_accepted (code : Nat) (tag : Byte) (c : Chip) (k : Nat) : mbParam (mbAccepted code tag c) k = mbParam c k := by
  obtain ⟨d, hd⟩ := mbAccepted_form code tag c
  rw [hd]
  rfl

/-- A judgement on the update state (R407). -/
theorem updJudge_done {f : UpdSt → Nat × UpdSt} {c : Chip} {u : UpdSt} (hb : updBusy c = false) (hf : f c.upd = (0, u)) : updJudge f c = updDone 0 (setUpd u c) := by
  unfold updJudge
  rw [hb, hf]
  rfl

theorem updJudge_code {f : UpdSt → Nat × UpdSt} {c : Chip} {u : UpdSt} {k : Nat} (hb : updBusy c = false) (hf : f c.upd = (k, u)) (hk : k ≠ 0) : updJudge f c = mbCode k c := by
  unfold updJudge
  rw [hb, hf]
  exact if_pos hk

theorem updJudge_busy (f : UpdSt → Nat × UpdSt) {c : Chip} (hb : updBusy c = true) : updJudge f c = mbCode 0x060A c := by
  unfold updJudge
  rw [hb]
  rfl

/-! ### Download -/

theorem bundleBegin_new {l : List Byte} {u : UpdSt} (hl : 128 ≤ l.length) (hok : hdrOk l = true) (hh : l.length = headBytes l)
    (h1 : (inactive u).state ≠ 1) (h2 : (inactive u).state ≠ 2) :
    bundleBegin l u = (0, { setSlot (otherSlot u) { slotEmpty with state := 1, header := l.take 128, head2 := l.drop 128 } u with nextChunk := 0 }) := by
  unfold bundleBegin
  dsimp only
  rw [if_neg (by simp [hok, ← hh]; omega), if_neg (by simp [h1, h2])]

section
variable {i : Nat} {l : List Byte} {u : UpdSt} (h1 : (inactive u).state = 1)
include h1

theorem bundleChunk_other (hi : i ≠ u.nextChunk) : bundleChunk i l u = (0x0602, u) := by
  unfold bundleChunk
  dsimp only
  rw [if_neg (by simp [h1]), if_pos hi]

theorem bundleChunk_bad (hi : i = u.nextChunk) (hg : chunkGood (inactive u) i l = false) : bundleChunk i l u = (0x0603, u) := by
  unfold bundleChunk
  dsimp only
  rw [if_neg (by simp [h1]), if_neg (by simp [hi]), if_pos (by simp [hg])]

theorem bundleChunk_good (hi : i = u.nextChunk) (hg : chunkGood (inactive u) i l = true) : bundleChunk i l u =
    (0, { setSlot (otherSlot u) { inactive u with chunks := tput (inactive u).chunks i l, state := if i + 1 = hdrChunks (inactive u).header then 2 else 1 } u with nextChunk := i + 1 }) := by
  unfold bundleChunk
  dsimp only
  rw [if_neg (by simp [h1]), if_neg (by simp [hi]), if_neg (by simp [hg])]

end

/-- A chunk is judged on the slot and the parameter as they stood before. -/
theorem bundleChunk_accepted (s : State) (tag : Byte) :
    bundleChunk (mbParam (mbAccepted 0x052 tag s.c) 0) (staged s.mem (chunkLen (inactive (mbAccepted 0x052 tag s.c).upd).header (mbParam (mbAccepted 0x052 tag s.c) 0) + 16)) (mbAccepted 0x052 tag s.c).upd =
    bundleChunk s.c.mb.p0.toNat (staged s.mem (chunkLen (inactive s.c.upd).header s.c.mb.p0.toNat + 16)) s.c.upd := by
  rw [mbParam_accepted, mbAccepted_upd]
  rfl

theorem exec_bundleBegin (s : State) (tag : Byte) : exec (.bundleBegin tag) s =
    .next (onChip (mbSubmit 0x051 tag (inBootFail s.c) anyOk (fun c => updJudge (bundleBegin (staged s.mem (mbParam c 0))) c)) s) := rfl

theorem exec_bundleChunk (s : State) (tag : Byte) : exec (.bundleChunk tag) s = .next (onChip (mbSubmit 0x052 tag (inBootFail s.c) anyOk
    (fun c => updJudge (fun u => bundleChunk (mbParam c 0) (staged s.mem (chunkLen (inactive u).header (mbParam c 0) + 16)) u) c)) s) := rfl

theorem exec_bundleAbort (s : State) (tag : Byte) :
    exec (.bundleAbort tag) s = .next (onChip (mbSubmit 0x056 tag (inBootFail s.c) anyOk (updJudge bundleAbort)) s) := rfl

theorem exec_bundleVerify (s : State) (tag : Byte) : exec (.bundleVerify tag) s = .next (onChip (mbSubmit 0x054 tag (inBootFail s.c) anyOk
    (fun c => if updBusy c then mbCode 0x060A c else if !([2, 3, 5].contains (inactive c.upd).state) then mbCode 0x0601 c
      else updEnd (bundleVerify (mbCode 0 (updTake tag c))).1 (bundleVerify (mbCode 0 (updTake tag c))).2)) s) := rfl

theorem exec_bundleActivate (s : State) (tag : Byte) : exec (.bundleActivate tag) s = .next (onChip (mbSubmit 0x055 tag (inBootFail s.c) anyOk
    (fun c => if activateRefused c ≠ 0 then mbCode (activateRefused c) c else activate tag c)) s) := rfl

/-- Settles O54: each command's judgement on the update state, and the reply that follows it. -/
theorem bundlesAreReceived : Obligations.BundlesAreReceived := by
  unfold Obligations.BundlesAreReceived
  have hfree : ∀ (s : State) code tag, s.c.upd.act = none → s.c.mb.finalUpd.pending = false → updBusy (mbAccepted code tag s.c) = false :=
    fun s code tag ha hf => (updBusy_accepted _ _ _).trans (updBusy_false ha hf)
  refine ⟨fun s tag l ht ha hf hl hlen hok hh h1 h2 => ?_, fun s tag l i ht ha hf hp h1 hi hl => ?_, fun s tag ht ha hf h1 hi => ?_, fun s tag ht ha hf => ?_,
    fun s tag p hp ht ha => ?_⟩
  · have hbeg : bundleBegin (staged s.mem (mbParam (mbAccepted 0x051 tag s.c) 0)) (mbAccepted 0x051 tag s.c).upd =
        (0, { setSlot (otherSlot s.c.upd) { slotEmpty with state := 1, header := l.take 128, head2 := l.drop 128 } s.c.upd with nextChunk := 0 }) := by
      rw [mbParam_accepted, mbAccepted_upd]
      show bundleBegin (staged s.mem s.c.mb.p0.toNat) s.c.upd = _
      rw [hl]
      exact bundleBegin_new hlen hok hh h1 h2
    refine does_updAnswered ht (exec_bundleBegin s tag) (by decide) rfl rfl (updJudge_done (hfree s _ _ ha hf) hbeg) (fun c hr hu => ?_)
    obtain ⟨hin, hother, hrec⟩ := slotWritten { slotEmpty with state := 1, header := l.take 128, head2 := l.drop 128 } s.c.upd 0 0
    rw [hu]
    exact ⟨hr, rfl, hin, hother, hrec⟩
  · have hchunk := bundleChunk_accepted s tag
    rw [hp, hl] at hchunk
    split
    · next hg =>
      refine does_updAnswered ht (exec_bundleChunk s tag) (by decide) rfl rfl (updJudge_done (hfree s _ _ ha hf) (hchunk.trans (bundleChunk_good h1 hi hg))) (fun c hr hu => ?_)
      obtain ⟨hin, hother, -⟩ := slotWritten { inactive s.c.upd with chunks := tput (inactive s.c.upd).chunks i l, state := if i + 1 = hdrChunks (inactive s.c.upd).header then 2 else 1 } s.c.upd (i + 1) 0
      rw [hu, hin]
      exact ⟨hr, rfl, lookup_tput_same _ _ _, fun j hj => lookup_tput_other _ _ hj, rfl, rfl, hother⟩
    · next hg =>
      exact does_answered ht (exec_bundleChunk s tag) (by decide) rfl rfl (updJudge_code (hfree s _ _ ha hf) (hchunk.trans (bundleChunk_bad h1 hi (Bool.eq_false_iff.2 hg))) (by decide))
  · exact does_answered ht (exec_bundleChunk s tag) (by decide) rfl rfl (updJudge_code (hfree s _ _ ha hf) ((bundleChunk_accepted s tag).trans (bundleChunk_other h1 hi)) (by decide))
  · have habort : bundleAbort (mbAccepted 0x056 tag s.c).upd = (0, { setSlot (otherSlot s.c.upd) slotEmpty s.c.upd with nextChunk := 0 }) := by
      rw [mbAccepted_upd]
      rfl
    refine does_updAnswered ht (exec_bundleAbort s tag) (by decide) rfl rfl (updJudge_done (hfree s _ _ ha hf) habort) (fun c hr hu => ?_)
    obtain ⟨hin, hother, -⟩ := slotWritten slotEmpty s.c.upd 0 0
    rw [hu]
    exact ⟨hr, hin, hother⟩
  · have hb : ∀ code, updBusy (mbAccepted code tag s.c) = true := fun code => (updBusy_accepted _ _ _).trans (updBusy_act ha)
    simp only [List.mem_cons, List.not_mem_nil, or_false] at hp
    rcases hp with rfl | rfl | rfl | rfl | rfl
    · exact does_answered (code := 0x051) ht (exec_bundleBegin s tag) (by decide) rfl rfl (updJudge_busy _ (hb _))
    · exact does_answered (code := 0x052) ht (exec_bundleChunk s tag) (by decide) rfl rfl (updJudge_busy _ (hb _))
    · exact does_answered (code := 0x054) ht (exec_bundleVerify s tag) (by decide) rfl rfl (if_pos (hb _))
    · have href : activateRefused (mbAccepted 0x055 tag s.c) = 0x060A := if_pos (hb _)
      exact does_answered (code := 0x055) ht (exec_bundleActivate s tag) (by decide) rfl rfl (by rw [href]; rfl)
    · exact does_answered (code := 0x056) ht (exec_bundleAbort s tag) (by decide) rfl rfl (updJudge_busy _ (hb _))

/-! ### Verification -/

/-- The chip once `BUNDLE_VERIFY` or `SD_LOAD` is taken on (R427, R428). -/
def updTaken (code : Nat) (tag : Byte) (c : Chip) : Chip := mbCode 0 (updTake tag (mbAccepted code tag c))

theorem updTaken_upd (code : Nat) (tag : Byte) (c : Chip) : (updTaken code tag c).upd = c.upd := by
  unfold updTaken mbCode
  rw [mbReply_upd, updTake_upd, mbAccepted_upd]

/-- The mailbox as a command's final result waits (R428). -/
def Awaiting (code : Nat) (tag : Byte) (c : Chip) : Prop := Replied code tag 0 0 c ∧ c.mb.finalUpd.pending = true ∧ c.mb.finalUpd.tag = tag

theorem updTaken_awaiting {code : Nat} {c : Chip} (tag : Byte) (h : Taken code c) : Awaiting code tag (updTaken code tag c) := by
  have hh : Holding code tag (updTake tag (mbAccepted code tag c)) := h.holding.congr rfl rfl
  unfold Awaiting updTaken mbCode
  refine ⟨hh.replied 0 0, ?_⟩
  rw [hh.reply]
  exact ⟨rfl, rfl⟩

theorem updEnd_pending {c : Chip} (k : Nat) (hp : c.mb.finalUpd.pending = true) : updEnd k c =
    setInt 2 { c with mb := { c.mb with finalUpd := { c.mb.finalUpd with pending := false, done := true, reason := BitVec.ofNat 16 k } }, upd := { c.upd with lastCode := k } } := by
  unfold updEnd updFinal
  exact if_pos hp

/-- The final result given (R428), with the last reason code. -/
theorem updEnd_given {code : Nat} {tag : Byte} {c : Chip} (h : Awaiting code tag c) (k : Nat) : Replied code tag 0 0 (updEnd k c) ∧ IntSet 2 (updEnd k c) ∧
    (updEnd k c).mb.finalUpd = { pending := false, done := true, tag := tag, reason := BitVec.ofNat 16 k } ∧ (updEnd k c).upd = { c.upd with lastCode := k } := by
  obtain ⟨hr, hp, ht⟩ := h
  rw [updEnd_pending k hp]
  refine ⟨?_, setInt_set (by decide) _, ?_, ?_⟩
  · unfold Replied at *
    rw [setInt_mb]
    exact hr
  · rw [setInt_mb, ← ht]
  · rw [setInt_upd]

/-- Verification of a received slot while the part has booted (R398). -/
theorem bundleVerify_eq {c : Chip} {k : Nat} {mf : List Manif} (hb : c.upd.bootFail = 0) (hs : (inactive c.upd).state = 2) (hv : verifySlot c.upd = (k, mf)) :
    bundleVerify c = (k, if k = 0 then setUpd (setSlot (otherSlot c.upd) { inactive c.upd with state := 3, verified := true, manifest := mf } c.upd) c else c) := by
  have hboot : inBootFail c = false := by simp [inBootFail, hb]
  unfold bundleVerify
  dsimp only
  rw [hs, hv, hboot, if_neg (by decide)]
  by_cases hk : k = 0
  · subst hk
    rfl
  · rw [if_pos hk, if_neg hk]

/-- What verification leaves in the update state. -/
def Verified (k : Nat) (mf : List Manif) (u v : UpdSt) : Prop :=
  if k = 0 then inactive v = { inactive u with state := 3, verified := true, manifest := mf } else v = { u with lastCode := k }

theorem bundleVerify_verified {c : Chip} {k : Nat} {mf : List Manif} (hb : c.upd.bootFail = 0) (hs : (inactive c.upd).state = 2) (hv : verifySlot c.upd = (k, mf)) :
    (bundleVerify c).1 = k ∧ Verified k mf c.upd { (bundleVerify c).2.upd with lastCode := k } := by
  rw [bundleVerify_eq hb hs hv]
  unfold Verified
  split
  · exact ⟨rfl, inactive_setSlot _ c.upd⟩
  · exact ⟨rfl, rfl⟩

/-- Verification leaves the mailbox. -/
theorem bundleVerify_mb (c : Chip) : (bundleVerify c).2.mb = c.mb :=
  mb_of_mask (l := [.upd]) (by simp) (by decide)

theorem Awaiting.congr {code : Nat} {tag : Byte} {a b : Chip} (h : Awaiting code tag a) (hm : b.mb = a.mb) : Awaiting code tag b := by
  obtain ⟨hr, hp, ht⟩ := h
  exact ⟨hr.congr hm, by rw [hm]; exact hp, by rw [hm]; exact ht⟩

/-! ### Cards -/

/-- What a card's file comes to (R397): its download, then its verification. -/
theorem sdLoad_eq {l : List Byte} {c : Chip} {u v : UpdSt} {k : Nat} (hb : bundleBegin (l.take (headBytes l)) c.upd = (0, u)) (h1 : (inactive u).state = 1)
    (hc : fileChunks l (inactive u).header 961 0 u = (k, v)) : sdLoad l c = if k = 0 then bundleVerify (setUpd v c) else (k, setUpd v c) := by
  unfold sdLoad
  dsimp only
  rw [hb]
  dsimp only
  rw [if_neg (by decide), if_pos h1, hc]
  by_cases hk : k = 0
  · subst hk
    rfl
  · rw [if_pos hk, if_neg hk]

/-- The part takes a card's steps by itself (R397). -/
theorem sdAuto_file {l : List Byte} {c : Chip} (ha : c.upd.live.sdAuto = true) (hb : updBusy c = false) (hf : c.upd.file = some l) :
    sdAuto c = setCode (sdLoad l c).1 (sdLoad l c).2 := by
  unfold sdAuto
  rw [ha, hb, hf]
  rfl

section
variable {s : State} {tag : Byte} {l : List Byte}

/-- A final result of what was done to a chip. -/
def updEnded (r : Nat × Chip) : Chip := updEnd r.1 r.2

/-- `SD_LOAD` of a file, taken on, up to its final result. -/
theorem sdLoad_submit (ht : Taken 0x053 s.c) (ha : s.c.upd.act = none) (hf : s.c.mb.finalUpd.pending = false) : exec (.sdLoad tag (some l)) s =
    .next { s with c := updEnded (sdLoad l (updTaken 0x053 tag (setUpd { s.c.upd with file := some l } s.c))) } := by
  have ht' : Taken 0x053 (setUpd { s.c.upd with file := some l } s.c) := ht
  have hb : updBusy (mbAccepted 0x053 tag (setUpd { s.c.upd with file := some l } s.c)) = false := (updBusy_accepted _ _ _).trans (updBusy_false ha hf)
  show Host.Outcome.next _ = _
  refine congrArg (fun c => Host.Outcome.next { s with c := c }) ((taken_submit (ok := anyOk) ht' (by decide) rfl rfl).trans ?_)
  exact if_neg (by rw [hb]; decide)

end

theorem does_of_exec {i : Instr} {s : State} {l : List Part} {P : Chip → Prop} {c : Chip} (he : exec i s = .next { s with c := c })
    (hm : mask l c = mask l s.c) (hP : P c) : Does i s l P :=
  ⟨_, he, ⟨rfl, rfl, (mask_eq_iff _ _).1 hm⟩, hP⟩

theorem exec_sdCard (s : State) (file : Option (List Byte)) : exec (.sdCardInserted file) s =
    .next { s with c := when (awake s.c && (s.c.dev.state != .boot || inBootFail s.c)) sdAuto (setUpd { s.c.upd with cardIn := true, file := file } s.c) } := rfl

/-- Settles O55: the verification's code decides both the slot and the final result, from the mailbox and from a card. -/
theorem bundlesAreVerified : Obligations.BundlesAreVerified := by
  unfold Obligations.BundlesAreVerified
  refine ⟨fun s tag k mf ht ha hf hb hs hv => ?_, fun s tag ht ha hf => ?_, fun s tag l u k v m mf ht ha hf hb hbeg h1 hc hv => ?_, fun s file ha => ?_,
    fun s hc hboot ha hact hf => ?_, fun s l u k v m mf hcold hboot ha hact hf hb hbeg h1 hc hv => ?_⟩
  · have hu := updTaken_upd 0x054 tag s.c
    obtain ⟨hk, hver⟩ := bundleVerify_verified (c := updTaken 0x054 tag s.c) (k := k) (mf := mf) (by rw [hu]; exact hb) (by rw [hu]; exact hs) (by rw [hu]; exact hv)
    have e : mbSubmit 0x054 tag (inBootFail s.c) anyOk (fun c => if updBusy c then mbCode 0x060A c else if !([2, 3, 5].contains (inactive c.upd).state) then mbCode 0x0601 c
        else updEnd (bundleVerify (mbCode 0 (updTake tag c))).1 (bundleVerify (mbCode 0 (updTake tag c))).2) s.c =
        updEnd k (bundleVerify (updTaken 0x054 tag s.c)).2 := by
      rw [taken_submit (bf := inBootFail s.c) (ok := anyOk) ht (by decide) rfl rfl, if_neg (by rw [updBusy_accepted, updBusy_false ha hf]; decide), if_neg (by rw [mbAccepted_upd, hs]; decide), ← hk]
      rfl
    obtain ⟨hrep, hint, hfin, hupd⟩ := updEnd_given ((updTaken_awaiting tag ht).congr (bundleVerify_mb _)) k
    refine does_onChip _ (exec_bundleVerify s tag) (by rw [e]; simp [updTaken, mbAccepted_mask]) ?_
    rw [e]
    refine ⟨hrep, hint, hfin, by rw [hupd], ?_⟩
    rw [hupd, ← hu]
    exact hver
  · have ht' : Taken 0x053 (setUpd { s.c.upd with file := none } s.c) := ht
    have hb : updBusy (mbAccepted 0x053 tag (setUpd { s.c.upd with file := none } s.c)) = false := (updBusy_accepted _ _ _).trans (updBusy_false ha hf)
    have he : exec (.sdLoad tag none) s = .next { s with c := mbCode 0x060F (mbAccepted 0x053 tag (setUpd { s.c.upd with file := none } s.c)) } := by
      show Host.Outcome.next _ = _
      refine congrArg (fun c => Host.Outcome.next { s with c := c }) ((taken_submit (ok := anyOk) ht' (by decide) rfl rfl).trans ?_)
      exact if_neg (by rw [hb]; decide)
    refine does_of_exec he (by simp [mbAccepted_mask]) ⟨ht'.holding.replied _ _, ?_⟩
    unfold mbCode
    rw [mbReply_upd, mbAccepted_upd]
    rfl
  · have ht' : Taken 0x053 (setUpd { s.c.upd with file := some l } s.c) := ht
    have hu : (updTaken 0x053 tag (setUpd { s.c.upd with file := some l } s.c)).upd = { s.c.upd with file := some l } := updTaken_upd _ _ _
    have he := sdLoad_submit (tag := tag) (l := l) ht ha hf
    have hwait := updTaken_awaiting tag ht'
    have hmask : mask [.mb, .int, .host, .upd, .dep] (updTaken 0x053 tag (setUpd { s.c.upd with file := some l } s.c)) = mask [.mb, .int, .host, .upd, .dep] s.c := by
      simp [updTaken, mbAccepted_mask]
    generalize updTaken 0x053 tag (setUpd { s.c.upd with file := some l } s.c) = c2 at hu he hwait hmask
    rw [sdLoad_eq (c := c2) (by rw [hu]; exact hbeg) h1 hc] at he
    split
    · next hk =>
      intro hvb hvs
      obtain ⟨hm, hver⟩ := bundleVerify_verified (c := setUpd v c2) hvb hvs hv
      have hend : updEnded (bundleVerify (setUpd v c2)) = updEnd m (bundleVerify (setUpd v c2)).2 := congrArg (fun n => updEnd n (bundleVerify (setUpd v c2)).2) hm
      rw [if_pos hk, hend] at he
      obtain ⟨hrep, -, hfin, hupd⟩ := updEnd_given (hwait.congr (bundleVerify_mb (setUpd v c2))) m
      refine does_of_exec he (by simp [hmask]) ⟨hrep, hfin, ?_⟩
      rw [hupd]
      exact hver
    · next hk =>
      have hend : updEnded (k, setUpd v c2) = updEnd k (setUpd v c2) := rfl
      rw [if_neg hk, hend] at he
      obtain ⟨hrep, -, hfin, hupd⟩ := updEnd_given (c := setUpd v c2) (hwait.congr rfl) k
      exact does_of_exec he (by simp [hmask]) ⟨hrep, hfin, hupd⟩
  · have e : when (awake s.c && (s.c.dev.state != .boot || inBootFail s.c)) sdAuto (setUpd { s.c.upd with cardIn := true, file := file } s.c) = setUpd { s.c.upd with cardIn := true, file := file } s.c := by
      have hoff : sdAuto (setUpd { s.c.upd with cardIn := true, file := file } s.c) = setUpd { s.c.upd with cardIn := true, file := file } s.c :=
        if_neg (by show ¬(s.c.upd.live.sdAuto && _) = true; rw [ha]; simp)
      rw [Machine.when, hoff, ite_self]
    have he := exec_sdCard s file
    rw [e] at he
    exact does_of_exec he (by simp) rfl
  · have hcond : (awake s.c && (s.c.dev.state != .boot || inBootFail s.c)) = true := by simp [awake, hc, hboot]
    have e : when (awake s.c && (s.c.dev.state != .boot || inBootFail s.c)) sdAuto (setUpd { s.c.upd with cardIn := true, file := none } s.c) =
        setUpd { s.c.upd with cardIn := true, file := none, lastCode := 0x060F } s.c := by
      rw [hcond, when_true]
      exact if_pos (by show (s.c.upd.live.sdAuto && !(updBusy s.c)) = true; rw [ha, updBusy_false hact hf]; rfl)
    have he := exec_sdCard s none
    rw [e] at he
    exact does_of_exec he (by simp) rfl
  · have hcond : (awake s.c && (s.c.dev.state != .boot || inBootFail s.c)) = true := by simp [awake, hcold, hboot]
    have e : when (awake s.c && (s.c.dev.state != .boot || inBootFail s.c)) sdAuto (setUpd { s.c.upd with cardIn := true, file := some l } s.c) =
        setCode (sdLoad l (setUpd { s.c.upd with cardIn := true, file := some l } s.c)).1 (sdLoad l (setUpd { s.c.upd with cardIn := true, file := some l } s.c)).2 := by
      rw [hcond, when_true]
      exact sdAuto_file ha (updBusy_false hact hf) rfl
    have he := exec_sdCard s (some l)
    have hmask : mask [.upd] (setUpd { s.c.upd with cardIn := true, file := some l } s.c) = mask [.upd] s.c := by simp
    have hload := sdLoad_eq (c := setUpd { s.c.upd with cardIn := true, file := some l } s.c) hbeg h1 hc
    generalize setUpd { s.c.upd with cardIn := true, file := some l } s.c = c2 at e he hload hmask
    rw [e, hload] at he
    split
    · next hk =>
      intro hvb hvs
      obtain ⟨hm, hver⟩ := bundleVerify_verified (c := setUpd v c2) hvb hvs hv
      rw [if_pos hk, hm] at he
      refine does_of_exec he (by simp [setCode, hmask]) ?_
      unfold Verified at hver
      split
      · next hm0 =>
        rw [if_pos hm0] at hver
        exact ⟨hver, hm0⟩
      · next hm0 =>
        rw [if_neg hm0] at hver
        exact hver
    · next hk =>
      rw [if_neg hk] at he
      exact does_of_exec he (by simp [setCode, hmask]) rfl

end Sys2Proof.Machine
end

section
/-!
PROOFS. Activation: taken on, handed over, migrated, confirmed or fallen back from (O56; R399 to R403, R409).
-/
namespace Sys2Proof.Machine
open Sys2Proof

/-! ### The activation under way -/

theorem updAct_eq {c : Chip} {a : ActSt} (f : ActSt → ActSt) (h : c.upd.act = some a) : updAct f c = setUpd { c.upd with act := some (f a) } c := by
  unfold updAct
  rw [h]
  rfl

/-- The hand-over of a component other than the microcode and the signal box starts (R400). -/
def handing (comp n : Nat) (a : ActSt) : ActSt := { a with comp := comp, phase := 0, since := n, goodFrom := none }

theorem beginHand_low {comp n : Nat} {c : Chip} {a : ActSt} (hc : comp < 2) (h : c.upd.act = some a) :
    beginHand comp n c = setUpd { c.upd with act := some (handing comp n a) } c := by
  unfold beginHand
  dsimp only
  rw [if_neg (by omega), if_neg (by omega), updAct_eq _ h]
  rfl

/-- The next hand-over after one of the first two (R400, R401). -/
theorem beginHand_next {comp n : Nat} {c : Chip} {a : ActSt} (hc : comp < 3) (h : c.upd.act = some a) :
    ∃ b, beginHand comp n c = setUpd { c.upd with act := some b } c ∧ b.comp = comp ∧ b.phase = 0 ∧ b.confirmed = a.confirmed := by
  by_cases h2 : comp < 2
  · exact ⟨_, beginHand_low h2 h, rfl, rfl, rfl⟩
  · obtain rfl : comp = 2 := by omega
    unfold beginHand
    dsimp only
    rw [if_pos rfl, updAct_eq _ h]
    exact ⟨_, rfl, rfl, rfl, rfl⟩

/-- The boot record written beside one that is valid (R394). -/
theorem writeRec_second {u : UpdSt} (r : BootRec) (h0 : u.rec0.isSome = true) (h1 : u.rec1 = none) :
    writeRec r u = { u with rec1 := some { r with seq := ((recInForce u).map (·.seq + 1)).getD 1 } } := by
  obtain ⟨a, ha⟩ := Option.isSome_iff_exists.1 h0
  unfold writeRec
  rw [ha, h1]
  rfl

theorem setSlot_recs (b : Bool) (x : SlotSt) (u : UpdSt) : (setSlot b x u).rec0 = u.rec0 ∧ (setSlot b x u).rec1 = u.rec1 := by cases b <;> exact ⟨rfl, rfl⟩

/-! ### Taken on -/

/-- The record in trial that an activation writes first (R399). -/
def trialRec (u : UpdSt) : BootRec :=
  { slot := otherSlot u, trial := true, confirmed := 0, bootId := hdrId (slotOf u (otherSlot u)).header, fallbackId := ((recInForce u).map (·.bootId)).getD 0, floor := ((recInForce u).map (·.floor)).getD 0, seq := 0 }

/-- The update state once an activation is taken on, the slots named by the trial record. -/
def trialSlots (u : UpdSt) : UpdSt :=
  setSlot (!otherSlot u) { slotOf (writeRec (trialRec u) u) (!otherSlot u) with state := if (slotOf (writeRec (trialRec u) u) (!otherSlot u)).state = 4 then 3 else (slotOf (writeRec (trialRec u) u) (!otherSlot u)).state }
    (setSlot (otherSlot u) { slotOf u (otherSlot u) with state := 4 } (writeRec (trialRec u) u))

/-- An activation as it starts (R399, R402). -/
def actStart (c : Chip) : ActSt :=
  { fallback := false, trial := false, comp := 0, phase := 0, handed := 0, confirmed := 0, since := now c, goodFrom := none, dps := dpStates c, lanes := lockedLanes c, power := lanePowers c, trouble := 0, mcNew := [], mcDone := [], mcHits := [], mcStart := 0, mcAt := 0, old := c.upd.run }

theorem activate_eq (tag : Byte) (c : Chip) :
    activate tag c = mbCode 0 (updTake tag (setUpd { trialSlots c.upd with act := some (handing 0 (now c) (actStart c)) } c)) := by
  have h := beginHand_low (comp := 0) (n := now c) (c := setUpd { trialSlots c.upd with act := some (actStart c) } c) (a := actStart c) (by decide) rfl
  exact congrArg (fun d => mbCode 0 (updTake tag d)) h

theorem trialSlots_recs {u : UpdSt} (h0 : u.rec0.isSome = true) (h1 : u.rec1 = none) :
    ∃ r, (trialSlots u).rec1 = some r ∧ (trialSlots u).rec0 = u.rec0 ∧ r.slot = otherSlot u ∧ r.trial = true ∧ r.confirmed = 0 := by
  unfold trialSlots
  rw [(setSlot_recs _ _ _).1, (setSlot_recs _ _ _).2, (setSlot_recs _ _ _).1, (setSlot_recs _ _ _).2, writeRec_second _ h0 h1]
  exact ⟨_, rfl, rfl, rfl, rfl, rfl⟩

theorem activateRefused_accepted (code : Nat) (tag : Byte) (c : Chip) : activateRefused (mbAccepted code tag c) = activateRefused c := by
  obtain ⟨d, hd⟩ := mbAccepted_form code tag c
  rw [hd]
  rfl

/-! ### Handed over -/

theorem compOf_runComp (m : Manif) (run : List Manif) : compOf (runComp m run) m.comp = m := by
  have hnone : (run.filter (fun x => x.comp ≠ m.comp)).find? (fun x => decide (x.comp = m.comp)) = none :=
    List.find?_eq_none.2 (fun x hx => by simpa using (List.mem_filter.1 hx).2)
  unfold compOf runComp
  rw [List.find?_append, hnone]
  simp

theorem compOf_runComp_other {m : Manif} {j : Nat} (run : List Manif) (h : j ≠ m.comp) : compOf (runComp m run) j = compOf run j := by
  have hsame : (run.filter (fun x => x.comp ≠ m.comp)).find? (fun x => decide (x.comp = j)) = run.find? (fun x => decide (x.comp = j)) := by
    rw [List.find?_filter]
    refine congrArg (fun p => run.find? p) (funext fun x => ?_)
    by_cases hx : x.comp = j
    · simp [hx, h]
    · simp [hx]
  unfold compOf runComp
  rw [List.find?_append, hsame]
  simp [Ne.symm h]

/-- A component on probation (R400, R402). -/
def handed (n trouble : Nat) (a : ActSt) : ActSt := { a with handed := a.handed ||| 2 ^ a.comp, phase := 1, since := n, goodFrom := some n, trouble := trouble }

theorem handEnd_low {n : Nat} {c : Chip} {a : ActSt} (h : c.upd.act = some a) (hf : a.fallback = false) (hc : a.comp < 2) : handEnd n c =
    setUpd { c.upd with run := runComp (compOf (slotOf c.upd (bootSlot c.upd)).manifest a.comp) c.upd.run, act := some (handed n (engineTrouble c) a) } c := by
  have hne : a.comp ≠ 3 := by omega
  unfold handEnd
  rw [h]
  dsimp only
  rw [if_neg hne, hf, if_neg Bool.false_ne_true, if_neg hne, if_neg Bool.false_ne_true]
  exact updAct_eq (a := a) _ h

/-! ### Migrated -/

/-- A turn that leaves every chip but at one element acts there alone. -/
theorem forEach_only {α : Type} {f : α → Chip → Chip} {l : List α} {i : α} {c : Chip} (hd : l.Nodup) (hi : i ∈ l)
    (before : ∀ j, j ∈ l → j ≠ i → f j c = c) (after : ∀ j, j ∈ l → j ≠ i → f j (f i c) = f i c) : forEach l f c = f i c := by
  induction l with
  | nil => exact absurd hi List.not_mem_nil
  | cons x t ih =>
    obtain ⟨hx, ht⟩ := List.nodup_cons.1 hd
    by_cases h : x = i
    · subst h
      have hstay : ∀ t' : List α, (∀ j, j ∈ t' → f j (f x c) = f x c) → forEach t' f (f x c) = f x c := by
        intro t'
        induction t' with
        | nil => exact fun _ => rfl
        | cons y t'' ih' =>
          intro hall
          rw [forEach_cons, hall y List.mem_cons_self]
          exact ih' (fun j hj => hall j (List.mem_cons_of_mem _ hj))
      exact hstay t (fun j hj => after j (List.mem_cons_of_mem _ hj) (fun e => hx (e ▸ hj)))
    · rw [forEach_cons, before x List.mem_cons_self h]
      exact ih ht (List.mem_of_ne_of_mem (Ne.symm h) hi) (fun j hj => before j (List.mem_cons_of_mem _ hj)) (fun j hj => after j (List.mem_cons_of_mem _ hj))

/-- An island that has migrated, with no list bound, stays (R401). -/
theorem migrateIsland_done {n j : Nat} {c : Chip} {a : ActSt} (h : c.upd.act = some a) (hd : j ∈ a.mcDone) (hb : (getIsl c j).bind = []) :
    migrateIsland n j c = c := by
  unfold migrateIsland
  rw [h]
  dsimp only
  rw [hb]
  exact if_pos (List.contains_iff_mem.2 hd)

/-- The engine that loads the new microcode is marked as having it. -/
def mcMarked (isl e : Nat) (a : ActSt) : ActSt := { a with mcNew := tput a.mcNew isl (tget 0 a.mcNew isl ||| BitVec.ofNat 16 (1 <<< (e % 16))) }

/-- The one list still on the old microcode moves to the siding that has the new one (R401). -/
theorem migrateIsland_moves {n i l e f : Nat} {c : Chip} {a : ActSt} (h : c.upd.act = some a) (hb : (getIsl c i).bind = [(l, e)]) (he : (getEng c e).role = 0)
    (hold : bitAt (tget 0 a.mcNew i) (e % 16) = false) (hs : enginesIn c i 1 = [f]) (hnew : bitAt (tget 0 a.mcNew i) (f % 16) = true) :
    migrateIsland n i c = updAct (mcMarked i e) (toSiding e (bindList i l f c)) := by
  have hleft : (getIsl c i).bind.filter (fun b => decide ((getEng c b.2).role = roleWork) && !bitAt (tget 0 a.mcNew i) (b.2 % 16)) = [(l, e)] := by
    rw [hb]
    refine List.filter_cons_of_pos (l := []) ?_
    dsimp only
    rw [he, hold]
    rfl
  have hfind : (enginesIn c i roleSiding).find? (fun e => bitAt (tget 0 a.mcNew i) (e % 16)) = some f :=
    (congrArg (List.find? _) hs).trans (List.find?_cons_of_pos hnew)
  unfold migrateIsland
  rw [h]
  dsimp only
  rw [hleft]
  dsimp only
  rw [hfind]
  rfl

/-- The chip once the list has moved, the activation as given. -/
def moved (i l e f : Nat) (a : ActSt) (c : Chip) : Chip := setUpd { c.upd with act := some a } (toSiding e (bindList i l f c))

theorem bindList_getIsl_other {i l f j : Nat} (c : Chip) (h : j ≠ i) : getIsl (bindList i l f c) j = getIsl c j := by
  simp [bindList, updIsl_get_other _ _ h]

theorem moved_isl (i l e f : Nat) (a : ActSt) (c : Chip) (j : Nat) : getIsl (moved i l e f a c) j = getIsl (bindList i l f c) j := by
  have hisl : (moved i l e f a c).isl = (bindList i l f c).isl := isl_of_mask (l := [.eng, .upd]) (by simp [moved]) (by decide)
  unfold getIsl
  rw [hisl]

theorem moved_eng (i l e f : Nat) (a : ActSt) (c : Chip) (j : Nat) : getEng (moved i l e f a c) j = getEng (toSiding e (bindList i l f c)) j := by
  have heng : (moved i l e f a c).eng = (toSiding e (bindList i l f c)).eng := eng_of_mask (l := [.upd]) (by simp [moved]) (by decide)
  unfold getEng
  rw [heng]

theorem moved_getIsl_other {i l e f j : Nat} (a : ActSt) (c : Chip) (h : j ≠ i) : getIsl (moved i l e f a c) j = getIsl c j :=
  (moved_isl i l e f a c j).trans (bindList_getIsl_other c h)

theorem moved_getIsl (i l e f : Nat) (a : ActSt) (c : Chip) : getIsl (moved i l e f a c) i =
    { getIsl c i with epochs := tput (getIsl c i).epochs l (nextEpoch (tget 0 (getIsl c i).epochs l)), bind := tput (getIsl c i).bind l f, orphans := (getIsl c i).orphans.filter (· ≠ l) } :=
  (moved_isl i l e f a c i).trans (bindList_getIsl i l f c)

theorem moved_getEng_siding {i l e f : Nat} (a : ActSt) {c : Chip} (hfe : f ≠ e) (he : (getEng c e).role = 0) : (getEng (moved i l e f a c) e).role = 1 := by
  have hal : engAlive (getEng c e) = true := by simp [engAlive, he]
  rw [moved_eng, toSiding, updEng_get, bindList_getEng_other c (Ne.symm hfe), if_pos hal]
  rfl

theorem moved_getEng {i l e f : Nat} (a : ActSt) {c : Chip} (hfe : f ≠ e) (hl : listItems c i l ≠ []) :
    (getEng (moved i l e f a c) f).role = 0 ∧ (getEng (moved i l e f a c) f).list = l := by
  obtain ⟨hrole, hlist, -⟩ := bindList_getEng (f := f) hl
  rw [moved_eng, toSiding, updEng_get_other _ _ hfe]
  exact ⟨hrole, hlist⟩

section
variable {n i l e f : Nat} {c : Chip} {a : ActSt} (h : c.upd.act = some a) (hi : i < 64) (hnd : i ∉ a.mcDone)
  (hoth : ∀ j, j < 64 → j ≠ i → j ∈ a.mcDone ∧ (getIsl c j).bind = []) (hb : (getIsl c i).bind = [(l, e)]) (he : (getEng c e).role = 0)
  (hold : bitAt (tget 0 a.mcNew i) (e % 16) = false) (hs : enginesIn c i 1 = [f]) (hnew : bitAt (tget 0 a.mcNew i) (f % 16) = true)
include h hi hoth hb he hold hs hnew

/-- Where one island alone has not migrated, the boundary moves its list (R401). -/
theorem migrate_all : forEach ((upto 64).filter (fun i => !([] : List Nat).contains i)) (migrateIsland n) c = moved i l e f (mcMarked i e a) c := by
  have hall : (upto 64).filter (fun i => !([] : List Nat).contains i) = upto 64 := List.filter_eq_self.2 (fun _ _ => rfl)
  have hmove : migrateIsland n i c = moved i l e f (mcMarked i e a) c := by
    have hupd : (toSiding e (bindList i l f c)).upd = c.upd := upd_of_mask (l := [.eng, .isl]) (by simp) (by decide)
    rw [migrateIsland_moves h hb he hold hs hnew, updAct_eq (a := a) _ (hupd.symm ▸ h), hupd]
    rfl
  rw [hall, forEach_only (l := upto 64) List.nodup_range (List.mem_range.2 hi) (fun j hj hne => ?_) (fun j hj hne => ?_), hmove]
  · obtain ⟨hd, hbind⟩ := hoth j (List.mem_range.1 hj) hne
    exact migrateIsland_done h hd hbind
  · obtain ⟨hd, hbind⟩ := hoth j (List.mem_range.1 hj) hne
    rw [hmove]
    exact migrateIsland_done rfl hd (by rw [moved_getIsl_other _ _ hne]; exact hbind)

end

/-! ### Confirmed, or fallen back from -/

theorem confirmDue_iff {n : Nat} {c : Chip} {a : ActSt} (h : c.upd.act = some a) :
    confirmDue n c = (decide (a.phase = 1) && !a.fallback && (match a.goodFrom with | some g => decide (g + 80000 ≤ n) | none => false)) := by
  unfold confirmDue
  rw [h] <;> rfl

/-- The notice of a component that confirms (R409). -/
def confirmNotice (n : Nat) (c : Chip) (a : ActSt) : Chip :=
  updNotice 0x38 a.comp 0 ((compOf c.upd.run a.comp).ver % 65536) n (setUpd { c.upd with act := some { a with confirmed := a.confirmed ||| 2 ^ a.comp } } c)

theorem confirm_eq {n : Nat} {c : Chip} {a : ActSt} (h : c.upd.act = some a) :
    confirm n c = if a.comp = 3 then activated n (confirmNotice n c a) else beginHand (a.comp + 1) n (confirmNotice n c a) := by
  unfold confirm confirmNotice
  rw [h]
  dsimp only
  rw [updAct_eq _ h]

theorem updNotice_upd (ty ref bit conseq n : Nat) (c : Chip) : (updNotice ty ref bit conseq n c).upd = c.upd := by simp [updNotice]

theorem updNotice_mb (ty ref bit conseq n : Nat) (c : Chip) : (updNotice ty ref bit conseq n c).mb = c.mb := by simp [updNotice]

/-- The update state as an activation ends, its record confirmed in the second copy (R394, R399 step 3). -/
def confirmedUpd (r : BootRec) (u : UpdSt) : UpdSt :=
  { u with rec1 := some { r with trial := false, confirmed := 15, floor := max r.floor (hdrEpoch (slotOf u r.slot).header), seq := r.seq + 1 }, act := none, blob := 0 }

theorem activated_eq {n : Nat} {c : Chip} {r : BootRec} (h : recInForce c.upd = some r) (h0 : c.upd.rec0.isSome = true) (h1 : c.upd.rec1 = none) :
    activated n c = updEnd 0 (updNotice 0x3A (hdrId (slotOf c.upd r.slot).header % 131072) 0 0 n (setUpd (confirmedUpd r c.upd) c)) := by
  unfold activated
  dsimp only
  rw [h]
  dsimp only
  rw [writeRec_second _ h0 h1, h]
  rfl

theorem formerRec_recs {u : UpdSt} {r : BootRec} (hr : recInForce u = some r) (h0 : u.rec0 = some r) (h1 : u.rec1 = none) :
    ∃ q, (formerRec u).rec1 = some q ∧ q.slot = !r.slot ∧ q.trial = false ∧ q.confirmed = 15 ∧ q.seq = r.seq + 1 := by
  have h0' : u.rec0.isSome = true := by rw [h0]; rfl
  unfold formerRec
  rw [hr]
  dsimp only
  rw [(setSlot_recs _ _ _).2, (setSlot_recs _ _ _).2, writeRec_second _ h0' h1, hr]
  exact ⟨_, rfl, rfl, rfl, rfl, rfl⟩

theorem formerRec_act (u : UpdSt) : (formerRec u).act = u.act := by
  have hslot : ∀ b x v, (setSlot b x v).act = v.act := fun b x v => by cases b <;> rfl
  have hrec : ∀ r, (writeRec r u).act = u.act := fun r => (apply_ite UpdSt.act _ _ _).trans (ite_self _)
  unfold formerRec
  split
  · rfl
  · rw [hslot, hslot, hrec]

/-- Settles O56: each step of an activation as the update state it leaves. -/
theorem activationProceeds : Obligations.ActivationProceeds := by
  unfold Obligations.ActivationProceeds
  refine ⟨fun s tag k ht hk hk0 => ?_, fun s tag ht hk => ?_, fun s a m ha hp hf hc hm hmc => ?_, fun s a i l e f ha hc hp hat hi hnd hoth hb hre hold hs hnew hfe hl => ?_,
    fun s a g ha hp hf hg hdue hc hr => ?_, fun s a g r ha hp hf hg hdue hc hroom hr h0 h1 hfin => ?_, fun s a r ha hp hf hg hw hc hr h0 h1 => ?_⟩
  · refine does_answered ht (exec_bundleActivate s tag) (by decide) rfl rfl ?_
    rw [activateRefused_accepted, hk]
    exact if_pos hk0
  · have e : mbSubmit 0x055 tag (inBootFail s.c) anyOk (fun c => if activateRefused c ≠ 0 then mbCode (activateRefused c) c else activate tag c) s.c = activate tag (mbAccepted 0x055 tag s.c) := by
      rw [taken_submit (bf := inBootFail s.c) (ok := anyOk) ht (by decide) rfl rfl, activateRefused_accepted, hk]
      rfl
    rw [activate_eq, mbAccepted_upd] at e
    refine does_onChip _ (exec_bundleActivate s tag) (by rw [e]; simp [mbAccepted_mask]) ?_
    rw [e]
    have hh : ∀ b, Holding 0x055 tag (updTake tag (setUpd { trialSlots s.c.upd with act := some b } (mbAccepted 0x055 tag s.c))) := fun b => ht.holding.congr rfl rfl
    unfold mbCode
    rw [(hh _).reply, mbReply_upd]
    exact ⟨(hh _).replied 0 0, rfl, rfl, ⟨_, rfl, rfl, rfl, rfl, rfl, rfl⟩, fun h0 h1 => trialSlots_recs h0 h1⟩
  · have e := handEnd_low (n := now s.c) ha hf hc
    have hcond : (decide (a.phase = 0) && (decide (a.comp ≠ 2) || mcDoneAll a)) = true := by
      have hne : a.comp ≠ 2 := by omega
      simp [hp, hne]
    have he : exec .componentHandoverEnd s = .next { s with c := handEnd (now s.c) s.c } := by
      show Host.Outcome.next _ = _
      refine congrArg (fun c => Host.Outcome.next { s with c := c }) ?_
      dsimp only
      rw [ha]
      dsimp only
      rw [hcond, when_true]
    rw [hm] at e
    refine does_of_exec he (by rw [e]; simp) ?_
    rw [e]
    refine ⟨?_, fun j hj => ?_, _, rfl, rfl, rfl, rfl, rfl⟩
    · show compOf (runComp m s.c.upd.run) a.comp = m
      rw [← hmc]
      exact compOf_runComp m _
    · exact compOf_runComp_other _ (by rw [hmc]; exact hj)
  · have hnext : mcStep [] (now s.c) s.c = moved i l e f (mcMarked i e { a with mcAt := now s.c }) (setUpd { s.c.upd with act := some { a with mcAt := now s.c } } s.c) := by
      have hdue : mcDue (now s.c) s.c = true := by
        unfold mcDue
        rw [ha]
        simp [hc, hp, now, hat]
      have hno : mcDoneAll (mcMarked i e { a with mcAt := now s.c }) = false := by
        refine List.all_eq_false.2 ⟨i, List.mem_range.2 hi, fun h => hnd (List.contains_iff_mem.1 h)⟩
      unfold mcStep
      rw [hdue, if_neg (by decide)]
      dsimp only
      rw [updAct_eq _ ha, migrate_all (c := setUpd { s.c.upd with act := some { a with mcAt := now s.c } } s.c) (n := now s.c) (a := { a with mcAt := now s.c }) rfl hi hoth hb hre hold hs hnew]
      exact if_neg (by rw [hno]; decide)
    refine does_onChip (fun c => mcStep [] (now c) c) rfl (by rw [hnext]; simp [moved]) ?_
    rw [hnext]
    obtain ⟨hrole, hlist⟩ := moved_getEng (mcMarked i e { a with mcAt := now s.c }) (c := setUpd { s.c.upd with act := some { a with mcAt := now s.c } } s.c) hfe hl
    refine ⟨?_, hrole, hlist, moved_getEng_siding _ hfe hre, ?_⟩
    · rw [moved_getIsl]
      exact lookup_tput_same _ _ _
    · rw [moved_getIsl]
      exact tget_tput_same _ _ _ _
  · have hdue : confirmDue (now s.c) s.c = true := by
      rw [confirmDue_iff ha]
      simp [hp, hf, hg, now, hdue]
    obtain ⟨b, hb, hcomp, hphase, hconf⟩ := beginHand_next (comp := a.comp + 1) (n := now s.c) (c := confirmNotice (now s.c) s.c a)
      (a := { a with confirmed := a.confirmed ||| 2 ^ a.comp }) (by omega) (by unfold confirmNotice; rw [updNotice_upd]; rfl)
    have e := (confirm_eq (n := now s.c) ha).trans ((if_neg (by omega)).trans hb)
    refine does_guard (b := fun c => confirmDue (now c) c) (f := fun c => confirm (now c)) rfl hdue (by rw [e]; simp [confirmNotice, updNotice]) ?_
    rw [e]
    exact ⟨⟨b, rfl, hcomp, hphase, hconf⟩, notify_raised _ (c := setUpd { s.c.upd with act := some { a with confirmed := a.confirmed ||| 2 ^ a.comp } } s.c) hr⟩
  · have hdue : confirmDue (now s.c) s.c = true := by
      rw [confirmDue_iff ha]
      simp [hp, hf, hg, now, hdue]
    have hupd : (confirmNotice (now s.c) s.c a).upd = { s.c.upd with act := some { a with confirmed := a.confirmed ||| 2 ^ a.comp } } := by
      unfold confirmNotice
      rw [updNotice_upd]
      rfl
    have hmb : (confirmNotice (now s.c) s.c a).mb = s.c.mb := by
      unfold confirmNotice
      rw [updNotice_mb]
      rfl
    have hr2 : NoticeRoom 1 (confirmNotice (now s.c) s.c a) := notify_room _ (c := setUpd { s.c.upd with act := some { a with confirmed := a.confirmed ||| 2 ^ a.comp } } s.c) hroom
    have hmask : mask [.mb, .int, .nq, .notice, .host, .upd, .dep] (confirmNotice (now s.c) s.c a) = mask [.mb, .int, .nq, .notice, .host, .upd, .dep] s.c := by
      simp [confirmNotice, updNotice]
    have hraise : Raised (event 0x3A 0 0 0 (hdrId (slotOf s.c.upd r.slot).header % 131072) 0 (now s.c) false)
        (updNotice 0x3A (hdrId (slotOf s.c.upd r.slot).header % 131072) 0 0 (now s.c) (setUpd (confirmedUpd r (confirmNotice (now s.c) s.c a).upd) (confirmNotice (now s.c) s.c a))) := notify_raised _ hr2
    have hslot : slotOf (confirmNotice (now s.c) s.c a).upd r.slot = slotOf s.c.upd r.slot := by rw [hupd]; rfl
    have e := (confirm_eq (n := now s.c) ha).trans ((if_pos hc).trans (activated_eq (r := r) (by rw [hupd]; exact hr) (by rw [hupd]; exact congrArg Option.isSome h0) (by rw [hupd]; exact h1)))
    rw [hslot] at e
    generalize hdrId (slotOf s.c.upd r.slot).header % 131072 = id at e hraise
    generalize confirmNotice (now s.c) s.c a = c1 at hupd hmb hmask e hraise hslot
    have hfin2 : (updNotice 0x3A id 0 0 (now s.c) (setUpd (confirmedUpd r c1.upd) c1)).mb.finalUpd.pending = true := by
      rw [updNotice_mb]
      exact (congrArg (fun m => m.finalUpd.pending) hmb).trans hfin
    refine does_guard (b := fun c => confirmDue (now c) c) (f := fun c => confirm (now c)) rfl hdue (by rw [e]; simp [updEnd, setCode, updNotice, hmask]) ?_
    rw [e, updEnd_pending 0 hfin2, setInt_upd, setInt_mb]
    dsimp only
    rw [updNotice_upd]
    refine ⟨rfl, rfl, rfl, ?_, (Raised_setInt _ 2 _).2 hraise⟩
    show some _ = some _
    rw [hslot]
  · have hno : confirmDue (now s.c) s.c = false := by
      rw [confirmDue_iff ha, hg]
      simp
    have hdue : healthDue (now s.c) s.c = true := by
      unfold healthDue
      rw [ha]
      dsimp only
      rw [hno]
      simp [hp, hf, now, hw]
    have e : fallBack (now s.c) s.c = setUpd { formerRec s.c.upd with act := some (handing a.comp (now s.c) { a with fallback := true }) } s.c := by
      unfold fallBack
      rw [ha]
      dsimp only
      rw [updAct_eq (a := a) _ ((formerRec_act _).trans ha)]
      exact beginHand_low hc rfl
    refine does_guard (b := fun c => healthDue (now c) c) (f := fun c => fallBack (now c)) rfl hdue (by rw [e]; simp) ?_
    rw [e]
    exact ⟨⟨_, rfl, rfl, rfl, rfl⟩, formerRec_recs hr h0 h1⟩

end Sys2Proof.Machine
end

section
/-!
PROOFS. Keys and settings: read, set and wiped (O57; R386, R395, R410 to R413).
-/
namespace Sys2Proof.Machine
open Sys2Proof

/-! ### Bytes the part writes -/

theorem Taken.mbTaken {code : Nat} {bf : Bool} {ok : Chip → Bool} {c : Chip} (h : Taken code c) (hcode : mbCodes.contains code = true)
    (hbf : bf = if code < 0x050 then false else decide (c.upd.bootFail ≠ 0)) (hok : ok c = true) : mbTaken code bf ok c = true := by
  obtain ⟨hs, hb, -, hl, hp⟩ := h
  have hawake := awake_of_state hs
  unfold Machine.mbTaken
  rw [hawake, hb, hcode, hbf, hl, hp, hok]
  rfl

/-- A command whose bytes are written to memory. -/
theorem does_write {i : Instr} {s : State} {l : List Part} {a : Nat} {bytes : List Byte} {P : Chip → Prop} {c : Chip}
    (he : exec i s = .next { s with c := c, mem := writeBytes 0 s.mem a bytes }) (hm : mask l c = mask l s.c) (hP : P c) : DoesWrite i s l a bytes P :=
  ⟨_, he, rfl, (mask_eq_iff _ _).1 hm, readBytes_writeBytes _ _ _ _, fun _ hj => tget_writeBytes_other _ _ _ _ _ hj, hP⟩

theorem stageWrite_fits {l : List Byte} (mem : List Host.Cell) (h : l.length ≤ bundleStageSize) : stageWrite l mem = writeBytes 0 mem bundleStage l := by
  unfold stageWrite
  rw [List.take_of_length_le h]

theorem deviceKeyBytes_fits : deviceKeyBytes.length ≤ bundleStageSize := by
  have hcert : certLen ≤ bundleStageSize - 104 := Nat.min_le_right _ _
  have hlen : deviceKeyBytes.length = 96 + 8 + certLen := by
    simp [deviceKeyBytes, devicePub, fingerprint, upto]
    omega
  rw [hlen]
  unfold bundleStageSize at *
  omega

/-- A taken command that writes its bytes to `BUNDLE_STAGE` and gives their number. -/
theorem does_staged {i : Instr} {s : State} {code : Nat} {tag : Byte} {ok : Chip → Bool} {bytes : List Byte} (ht : Taken code s.c) (hcode : mbCodes.contains code = true)
    (hhigh : ¬code < 0x050) (hok : ok s.c = true) (hfit : bytes.length ≤ bundleStageSize)
    (he : exec i s = .next { s with c := mbSubmit code tag (inBootFail s.c) ok (updDone bytes.length) s.c, mem := if mbTaken code (inBootFail s.c) ok s.c then stageWrite bytes s.mem else s.mem }) :
    DoesWrite i s [.mb, .int, .host, .upd, .dep] bundleStage bytes (fun c => Replied code tag 0 bytes.length c ∧ c.upd = { s.c.upd with lastCode := 0 }) := by
  have hbf : inBootFail s.c = if code < 0x050 then false else decide (s.c.upd.bootFail ≠ 0) := by rw [if_neg hhigh]; rfl
  rw [taken_submit ht hcode hbf hok, if_pos (ht.mbTaken hcode hbf hok), stageWrite_fits _ hfit] at he
  have hh : Holding code tag (setUpd { (mbAccepted code tag s.c).upd with lastCode := 0 } (mbAccepted code tag s.c)) := ht.holding.congr rfl rfl
  refine does_write he (by simp [updDone, mbAccepted_mask]) ⟨hh.replied 0 bytes.length, ?_⟩
  unfold updDone
  rw [mbReply_upd, mbAccepted_upd]
  rfl

/-! ### Settings written -/

theorem saveSettings_live (u : UpdSt) : (saveSettings u).live = u.live := (apply_ite UpdSt.live _ _ _).trans (ite_self _)

/-- The update state once an item of the settings is changed and saved (R412, R413). -/
def settingsWritten (id : Nat) (f : SettingsSt → SettingsSt) (u : UpdSt) : UpdSt :=
  saveSettings { u with live := { f u.live with vers := tput u.live.vers id (writesVer u id), former := keptItems u id } }

theorem changeSettings_eq (id : Nat) (f : SettingsSt → SettingsSt) (c : Chip) : changeSettings id f c = setUpd (settingsWritten id f c.upd) c := rfl

theorem settingsWritten_live (id : Nat) (f : SettingsSt → SettingsSt) (u : UpdSt) :
    (settingsWritten id f u).live = { f u.live with vers := tput u.live.vers id (writesVer u id), former := keptItems u id } := saveSettings_live _

/-! ### Image keys -/

/-- An image key slot set, with the flag (R410). -/
def imageKeySet (slot : Nat) (key : BitVec 768) (flag : Bool) (s : SettingsSt) : SettingsSt := { s with imgKeys := tset 0 s.imgKeys slot key, imgSig := flag }

/-- `KEY_SET` of an image key (R410), by its material. -/
theorem keySet_image {mem : List Host.Cell} {c : Chip} (h : mbParam c 0 < 16) : keySet mem c =
    if keySetOk c.upd.live.imgKeys c.upd.live.imgSig (mbParam c 0 % 4) (keyOfBytes ((staged mem keyMaterial).take 96)) (decide (leAt (staged mem keyMaterial) 96 4 % 2 = 1))
      (leBytes 4 (mbParam c 0) ++ (staged mem keyMaterial).take 100) (sub (staged mem keyMaterial) 100 96) then
      updDone 0 (changeSettings 2 (imageKeySet (mbParam c 0 % 4) (keyOfBytes ((staged mem keyMaterial).take 96)) (decide (leAt (staged mem keyMaterial) 96 4 % 2 = 1))) c)
    else mbCode 0x0610 c := by
  have hkind : mbParam c 0 / 16 % 16 = 0 := by omega
  unfold keySet
  simp only [hkind, if_true]
  rfl

/-- A free slot takes any key while the flag is not set. -/
theorem keySetOk_free {keys : FMap (BitVec 768)} {slot : Nat} (key : BitVec 768) (flag : Bool) (msg sig : List Byte) (h : tget 0 keys slot = 0) :
    keySetOk keys false slot key flag msg sig = true := by
  unfold keySetOk
  dsimp only
  rw [h]
  simp

theorem mem_of_tget {α : Type} {d : α} {m : FMap α} {i : Nat} (h : tget d m i ≠ d) : ∃ e, e ∈ m ∧ e.2 = tget d m i := by
  induction m with
  | nil => exact absurd rfl h
  | cons x t ih =>
    by_cases hx : x.1 = i
    · exact ⟨x, List.mem_cons_self, (if_pos hx).symm⟩
    · have htail : tget d (x :: t) i = tget d t i := if_neg hx
      rw [htail] at h ⊢
      obtain ⟨e, he, hv⟩ := ih h
      exact ⟨e, List.mem_cons_of_mem _ he, hv⟩

/-- A slot that holds another key takes what its key signed, and that alone (R410). -/
theorem keySetOk_held {keys : FMap (BitVec 768)} {slot : Nat} {k key : BitVec 768} (oldFlag flag : Bool) (msg sig : List Byte) (h : tget 0 keys slot = k) (hk : k ≠ 0) (hne : k ≠ key) :
    keySetOk keys oldFlag slot key flag msg sig = Config.ecdsaOk k msg sig := by
  unfold keySetOk
  dsimp only
  rw [h, decide_eq_false hk, decide_eq_false hne]
  cases hsig : Config.ecdsaOk k msg sig with
  | false => rfl
  | true =>
    obtain ⟨e, he, hv⟩ := mem_of_tget (d := (0 : BitVec 768)) (m := keys) (i := slot) (by rw [h]; exact hk)
    have hany : keys.any (fun e => Config.ecdsaOk e.2 msg sig) = true := List.any_eq_true.2 ⟨e, he, by rw [hv, h]; exact hsig⟩
    rw [hany]
    simp

/-! ### The wipe -/

/-- What a wipe leaves of the settings (R411). -/
def wiped (floor : Nat) (s : SettingsSt) : SettingsSt := { s with imgKeys := [], opKeys := [], imgSig := false, cosign := false, wipeFloor := floor }

/-- The chip once the settings are wiped, in both copies, before the notices. -/
def wipedChip (l : List Byte) (c : Chip) : Chip := setUpd (saveSettings (settingsWritten 6 (wiped (leAt l 16 4)) c.upd)) c

theorem keyWipe_ok {l : List Byte} {c : Chip} (h : wipeOk c.upd.live.wipeFloor l = true) :
    keyWipe (some l) c = updDone 0 (updNotice 0x3B 3 0 0 (now c) (updNotice 0x3B 2 0 0 (now c) (wipedChip l c))) := if_pos h

theorem keyWipe_refused {l : List Byte} {c : Chip} (h : ¬wipeOk c.upd.live.wipeFloor l = true) : keyWipe (some l) c = mbCode 0x0610 c := if_neg h

theorem updNotice_dev (ty ref bit conseq n : Nat) (c : Chip) : (updNotice ty ref bit conseq n c).dev = c.dev := by simp [updNotice]

theorem exec_keyWipe {s : State} (tag : Byte) (file : Option (List Byte)) (ht : Taken 0x05A s.c) :
    exec (.keyWipe tag file) s = .next { s with c := keyWipe file (mbAccepted 0x05A tag (setUpd { s.c.upd with wipe := file } s.c)) } := by
  have ht' : Taken 0x05A (setUpd { s.c.upd with wipe := file } s.c) := ht
  show Host.Outcome.next _ = _
  exact congrArg (fun c => Host.Outcome.next { s with c := c }) (taken_submit (ok := fun _ => true) ht' (by decide) rfl rfl)

/-! ### Settled -/

theorem exec_keySet (s : State) (tag : Byte) : exec (.keySet tag) s = .next (onChip (mbSubmit 0x057 tag (inBootFail s.c) keySetParams (keySet s.mem)) s) := rfl

theorem exec_settingsWrite (s : State) (tag : Byte) :
    exec (.settingsWrite tag) s = .next (onChip (mbSubmit 0x059 tag (inBootFail s.c) (fun _ => true) (settingsWrite s.mem)) s) := rfl

theorem exec_settingsRead_some {s : State} {l : List Byte} (tag : Byte) (h : itemBytes s.c.upd.live s.c.mb.p0.toNat = some l) : exec (.settingsRead tag) s =
    .next { s with c := mbSubmit 0x058 tag (inBootFail s.c) (fun _ => true) (updDone l.length) s.c, mem := if mbTaken 0x058 (inBootFail s.c) (fun _ => true) s.c then stageWrite l s.mem else s.mem } := by
  have ho : settingsReadOut s.c = some l := h
  show Host.Outcome.next (settingsReadCmd tag s) = _
  unfold settingsReadCmd
  rw [ho]

theorem exec_settingsRead_none {s : State} (tag : Byte) (h : itemBytes s.c.upd.live s.c.mb.p0.toNat = none) : exec (.settingsRead tag) s =
    .next (onChip (mbSubmit 0x058 tag (inBootFail s.c) (fun _ => true) (mbCode 0x0611)) s) := by
  have ho : settingsReadOut s.c = none := h
  show Host.Outcome.next (settingsReadCmd tag s) = _
  unfold settingsReadCmd
  rw [ho]
  rfl

/-- Settles O57: each command as the settings it leaves and the bytes it writes. -/
theorem keysAndSettings : Obligations.KeysAndSettings := by
  unfold Obligations.KeysAndSettings
  refine ⟨fun s tag ht => ?_, fun s tag l ht hl hfit => ?_, fun s tag ht hl => ?_, fun s tag ht hp hk hsig => ?_, fun s tag l k ht hp hl hk hk0 hne => ?_,
    fun s tag l ht hroom => ?_, fun s tag ht => ?_, fun s tag ht h0 h1 hlo hhi => ?_, fun s tag ht h0 => ?_⟩
  · exact does_staged ht (by decide) (by decide) rfl deviceKeyBytes_fits rfl
  · exact does_staged ht (by decide) (by decide) rfl hfit (exec_settingsRead_some tag hl)
  · exact does_answered ht (exec_settingsRead_none tag hl) (by decide) rfl rfl rfl
  · have hparam : mbParam (mbAccepted 0x057 tag s.c) 0 = s.c.mb.p0.toNat := mbParam_accepted _ _ _ _
    have hslot : s.c.mb.p0.toNat % 4 = s.c.mb.p0.toNat := Nat.mod_eq_of_lt hp
    have hact := keySet_image (mem := s.mem) (c := mbAccepted 0x057 tag s.c) (by rw [hparam]; omega)
    rw [hparam, hslot, changeSettings_eq, mbAccepted_upd, hsig, if_pos (keySetOk_free _ _ _ _ hk)] at hact
    have hok : keySetParams s.c = true := by
      have hkind : mbParam s.c 0 / 16 % 16 = 0 := by show s.c.mb.p0.toNat / 16 % 16 = 0; omega
      simp [keySetParams, hkind]
    refine does_updAnswered ht (exec_keySet s tag) (by decide) rfl hok hact (fun c hr hu => ?_)
    rw [hu]
    dsimp only
    rw [settingsWritten_live]
    exact ⟨hr, tget_tset_same _ _ _ _, fun j hj => tget_tset_other _ _ _ hj, rfl⟩
  · have hparam : mbParam (mbAccepted 0x057 tag s.c) 0 = s.c.mb.p0.toNat := mbParam_accepted _ _ _ _
    have hact := keySet_image (mem := s.mem) (c := mbAccepted 0x057 tag s.c) (by rw [hparam]; omega)
    rw [hparam, changeSettings_eq, mbAccepted_upd, hl, keySetOk_held _ _ _ _ hk hk0 hne] at hact
    have hok : keySetParams s.c = true := by
      have hkind : mbParam s.c 0 / 16 % 16 = 0 := by show s.c.mb.p0.toNat / 16 % 16 = 0; omega
      simp [keySetParams, hkind]
    split
    · next hsig =>
      rw [if_pos hsig] at hact
      refine does_updAnswered ht (exec_keySet s tag) (by decide) rfl hok hact (fun c hr hu => ?_)
      rw [hu]
      dsimp only
      rw [settingsWritten_live]
      exact ⟨hr, rfl⟩
    · next hsig =>
      rw [if_neg hsig] at hact
      exact does_answered ht (exec_keySet s tag) (by decide) rfl hok hact
  · have ht' : Taken 0x05A (setUpd { s.c.upd with wipe := some l } s.c) := ht
    have he := exec_keyWipe tag (some l) ht
    have hhold := ht'.holding (tag := tag)
    have hupd : (mbAccepted 0x05A tag (setUpd { s.c.upd with wipe := some l } s.c)).upd = { s.c.upd with wipe := some l } := mbAccepted_upd _ _ _
    have hmask : mask [.mb, .upd, .dep] (mbAccepted 0x05A tag (setUpd { s.c.upd with wipe := some l } s.c)) = mask [.mb, .upd, .dep] s.c := by simp [mbAccepted_mask]
    generalize mbAccepted 0x05A tag (setUpd { s.c.upd with wipe := some l } s.c) = c1 at he hhold hupd hmask
    split
    · next hw =>
      have hnow : now c1 = s.c.dev.tick := congrArg DevSt.tick (dev_of_mask hmask (by decide))
      have hroom1 : NoticeRoom 2 (wipedChip l c1) := by
        show c1.notice.held.length + 2 ≤ heldRoom
        rw [notice_of_mask hmask (by decide)]
        exact hroom
      have hr1 := notify_raised (event 0x3B 0 0 0 2 0 (now c1) false) (c := wipedChip l c1) (by unfold NoticeRoom at *; omega)
      have hroom2 := notify_room (event 0x3B 0 0 0 2 0 (now c1) false) hroom1
      have hr2 := notify_raised (event 0x3B 0 0 0 3 0 (now c1) false) hroom2
      have hr12 := Raised_notify (event 0x3B 0 0 0 3 0 (now c1) false) hr1 hroom2
      rw [keyWipe_ok (by rw [hupd]; exact hw)] at he
      have hmbd : (updNotice 0x3B 3 0 0 (now c1) (updNotice 0x3B 2 0 0 (now c1) (wipedChip l c1))).mb = c1.mb := by rw [updNotice_mb, updNotice_mb]; rfl
      have hdev : (updNotice 0x3B 3 0 0 (now c1) (updNotice 0x3B 2 0 0 (now c1) (wipedChip l c1))).dev = c1.dev := by rw [updNotice_dev, updNotice_dev]; rfl
      have hupd2 : (updNotice 0x3B 3 0 0 (now c1) (updNotice 0x3B 2 0 0 (now c1) (wipedChip l c1))).upd = (wipedChip l c1).upd := by rw [updNotice_upd, updNotice_upd]
      have hmask2 : mask [.mb, .int, .nq, .notice, .host, .upd, .dep] (updNotice 0x3B 3 0 0 (now c1) (updNotice 0x3B 2 0 0 (now c1) (wipedChip l c1))) =
          mask [.mb, .int, .nq, .notice, .host, .upd, .dep] s.c := by
        have hmono := mask_mono (m := [.mb, .int, .nq, .notice, .host, .upd, .dep]) (by decide) hmask
        simp [updNotice, wipedChip, hmono]
      have hlive : (wipedChip l c1).upd.live = { s.c.upd.live with imgKeys := [], opKeys := [], imgSig := false, cosign := false, wipeFloor := leAt l 16 4, vers := tput s.c.upd.live.vers 6 (writesVer s.c.upd 6), former := keptItems s.c.upd 6 } := by
        show (saveSettings (settingsWritten 6 (wiped (leAt l 16 4)) c1.upd)).live = _
        rw [saveSettings_live, settingsWritten_live, hupd]
        rfl
      have hr12' : Raised (event 0x3B 0 0 0 2 0 (now c1) false) (updNotice 0x3B 3 0 0 (now c1) (updNotice 0x3B 2 0 0 (now c1) (wipedChip l c1))) := hr12
      have hr2' : Raised (event 0x3B 0 0 0 3 0 (now c1) false) (updNotice 0x3B 3 0 0 (now c1) (updNotice 0x3B 2 0 0 (now c1) (wipedChip l c1))) := hr2
      generalize updNotice 0x3B 3 0 0 (now c1) (updNotice 0x3B 2 0 0 (now c1) (wipedChip l c1)) = c2 at he hr12' hr2' hmbd hdev hupd2 hmask2
      have hh : Holding 0x05A tag (setUpd { c2.upd with lastCode := 0 } c2) := hhold.congr hdev (congrArg MbSt.cur hmbd)
      refine does_of_exec he (by simp [updDone, hmask2]) ⟨hh.replied 0 0, ?_, hnow ▸ ?_, hnow ▸ ?_⟩
      · unfold updDone
        rw [mbReply_upd]
        exact (congrArg UpdSt.live hupd2).trans hlive
      · exact (Raised_congr (mbReply_nq _ _ _ _) (mbReply_notice _ _ _ _)).2 hr12'
      · exact (Raised_congr (mbReply_nq _ _ _ _) (mbReply_notice _ _ _ _)).2 hr2'
    · next hw =>
      rw [keyWipe_refused (by rw [hupd]; exact hw)] at he
      have hmono := mask_mono (m := [.mb, .int, .host, .upd, .dep]) (by decide) hmask
      refine does_of_exec he (by simp [hmono]) ⟨hhold.replied _ _, ?_⟩
      unfold mbCode
      rw [mbReply_upd, hupd]
  · have ht' : Taken 0x05A (setUpd { s.c.upd with wipe := none } s.c) := ht
    refine does_of_exec (exec_keyWipe tag none ht) (by simp [keyWipe, mbAccepted_mask]) ⟨ht'.holding.replied _ _, ?_⟩
    show (mbCode 0x060F (mbAccepted 0x05A tag (setUpd { s.c.upd with wipe := none } s.c))).upd = _
    unfold mbCode
    rw [mbReply_upd, mbAccepted_upd]
    rfl
  · have hact : settingsWrite s.mem (mbAccepted 0x059 tag s.c) = updDone 0 (setUpd (settingsWritten 4 (fun x => { x with healthS := leAt (staged s.mem 8) 0 2, sdAuto := leAt (staged s.mem 8) 2 1 % 2 = 1, allowHit := leAt (staged s.mem 8) 3 1 % 2 = 1 }) s.c.upd) (mbAccepted 0x059 tag s.c)) := by
      have hp0 : mbParam (mbAccepted 0x059 tag s.c) 0 = 4 := (mbParam_accepted _ _ _ _).trans h0
      have hp1 : mbParam (mbAccepted 0x059 tag s.c) 1 = 8 := (mbParam_accepted _ _ _ _).trans h1
      rw [← mbAccepted_upd 0x059 tag s.c]
      exact if_pos (by simp [hp0, hp1, hlo, hhi])
    refine does_updAnswered ht (exec_settingsWrite s tag) (by decide) rfl rfl hact (fun c hr hu => ?_)
    rw [hu]
    dsimp only
    rw [settingsWritten_live]
    exact ⟨hr, rfl⟩
  · have hp0 : mbParam (mbAccepted 0x059 tag s.c) 0 ≠ 4 := fun h => h0 ((mbParam_accepted _ _ _ _).symm.trans h)
    exact does_answered ht (exec_settingsWrite s tag) (by decide) rfl rfl (if_neg (by simp [hp0]))

end Sys2Proof.Machine
end

section
/-!
PROOFS. Images, amendments and commits as they are accepted or refused (O58; R58, R88, R89, R94, R405, R427).
-/
namespace Sys2Proof.Machine
open Sys2Proof

theorem imgFailSet_commit (source code : Nat) (c : Chip) : imgFailSet source (commitFail code) c =
    setCm { c.cm with failStage := 5, failSection := 0xF, failSource := source, failReason := code, failIndex := 0xFFFFFFFF } c := rfl

/-- A refusal at acceptance: the failure record and the result of the last change, then the reply (R89). -/
theorem acceptRefused_eq (source code : Nat) (c : Chip) : acceptRefused source code c =
    mbCode code (setCm { c.cm with lastResult := 2, failStage := 5, failSection := 0xF, failSource := source, failReason := code, failIndex := 0xFFFFFFFF } c) := rfl

theorem acceptCode_accepted (code : Nat) (tag : Byte) (C : Nat) (c : Chip) : acceptCode C (mbAccepted code tag c) = acceptCode C c := by
  obtain ⟨d, hd⟩ := mbAccepted_form code tag c
  rw [hd]
  rfl

theorem namedTick_accepted (code : Nat) (tag : Byte) (c : Chip) : namedTick (mbAccepted code tag c) = param64 c.mb.p2 c.mb.p3 := by
  obtain ⟨d, hd⟩ := mbAccepted_form code tag c
  rw [hd]
  rfl

theorem mbAccepted_cm (code : Nat) (tag : Byte) (c : Chip) : (mbAccepted code tag c).cm = c.cm := by
  obtain ⟨d, hd⟩ := mbAccepted_form code tag c
  rw [hd]

theorem mbAccepted_dev (code : Nat) (tag : Byte) (c : Chip) : (mbAccepted code tag c).dev = c.dev := by
  obtain ⟨d, hd⟩ := mbAccepted_form code tag c
  rw [hd]

theorem mbAccepted_finalImg (code : Nat) (tag : Byte) (c : Chip) : (mbAccepted code tag c).mb.finalImg = c.mb.finalImg := by
  obtain ⟨d, hd⟩ := mbAccepted_form code tag c
  rw [hd]

/-- The checks on the tick a command names (R58). -/
theorem acceptCode_zero {C : Nat} {c : Chip} (ha : c.upd.act = none) (hp : c.cm.pending = false) (hlo : c.dev.tick + 10 ≤ C) (hhi : C ≤ c.dev.tick + 28800000) :
    acceptCode C c = 0 := by
  unfold acceptCode now
  rw [ha, hp, if_neg (by simp), if_neg (by omega), if_neg (by omega), if_neg (by simp)]

theorem acceptCode_act {C : Nat} {c : Chip} (ha : c.upd.act ≠ none) : acceptCode C c = 0x060A := if_pos (Option.isSome_iff_ne_none.2 ha)

theorem acceptCode_code {C k : Nat} {c : Chip} (ha : c.upd.act = none)
    (h : k = 0x0501 ∧ C < c.dev.tick + 10 ∨ k = 0x0502 ∧ c.dev.tick + 28800000 < C ∨ k = 0x0503 ∧ c.cm.pending = true ∧ c.dev.tick + 10 ≤ C ∧ C ≤ c.dev.tick + 28800000) :
    acceptCode C c = k ∧ k ≠ 0 ∧ k ≠ 0x060A := by
  have hact : ¬c.upd.act.isSome = true := by simp [ha]
  unfold acceptCode now
  rw [if_neg hact]
  rcases h with ⟨rfl, h⟩ | ⟨rfl, h⟩ | ⟨rfl, hp, hlo, hhi⟩
  · exact ⟨if_pos h, by decide, by decide⟩
  · rw [if_neg (by omega), if_pos h]
    exact ⟨rfl, by decide, by decide⟩
  · rw [if_neg (by omega), if_neg (by omega), if_pos hp]
    exact ⟨rfl, by decide, by decide⟩

/-- A change taken on (R56, R89). -/
theorem changeTake_taken {kind : Nat} {tag : Byte} {repack : Bool} {bytes : List Byte} {c : Chip} (h : acceptCode (namedTick c) c = 0) : changeTake kind tag repack bytes c =
    mbCode 0 (imgTake tag (setCm { c.cm with pending := true, cTick := namedTick c, named := some (namedTick c), change := some (changeNew kind repack (now c) bytes), copied := false } c)) := by
  unfold changeTake
  dsimp only
  rw [h]
  rfl

theorem changeTake_refused {kind k : Nat} {tag : Byte} {repack : Bool} {bytes : List Byte} {c : Chip} (h : acceptCode (namedTick c) c = k) (hk : k ≠ 0) :
    changeTake kind tag repack bytes c = acceptRefused (failSource kind) k c := by
  unfold changeTake
  dsimp only
  rw [h, if_pos hk]

/-! ### The commands -/

/-- `LOAD_IMAGE`'s own judgement. -/
def loadJudged (tag : Byte) (mem : List Host.Cell) (c : Chip) : Chip :=
  if inState [.running, .standby] c then changeTake 2 tag (decide (mbParam c 1 % 2 = 1)) (imageStaged mem (mbParam c 0)) c
  else if c.upd.act.isSome then acceptRefused 0 0x060A c
  else mbCode 0 (setDev .validating (setCm { c.cm with change := some (changeNew 1 (decide (mbParam c 1 % 2 = 1)) (now c) (imageStaged mem (mbParam c 0))), named := none, pending := false } c))

/-- `COMMIT_IMAGE`'s own judgement. -/
def commitJudged (tag : Byte) (c : Chip) : Chip :=
  if acceptCode (namedTick c) c = 0x060A then mbCode (acceptCode (namedTick c) c) c
  else if acceptCode (namedTick c) c ≠ 0 then acceptRefused 0 (acceptCode (namedTick c) c) c
  else mbCode 0 (imgTake tag (setCm { c.cm with pending := true, cTick := namedTick c, named := some (namedTick c) } c))

theorem exec_loadImage (s : State) (tag : Byte) : exec (.loadImage tag) s = .next (onChip (mbSubmit 0x010 tag false anyOk (loadJudged tag s.mem)) s) := rfl

theorem exec_amendImage (s : State) (tag : Byte) :
    exec (.amendImage tag) s = .next (onChip (mbSubmit 0x012 tag false anyOk (fun c => changeTake 3 tag false (imageStaged s.mem (mbParam c 0)) c)) s) := rfl

theorem exec_commitImage (s : State) (tag : Byte) : exec (.commitImage tag) s = .next (onChip (mbSubmit 0x011 tag false anyOk (commitJudged tag)) s) := rfl

theorem loadJudged_running {tag : Byte} {mem : List Host.Cell} {c : Chip} (h : c.dev.state = .running ∨ c.dev.state = .standby) :
    loadJudged tag mem c = changeTake 2 tag (decide (mbParam c 1 % 2 = 1)) (imageStaged mem (mbParam c 0)) c :=
  if_pos (by rcases h with h | h <;> simp [inState, h])

theorem inState_other {c : Chip} (h1 : c.dev.state ≠ .running) (h2 : c.dev.state ≠ .standby) : ¬inState [.running, .standby] c = true := by
  simp [inState, h1, h2]

section
variable {code : Nat} {tag : Byte} {i : Instr} {s : State} {act : Chip → Chip} (ht : Taken code s.c)
  (he : exec i s = .next (onChip (mbSubmit code tag false anyOk act) s)) (hcode : mbCodes.contains code = true) (hlow : code < 0x050)
include ht he hcode hlow

/-- A change or a commit taken on: the reply, the final result that waits, and what the command changes of the commit state. -/
theorem does_imgTaken {m : CommitSt} (hact : act (mbAccepted code tag s.c) = mbCode 0 (imgTake tag (setCm m (mbAccepted code tag s.c)))) :
    Does i s [.mb, .int, .host, .cm, .dep] (fun c => Replied code tag 0 0 c ∧ c.mb.finalImg = { s.c.mb.finalImg with pending := true, tag := tag } ∧ c.cm = m) := by
  have e := (taken_submit (tag := tag) (bf := false) (ok := anyOk) ht hcode (if_pos hlow).symm rfl).trans hact
  have hh : Holding code tag (imgTake tag (setCm m (mbAccepted code tag s.c))) := ht.holding.congr rfl rfl
  refine does_onChip _ he (by rw [e]; simp [imgTake, mbAccepted_mask]) ?_
  rw [e]
  refine ⟨hh.replied 0 0, ?_, ?_⟩
  · unfold mbCode
    rw [hh.reply, ← mbAccepted_finalImg code tag s.c]
    rfl
  · unfold mbCode
    rw [mbReply_cm]
    rfl

/-- A change or a commit refused at acceptance (R89). -/
theorem does_imgRefused {source k : Nat} (hact : act (mbAccepted code tag s.c) = acceptRefused source k (mbAccepted code tag s.c)) :
    Does i s [.mb, .int, .host, .cm, .dep] (fun c => Replied code tag k 0 c ∧
      c.cm = { s.c.cm with lastResult := 2, failStage := 5, failSection := 0xF, failSource := source, failReason := k, failIndex := 0xFFFFFFFF }) := by
  have e := (taken_submit (tag := tag) (bf := false) (ok := anyOk) ht hcode (if_pos hlow).symm rfl).trans hact
  rw [acceptRefused_eq, mbAccepted_cm] at e
  have hh : Holding code tag (setCm { s.c.cm with lastResult := 2, failStage := 5, failSection := 0xF, failSource := source, failReason := k, failIndex := 0xFFFFFFFF } (mbAccepted code tag s.c)) := ht.holding.congr rfl rfl
  refine does_onChip _ he (by rw [e]; simp [mbAccepted_mask]) ?_
  rw [e]
  refine ⟨hh.replied k 0, ?_⟩
  unfold mbCode
  rw [mbReply_cm]
  rfl

end

/-- Settles O58: the code of acceptance decides what a taken command leaves of the commit state. -/
theorem imagesAreAccepted : Obligations.ImagesAreAccepted := by
  unfold Obligations.ImagesAreAccepted
  refine ⟨fun s tag ht h1 h2 ha => ?_, fun s tag p hp ht hs ha hpend hlo hhi => ?_, fun s tag ht ha hpend hlo hhi => ?_, fun s tag p k hp ht hs ha hk => ?_,
    fun s tag p hp ht ha => ?_, fun s tag l ht hl => ?_⟩
  · have e : mbSubmit 0x010 tag false anyOk (loadJudged tag s.mem) s.c = mbCode 0 (setDev .validating
        (setCm { s.c.cm with change := some (changeNew 1 (decide (s.c.mb.p1.toNat % 2 = 1)) s.c.dev.tick (imageStaged s.mem s.c.mb.p0.toNat)), named := none, pending := false } (mbAccepted 0x010 tag s.c))) := by
      obtain ⟨d, hd⟩ := mbAccepted_form 0x010 tag s.c
      rw [taken_submit (bf := false) (ok := anyOk) ht (by decide) rfl rfl, loadJudged, if_neg (inState_other (by rw [mbAccepted_dev]; exact h1) (by rw [mbAccepted_dev]; exact h2)),
        if_neg (by rw [mbAccepted_upd, ha]; simp), hd]
      rfl
    refine does_onChip _ (exec_loadImage s tag) (by rw [e]; simp [mbAccepted_mask]) ?_
    rw [e]
    have hh : Holding 0x010 tag (setDev .validating (setCm { s.c.cm with change := some (changeNew 1 (decide (s.c.mb.p1.toNat % 2 = 1)) s.c.dev.tick (imageStaged s.mem s.c.mb.p0.toNat)), named := none, pending := false } (mbAccepted 0x010 tag s.c))) := by
      obtain ⟨hsb, k, hk⟩ := ht.holding (tag := tag)
      refine ⟨?_, k, ?_⟩
      · rw [setDev_dev]
        exact hsb
      · rw [setDev_mb]
        exact hk
    refine ⟨hh.replied 0 0, ?_, ?_⟩
    · unfold mbCode
      rw [mbReply_dev, setDev_dev, setCm_dev, mbAccepted_dev]
    · unfold mbCode
      rw [mbReply_cm, setDev_cm]
      rfl
  · have hz : ∀ code, acceptCode (namedTick (mbAccepted code tag s.c)) (mbAccepted code tag s.c) = 0 := fun code => by
      rw [namedTick_accepted, acceptCode_accepted]
      exact acceptCode_zero ha hpend hlo hhi
    have hnow : ∀ code, now (mbAccepted code tag s.c) = s.c.dev.tick := fun code => by unfold now; rw [mbAccepted_dev]
    simp only [List.mem_cons, List.not_mem_nil, or_false] at hp
    rcases hp with rfl | rfl
    · refine does_imgTaken (code := 0x010) ht (exec_loadImage s tag) (by decide) (by decide) ?_
      rw [loadJudged_running (by rw [mbAccepted_dev]; exact hs), changeTake_taken (hz _), namedTick_accepted, hnow, mbAccepted_cm, mbParam_accepted, mbParam_accepted]
      rfl
    · refine does_imgTaken (code := 0x012) ht (exec_amendImage s tag) (by decide) (by decide) ?_
      rw [changeTake_taken (hz _), namedTick_accepted, hnow, mbAccepted_cm, mbParam_accepted]
      rfl
  · have hz : acceptCode (namedTick (mbAccepted 0x011 tag s.c)) (mbAccepted 0x011 tag s.c) = 0 := by
      rw [namedTick_accepted, acceptCode_accepted]
      exact acceptCode_zero ha hpend hlo hhi
    refine does_imgTaken (code := 0x011) ht (exec_commitImage s tag) (by decide) (by decide) ?_
    rw [commitJudged, hz, if_neg (by decide), if_neg (by decide), namedTick_accepted, mbAccepted_cm]
  · obtain ⟨hcode, hk0, hk6⟩ := acceptCode_code ha hk
    have hz : ∀ code, acceptCode (namedTick (mbAccepted code tag s.c)) (mbAccepted code tag s.c) = k := fun code => by
      rw [namedTick_accepted, acceptCode_accepted]
      exact hcode
    simp only [List.mem_cons, List.not_mem_nil, or_false] at hp
    rcases hp with rfl | rfl | rfl
    · refine does_imgRefused (code := 0x010) ht (exec_loadImage s tag) (by decide) (by decide) ?_
      rw [loadJudged_running (by rw [mbAccepted_dev]; exact hs rfl)]
      exact changeTake_refused (hz _) hk0
    · exact does_imgRefused (code := 0x012) ht (exec_amendImage s tag) (by decide) (by decide) (changeTake_refused (hz _) hk0)
    · refine does_imgRefused (code := 0x011) ht (exec_commitImage s tag) (by decide) (by decide) ?_
      rw [commitJudged, hz, if_neg hk6, if_pos hk0]
  · have hz : ∀ code C, acceptCode C (mbAccepted code tag s.c) = 0x060A := fun code C => by
      rw [acceptCode_accepted]
      exact acceptCode_act ha
    simp only [List.mem_cons, List.not_mem_nil, or_false] at hp
    rcases hp with rfl | rfl
    · by_cases hs : s.c.dev.state = .running ∨ s.c.dev.state = .standby
      · have h := does_imgRefused (code := 0x010) (source := 1) (k := 0x060A) ht (exec_loadImage s tag) (by decide) (by decide) (by
          rw [loadJudged_running (by rw [mbAccepted_dev]; exact hs)]
          exact changeTake_refused (hz _ _) (by decide))
        rw [if_neg (show ¬(0x010 : Nat) = 0x012 by decide), if_pos hs]
        exact h
      · have hno := not_or.1 hs
        have h := does_imgRefused (code := 0x010) (source := 0) (k := 0x060A) ht (exec_loadImage s tag) (by decide) (by decide) (by
          rw [loadJudged, if_neg (inState_other (by rw [mbAccepted_dev]; exact hno.1) (by rw [mbAccepted_dev]; exact hno.2)), if_pos]
          rw [mbAccepted_upd]
          exact Option.isSome_iff_ne_none.2 ha)
        rw [if_neg (show ¬(0x010 : Nat) = 0x012 by decide), if_neg hs]
        exact h
    · exact does_imgRefused (code := 0x012) ht (exec_amendImage s tag) (by decide) (by decide) (changeTake_refused (hz _ _) (by decide))
  · subst hl
    have he : exec (.readImage tag) s = .next { s with c := mbSubmit 0x013 tag false anyOk (mbReply 0 0 (imageOut (theImage s.c)).length) s.c, mem := if mbTaken 0x013 false anyOk s.c then writeBytes 0 s.mem 0 (imageOut (theImage s.c)) else s.mem } := rfl
    rw [taken_submit (bf := false) (ok := anyOk) ht (by decide) rfl rfl, if_pos (ht.mbTaken (bf := false) (ok := anyOk) (by decide) rfl rfl)] at he
    exact does_write he (by simp [mbAccepted_mask]) (ht.holding.replied _ _)

end Sys2Proof.Machine
end

section
/-!
PROOFS. A change from its validation to the rebuild, and the faults found while groups wake (O59; R33, R55 to R60, R84 to R88, R105, R177, R466).
-/
namespace Sys2Proof.Machine
open Sys2Proof

/-! ### A change refused -/

/-- The commit state once the pending change is refused whole (R56, R86). -/
def refusedCm (f : ImgFail) (k : Change) (m : CommitSt) : CommitSt :=
  { m with failStage := f.stage, failSection := f.sect, failSource := failSource k.kind, failReason := f.reason, failIndex := BitVec.ofNat 32 f.index, pending := false, shadowReady := false, change := none, named := none, replaceDue := false, cTick := m.lastC.getD 0, lastResult := if m.pending then 2 else m.lastResult, copied := false }

/-- The chip once the change is gone, before the final result. -/
def refusedChip (f : ImgFail) (k : Change) (c : Chip) : Chip :=
  setCm (refusedCm f k c.cm) { c with img := { c.img with shadow := c.img.place }, jct := { c.jct with diff := [] } }

theorem refuse_eq {f : ImgFail} {c : Chip} {k : Change} (h : c.cm.change = some k) :
    refuse f c = when (k.kind = 1) (setDev .held) (imgFinal f.reason (refusedChip f k c)) := by
  unfold refuse
  rw [h]
  rfl

/-- The final result of a change, where one waits (R428). -/
theorem imgFinal_mb (r : Nat) (c : Chip) : (imgFinal r c).mb =
    if c.mb.finalImg.pending then { c.mb with finalImg := { c.mb.finalImg with pending := false, done := true, reason := BitVec.ofNat 16 r } } else c.mb := by
  unfold imgFinal
  split
  · rw [setInt_mb]
  · rfl

theorem when_setDev_held (b : Bool) (c : Chip) : (when b (setDev .held) c).dev = (if b then { c.dev with state := .held } else c.dev) ∧
    (when b (setDev .held) c).cm = c.cm ∧ (when b (setDev .held) c).img = c.img ∧ (when b (setDev .held) c).mb = c.mb := by
  cases b
  · exact ⟨rfl, rfl, rfl, rfl⟩
  · exact ⟨setDev_dev _ _, setDev_cm _ _, setDev_img _ _, setDev_mb _ _⟩

/-- What a refusal leaves (R56, R86, R88): a first image's part is held. -/
theorem refuse_leaves {f : ImgFail} {c : Chip} {k : Change} (h : c.cm.change = some k) : (refuse f c).cm = refusedCm f k c.cm ∧
    (refuse f c).img = { c.img with shadow := c.img.place } ∧ (refuse f c).dev = (if k.kind = 1 then { c.dev with state := .held } else c.dev) ∧
    (refuse f c).mb = (if c.mb.finalImg.pending then { c.mb with finalImg := { c.mb.finalImg with pending := false, done := true, reason := BitVec.ofNat 16 f.reason } } else c.mb) := by
  obtain ⟨hd, hc, hi, hm⟩ := when_setDev_held (decide (k.kind = 1)) (imgFinal f.reason (refusedChip f k c))
  rw [refuse_eq h, hd, hc, hi, hm, imgFinal_cm, imgFinal_img, imgFinal_dev, imgFinal_mb]
  simp only [decide_eq_true_eq]
  exact ⟨rfl, rfl, rfl, rfl⟩

/-! ### Validation -/

section
variable {c : Chip} {k : Change} (hk : c.cm.change = some k) (hi : k.image = none) (hs : c.dev.sbDown = false)
include hk hi hs

theorem validate_unsound {f : ImgFail} (h : changeIntegrity k c = some f) : validate c = refuse f c := by
  unfold validate
  rw [hk]
  dsimp only
  rw [if_neg (by simp [hi, hs]), h]

theorem validate_refused {f : ImgFail} (h : changeIntegrity k c = none) (hj : (changeJudge k (imgFailClear c)).1 = some f) : validate c = refuse f (imgFailClear c) := by
  unfold validate
  rw [hk]
  dsimp only
  rw [if_neg (by simp [hi, hs]), h]
  dsimp only
  rw [hj]

theorem validate_placed {im : Image} {pl : Placement} (h : changeIntegrity k c = none) (hj : changeJudge k (imgFailClear c) = (none, im, pl)) :
    validate c = placeStored k im pl (imgFailClear c) := by
  unfold validate
  rw [hk]
  dsimp only
  rw [if_neg (by simp [hi, hs]), h]
  dsimp only
  rw [hj]

end

/-- The change with its placement, and the shadow that holds it (R56). -/
def placedChip (k : Change) (im : Image) (pl : Placement) (c : Chip) : Chip :=
  setCm { c.cm with change := some { k with image := some im, place := some pl, outMap := (placeIn im k c).engOut } } { c with img := { c.img with shadow := pl }, jct := { c.jct with diff := ttDiff c.img.place pl } }

@[simp] theorem placedChip_mask {l : List Part} (himg : Part.img ∈ l) (hcm : Part.cm ∈ l) (hjct : Part.jct ∈ l) (k : Change) (im : Image) (pl : Placement) (c : Chip) :
    mask l (placedChip k im pl c) = mask l c := by
  simp [placedChip, mask, himg, hcm, hjct]

theorem placeStored_eq (k : Change) (im : Image) (pl : Placement) (c : Chip) : placeStored k im pl c =
    if k.kind = 1 then lateDeadline (now c) (startingWakes (now c) (setDev .starting (placedChip k im pl c))) else placedChip k im pl c := rfl

/-- With no tick named, no deadline is due (R59). -/
theorem lateDeadline_unnamed {n : Nat} {c : Chip} (h : c.cm.named = none) : lateDeadline n c = c := by
  unfold lateDeadline deadlineAt
  rw [h]
  cases c.cm.change <;> rfl

/-! ### The deadline -/

section
variable {n C : Nat} {c : Chip} {k : Change} (hk : c.cm.change = some k) (hn : c.cm.named = some C) (ht : k.commitAt = none) (hC : C ≤ n + 8)
include hk hn ht hC

theorem lateDeadline_other (h1 : k.kind ≠ 1) :
    lateDeadline n c = if k.place.isSome && groupsReady c && !c.cm.replaceDue then freeze k C false c else refuse (commitFail 0x0504) c := by
  unfold lateDeadline deadlineAt
  rw [hk, hn]
  dsimp only
  rw [if_neg (by simp [ht]; omega), if_neg h1]

theorem lateDeadline_first (h1 : k.kind = 1) (hs : c.dev.state = .starting) (hp : k.place.isSome = true) (hg : groupsReady c = true) (hr : c.cm.replaceDue = false) :
    lateDeadline n c = freeze k (n + 8) true c := by
  unfold lateDeadline deadlineAt
  rw [hk, hn]
  dsimp only
  rw [if_neg (by simp [ht]; omega), if_pos h1, if_pos (by simp [hs, hp, hg, hr]), if_neg (by simp)]

end

/-! ### The commit -/

/-- The chip as the new placement is in force, at the commit's tick (R56, R60 step 2). -/
def switched (n : Nat) (k : Change) (im : Image) (pl : Placement) (c : Chip) : Chip :=
  setCm { c.cm with activeBank := !c.cm.activeBank, lastResult := if k.deferred then 3 else 1, cTick := n, lastC := some n, change := none, named := none, releaseDue := true, rebuildDue := false, copied := false, newFed := newFeeds (theImage c) im }
    { c with img := { image := some im, place := pl, shadow := c.img.place }, jct := { c.jct with diff := ttDiff c.img.place pl, lostNow := [], lostTick := none } }

/-- All parts but the mailbox, the image and the commit state. -/
def besideCommit : List Part := [.dev, .int, .nq, .oq, .notice, .taps, .host, .jct, .eng, .isl, .cwy, .ctx, .line, .power, .dfx, .pm, .prot, .tim, .upd, .pair, .dep, .free]

theorem mem_besideCommit (p : Part) : p ∈ besideCommit ↔ p ≠ .mb ∧ p ≠ .img ∧ p ≠ .cm := by cases p <;> simp [besideCommit]

/-- The part's state as a commit makes it (R31, R33, R356). -/
def committed (n : Nat) (k : Change) (im : Image) (pl : Placement) (c : Chip) : Chip :=
  if c.img.image.isNone then firstState n (switched n k im pl c) else pairAtCommit (paired c) n (switched n k im pl c)

theorem committed_mask (n : Nat) (k : Change) (im : Image) (pl : Placement) (c : Chip) : mask besideCommit (committed n k im pl c) = mask besideCommit (switched n k im pl c) := by
  unfold committed
  split <;> simp [mem_besideCommit]

/-- What every unit takes over at the commit, from the image before it (R60 step 2). -/
def takenOver (old : Image) (first : Bool) (points : FMap (Nat × Nat)) (k : Change) (n : Nat) (c : Chip) : Chip :=
  injAtCommit old n (powerAtCommit n (timingAtCommit old first n (tracesAtCommit points old (linesAtCommit old n (defectsAtCommit old n
    (protAtCommit old n (pmAtCommit old n (bindAtCommit (k.kind = 1 || k.repack) k.outMap n (ctxAtCommit old n c)))))))))

theorem takenOver_mask (old : Image) (first : Bool) (points : FMap (Nat × Nat)) (k : Change) (n : Nat) (c : Chip) :
    mask besideCommit (takenOver old first points k n c) = mask besideCommit c := by
  unfold takenOver
  simp [mem_besideCommit]

theorem takenOver_core (old : Image) (first : Bool) (points : FMap (Nat × Nat)) (k : Change) (n : Nat) (c : Chip) :
    core (takenOver old first points k n c) = core c := by
  unfold takenOver
  exact core_of_blank (by simp)

section
variable {n : Nat} {cl c : Chip} {k : Change} {im : Image} {pl : Placement} (hc : pmBefore n cl = c) (hk : c.cm.change = some k) (hi : k.image = some im) (hp : k.place = some pl)
include hc hk hi hp

theorem commitNow_eq : commitNow n cl = mirrorCheck (imgFinal 0 (takenOver (theImage c) c.img.image.isNone c.pm.points k n (committed n k im pl c))) := by
  unfold commitNow
  dsimp only
  rw [hc, hk]
  dsimp only
  rw [hi, hp]
  rfl

/-- The commit leaves image, commit state and core as the switch and the part's state leave them, and gives the final result. -/
theorem commitNow_made : core (commitNow n cl) = core (committed n k im pl c) ∧ (commitNow n cl).img = (switched n k im pl c).img ∧
    (commitNow n cl).cm = (switched n k im pl c).cm ∧ ∃ z : Chip, z.mb = c.mb ∧ (commitNow n cl).mb = (imgFinal 0 z).mb := by
  have hx := committed_mask n k im pl c
  have hmir : ∀ y : Chip, mask [.pair] (mirrorCheck y) = mask [.pair] y := fun y => by simp
  rw [commitNow_eq hc hk hi hp]
  generalize committed n k im pl c = x at hx
  have hzx := (takenOver_mask (theImage c) c.img.image.isNone c.pm.points k n x).trans hx
  have hcore := takenOver_core (theImage c) c.img.image.isNone c.pm.points k n x
  generalize takenOver (theImage c) c.img.image.isNone c.pm.points k n x = z at hzx hcore
  refine ⟨(core_of_blank (by simp)).trans hcore, ?_, ?_, z, (mb_of_mask hzx (by decide)).trans (by rfl), mb_of_mask (hmir _) (by decide)⟩
  · rw [img_of_mask (hmir _) (by decide), imgFinal_img, img_of_mask hzx (by decide)]
  · rw [cm_of_mask (hmir _) (by decide), imgFinal_cm, cm_of_mask hzx (by decide)]

end

/-- A first image of a part without a twin comes into RUNNING with its standing tablet (R31). -/
theorem firstState_alone {n : Nat} {c : Chip} (h : paired c = false) : (core (firstState n c)).state = .running ∧ (core (firstState n c)).holder = true := by
  unfold firstState
  dsimp only
  rw [h, if_pos (by decide), core_setDev]
  exact ⟨rfl, rfl⟩

theorem committed_tick (n : Nat) (k : Change) (im : Image) (pl : Placement) (c : Chip) : (core (committed n k im pl c)).tick = c.dev.tick := by
  unfold committed
  split
  · rcases firstState_core n (switched n k im pl c) with ⟨b, h⟩ | h
    · rw [h]; rfl
    · rw [h]; rfl
  · obtain ⟨b, h⟩ := pairAtCommit_core (paired c) n (switched n k im pl c)
    rw [h]; rfl

/-- What a commit leaves of the image, the commit state, the part's state and the final result (R33, R56, R60). -/
def CommitDone (s : State) (im : Image) (pl : Placement) (r : Nat) (c : Chip) : Prop :=
  c.img = { image := some im, place := pl, shadow := s.c.img.place } ∧ c.cm = { s.c.cm with activeBank := !s.c.cm.activeBank, lastResult := r, cTick := s.c.dev.tick, lastC := some s.c.dev.tick, change := none, named := none, releaseDue := true, rebuildDue := false, copied := false, newFed := newFeeds (theImage s.c) im } ∧
    c.dev.tick = s.c.dev.tick ∧ (s.c.img.image = none → (im.getRec 5 0x10000).isSome = false → c.dev.state = .running ∧ c.pair.holder = true) ∧
    (s.c.mb.finalImg.pending = true → c.mb.finalImg.done = true ∧ c.mb.finalImg.pending = false ∧ c.mb.finalImg.reason = 0)

theorem commitNow_done {s : State} {k : Change} {im : Image} {pl : Placement} (hk : s.c.cm.change = some k) (hi : k.image = some im) (hpl : k.place = some pl) :
    CommitDone s im pl (if k.deferred then 3 else 1) (commitNow (now s.c) s.c) := by
  have hpm : mask [.dev, .nq, .notice, .dfx, .pm, .dep] (pmBefore (now s.c) s.c) = mask [.dev, .nq, .notice, .dfx, .pm, .dep] s.c := by simp
  have hpcm := cm_of_mask hpm (by decide)
  have hpimg := img_of_mask hpm (by decide)
  have hpmb := mb_of_mask hpm (by decide)
  have hpcore : core (pmBefore (now s.c) s.c) = core s.c := core_of_blank (by simp)
  obtain ⟨hcore, himg, hcm, z, hz, hmb⟩ := commitNow_made (n := now s.c) (cl := s.c) (im := im) (pl := pl) rfl (by rw [hpcm]; exact hk) hi hpl
  have htick := committed_tick (now s.c) k im pl (pmBefore (now s.c) s.c)
  generalize hb : pmBefore (now s.c) s.c = b at *
  refine ⟨?_, ?_, ?_, fun hnone hpair => ?_, fun hpend => ?_⟩
  · rw [himg]
    exact congrArg (fun i : ImageSt => ({ image := some im, place := pl, shadow := i.place } : ImageSt)) hpimg
  · have hf : theImage b = theImage s.c := by
      unfold theImage
      rw [hpimg]
    rw [hcm]
    show ({ b.cm with activeBank := _, lastResult := _, cTick := _, lastC := _, change := _, named := _, releaseDue := _, rebuildDue := _, copied := _, newFed := newFeeds (theImage b) im } : CommitSt) = _
    rw [hpcm, hf]
    rfl
  · have h1 := congrArg Core.tick hcore
    have h2 := congrArg Core.tick hpcore
    exact (h1.trans htick).trans h2
  · have h1 : core (committed (now s.c) k im pl b) = core (firstState (now s.c) (switched (now s.c) k im pl b)) := by
      unfold committed
      rw [hpimg, hnone]
      rfl
    obtain ⟨hst, hh⟩ := firstState_alone (n := now s.c) (c := switched (now s.c) k im pl b) hpair
    exact ⟨(congrArg Core.state (hcore.trans h1)).trans hst, (congrArg Core.holder (hcore.trans h1)).trans hh⟩
  · rw [hmb, imgFinal_mb, hz, hpmb, if_pos hpend]
    exact ⟨rfl, rfl, rfl⟩

/-! ### Faults found while groups wake -/

theorem bitAt_eq_testBit {w : Nat} (x : BitVec w) (k : Nat) : bitAt x k = x.toNat.testBit k := by
  rw [Nat.testBit_eq_decide_div_mod_eq, bitAt, Nat.shiftRight_eq_div_pow]
  rfl

theorem bitAt_or_one_shift (x : BitVec 16) {k : Nat} (h : k < 16) : bitAt (x ||| BitVec.ofNat 16 (1 <<< k)) k = true := by
  have hk : (1 <<< k % 2 ^ 16).testBit k = true := by
    rw [Nat.testBit_mod_two_pow, Nat.shiftLeft_eq, Nat.one_mul, Nat.testBit_two_pow_self]
    simp [h]
  rw [bitAt_eq_testBit, BitVec.toNat_or, BitVec.toNat_ofNat, Nat.testBit_or, hk, Bool.or_true]

/-- An engine out (R105, R518): its role, its island's map and bindings. -/
theorem engineOut_out (e : Nat) (c : Chip) : (getEng (engineOut e c) e).role = roleOut ∧ bitAt (getIsl (engineOut e c) (e / 16)).engOut (e % 16) = true ∧
    ∀ l, (l, e) ∉ (getIsl (engineOut e c) (e / 16)).bind := by
  unfold engineOut
  dsimp only
  rw [updIsl_getEng, updEng_get, updIsl_get]
  refine ⟨rfl, bitAt_or_one_shift _ (Nat.mod_lt _ (by decide)), fun l hl => ?_⟩
  exact absurd rfl (of_decide_eq_true (List.mem_filter.1 hl).2)

theorem addFaults_one {e : Nat} (c : Chip) (h : e < 1024) : addFaults [e] [] c = engineOut e c := if_pos h

theorem spoiled_one (e : Nat) : spoiled [e] [] = [e / 16] := rfl

section
variable {c : Chip} {k : Change} {e : Nat} (hk : c.cm.change = some k) (h1 : k.kind ≠ 1)
include hk h1

theorem wakeFault_waking (he : e < 1024) (hw : (getGroup c (e / 16)).waking ≠ none) :
    wakeFault [e] [] c = updGroup (e / 16) (fun x => { x with faulty := true }) (engineOut e c) := by
  have hs : (getGroup c (e / 16)).waking.isSome = true := Option.isSome_iff_ne_none.2 hw
  unfold wakeFault
  rw [hk]
  dsimp only
  have hg : [e / 16].filter (fun g => (getGroup c g).waking.isSome) = [e / 16] := List.filter_cons_of_pos (l := []) hs
  have he' : [e].filter (fun e => (getGroup c (e / 16)).waking.isSome) = [e] := List.filter_cons_of_pos (l := []) hs
  rw [if_neg h1, spoiled_one, hg, he']
  show updGroup (e / 16) (fun x => { x with faulty := true }) (addFaults [e] [] c) = _
  rw [addFaults_one c he]

theorem wakeFault_idle (hw : (getGroup c (e / 16)).waking = none) : wakeFault [e] [] c = c := by
  have hs : ¬(getGroup c (e / 16)).waking.isSome = true := by simp [hw]
  unfold wakeFault
  rw [hk]
  dsimp only
  have hg : [e / 16].filter (fun g => (getGroup c g).waking.isSome) = [] := List.filter_cons_of_neg (l := []) hs
  have he' : [e].filter (fun e => (getGroup c (e / 16)).waking.isSome) = [] := List.filter_cons_of_neg (l := []) hs
  rw [if_neg h1, spoiled_one, hg, he']
  rfl

end

/-- A first image that no longer fits is refused (R33). -/
theorem wakeFault_first {c : Chip} {k : Change} {e : Nat} {im : Image} {f : ImgFail} {q : Option Placement} (hk : c.cm.change = some k) (h1 : k.kind = 1)
    (hs : c.dev.state = .starting) (hb : c.dev.sbDown = false) (hi : k.image = some im) (hf : feasible (placeIn im k (addFaults [e] [] c)) = (some f, q)) :
    wakeFault [e] [] c = refuse (commitFail 0x0506) (addFaults [e] [] c) := by
  have hmask : mask [.eng, .isl] (addFaults [e] [] c) = mask [.eng, .isl] c := by simp
  have hk' : (addFaults [e] [] c).cm.change = some k := by rw [cm_of_mask hmask (by decide)]; exact hk
  have hdev : (addFaults [e] [] c).dev = c.dev := dev_of_mask hmask (by decide)
  unfold wakeFault
  rw [hk]
  dsimp only
  rw [if_pos h1, if_pos hs]
  unfold replaceFirst
  rw [hk']
  dsimp only
  rw [hdev, if_neg (by simp [h1, hs]), if_neg (by simp [hb]), hi]
  dsimp only
  rw [hf]

/-- Settles O59: each step of a change as the commit state it leaves. -/
theorem commitsFollowTheirTicks : Obligations.CommitsFollowTheirTicks := by
  unfold Obligations.CommitsFollowTheirTicks
  refine ⟨fun s k im pl hk hi hs hint h1 hj => ?_, fun s k im pl hk hi hs hint h1 hn hj => ?_, fun s k f hk hi hs hf => ?_, fun s k C hk hn ht hC h1 hp hg hr => ?_,
    fun s k C hk hn ht hC h1 hst hp hg hr => ?_, fun s k C hk hn ht hC h1 hno => ?_, fun s k T hk ht hsh hT hlt => ?_, fun s k o p v hk ht hcop hmv hv => ?_,
    fun s k T im pl p hp hk ht hT hd hi hpl => ?_, fun s C hC hrel hT => ?_, fun s C hC hreb hT => ?_, fun s k e hk h1 he hw => ?_, fun s k e hk h1 he hw => ?_,
    fun s k im f q e hk h1 hst hsb hi hf he => ?_⟩
  · have e : validate s.c = placedChip k im pl (imgFailClear s.c) := (validate_placed hk hi hs hint hj).trans ((placeStored_eq _ _ _ _).trans (if_neg h1))
    refine does_onChip validate rfl (by rw [e]; simp) ?_
    rw [e]
    exact ⟨rfl, rfl, rfl, rfl, rfl, ⟨_, rfl⟩, rfl, rfl⟩
  · have hwake : mask [.line, .power] (startingWakes (now (imgFailClear s.c)) (setDev .starting (placedChip k im pl (imgFailClear s.c)))) =
        mask [.line, .power] (setDev .starting (placedChip k im pl (imgFailClear s.c))) := by simp
    have hnamed : (startingWakes (now (imgFailClear s.c)) (setDev .starting (placedChip k im pl (imgFailClear s.c)))).cm.named = none := by
      rw [cm_of_mask hwake (by decide), setDev_cm]
      exact hn
    have e := (validate_placed hk hi hs hint hj).trans ((placeStored_eq _ _ _ _).trans ((if_pos h1).trans (lateDeadline_unnamed hnamed)))
    refine does_onChip validate rfl (by rw [e]; simp) ?_
    rw [e, dev_of_mask hwake (by decide), img_of_mask hwake (by decide), cm_of_mask hwake (by decide), setDev_dev, setDev_img, setDev_cm]
    exact ⟨rfl, rfl, _, rfl⟩
  · rcases hf with hf | ⟨hint, hj⟩
    · have e := validate_unsound hk hi hs hf
      obtain ⟨hcm, himg, hdev, hmb⟩ := refuse_leaves (f := f) hk
      refine does_onChip validate rfl (by rw [e]; simp) ?_
      rw [e, hcm, himg, hdev, hmb]
      exact ⟨rfl, rfl, rfl, rfl, rfl, rfl, rfl, rfl, rfl, rfl, rfl⟩
    · have e := validate_refused hk hi hs hint hj
      obtain ⟨hcm, himg, hdev, hmb⟩ := refuse_leaves (f := f) (c := imgFailClear s.c) hk
      refine does_onChip validate rfl (by rw [e]; simp [imgFailClear]) ?_
      rw [e, hcm, himg, hdev, hmb]
      exact ⟨rfl, rfl, rfl, rfl, rfl, rfl, rfl, rfl, rfl, rfl, rfl⟩
  · have e : lateDeadline (now s.c) s.c = freeze k C false s.c := (lateDeadline_other hk hn ht hC h1).trans (if_pos (by simp [hp, hg, hr]))
    exact does_onChip (fun c => lateDeadline (now c) c) rfl (by rw [e]; simp [freeze]) (by rw [e]; rfl)
  · have e : lateDeadline (now s.c) s.c = freeze k (now s.c + 8) true s.c := lateDeadline_first hk hn ht hC h1 hst hp hg hr
    exact does_onChip (fun c => lateDeadline (now c) c) rfl (by rw [e]; simp [freeze]) (by rw [e]; rfl)
  · have e : lateDeadline (now s.c) s.c = refuse (commitFail 0x0504) s.c := (lateDeadline_other hk hn ht hC h1).trans (if_neg (by rw [hno]; decide))
    have e2 : refuse (commitFail 0x0504) s.c = imgFinal 0x0504 (refusedChip (commitFail 0x0504) k s.c) := by
      rw [refuse_eq hk, decide_eq_false h1, when_false]
      rfl
    refine does_onChip (fun c => lateDeadline (now c) c) rfl (by rw [e, e2]; simp [refusedChip]) ?_
    rw [e, e2, imgFinal_cm, imgFinal_img]
    exact ⟨rfl, rfl, rfl, rfl, rfl, fun hp => if_pos hp⟩
  · have hscrub : scrubbing (now s.c) s.c = true := by
      unfold scrubbing
      rw [hk]
      simp [ht, hsh, now, hT, hlt]
    obtain ⟨hcm, himg, hdev, -⟩ := refuse_leaves (f := commitFail 0x0505) hk
    refine does_guard (b := fun c => scrubbing (now c) c) (f := fun _ => refuse (commitFail 0x0505)) rfl hscrub (by simp) ?_
    rw [hcm, himg, hdev]
    exact ⟨rfl, rfl, rfl, rfl, rfl, apply_ite DevSt.state _ _ _⟩
  · have e : contextCopy s.c = setCm { s.c.cm with copied := true } (copySlot o p s.c) := by
      unfold contextCopy
      rw [hk]
      dsimp only
      rw [ht]
      dsimp only
      rw [if_pos (by simp [now, hcop]), hmv]
      rfl
    refine does_onChip contextCopy rfl (by rw [e]; simp) ?_
    rw [e]
    refine ⟨rfl, ?_⟩
    show (getDepot (copySlot o p s.c) p.island).slots.lookup (memKey 1 p.ctx) = some v
    unfold copySlot
    dsimp only
    rw [updDepot_get, hv]
    exact lookup_tput_same _ _ _
  · have hdue : commitDue (now s.c) s.c = true := by
      unfold commitDue
      rw [hk]
      simp [ht, now, hT]
    have hlate : commitLate s.c = p.2.1 := by
      unfold commitLate
      rw [hk]
      exact hd
    simp only [List.mem_cons, List.not_mem_nil, or_false] at hp
    have hr : (if k.deferred then 3 else 1) = p.2.2 := by
      rw [hd]
      rcases hp with rfl | rfl <;> rfl
    have hnew : commitStep p.2.1 (now s.c) s.c = commitNow (now s.c) s.c := if_pos (by simp [hdue, hlate])
    have hP : CommitDone s im pl p.2.2 (commitNow (now s.c) s.c) := by
      rw [← hr]
      exact commitNow_done hk hi hpl
    rcases hp with rfl | rfl
    · exact does_onChip (fun c => commitStep false (now c) c) rfl (by rw [hnew]; simp) (by rw [hnew]; exact hP)
    · exact does_onChip (fun c => commitStep true (now c) c) rfl (by rw [hnew]; simp) (by rw [hnew]; exact hP)
  · have e : oldRelease (now s.c) s.c = ctxRelease (patrolRelease (pmRelease (setCm { s.c.cm with shadowReady := false, releaseDue := false, rebuildDue := true } s.c))) := by
      unfold oldRelease
      rw [hC]
      exact if_pos (by simp [hrel, now, hT])
    refine does_onChip (fun c => oldRelease (now c) c) rfl (by rw [e]; simp) ?_
    rw [e, cm_of_mask (l := [.pm, .dep]) (b := setCm { s.c.cm with shadowReady := false, releaseDue := false, rebuildDue := true } s.c) (by simp) (by decide)]
    rfl
  · have e : rebuildDone (now s.c) s.c = setCm { s.c.cm with rebuildDue := false, pending := false, digest := placeDigest s.c.img.place } { s.c with img := { s.c.img with shadow := s.c.img.place }, jct := shadowRewritten s.c } := by
      unfold rebuildDone
      rw [hC]
      exact if_pos (by simp [hreb, now, hT])
    exact does_onChip (fun c => rebuildDone (now c) c) rfl (by rw [e]; simp) (by rw [e]; exact ⟨rfl, rfl⟩)
  · have heq := wakeFault_waking hk h1 he hw
    obtain ⟨hrole, hbit, hbind⟩ := engineOut_out e s.c
    refine does_onChip (wakeFault [e] []) rfl (by rw [heq]; simp) ?_
    rw [heq]
    exact ⟨hrole, hbit, hbind, by rw [updGroup_get]⟩
  · show Host.Outcome.next _ = _
    exact congrArg (fun c => Host.Outcome.next { s with c := c }) (wakeFault_idle hk h1 hw)
  · have heq := wakeFault_first hk h1 hst hsb hi hf
    have hmask : mask [.eng, .isl] (addFaults [e] [] s.c) = mask [.eng, .isl] s.c := by simp
    obtain ⟨hcm, -, hdev, -⟩ := refuse_leaves (f := commitFail 0x0506) (c := addFaults [e] [] s.c) (k := k) (by rw [cm_of_mask hmask (by decide)]; exact hk)
    have hisl : (refuse (commitFail 0x0506) (addFaults [e] [] s.c)).isl = (addFaults [e] [] s.c).isl :=
      isl_of_mask (l := [.dev, .mb, .int, .host, .img, .cm, .jct]) (by simp) (by decide)
    refine does_onChip (wakeFault [e] []) rfl (by rw [heq]; simp) ?_
    rw [heq, hcm, hdev, if_pos h1]
    refine ⟨rfl, rfl, rfl, ?_⟩
    unfold getIsl
    rw [hisl, addFaults_one s.c he]
    exact (engineOut_out e s.c).2.1

end Sys2Proof.Machine
end

section
/-!
PROOFS. Injection slots armed, started, stopped and cut; what an injection does at its point leaves the slots (O60; R481 to R488).
-/
namespace Sys2Proof.Machine
open Sys2Proof

/-! ### The slots under a notice, a failure and a root -/

theorem notify_inj (n : Notice) (c : Chip) : (notify n c).dep.inj = c.dep.inj := by
  obtain ⟨t, h⟩ := notify_dep n c
  rw [h]

theorem notifyClass_inj (k : Nat) (n : Notice) (c : Chip) : (notifyClass k n c).dep.inj = c.dep.inj := by
  unfold notifyClass
  dsimp only
  split
  · exact notify_inj _ c
  · rfl

theorem rootNotify_inj (r : Root) (n : Notice) (c : Chip) : (rootNotify r n c).dep.inj = c.dep.inj := by
  unfold rootNotify
  split
  · exact notify_inj n c
  · exact notifyClass_inj _ n c

/-- A failure or a root that opens leaves the depot state. -/
theorem openRoot_subsume_dep (r : Root) (c : Chip) : (openRoot r (subsume r c)).dep = c.dep :=
  dep_of_mask (l := [.notice, .dfx]) (by simp) (by decide)

theorem joinBurst_dep (k n : Nat) (c : Chip) : (joinBurst k n c).dep = c.dep := dep_of_mask (l := [.notice, .dfx]) (by simp) (by decide)

theorem openFail_inj (k n : Nat) (c : Chip) : (openFail k n c).dep.inj = c.dep.inj := by
  unfold openFail
  dsimp only
  split
  · split
    · rw [joinBurst_dep]
    · rfl
  · split
    · rw [rootNotify_inj, openRoot_subsume_dep]
      rfl
    · split
      · rw [joinBurst_dep]
      · rw [notifyClass_inj]
        rfl

theorem releaseHeld_inj (n : Nat) (c : Chip) : (releaseHeld n c).dep.inj = c.dep.inj := by
  refine forEach_keeps (fun b => b.dep.inj) (fun e b => ?_) _ c
  split
  · rw [openFail_inj]
    rfl
  · rfl

theorem rewriting_inj {f : Chip → Chip} {c : Chip} (h : (f c).dep.inj = c.dep.inj) : (rewriting f c).dep.inj = c.dep.inj := by
  unfold rewriting
  dsimp only
  split
  · exact h
  · exact h

theorem causewayRoot_inj (q n : Nat) (b : Bool) (c : Chip) : (causewayRoot q n b c).dep.inj = c.dep.inj := by
  unfold causewayRoot
  dsimp only
  split
  · exact notify_inj _ c
  · split
    · exact (rewriting_inj (congrArg DepSt.inj (openRoot_subsume_dep _ _))).trans (notify_inj _ c)
    · split
      · exact notify_inj _ c
      · refine (rewriting_inj ?_).trans (notify_inj _ c)
        rw [releaseHeld_inj]
        rfl

theorem cwyFail_inj (q n : Nat) (c : Chip) : (cwyFail q n c).dep.inj = c.dep.inj := by
  unfold cwyFail
  rw [dep_of_mask (l := [.ctx]) (cwyReplace_mask (by decide) q _) (by decide), causewayRoot_inj]
  rfl

theorem cwyRestore_inj (q n : Nat) (c : Chip) : (cwyRestore q n c).dep.inj = c.dep.inj := by
  unfold cwyRestore
  rw [causewayRoot_inj]
  rfl

/-! ### An injection at its point -/

theorem hunting_swapLanes_dep (b : Bool) (i k : Nat) (c : Chip) : (when b (unitsToHunt i) (swapLanes i k c)).dep = c.dep :=
  dep_of_mask (l := [.ctx, .line, .dfx]) (by simp) (by decide)

theorem hunting_shiftSkew_dep (b : Bool) (i : Nat) (d : Int) (c : Chip) : (when b (unitsToHunt i) (shiftSkew i d c)).dep = c.dep :=
  dep_of_mask (l := [.ctx, .line, .dfx]) (by simp) (by decide)

/-- What an injection does as it starts leaves every slot as it was. -/
theorem injBegin_inj (x : InjSlot) (n : Nat) (c : Chip) : (injBegin x n c).dep.inj = c.dep.inj := by
  unfold injBegin
  dsimp only
  split
  · exact congrArg DepSt.inj (dep_of_mask (l := [.ctx, .line, .dfx]) (by simp) (by decide))
  · exact congrArg DepSt.inj (dep_of_mask (l := [.ctx, .line, .dfx]) (by simp) (by decide))
  · split
    · rw [hunting_swapLanes_dep]
    · rw [hunting_shiftSkew_dep]
  · split
    · exact cwyFail_inj _ n c
    · rfl
  · rfl

/-- Only slot k may differ, and in the messages it holds alone. -/
def HeldAlone (k : Nat) (a b : Chip) : Prop := (∃ l, getInj b k = { getInj a k with late := l }) ∧ ∀ j, j ≠ k → getInj b j = getInj a j

theorem getInj_congr {a b : Chip} (h : b.dep.inj = a.dep.inj) (j : Nat) : getInj b j = getInj a j := congrArg (fun m => tget injDflt m j) h

theorem heldAlone_of_inj {k : Nat} {a b : Chip} (h : b.dep.inj = a.dep.inj) : HeldAlone k a b :=
  ⟨⟨_, getInj_congr h k⟩, fun j _ => getInj_congr h j⟩

theorem flushLate_heldAlone (k : Nat) (c : Chip) : HeldAlone k c (flushLate k c) := by
  have h : (flushLate k c).dep.inj = (updInj k (fun x => { x with late := [] }) c).dep.inj :=
    forEach_keeps (fun b => b.dep.inj) (f := fun m : Nat × Nat × List Nat => emit (.hokua m.1 m.2.2)) (fun m b => rfl) _ _
  exact ⟨⟨[], by rw [getInj_congr h, updInj_get]⟩, fun j hj => by rw [getInj_congr h, updInj_get_other _ _ hj]⟩

/-- What stops with an injection leaves every slot, but for the messages its own held. -/
theorem injFinish_heldAlone (k n : Nat) (c : Chip) : HeldAlone k c (injFinish k n c) := by
  unfold injFinish
  dsimp only
  split
  · split
    · exact heldAlone_of_inj (congrArg DepSt.inj (hunting_swapLanes_dep _ _ _ c))
    · exact heldAlone_of_inj (congrArg DepSt.inj (hunting_shiftSkew_dep _ _ _ c))
  · exact flushLate_heldAlone k c
  · split
    · exact heldAlone_of_inj (cwyRestore_inj _ n c)
    · exact heldAlone_of_inj rfl
  · exact heldAlone_of_inj rfl

/-! ### Slots cut -/

theorem injCut_other {k j : Nat} (n : Nat) (c : Chip) (h : j ≠ k) : getInj (injCut k n c) j = getInj c j := by
  unfold injCut
  dsimp only
  split
  · rw [updInj_get_other _ _ h, (injFinish_heldAlone k n c).2 j h]
  · split
    · exact updInj_get_other _ _ h
    · rfl

/-- The slot of k neither waits nor runs, and bears that it was cut where it did. -/
def SlotStopped (k : Nat) (was : InjSlot) (c : Chip) : Prop :=
  (getInj c k).armed = false ∧ (getInj c k).running = false ∧ (was.armed = true ∨ was.running = true → (getInj c k).cut = true)

theorem injCut_stops (k n : Nat) (c : Chip) : SlotStopped k (getInj c k) (injCut k n c) := by
  unfold injCut SlotStopped
  dsimp only
  by_cases hr : (getInj c k).running = true
  · rw [if_pos hr, updInj_get]
    exact ⟨rfl, rfl, fun _ => rfl⟩
  · by_cases ha : (getInj c k).armed = true
    · rw [if_neg hr, if_pos ha, updInj_get]
      exact ⟨rfl, Bool.eq_false_iff.2 hr, fun _ => rfl⟩
    · rw [if_neg hr, if_neg ha]
      exact ⟨Bool.eq_false_iff.2 ha, Bool.eq_false_iff.2 hr, fun h => absurd h (not_or.2 ⟨ha, hr⟩)⟩

theorem injCut_stopped {k : Nat} {was : InjSlot} (j n : Nat) {c : Chip} (h : SlotStopped k was c) : SlotStopped k was (injCut j n c) := by
  obtain ⟨ha, hr, hc⟩ := h
  have e : getInj (injCut j n c) k = getInj c k := by
    by_cases hj : k = j
    · rw [← hj]
      unfold injCut
      rw [if_neg (by rw [hr]; decide), if_neg (by rw [ha]; decide)]
    · exact injCut_other n c hj
  unfold SlotStopped
  rw [e]
  exact ⟨ha, hr, hc⟩

/-- A slot that holds nothing reads at reset. -/
theorem getInj_absent {c : Chip} {k : Nat} (h : k ∉ tkeys c.dep.inj) : getInj c k = injDflt := by
  unfold getInj
  rw [tget_eq_lookup]
  cases hl : c.dep.inj.lookup k with
  | none => rfl
  | some r => exact absurd (mem_tkeys _ _ _ hl) h

theorem cutAll_stops (k n : Nat) (c : Chip) : SlotStopped k (getInj c k) (forEach (tkeys c.dep.inj) (fun k => injCut k n) c) := by
  by_cases h : k ∈ tkeys c.dep.inj
  · exact forEach_reaches (Q := fun b => getInj b k = getInj c k) (R := SlotStopped k (getInj c k)) (f := fun k => injCut k n)
      (fun j b hj hb => (injCut_other n b (Ne.symm hj)).trans hb) (fun b hb => hb ▸ injCut_stops k n b) (fun j b hb => injCut_stopped j n hb) h rfl
  · refine forEach_ind (Q := SlotStopped k (getInj c k)) (fun j b hb => injCut_stopped j n hb) _ _ ?_
    unfold SlotStopped
    rw [getInj_absent h]
    decide

/-! ### Slots armed, started and ended -/

/-- A slot armed for tick t (R485). -/
def armedAt (t : Nat) (x : InjSlot) : InjSlot :=
  { x with armed := true, events := 0, seen := 0, startLo := BitVec.ofNat 32 t, startHi := BitVec.ofNat 32 (t / 4294967296) }

/-- Arming keeps what the host wrote and a slot that does not run; its events start at nothing. -/
theorem armedAt_fields (t : Nat) (x : InjSlot) : (armedAt t x).armed = true ∧ (armedAt t x).running = x.running ∧ (armedAt t x).events = 0 ∧ (armedAt t x).target = x.target :=
  ⟨rfl, rfl, rfl, rfl⟩

theorem injStartTick_armedAt {t : Nat} (x : InjSlot) (h : t < 18446744073709551616) : injStartTick (armedAt t x) = t := by
  show (BitVec.ofNat 32 (t / 4294967296)).toNat * 4294967296 + (BitVec.ofNat 32 t).toNat = t
  rw [BitVec.toNat_ofNat, BitVec.toNat_ofNat]
  omega

theorem injArm_idle {k : Nat} {c : Chip} (he : c.dep.injEn = true) (hk : injKind (getInj c k) ≠ 0) (ha : (getInj c k).armed = false) (hr : (getInj c k).running = false) :
    injArm k c = updInj k (armedAt (max (injStartTick (getInj c k)) (c.dev.tick + 1))) c := by
  unfold injArm
  dsimp only
  rw [if_neg (by simp [he, hk, ha, hr])]
  rfl

theorem injArm_ignored {k : Nat} {c : Chip} (h : c.dep.injEn = false ∨ injKind (getInj c k) = 0) : injArm k c = c := by
  unfold injArm
  dsimp only
  rw [if_pos (by rcases h with h | h <;> simp [h])]

theorem execInjectionArm_taken {s : State} {k : Nat} (hs : awake s.c = true) (hk : k < 16) (h : injArmOk s.c (getInj s.c k) = true) :
    exec (.injectionArm k) s = .next (onChip (injArm k) s) := by
  show execInjectionArm k s = _
  unfold execInjectionArm
  dsimp only
  rw [if_pos (by simp [hs, hk]), if_pos h]

theorem injStart_due {k n : Nat} {c : Chip} (ha : (getInj c k).armed = true) (hn : injStartTick (getInj c k) ≤ n) :
    injStart k n c = injBegin (getInj c k) n (updInj k (fun x => { x with armed := false, running := true }) c) := by
  unfold injStart
  dsimp only
  rw [if_pos (by simp [ha, hn])]

theorem injEnd_due {k n : Nat} {c : Chip} (hr : (getInj c k).running = true) (hn : injStartTick (getInj c k) + injTicks (getInj c k) ≤ n) :
    injEnd k n c = updInj k (fun x => { x with running := false, done := true }) (injFinish k n c) := by
  unfold injEnd
  dsimp only
  rw [if_pos (by simp [hr, hn])]

theorem exec_injectEnWrite {s : State} (v : Word) (hs : s.c.dev.state ≠ .cold) :
    exec (.injectEnWrite v) s = if bits v 16 15 = 0 then .next (onChip (injCtrl v) s) else misuse 0 0xC000 := by
  show execInjectEnWrite v s = _
  unfold execInjectEnWrite
  rw [if_pos (awake_of hs)]

/-- Settles O60: each write and boundary as the slots it leaves. -/
theorem injectionsRun : Obligations.InjectionsRun := by
  unfold Obligations.InjectionsRun
  refine ⟨fun s v hs hv hb => ?_, fun s v hs hv hb => ?_, fun s v hs hv => ?_, fun s k x hs hk hx he hkind ha hr hok hlane => ?_,
    fun s k x hs hk hx he hkind ha hr hno => ?_, fun s k hk h => ?_, fun s k hs ha hn => ?_, fun s k hs hr hn => ?_⟩
  · have e : injCtrl v s.c = setDep { s.c.dep with injEn := true } s.c := if_pos hb
    exact does_onChip (injCtrl v) ((exec_injectEnWrite v hs).trans (if_pos hv)) (by rw [e]; simp) (by rw [e]; rfl)
  · refine does_onChip (injCtrl v) ((exec_injectEnWrite v hs).trans (if_pos hv)) (by simp) ?_
    have e : injCtrl v s.c = setDep { (forEach (tkeys s.c.dep.inj) (fun k => injCut k (now s.c)) s.c).dep with injEn := false }
        (forEach (tkeys s.c.dep.inj) (fun k => injCut k (now s.c)) s.c) := if_neg (by rw [hb]; decide)
    rw [e]
    exact ⟨rfl, fun k => cutAll_stops k (now s.c) s.c⟩
  · exact (exec_injectEnWrite v hs).trans (if_neg hv)
  · subst hx
    have hdue : injArmOk s.c (getInj s.c k) = true := by simp [injArmOk, hok, hlane]
    have e := injArm_idle he hkind ha hr
    refine does_onChip (injArm k) (execInjectionArm_taken (awake_of hs) hk hdue) (by rw [e]; simp) ?_
    rw [e, updInj_get]
    obtain ⟨harmed, hrun, hev, htgt⟩ := armedAt_fields (max (injStartTick (getInj s.c k)) (s.c.dev.tick + 1)) (getInj s.c k)
    exact ⟨harmed, hrun.trans hr, hev, htgt, fun h1 h2 => injStartTick_armedAt _ (Nat.max_lt.2 ⟨h1, h2⟩), fun j hj => updInj_get_other _ _ hj⟩
  · subst hx
    have hbad : ¬injArmOk s.c (getInj s.c k) = true := by
      unfold injArmOk
      rw [hno, he, ha, hr]
      simp [hkind]
    show execInjectionArm k s = _
    unfold execInjectionArm
    dsimp only
    rw [if_pos (by simp [awake_of hs, hk]), if_neg hbad]
    rfl
  · by_cases hs : s.c.dev.state = .cold
    · have hx : exec (.injectionArm k) s = .next (onChip id s) := by
        show execInjectionArm k s = _
        unfold execInjectionArm
        dsimp only
        rw [if_neg (by simp [awake, hs])]
        rfl
      exact does_onChip id hx rfl rfl
    · have hok : injArmOk s.c (getInj s.c k) = true := by
        unfold injArmOk
        rcases h with h | h <;> simp [h]
      have e := injArm_ignored h
      exact does_onChip (injArm k) (execInjectionArm_taken (awake_of hs) hk hok) (by rw [e]) (by rw [e])
  · have e := injStart_due ha hn
    refine does_guard (b := awake) (f := fun c => injStart k (now c)) rfl (awake_of hs) (by simp) ?_
    rw [show now s.c = s.c.dev.tick from rfl, e]
    refine ⟨by rw [getInj_congr (injBegin_inj _ _ _), updInj_get], fun j hj => ?_⟩
    rw [getInj_congr (injBegin_inj _ _ _), updInj_get_other _ _ hj]
  · have e := injEnd_due hr hn
    obtain ⟨⟨l, hl⟩, hother⟩ := injFinish_heldAlone k s.c.dev.tick s.c
    refine does_guard (b := awake) (f := fun c => injEnd k (now c)) rfl (awake_of hs) (by simp) ?_
    rw [show now s.c = s.c.dev.tick from rfl, e, updInj_get, hl]
    exact ⟨rfl, rfl, rfl, fun j hj => (updInj_get_other _ _ hj).trans (hother j hj)⟩

end Sys2Proof.Machine
end
